-- ==== Sys2Proof/Word.lean ====
section
/-! DEFINITION. Words, lanes and their plainest arithmetic. -/

namespace Sys2Proof

/-- A scalar or mask value (R38). -/
abbrev Word := BitVec 64

/-- One 32-bit lane. -/
abbrev Lane := BitVec 32

/-- The 64 lanes of a vector value, lane 0 first; a lane past the list's end is 0. -/
abbrev Vec := List Lane

/-- Lane `l` of a vector. -/
def Vec.lane (v : Vec) (l : Nat) : Lane := List.getD v l 0

/-- A vector from its lanes. -/
def Vec.tab (f : Nat → Lane) : Vec := (List.range 64).map f

/-- A mask from its bits. -/
def maskTab (f : Nat → Bool) : Word := (List.range 64).foldl (fun m l => if f l then m ||| (1#64 <<< l) else m) 0

/-- Bit `l` of a mask. -/
def Word.bit (m : Word) (l : Nat) : Bool := BitVec.getLsbD m l

/-- The lanes of a mask, ascending. -/
def lanesOf (m : Word) : List Nat := (List.range 64).filter (fun l => Word.bit m l)

/-- How many lanes a mask sets. -/
def popcount (m : Word) : Nat := (lanesOf m).length

/-- Every lane of a mask set. -/
abbrev allLanes : Word := BitVec.allOnes 64

end Sys2Proof
end

