-- ==== Sys2Proof/Syntax.lean ====
section
/-! DEFINITION. The operations and events of the Gorferi G9 as abstract syntax: one constructor per row of the opcode table. -/

namespace Sys2Proof

/-- Operand slots (R81). -/
inductive Slot where
  | a
  | b
  | c
  | p
deriving DecidableEq, Repr, Inhabited

/-- The code of a `Slot` in its field. -/
def Slot.code : Slot → BitVec 2
  | .a => 0
  | .b => 1
  | .c => 2
  | .p => 3

/-- The `Slot` of a field value; none for a code that names nothing. -/
def Slot.ofCode (c : BitVec 2) : Option Slot :=
  match c.toNat with
  | 0 => some .a
  | 1 => some .b
  | 2 => some .c
  | 3 => some .p
  | _ => none

/-- Shapes of a value (R38); the code is the modifier of `mov` and `fan` (Table 4-1). -/
inductive Shape where
  | scalar
  | vector
  | mask
deriving DecidableEq, Repr, Inhabited

/-- The code of a `Shape` in its field. -/
def Shape.code : Shape → BitVec 4
  | .scalar => 0
  | .vector => 1
  | .mask => 2

/-- The `Shape` of a field value; none for a code that names nothing. -/
def Shape.ofCode (c : BitVec 4) : Option Shape :=
  match c.toNat with
  | 0 => some .scalar
  | 1 => some .vector
  | 2 => some .mask
  | _ => none

/-- Predicate modes (Table 3-8); code 3 is invalid. -/
inductive Pred where
  | always
  | onTrue
  | onFalse
deriving DecidableEq, Repr, Inhabited

/-- The code of a `Pred` in its field. -/
def Pred.code : Pred → BitVec 2
  | .always => 0
  | .onTrue => 1
  | .onFalse => 2

/-- The `Pred` of a field value; none for a code that names nothing. -/
def Pred.ofCode (c : BitVec 2) : Option Pred :=
  match c.toNat with
  | 0 => some .always
  | 1 => some .onTrue
  | 2 => some .onFalse
  | _ => none

/-- Signedness modifiers `.i64` and `.n64` (R107). -/
inductive Sgn where
  | i64
  | n64
deriving DecidableEq, Repr, Inhabited

/-- The code of a `Sgn` in its field. -/
def Sgn.code : Sgn → BitVec 4
  | .i64 => 0
  | .n64 => 1

/-- The `Sgn` of a field value; none for a code that names nothing. -/
def Sgn.ofCode (c : BitVec 4) : Option Sgn :=
  match c.toNat with
  | 0 => some .i64
  | 1 => some .n64
  | _ => none

/-- Type codes (Table 3-12). -/
inductive VTy where
  | i32
  | n32
  | f32
  | bf16x2
  | f16x2
  | i16x2
  | n16x2
  | i8x4
  | n8x4
  | e4m3x4
  | e5m2x4
  | b32
deriving DecidableEq, Repr, Inhabited

/-- The code of a `VTy` in its field. -/
def VTy.code : VTy → BitVec 4
  | .i32 => 0
  | .n32 => 1
  | .f32 => 2
  | .bf16x2 => 3
  | .f16x2 => 4
  | .i16x2 => 5
  | .n16x2 => 6
  | .i8x4 => 7
  | .n8x4 => 8
  | .e4m3x4 => 9
  | .e5m2x4 => 10
  | .b32 => 11

/-- The `VTy` of a field value; none for a code that names nothing. -/
def VTy.ofCode (c : BitVec 4) : Option VTy :=
  match c.toNat with
  | 0 => some .i32
  | 1 => some .n32
  | 2 => some .f32
  | 3 => some .bf16x2
  | 4 => some .f16x2
  | 5 => some .i16x2
  | 6 => some .n16x2
  | 7 => some .i8x4
  | 8 => some .n8x4
  | 9 => some .e4m3x4
  | 10 => some .e5m2x4
  | 11 => some .b32
  | _ => none

/-- Conditions of `scmp` (Table 4-4). -/
inductive SCond where
  | eq
  | ne
  | lt
  | le
  | gt
  | ge
  | ltn
  | len
  | gtn
  | gen
deriving DecidableEq, Repr, Inhabited

/-- The code of a `SCond` in its field. -/
def SCond.code : SCond → BitVec 4
  | .eq => 0
  | .ne => 1
  | .lt => 2
  | .le => 3
  | .gt => 4
  | .ge => 5
  | .ltn => 6
  | .len => 7
  | .gtn => 8
  | .gen => 9

/-- The `SCond` of a field value; none for a code that names nothing. -/
def SCond.ofCode (c : BitVec 4) : Option SCond :=
  match c.toNat with
  | 0 => some .eq
  | 1 => some .ne
  | 2 => some .lt
  | 3 => some .le
  | 4 => some .gt
  | 5 => some .ge
  | 6 => some .ltn
  | 7 => some .len
  | 8 => some .gtn
  | 9 => some .gen
  | _ => none

/-- Forms of `vote` (Table 4-6). -/
inductive VoteForm where
  | any
  | all
  | uni
  | ballot
deriving DecidableEq, Repr, Inhabited

/-- The code of a `VoteForm` in its field. -/
def VoteForm.code : VoteForm → BitVec 4
  | .any => 0
  | .all => 1
  | .uni => 2
  | .ballot => 3

/-- The `VoteForm` of a field value; none for a code that names nothing. -/
def VoteForm.ofCode (c : BitVec 4) : Option VoteForm :=
  match c.toNat with
  | 0 => some .any
  | 1 => some .all
  | 2 => some .uni
  | 3 => some .ballot
  | _ => none

/-- Selectors of `sysrd` (Table 4-7). -/
inductive SysSel where
  | laneid
  | warpid
  | teamid
  | gangid
  | regionid
  | gridid
  | shape
  | live
  | tickl
  | tickr
  | feat0
  | feat1
  | feat2
  | feat3
  | refresh
  | strokecfg
  | wst
  | wstclr
  | linklat
  | ctxid
deriving DecidableEq, Repr, Inhabited

/-- The code of a `SysSel` in its field. -/
def SysSel.code : SysSel → BitVec 13
  | .laneid => 0
  | .warpid => 1
  | .teamid => 2
  | .gangid => 3
  | .regionid => 4
  | .gridid => 5
  | .shape => 6
  | .live => 7
  | .tickl => 8
  | .tickr => 9
  | .feat0 => 10
  | .feat1 => 11
  | .feat2 => 12
  | .feat3 => 13
  | .refresh => 14
  | .strokecfg => 15
  | .wst => 16
  | .wstclr => 17
  | .linklat => 18
  | .ctxid => 19

/-- The `SysSel` of a field value; none for a code that names nothing. -/
def SysSel.ofCode (c : BitVec 13) : Option SysSel :=
  match c.toNat with
  | 0 => some .laneid
  | 1 => some .warpid
  | 2 => some .teamid
  | 3 => some .gangid
  | 4 => some .regionid
  | 5 => some .gridid
  | 6 => some .shape
  | 7 => some .live
  | 8 => some .tickl
  | 9 => some .tickr
  | 10 => some .feat0
  | 11 => some .feat1
  | 12 => some .feat2
  | 13 => some .feat3
  | 14 => some .refresh
  | 15 => some .strokecfg
  | 16 => some .wst
  | 17 => some .wstclr
  | 18 => some .linklat
  | 19 => some .ctxid
  | _ => none

/-- Forms of `fmtset` (R119). -/
inductive FmtForm where
  | all
  | seed
  | mode
deriving DecidableEq, Repr, Inhabited

/-- The code of a `FmtForm` in its field. -/
def FmtForm.code : FmtForm → BitVec 4
  | .all => 0
  | .seed => 1
  | .mode => 2

/-- The `FmtForm` of a field value; none for a code that names nothing. -/
def FmtForm.ofCode (c : BitVec 4) : Option FmtForm :=
  match c.toNat with
  | 0 => some .all
  | 1 => some .seed
  | 2 => some .mode
  | _ => none

/-- Scopes (Table 2-1); codes 6 and 7 name none (R24). -/
inductive Scope where
  | warp
  | core
  | quad
  | die
  | pkg
  | dom
deriving DecidableEq, Repr, Inhabited

/-- The code of a `Scope` in its field. -/
def Scope.code : Scope → BitVec 3
  | .warp => 0
  | .core => 1
  | .quad => 2
  | .die => 3
  | .pkg => 4
  | .dom => 5

/-- The `Scope` of a field value; none for a code that names nothing. -/
def Scope.ofCode (c : BitVec 3) : Option Scope :=
  match c.toNat with
  | 0 => some .warp
  | 1 => some .core
  | 2 => some .quad
  | 3 => some .die
  | 4 => some .pkg
  | 5 => some .dom
  | _ => none

/-- Conditions of `vcmp` (Table 14-6). -/
inductive VCond where
  | eq
  | ne
  | lt
  | le
  | gt
  | ge
  | un
deriving DecidableEq, Repr, Inhabited

/-- The code of a `VCond` in its field. -/
def VCond.code : VCond → BitVec 4
  | .eq => 0
  | .ne => 1
  | .lt => 2
  | .le => 3
  | .gt => 4
  | .ge => 5
  | .un => 6

/-- The `VCond` of a field value; none for a code that names nothing. -/
def VCond.ofCode (c : BitVec 4) : Option VCond :=
  match c.toNat with
  | 0 => some .eq
  | 1 => some .ne
  | 2 => some .lt
  | 3 => some .le
  | 4 => some .gt
  | 5 => some .ge
  | 6 => some .un
  | _ => none

/-- Block formats of `vencb` and `vdecb` (R335). -/
inductive BFmt where
  | mxfp4
  | mxfp8e4
  | mxfp8e5
  | bt4
deriving DecidableEq, Repr, Inhabited

/-- The code of a `BFmt` in its field. -/
def BFmt.code : BFmt → BitVec 4
  | .mxfp4 => 5
  | .mxfp8e4 => 6
  | .mxfp8e5 => 7
  | .bt4 => 8

/-- The `BFmt` of a field value; none for a code that names nothing. -/
def BFmt.ofCode (c : BitVec 4) : Option BFmt :=
  match c.toNat with
  | 5 => some .mxfp4
  | 6 => some .mxfp8e4
  | 7 => some .mxfp8e5
  | 8 => some .bt4
  | _ => none

/-- BT4 types (Table 2-3, B4T). -/
inductive BtType where
  | int4
  | e2m1
  | log4
  | hyb4
deriving DecidableEq, Repr, Inhabited

/-- The code of a `BtType` in its field. -/
def BtType.code : BtType → BitVec 2
  | .int4 => 0
  | .e2m1 => 1
  | .log4 => 2
  | .hyb4 => 3

/-- The `BtType` of a field value; none for a code that names nothing. -/
def BtType.ofCode (c : BitVec 2) : Option BtType :=
  match c.toNat with
  | 0 => some .int4
  | 1 => some .e2m1
  | 2 => some .log4
  | 3 => some .hyb4
  | _ => none

/-- Operations of `vred` and `vscan` (R341). -/
inductive RedOp where
  | add
  | min
  | max
  | and
  | or
  | xor
deriving DecidableEq, Repr, Inhabited

/-- The code of a `RedOp` in its field. -/
def RedOp.code : RedOp → BitVec 3
  | .add => 0
  | .min => 1
  | .max => 2
  | .and => 3
  | .or => 4
  | .xor => 5

/-- The `RedOp` of a field value; none for a code that names nothing. -/
def RedOp.ofCode (c : BitVec 3) : Option RedOp :=
  match c.toNat with
  | 0 => some .add
  | 1 => some .min
  | 2 => some .max
  | 3 => some .and
  | 4 => some .or
  | 5 => some .xor
  | _ => none

/-- Parts of a window that `mld` and `mst` move (R370). -/
inductive MPart where
  | tile
  | all
  | stat
deriving DecidableEq, Repr, Inhabited

/-- The code of a `MPart` in its field. -/
def MPart.code : MPart → BitVec 2
  | .tile => 0
  | .all => 1
  | .stat => 2

/-- The `MPart` of a field value; none for a code that names nothing. -/
def MPart.ofCode (c : BitVec 2) : Option MPart :=
  match c.toNat with
  | 0 => some .tile
  | 1 => some .all
  | 2 => some .stat
  | _ => none

/-- Stored formats of `mst` (Table 15-8). -/
inductive SFmt where
  | b32
  | bf16
  | f16
  | e4m3
  | e5m2
deriving DecidableEq, Repr, Inhabited

/-- The code of a `SFmt` in its field. -/
def SFmt.code : SFmt → BitVec 4
  | .b32 => 0
  | .bf16 => 1
  | .f16 => 2
  | .e4m3 => 3
  | .e5m2 => 4

/-- The `SFmt` of a field value; none for a code that names nothing. -/
def SFmt.ofCode (c : BitVec 4) : Option SFmt :=
  match c.toNat with
  | 0 => some .b32
  | 1 => some .bf16
  | 2 => some .f16
  | 3 => some .e4m3
  | 4 => some .e5m2
  | _ => none

/-- Request types (Table 3-9). -/
inductive Rqt where
  | own
  | wt
  | si
  | nc
deriving DecidableEq, Repr, Inhabited

/-- The code of a `Rqt` in its field. -/
def Rqt.code : Rqt → BitVec 2
  | .own => 0
  | .wt => 1
  | .si => 2
  | .nc => 3

/-- The `Rqt` of a field value; none for a code that names nothing. -/
def Rqt.ofCode (c : BitVec 2) : Option Rqt :=
  match c.toNat with
  | 0 => some .own
  | 1 => some .wt
  | 2 => some .si
  | 3 => some .nc
  | _ => none

/-- Orderings of an M-format instruction (Table 3-9). -/
inductive Ord where
  | plain
  | acq
  | rel
  | racq
deriving DecidableEq, Repr, Inhabited

/-- The code of a `Ord` in its field. -/
def Ord.code : Ord → BitVec 2
  | .plain => 0
  | .acq => 1
  | .rel => 2
  | .racq => 3

/-- The `Ord` of a field value; none for a code that names nothing. -/
def Ord.ofCode (c : BitVec 2) : Option Ord :=
  match c.toNat with
  | 0 => some .plain
  | 1 => some .acq
  | 2 => some .rel
  | 3 => some .racq
  | _ => none

/-- Widths of `lds` (Table 8-2). -/
inductive LdWidth where
  | b64
  | i32
  | n32
  | i16
  | n16
  | i8
  | n8
deriving DecidableEq, Repr, Inhabited

/-- The code of a `LdWidth` in its field. -/
def LdWidth.code : LdWidth → BitVec 4
  | .b64 => 0
  | .i32 => 1
  | .n32 => 2
  | .i16 => 3
  | .n16 => 4
  | .i8 => 5
  | .n8 => 6

/-- The `LdWidth` of a field value; none for a code that names nothing. -/
def LdWidth.ofCode (c : BitVec 4) : Option LdWidth :=
  match c.toNat with
  | 0 => some .b64
  | 1 => some .i32
  | 2 => some .n32
  | 3 => some .i16
  | 4 => some .n16
  | 5 => some .i8
  | 6 => some .n8
  | _ => none

/-- Widths of `sts` (Table 8-2). -/
inductive StWidth where
  | b64
  | b32
  | b16
  | b8
deriving DecidableEq, Repr, Inhabited

/-- The code of a `StWidth` in its field. -/
def StWidth.code : StWidth → BitVec 4
  | .b64 => 0
  | .b32 => 1
  | .b16 => 2
  | .b8 => 3

/-- The `StWidth` of a field value; none for a code that names nothing. -/
def StWidth.ofCode (c : BitVec 4) : Option StWidth :=
  match c.toNat with
  | 0 => some .b64
  | 1 => some .b32
  | 2 => some .b16
  | 3 => some .b8
  | _ => none

/-- Atomic operations (Table 8-3). -/
inductive AtomOp where
  | add
  | mini
  | maxi
  | minn
  | maxn
  | and
  | or
  | xor
  | exch
  | cas
deriving DecidableEq, Repr, Inhabited

/-- The code of a `AtomOp` in its field. -/
def AtomOp.code : AtomOp → BitVec 4
  | .add => 0
  | .mini => 1
  | .maxi => 2
  | .minn => 3
  | .maxn => 4
  | .and => 5
  | .or => 6
  | .xor => 7
  | .exch => 8
  | .cas => 9

/-- The `AtomOp` of a field value; none for a code that names nothing. -/
def AtomOp.ofCode (c : BitVec 4) : Option AtomOp :=
  match c.toNat with
  | 0 => some .add
  | 1 => some .mini
  | 2 => some .maxi
  | 3 => some .minn
  | 4 => some .maxn
  | 5 => some .and
  | 6 => some .or
  | 7 => some .xor
  | 8 => some .exch
  | 9 => some .cas
  | _ => none

/-- Forms of `tlrd` (Table 8-6). -/
inductive TlrdForm where
  | val
  | err
  | errclr
  | issued
deriving DecidableEq, Repr, Inhabited

/-- The code of a `TlrdForm` in its field. -/
def TlrdForm.code : TlrdForm → BitVec 4
  | .val => 0
  | .err => 1
  | .errclr => 2
  | .issued => 3

/-- The `TlrdForm` of a field value; none for a code that names nothing. -/
def TlrdForm.ofCode (c : BitVec 4) : Option TlrdForm :=
  match c.toNat with
  | 0 => some .val
  | 1 => some .err
  | 2 => some .errclr
  | 3 => some .issued
  | _ => none

/-- Selectors of `tkrd` (Table 6-4). -/
inductive TkSel where
  | stroke
  | phase
  | work
  | wait
deriving DecidableEq, Repr, Inhabited

/-- The code of a `TkSel` in its field. -/
def TkSel.code : TkSel → BitVec 4
  | .stroke => 0
  | .phase => 1
  | .work => 2
  | .wait => 3

/-- The `TkSel` of a field value; none for a code that names nothing. -/
def TkSel.ofCode (c : BitVec 4) : Option TkSel :=
  match c.toNat with
  | 0 => some .stroke
  | 1 => some .phase
  | 2 => some .work
  | 3 => some .wait
  | _ => none

/-- A target (Table 3-10). -/
inductive Target where
  | none
  | opnd (idx : BitVec 6) (slot : Slot)
  | out (n : BitVec 4)
deriving DecidableEq, Repr, Inhabited

/-- The ten bits of a target (Table 3-10). -/
def Target.code : Target → BitVec 10
  | .none => 0
  | .opnd idx slot => 1#2 ++ idx ++ slot.code
  | .out n => 2#2 ++ 0#4 ++ n

/-- The fields every instruction word shares (Table 3-8): predicate mode and targets. -/
structure Hdr where
  pm : Pred
  t0 : Target
  t1 : Target
deriving DecidableEq, Repr, Inhabited

/-- The fields of format M (Table 3-9). -/
structure MFields where
  mseq : BitVec 5
  rqt : Rqt
  scope : Scope
  ord : Ord
  ofs : BitVec 17
deriving DecidableEq, Repr, Inhabited

/-- Bits [28:0] of format M. -/
def MFields.code (m : MFields) : BitVec 29 := m.mseq ++ m.rqt.code ++ m.scope.code ++ m.ord.code ++ m.ofs

/-- Timeline counters as `tlwait` and `tlrd` name them (Table 4-9). -/
inductive Ctr where
  | tlc
  | tlk
  | tll (q : BitVec 6)
deriving DecidableEq, Repr, Inhabited

/-- `QID` and `TICK` of a counter (Table 4-9). -/
def Ctr.code : Ctr → BitVec 29
  | .tlc => 0#4 ++ 0#25
  | .tlk => 1#4 ++ 0#25
  | .tll q => 2#4 ++ (0#19 ++ q)

/-- Queues of `push` (Table 8-7). -/
inductive PushQ where
  | copy (tick : BitVec 25)
  | coll
  | launch (q : BitVec 6)
deriving DecidableEq, Repr, Inhabited

/-- `QID` and `TICK` of a push (Table 8-7). -/
def PushQ.code : PushQ → BitVec 29
  | .copy tick => 0#4 ++ tick
  | .coll => 1#4 ++ 0#25
  | .launch q => 2#4 ++ (0#19 ++ q)

/-- Registers that `syswr` and the hub's system register space write (Table 21-9). -/
inductive SysReg where
  | lqctl (q : BitVec 6)
  | lscfg (die : BitVec 3)
  | ctxWord (n : BitVec 11)
  | faultRes (ctx : BitVec 8)
deriving DecidableEq, Repr, Inhabited

/-- `SEL` and `IMM16` of a system register (Table 21-9). -/
def SysReg.code : SysReg → BitVec 29
  | .lqctl q => 0#13 ++ (0#10 ++ q)
  | .lscfg d => 1#13 ++ (0#13 ++ d)
  | .ctxWord n => 2#13 ++ (0#5 ++ n)
  | .faultRes c => 3#13 ++ (0#8 ++ c)

/-- A timeline counter as the engines name it (R224): a team's TLC, a context's TLK, a queue's TLL. -/
inductive CtrRef where
  | tlc (team : Nat)
  | tlk (ctx : Nat)
  | tll (q : Nat)
deriving DecidableEq, Repr, Inhabited

/-- A measurement register that MEASURE_EXTEND names (R404, Table 19-9). -/
inductive MeasReg where
  | mr (n : Nat)
  | ctxm (ctx : Nat)
deriving DecidableEq, Repr, Inhabited

/-- The storage in which an error is found (Table 22-1). -/
inductive ErrPlace where
  | vreg (w reg lane : Nat)
  | sreg (w reg : Nat)
  | kreg (w reg : Nat)
  | special (w reg : Nat)
  | spad (team ofs : Nat)
  | l1 (die core space line i : Nat)
  | latch (w : Nat) (acc1 : Bool) (row : Nat)
  | landing (die ofs : Nat)
  | dieCache (die space line i : Nat)
  | hubCache (space line i : Nat)
  | dieArray (die ofs : Nat)
  | tagOrDirectory (die : Nat)
  | dram (home addr : Nat)
deriving DecidableEq, Repr, Inhabited

/-- A link on which a CRC error is found (Table 22-1). -/
inductive LinkPlace where
  | interposer (die : Nat)
  | zorlis (port : Nat)
deriving DecidableEq, Repr, Inhabited

/-- An access that another package makes to a granule homed here (R392); `ret` marks an `atom`, which needs the permission to read too. -/
inductive RemoteOp where
  | load
  | store (v : BitVec 32)
  | atomic (op : AtomOp) (c b : BitVec 32) (ret : Bool)
deriving DecidableEq, Repr, Inhabited

/-- Operations and events of the opcode table, one constructor a row. The first part are the instruction words of
Table 3-13; the second part are the machine's events, each one whole and indivisible step. -/
inductive Instr where
  | nop (h : Hdr)
  | mov (h : Hdr) (sh : Shape)
  | fan (h : Hdr) (sh : Shape) (t2 : Target) (t3 : Target)
  | const (h : Hdr) (imm : BitVec 28)
  | consth (h : Hdr) (top : Bool) (imm : BitVec 28)
  | null (h : Hdr)
  | sadd (h : Hdr) (im : Option (BitVec 28))
  | ssub (h : Hdr) (im : Option (BitVec 28))
  | smul (h : Hdr) (im : Option (BitVec 28))
  | smulh (h : Hdr) (sg : Sgn) (im : Option (BitVec 28))
  | sdiv (h : Hdr) (sg : Sgn) (im : Option (BitVec 28))
  | srem (h : Hdr) (sg : Sgn) (im : Option (BitVec 28))
  | sand (h : Hdr) (im : Option (BitVec 28))
  | sor (h : Hdr) (im : Option (BitVec 28))
  | sxor (h : Hdr) (im : Option (BitVec 28))
  | sshl (h : Hdr) (im : Option (BitVec 28))
  | sshr (h : Hdr) (im : Option (BitVec 28))
  | ssra (h : Hdr) (im : Option (BitVec 28))
  | smin (h : Hdr) (sg : Sgn) (im : Option (BitVec 28))
  | smax (h : Hdr) (sg : Sgn) (im : Option (BitVec 28))
  | lea (h : Hdr) (sc : Fin 5) (im : Option (BitVec 28))
  | scmp (h : Hdr) (cond : SCond) (im : Option (BitVec 28))
  | ssel (h : Hdr)
  | sclz (h : Hdr)
  | spopc (h : Hdr)
  | kand (h : Hdr) (im : Option (BitVec 28))
  | kor (h : Hdr) (im : Option (BitVec 28))
  | kxor (h : Hdr) (im : Option (BitVec 28))
  | kandn (h : Hdr) (im : Option (BitVec 28))
  | kcnt (h : Hdr)
  | kff (h : Hdr)
  | kmov (h : Hdr) (toMask : Bool)
  | vote (h : Hdr) (form : VoteForm)
  | sysrd (h : Hdr) (sel : SysSel) (imm : BitVec 16)
  | fmtset (h : Hdr) (form : FmtForm)
  | fmtrd (h : Hdr)
  | bro (h : Hdr) (block : BitVec 24)
  | brx (h : Hdr)
  | brv (h : Hdr) (join : BitVec 24)
  | call (h : Hdr) (block : BitVec 24)
  | ret (h : Hdr)
  | exit (h : Hdr)
  | bar (h : Hdr) (scope : Scope) (id : BitVec 16)
  | yield (h : Hdr)
  | trap (h : Hdr) (num : BitVec 8) (payload : BitVec 16)
  | brk (h : Hdr) (payload : BitVec 16)
  | tlwait (h : Hdr) (ctr : Ctr)
  | vadd (h : Hdr) (ty : VTy) (im : Option (BitVec 28))
  | vsub (h : Hdr) (ty : VTy) (im : Option (BitVec 28))
  | vaddc (h : Hdr) (im : Option (BitVec 28))
  | vsubb (h : Hdr) (im : Option (BitVec 28))
  | vmul (h : Hdr) (ty : VTy) (im : Option (BitVec 28))
  | vmulh (h : Hdr) (ty : VTy) (im : Option (BitVec 28))
  | vmulw (h : Hdr) (ty : VTy) (im : Option (BitVec 28))
  | vmad (h : Hdr) (ty : VTy) (im : Option (BitVec 28))
  | vdiv (h : Hdr) (ty : VTy) (im : Option (BitVec 28))
  | vrem (h : Hdr) (ty : VTy) (im : Option (BitVec 28))
  | vsqrt (h : Hdr)
  | vabs (h : Hdr) (ty : VTy)
  | vneg (h : Hdr) (ty : VTy)
  | vmin (h : Hdr) (ty : VTy) (im : Option (BitVec 28))
  | vmax (h : Hdr) (ty : VTy) (im : Option (BitVec 28))
  | vaddsat (h : Hdr) (ty : VTy) (im : Option (BitVec 28))
  | vsubsat (h : Hdr) (ty : VTy) (im : Option (BitVec 28))
  | vavg (h : Hdr) (ty : VTy) (im : Option (BitVec 28))
  | vabsd (h : Hdr) (ty : VTy) (im : Option (BitVec 28))
  | vdot4 (h : Hdr) (ty : VTy) (im : Option (BitVec 28))
  | vscale (h : Hdr) (im : Option (BitVec 28))
  | vrint (h : Hdr) (mode : Fin 6)
  | vgetexp (h : Hdr)
  | vclass (h : Hdr)
  | vand (h : Hdr) (im : Option (BitVec 28))
  | vor (h : Hdr) (im : Option (BitVec 28))
  | vxor (h : Hdr) (im : Option (BitVec 28))
  | vnot (h : Hdr)
  | vshl (h : Hdr) (ty : VTy) (im : Option (BitVec 28))
  | vshr (h : Hdr) (ty : VTy) (im : Option (BitVec 28))
  | vsra (h : Hdr) (ty : VTy) (im : Option (BitVec 28))
  | vrotl (h : Hdr) (im : Option (BitVec 28))
  | vclz (h : Hdr)
  | vpopc (h : Hdr)
  | vbrev (h : Hdr)
  | vcmp (h : Hdr) (ty : VTy) (cond : VCond)
  | vsel (h : Hdr) (im : Option (BitVec 28))
  | vsplat (h : Hdr) (hi : Bool)
  | vshfl (h : Hdr) (im : Option (BitVec 28))
  | vbcast (h : Hdr) (im : Option (BitVec 28))
  | vlrot (h : Hdr) (im : Option (BitVec 28))
  | vcompress (h : Hdr)
  | vexpand (h : Hdr)
  | vcvt (h : Hdr) (dst : VTy) (src : VTy) (md : Bool) (part : BitVec 2)
  | vencb (h : Hdr) (f : BFmt) (bt : Option BtType)
  | vdecb (h : Hdr) (f : BFmt)
  | vexp2 (h : Hdr)
  | vlog2 (h : Hdr)
  | vrcp (h : Hdr)
  | vrsqrt (h : Hdr)
  | vsin (h : Hdr) (turns : Bool)
  | vcos (h : Hdr) (turns : Bool)
  | vred (h : Hdr) (ty : VTy) (op : RedOp)
  | vscan (h : Hdr) (ty : VTy) (ex : Bool) (op : RedOp)
  | mmode (h : Hdr) (on : Bool) (en1 : Bool) (acc0 : BitVec 8) (acc1 : BitVec 8)
  | mzero (h : Hdr) (win : Bool) (tile : Bool)
  | mma (h : Hdr) (win : Bool) (steps : BitVec 8)
  | mmar (h : Hdr) (steps : BitVec 8) (s0 : BitVec 5)
  | mmax (h : Hdr) (win : Bool)
  | mexp (h : Hdr) (win : Bool)
  | mrescale (h : Hdr) (win : Bool)
  | mld (h : Hdr) (win : Bool) (part : MPart)
  | mst (h : Hdr) (win : Bool) (part : MPart) (sfmt : SFmt)
  | ld (h : Hdr) (m : MFields) (ty : VTy)
  | st (h : Hdr) (m : MFields) (ty : VTy)
  | lds (h : Hdr) (m : MFields) (w : LdWidth)
  | sts (h : Hdr) (m : MFields) (w : StWidth)
  | spld (h : Hdr) (m : MFields) (ty : VTy)
  | spst (h : Hdr) (m : MFields) (ty : VTy)
  | spldq (h : Hdr) (m : MFields) (ty : VTy)
  | spstq (h : Hdr) (m : MFields) (ty : VTy)
  | prefetch (h : Hdr) (m : MFields) (die : Bool)
  | atom (h : Hdr) (m : MFields) (op : AtomOp)
  | red (h : Hdr) (m : MFields) (op : AtomOp)
  | vmatch (h : Hdr)
  | fence (h : Hdr) (scope : Scope) (xpath : Bool)
  | tlrd (h : Hdr) (form : TlrdForm) (ctr : Ctr)
  | push (h : Hdr) (grp : Fin 7) (q : PushQ)
  | stroke (h : Hdr) (slip : Bool)
  | tkrd (h : Hdr) (sel : TkSel)
  | tsend (h : Hdr) (tick : BitVec 25)
  | trecv (h : Hdr) (tick : BitVec 25)
  | syswr (h : Hdr) (reg : SysReg)
  | cachectlWb (h : Hdr)
  | cachectlWbinv (h : Hdr)
  | cachectlL1inv (h : Hdr)
  | perfctlRd (h : Hdr) (n : BitVec 16)
  | perfctlCfg (h : Hdr) (n : BitVec 16)
  | perfctlClr (h : Hdr) (n : BitVec 16)
  | ctxctlTrrd (h : Hdr)
  | ctxctlTret (h : Hdr)
  | eret (h : Hdr)
  | hint (low : BitVec 4) (t : BitVec 4) (p : BitVec 29)
  | blockFetch (w : Nat)
  | blockCommit (w : Nat)
  | blockQuiescent (w : Nat)
  | barrierComplete (scope : Scope) (unit : Nat) (id : Nat)
  | tlwaitResume (w : Nat)
  | strokeBoundaryExit (w : Nat)
  | seatHandover (die : Nat) (core : Nat) (seat : Nat)
  | accessHeldTimeout (w : Nat)
  | seatTenureExpiry (w : Nat)
  | warpAccessComplete (w : Nat)
  | launch (q : Nat)
  | submissionWindowWrite (q : Nat) (cmd : List (BitVec 64))
  | launchPlacement
  | effectivePriorityRise (q : Nat)
  | timedLaunchStart (g : Nat)
  | preemptGang (g : Nat)
  | preemptBlockTimeout (w : Nat)
  | preemptDrained (g : Nat)
  | contextSwitch (die : Nat) (core : Nat)
  | gangResume (g : Nat)
  | teamComplete (t : Nat)
  | gridComplete (g : Nat)
  | copy2d (t : Nat)
  | copy3d (t : Nat)
  | gather (t : Nat)
  | scatter (t : Nat)
  | fill (t : Nat)
  | preloadL2 (t : Nat)
  | copyChunk (t : Nat) (seq : Nat)
  | commandComplete (ctr : CtrRef) (seq : Nat)
  | timedCopyStart (t : Nat) (seq : Nat)
  | allreduce (ctx : Nat)
  | reducescatter (ctx : Nat)
  | allgather (ctx : Nat)
  | broadcast (ctx : Nat)
  | barrier (ctx : Nat)
  | collectiveTimeout (ctx : Nat) (seq : Nat)
  | collectiveAbortReceived (gid : Nat) (gen : Nat) (cause : Nat)
  | collectivePacketReceived (gid : Nat) (gen : Nat) (rank : Nat) (k : Nat) (hdr : BitVec 64) (count : Nat) (root : Nat) (data : List (BitVec 32))
  | groupEnd (ctx : Nat) (gid : Nat)
  | groupWashComplete (ctx : Nat) (gid : Nat)
  | groupDefine (ctx : Nat) (gid : Nat) (w0 : BitVec 64) (w1 : BitVec 64)
  | remoteRequestTimeout (n : Nat)
  | tsendTransferStart (n : Nat)
  | transferLanded (n : Nat)
  | trecvWindowMiss (w : Nat) (idx : Nat)
  | trecvCopyDone (w : Nat) (idx : Nat)
  | loadDataReturn (w : Nat) (idx : Nat)
  | dieCacheRequest (n : Nat)
  | dieCacheFillArrival (n : Nat)
  | storeAcknowledge (n : Nat)
  | l1ClockAdvance (die : Nat) (core : Nat)
  | throughLineExpiry (die : Nat) (core : Nat) (space : Nat) (line : Nat)
  | leaseWrapAround (die : Nat)
  | promoteRequest (n : Nat)
  | gets (n : Nat)
  | getm (n : Nat)
  | putm (n : Nat)
  | puts (n : Nat)
  | fwdgets (n : Nat)
  | fwdgetm (n : Nat)
  | inv (n : Nat)
  | resp (n : Nat)
  | invack (n : Nat)
  | data (n : Nat)
  | wback (n : Nat)
  | coxRead (ctx : Nat) (va : Nat)
  | coxEviction (ctx : Nat) (va : Nat)
  | coxWrite (ctx : Nat) (va : Nat) (data : List (BitVec 8))
  | refresh (die : Nat)
  | tickExchangeSend (die : Nat)
  | tickExchangeReceive (n : Nat)
  | timelineLost (die : Nat)
  | clockStepChange
  | droopTickStretch (die : Nat)
  | junctionHot
  | junctionCool
  | thermalTrip
  | powerOn (rootPort : Bool)
  | bringUpStageComplete (failure : Option (BitVec 8))
  | setPowerCap (watts : Nat)
  | clearThermalTrip
  | stageFirmwareUpdate (image : Nat)
  | misroutedPacket (socket : Nat)
  | lqctlWrite (q : Nat) (v : BitVec 64)
  | lqstatWrite (q : Nat) (v : BitVec 64)
  | lscfgWrite (die : Nat) (v : BitVec 64)
  | contextBlockWrite (word : Nat) (v : BitVec 64)
  | blockTableSwap (ctx : Nat) (oid : Nat) (table : Nat) (code : Nat)
  | systemRegisterWrite (reg : SysReg) (v : BitVec 64)
  | map (home : Nat) (req : List (BitVec 64))
  | unmap (home : Nat) (req : List (BitVec 64))
  | protect (home : Nat) (req : List (BitVec 64))
  | pageWalk (home : Nat) (n : Nat)
  | ctxCreate (ctx : Nat)
  | ctxDestroy (ctx : Nat)
  | frameAssign (home : Nat) (frame : Nat) (count : Nat) (space : Nat) (win : Nat)
  | frameReclaim (home : Nat) (frame : Nat) (count : Nat)
  | homeSet (ctx : Nat) (granule : Nat) (v : BitVec 64)
  | windowCreate (win : Nat) (granules : List Nat) (entries : List (BitVec 64))
  | windowJoin (win : Nat) (ctx : Nat)
  | windowLeave (win : Nat) (ctx : Nat)
  | exportSet (ctx : Nat) (pairs : List (Nat × Nat))
  | measureExtend (reg : MeasReg) (digest : BitVec 512)
  | attest (nonce : BitVec 512) (ctx : Option Nat)
  | debugUnlock (token : BitVec 512)
  | faultRecordPost
  | faultQueueRecheck (ctx : Nat)
  | retry (ctx : Nat) (seq : Nat)
  | resumeAt (ctx : Nat) (seq : Nat) (block : Nat)
  | retire (ctx : Nat) (seq : Nat)
  | retryUnchecked (ctx : Nat) (seq : Nat)
  | stop (ctx : Nat) (seq : Nat)
  | umpireHazard (w : Nat) (idx : Nat) (code : Nat) (aux : Nat)
  | correctedError (place : ErrPlace)
  | uncorrectableError (place : ErrPlace)
  | linkCrcError (link : LinkPlace) (exhausted : Bool)
  | coreFenced (die : Nat) (core : Nat)
  | frameMarked (home : Nat) (frame : Nat)
  | linkHalfWidth (port : Nat)
  | dieFenced (die : Nat)
  | pcieLinkDown
  | packagePowerAtCap (above : Bool)
  | remoteRequestReceived (pkg : Nat) (rctx : Nat) (ctx : Nat) (va : Nat) (req : RemoteOp)
  | timelineLostPersists (die : Nat)
  | codeObjectLoad (ctx : Nat) (home : Nat) (va : Nat) (bytes : List (BitVec 8)) (oid : Nat)
  | codeObjectUnload (ctx : Nat) (oid : Nat)
deriving DecidableEq, Repr, Inhabited

end Sys2Proof
end

