-- ==== Sys2Proof/WellFormed.lean ====
section
/-! DEFINITION. Well-formed instructions: operand and result shapes (R38, Table 3-13) and the field values each entry accepts (R80). -/

namespace Sys2Proof

/-- Shapes of the operand slots a, b, c and of the results to T0 and T1. A slot b filled by an immediate has no shape here
(R39, R82). -/
structure Sig where
  a : Option Shape
  b : Option Shape
  c : Option Shape
  r0 : Option Shape
  r1 : Option Shape
deriving DecidableEq, Repr

/-- Slot b, unless an immediate fills it (R82). -/
def slotB (im : Option (BitVec 28)) (sh : Shape) : Option Shape := if im.isSome then none else some sh

/-- Operand and result shapes of every instruction word, from Table 3-13 and the entries; an event has none. -/
def Instr.sig : Instr → Sig
  | .nop _ => ⟨none, none, none, none, none⟩
  | .mov _ sh => ⟨some sh, none, none, some sh, some sh⟩
  | .fan _ sh _ _ => ⟨some sh, none, none, some sh, some sh⟩
  | .const _ _ => ⟨none, none, none, some .scalar, some .scalar⟩
  | .consth _ _ _ => ⟨some .scalar, none, none, some .scalar, some .scalar⟩
  | .null _ => ⟨none, none, none, none, none⟩
  | .sadd _ im => ⟨some .scalar, slotB im .scalar, none, some .scalar, some .scalar⟩
  | .ssub _ im => ⟨some .scalar, slotB im .scalar, none, some .scalar, some .scalar⟩
  | .smul _ im => ⟨some .scalar, slotB im .scalar, none, some .scalar, some .scalar⟩
  | .smulh _ _ im => ⟨some .scalar, slotB im .scalar, none, some .scalar, some .scalar⟩
  | .sdiv _ _ im => ⟨some .scalar, slotB im .scalar, none, some .scalar, some .scalar⟩
  | .srem _ _ im => ⟨some .scalar, slotB im .scalar, none, some .scalar, some .scalar⟩
  | .sand _ im => ⟨some .scalar, slotB im .scalar, none, some .scalar, some .scalar⟩
  | .sor _ im => ⟨some .scalar, slotB im .scalar, none, some .scalar, some .scalar⟩
  | .sxor _ im => ⟨some .scalar, slotB im .scalar, none, some .scalar, some .scalar⟩
  | .sshl _ im => ⟨some .scalar, slotB im .scalar, none, some .scalar, some .scalar⟩
  | .sshr _ im => ⟨some .scalar, slotB im .scalar, none, some .scalar, some .scalar⟩
  | .ssra _ im => ⟨some .scalar, slotB im .scalar, none, some .scalar, some .scalar⟩
  | .smin _ _ im => ⟨some .scalar, slotB im .scalar, none, some .scalar, some .scalar⟩
  | .smax _ _ im => ⟨some .scalar, slotB im .scalar, none, some .scalar, some .scalar⟩
  | .lea _ _ im => ⟨some .scalar, slotB im .scalar, none, some .scalar, some .scalar⟩
  | .scmp _ _ im => ⟨some .scalar, slotB im .scalar, none, some .scalar, some .scalar⟩
  | .ssel _ => ⟨some .scalar, some .scalar, some .scalar, some .scalar, some .scalar⟩
  | .sclz _ => ⟨some .scalar, none, none, some .scalar, some .scalar⟩
  | .spopc _ => ⟨some .scalar, none, none, some .scalar, some .scalar⟩
  | .kand _ im => ⟨some .mask, slotB im .mask, none, some .mask, some .mask⟩
  | .kor _ im => ⟨some .mask, slotB im .mask, none, some .mask, some .mask⟩
  | .kxor _ im => ⟨some .mask, slotB im .mask, none, some .mask, some .mask⟩
  | .kandn _ im => ⟨some .mask, slotB im .mask, none, some .mask, some .mask⟩
  | .kcnt _ => ⟨some .mask, none, none, some .scalar, some .scalar⟩
  | .kff _ => ⟨some .mask, none, none, some .scalar, some .scalar⟩
  | .kmov _ toMask => if toMask then ⟨some .scalar, none, none, some .mask, some .mask⟩ else ⟨some .mask, none, none, some .scalar, some .scalar⟩
  | .vote _ form => match form with
    | .ballot => ⟨some .vector, none, none, some .mask, some .mask⟩
    | _ => ⟨some .vector, none, none, some .scalar, some .scalar⟩
  | .sysrd _ sel _ => match sel with
    | .laneid => ⟨none, none, none, some .vector, some .vector⟩
    | .live => ⟨none, none, none, some .mask, some .mask⟩
    | _ => ⟨none, none, none, some .scalar, some .scalar⟩
  | .fmtset _ _ => ⟨some .scalar, none, none, none, none⟩
  | .fmtrd _ => ⟨none, none, none, some .scalar, some .scalar⟩
  | .bro _ _ => ⟨none, none, none, none, none⟩
  | .brx _ => ⟨some .scalar, none, none, none, none⟩
  | .brv _ _ => ⟨some .vector, none, none, none, none⟩
  | .call _ _ => ⟨none, none, none, none, none⟩
  | .ret _ => ⟨none, none, none, none, none⟩
  | .exit _ => ⟨none, none, none, none, none⟩
  | .bar _ _ _ => ⟨none, none, none, none, none⟩
  | .yield _ => ⟨none, none, none, none, none⟩
  | .trap _ _ _ => ⟨none, none, none, none, none⟩
  | .brk _ _ => ⟨none, none, none, none, none⟩
  | .tlwait _ _ => ⟨some .scalar, none, none, none, none⟩
  | .vadd _ _ im => ⟨some .vector, slotB im .vector, none, some .vector, some .vector⟩
  | .vsub _ _ im => ⟨some .vector, slotB im .vector, none, some .vector, some .vector⟩
  | .vaddc _ im => ⟨some .vector, slotB im .vector, some .vector, some .vector, some .vector⟩
  | .vsubb _ im => ⟨some .vector, slotB im .vector, some .vector, some .vector, some .vector⟩
  | .vmul _ _ im => ⟨some .vector, slotB im .vector, none, some .vector, some .vector⟩
  | .vmulh _ _ im => ⟨some .vector, slotB im .vector, none, some .vector, some .vector⟩
  | .vmulw _ _ im => ⟨some .vector, slotB im .vector, none, some .vector, some .vector⟩
  | .vmad _ _ im => ⟨some .vector, slotB im .vector, some .vector, some .vector, some .vector⟩
  | .vdiv _ _ im => ⟨some .vector, slotB im .vector, none, some .vector, some .vector⟩
  | .vrem _ _ im => ⟨some .vector, slotB im .vector, none, some .vector, some .vector⟩
  | .vsqrt _ => ⟨some .vector, none, none, some .vector, some .vector⟩
  | .vabs _ _ => ⟨some .vector, none, none, some .vector, some .vector⟩
  | .vneg _ _ => ⟨some .vector, none, none, some .vector, some .vector⟩
  | .vmin _ _ im => ⟨some .vector, slotB im .vector, none, some .vector, some .vector⟩
  | .vmax _ _ im => ⟨some .vector, slotB im .vector, none, some .vector, some .vector⟩
  | .vaddsat _ _ im => ⟨some .vector, slotB im .vector, none, some .vector, some .vector⟩
  | .vsubsat _ _ im => ⟨some .vector, slotB im .vector, none, some .vector, some .vector⟩
  | .vavg _ _ im => ⟨some .vector, slotB im .vector, none, some .vector, some .vector⟩
  | .vabsd _ _ im => ⟨some .vector, slotB im .vector, none, some .vector, some .vector⟩
  | .vdot4 _ _ im => ⟨some .vector, slotB im .vector, some .vector, some .vector, some .vector⟩
  | .vscale _ im => ⟨some .vector, slotB im .vector, none, some .vector, some .vector⟩
  | .vrint _ _ => ⟨some .vector, none, none, some .vector, some .vector⟩
  | .vgetexp _ => ⟨some .vector, none, none, some .vector, some .vector⟩
  | .vclass _ => ⟨some .vector, none, none, some .vector, some .vector⟩
  | .vand _ im => ⟨some .vector, slotB im .vector, none, some .vector, some .vector⟩
  | .vor _ im => ⟨some .vector, slotB im .vector, none, some .vector, some .vector⟩
  | .vxor _ im => ⟨some .vector, slotB im .vector, none, some .vector, some .vector⟩
  | .vnot _ => ⟨some .vector, none, none, some .vector, some .vector⟩
  | .vshl _ _ im => ⟨some .vector, slotB im .vector, none, some .vector, some .vector⟩
  | .vshr _ _ im => ⟨some .vector, slotB im .vector, none, some .vector, some .vector⟩
  | .vsra _ _ im => ⟨some .vector, slotB im .vector, none, some .vector, some .vector⟩
  | .vrotl _ im => ⟨some .vector, slotB im .vector, none, some .vector, some .vector⟩
  | .vclz _ => ⟨some .vector, none, none, some .vector, some .vector⟩
  | .vpopc _ => ⟨some .vector, none, none, some .vector, some .vector⟩
  | .vbrev _ => ⟨some .vector, none, none, some .vector, some .vector⟩
  | .vcmp _ _ _ => ⟨some .vector, some .vector, none, some .mask, some .mask⟩
  | .vsel _ im => ⟨some .mask, slotB im .vector, some .vector, some .vector, some .vector⟩
  | .vsplat _ _ => ⟨some .scalar, none, none, some .vector, some .vector⟩
  | .vshfl _ im => ⟨some .vector, slotB im .vector, none, some .vector, some .vector⟩
  | .vbcast _ im => ⟨some .vector, slotB im .scalar, none, some .vector, some .vector⟩
  | .vlrot _ im => ⟨some .vector, slotB im .scalar, none, some .vector, some .vector⟩
  | .vcompress _ => ⟨some .vector, some .mask, none, some .vector, some .vector⟩
  | .vexpand _ => ⟨some .vector, some .mask, none, some .vector, some .vector⟩
  | .vcvt _ _ _ _ _ => ⟨some .vector, none, none, some .vector, some .vector⟩
  | .vencb _ _ _ => ⟨some .vector, none, none, some .vector, some .vector⟩
  | .vdecb _ _ => ⟨some .vector, some .vector, none, some .vector, some .vector⟩
  | .vexp2 _ => ⟨some .vector, none, none, some .vector, some .vector⟩
  | .vlog2 _ => ⟨some .vector, none, none, some .vector, some .vector⟩
  | .vrcp _ => ⟨some .vector, none, none, some .vector, some .vector⟩
  | .vrsqrt _ => ⟨some .vector, none, none, some .vector, some .vector⟩
  | .vsin _ _ => ⟨some .vector, none, none, some .vector, some .vector⟩
  | .vcos _ _ => ⟨some .vector, none, none, some .vector, some .vector⟩
  | .vred _ _ _ => ⟨some .vector, none, none, some .scalar, some .scalar⟩
  | .vscan _ _ _ _ => ⟨some .vector, some .mask, none, some .vector, some .vector⟩
  | .mmode _ _ _ _ _ => ⟨none, none, none, none, none⟩
  | .mzero _ _ _ => ⟨none, none, none, none, none⟩
  | .mma _ _ _ => ⟨some .scalar, some .scalar, some .scalar, none, none⟩
  | .mmar _ _ _ => ⟨some .scalar, some .scalar, none, none, none⟩
  | .mmax _ _ => ⟨some .scalar, none, none, none, none⟩
  | .mexp _ _ => ⟨some .scalar, none, none, none, none⟩
  | .mrescale _ _ => ⟨none, none, none, none, none⟩
  | .mld _ _ _ => ⟨some .scalar, none, none, none, none⟩
  | .mst _ _ _ _ => ⟨some .scalar, none, none, none, none⟩
  | .ld _ _ _ => ⟨some .scalar, none, some .mask, some .vector, some .vector⟩
  | .st _ _ _ => ⟨some .scalar, some .vector, some .mask, none, none⟩
  | .lds _ _ _ => ⟨some .scalar, none, none, some .scalar, some .scalar⟩
  | .sts _ _ _ => ⟨some .scalar, some .scalar, none, none, none⟩
  | .spld _ _ _ => ⟨some .vector, none, some .mask, some .vector, some .vector⟩
  | .spst _ _ _ => ⟨some .vector, some .vector, some .mask, none, none⟩
  | .spldq _ _ _ => ⟨some .vector, none, some .mask, some .vector, some .vector⟩
  | .spstq _ _ _ => ⟨some .vector, some .vector, some .mask, none, none⟩
  | .prefetch _ _ _ => ⟨some .scalar, none, none, none, none⟩
  | .atom _ _ _ => ⟨some .scalar, some .vector, some .vector, some .vector, some .vector⟩
  | .red _ _ _ => ⟨some .scalar, some .vector, some .vector, none, none⟩
  | .vmatch _ => ⟨some .vector, none, none, some .vector, some .mask⟩
  | .fence _ _ _ => ⟨none, none, none, none, none⟩
  | .tlrd _ _ _ => ⟨none, none, none, some .scalar, some .scalar⟩
  | .push _ _ _ => ⟨none, none, none, some .scalar, some .scalar⟩
  | .stroke _ _ => ⟨none, none, none, none, none⟩
  | .tkrd _ _ => ⟨none, none, none, some .scalar, some .scalar⟩
  | .tsend _ _ => ⟨some .scalar, none, none, none, none⟩
  | .trecv _ _ => ⟨some .scalar, none, none, some .scalar, some .scalar⟩
  | .syswr _ _ => ⟨some .scalar, none, none, none, none⟩
  | .cachectlWb _ => ⟨some .scalar, none, none, none, none⟩
  | .cachectlWbinv _ => ⟨some .scalar, none, none, none, none⟩
  | .cachectlL1inv _ => ⟨some .scalar, none, none, none, none⟩
  | .perfctlRd _ _ => ⟨some .scalar, none, none, some .scalar, some .scalar⟩
  | .perfctlCfg _ _ => ⟨some .scalar, none, none, none, none⟩
  | .perfctlClr _ _ => ⟨some .scalar, none, none, none, none⟩
  | .ctxctlTrrd _ => ⟨some .scalar, none, none, some .scalar, some .scalar⟩
  | .ctxctlTret _ => ⟨some .scalar, none, none, none, none⟩
  | .eret _ => ⟨none, none, none, none, none⟩
  | .hint _ _ _ => ⟨none, none, none, none, none⟩
  | .blockFetch _ => ⟨none, none, none, none, none⟩
  | .blockCommit _ => ⟨none, none, none, none, none⟩
  | .blockQuiescent _ => ⟨none, none, none, none, none⟩
  | .barrierComplete _ _ _ => ⟨none, none, none, none, none⟩
  | .tlwaitResume _ => ⟨none, none, none, none, none⟩
  | .strokeBoundaryExit _ => ⟨none, none, none, none, none⟩
  | .seatHandover _ _ _ => ⟨none, none, none, none, none⟩
  | .accessHeldTimeout _ => ⟨none, none, none, none, none⟩
  | .seatTenureExpiry _ => ⟨none, none, none, none, none⟩
  | .warpAccessComplete _ => ⟨none, none, none, none, none⟩
  | .launch _ => ⟨none, none, none, none, none⟩
  | .submissionWindowWrite _ _ => ⟨none, none, none, none, none⟩
  | .launchPlacement => ⟨none, none, none, none, none⟩
  | .effectivePriorityRise _ => ⟨none, none, none, none, none⟩
  | .timedLaunchStart _ => ⟨none, none, none, none, none⟩
  | .preemptGang _ => ⟨none, none, none, none, none⟩
  | .preemptBlockTimeout _ => ⟨none, none, none, none, none⟩
  | .preemptDrained _ => ⟨none, none, none, none, none⟩
  | .contextSwitch _ _ => ⟨none, none, none, none, none⟩
  | .gangResume _ => ⟨none, none, none, none, none⟩
  | .teamComplete _ => ⟨none, none, none, none, none⟩
  | .gridComplete _ => ⟨none, none, none, none, none⟩
  | .copy2d _ => ⟨none, none, none, none, none⟩
  | .copy3d _ => ⟨none, none, none, none, none⟩
  | .gather _ => ⟨none, none, none, none, none⟩
  | .scatter _ => ⟨none, none, none, none, none⟩
  | .fill _ => ⟨none, none, none, none, none⟩
  | .preloadL2 _ => ⟨none, none, none, none, none⟩
  | .copyChunk _ _ => ⟨none, none, none, none, none⟩
  | .commandComplete _ _ => ⟨none, none, none, none, none⟩
  | .timedCopyStart _ _ => ⟨none, none, none, none, none⟩
  | .allreduce _ => ⟨none, none, none, none, none⟩
  | .reducescatter _ => ⟨none, none, none, none, none⟩
  | .allgather _ => ⟨none, none, none, none, none⟩
  | .broadcast _ => ⟨none, none, none, none, none⟩
  | .barrier _ => ⟨none, none, none, none, none⟩
  | .collectiveTimeout _ _ => ⟨none, none, none, none, none⟩
  | .collectiveAbortReceived _ _ _ => ⟨none, none, none, none, none⟩
  | .collectivePacketReceived _ _ _ _ _ _ _ _ => ⟨none, none, none, none, none⟩
  | .groupEnd _ _ => ⟨none, none, none, none, none⟩
  | .groupWashComplete _ _ => ⟨none, none, none, none, none⟩
  | .groupDefine _ _ _ _ => ⟨none, none, none, none, none⟩
  | .remoteRequestTimeout _ => ⟨none, none, none, none, none⟩
  | .tsendTransferStart _ => ⟨none, none, none, none, none⟩
  | .transferLanded _ => ⟨none, none, none, none, none⟩
  | .trecvWindowMiss _ _ => ⟨none, none, none, none, none⟩
  | .trecvCopyDone _ _ => ⟨none, none, none, none, none⟩
  | .loadDataReturn _ _ => ⟨none, none, none, none, none⟩
  | .dieCacheRequest _ => ⟨none, none, none, none, none⟩
  | .dieCacheFillArrival _ => ⟨none, none, none, none, none⟩
  | .storeAcknowledge _ => ⟨none, none, none, none, none⟩
  | .l1ClockAdvance _ _ => ⟨none, none, none, none, none⟩
  | .throughLineExpiry _ _ _ _ => ⟨none, none, none, none, none⟩
  | .leaseWrapAround _ => ⟨none, none, none, none, none⟩
  | .promoteRequest _ => ⟨none, none, none, none, none⟩
  | .gets _ => ⟨none, none, none, none, none⟩
  | .getm _ => ⟨none, none, none, none, none⟩
  | .putm _ => ⟨none, none, none, none, none⟩
  | .puts _ => ⟨none, none, none, none, none⟩
  | .fwdgets _ => ⟨none, none, none, none, none⟩
  | .fwdgetm _ => ⟨none, none, none, none, none⟩
  | .inv _ => ⟨none, none, none, none, none⟩
  | .resp _ => ⟨none, none, none, none, none⟩
  | .invack _ => ⟨none, none, none, none, none⟩
  | .data _ => ⟨none, none, none, none, none⟩
  | .wback _ => ⟨none, none, none, none, none⟩
  | .coxRead _ _ => ⟨none, none, none, none, none⟩
  | .coxEviction _ _ => ⟨none, none, none, none, none⟩
  | .coxWrite _ _ _ => ⟨none, none, none, none, none⟩
  | .refresh _ => ⟨none, none, none, none, none⟩
  | .tickExchangeSend _ => ⟨none, none, none, none, none⟩
  | .tickExchangeReceive _ => ⟨none, none, none, none, none⟩
  | .timelineLost _ => ⟨none, none, none, none, none⟩
  | .clockStepChange => ⟨none, none, none, none, none⟩
  | .droopTickStretch _ => ⟨none, none, none, none, none⟩
  | .junctionHot => ⟨none, none, none, none, none⟩
  | .junctionCool => ⟨none, none, none, none, none⟩
  | .thermalTrip => ⟨none, none, none, none, none⟩
  | .powerOn _ => ⟨none, none, none, none, none⟩
  | .bringUpStageComplete _ => ⟨none, none, none, none, none⟩
  | .setPowerCap _ => ⟨none, none, none, none, none⟩
  | .clearThermalTrip => ⟨none, none, none, none, none⟩
  | .stageFirmwareUpdate _ => ⟨none, none, none, none, none⟩
  | .misroutedPacket _ => ⟨none, none, none, none, none⟩
  | .lqctlWrite _ _ => ⟨none, none, none, none, none⟩
  | .lqstatWrite _ _ => ⟨none, none, none, none, none⟩
  | .lscfgWrite _ _ => ⟨none, none, none, none, none⟩
  | .contextBlockWrite _ _ => ⟨none, none, none, none, none⟩
  | .blockTableSwap _ _ _ _ => ⟨none, none, none, none, none⟩
  | .systemRegisterWrite _ _ => ⟨none, none, none, none, none⟩
  | .map _ _ => ⟨none, none, none, none, none⟩
  | .unmap _ _ => ⟨none, none, none, none, none⟩
  | .protect _ _ => ⟨none, none, none, none, none⟩
  | .pageWalk _ _ => ⟨none, none, none, none, none⟩
  | .ctxCreate _ => ⟨none, none, none, none, none⟩
  | .ctxDestroy _ => ⟨none, none, none, none, none⟩
  | .frameAssign _ _ _ _ _ => ⟨none, none, none, none, none⟩
  | .frameReclaim _ _ _ => ⟨none, none, none, none, none⟩
  | .homeSet _ _ _ => ⟨none, none, none, none, none⟩
  | .windowCreate _ _ _ => ⟨none, none, none, none, none⟩
  | .windowJoin _ _ => ⟨none, none, none, none, none⟩
  | .windowLeave _ _ => ⟨none, none, none, none, none⟩
  | .exportSet _ _ => ⟨none, none, none, none, none⟩
  | .measureExtend _ _ => ⟨none, none, none, none, none⟩
  | .attest _ _ => ⟨none, none, none, none, none⟩
  | .debugUnlock _ => ⟨none, none, none, none, none⟩
  | .faultRecordPost => ⟨none, none, none, none, none⟩
  | .faultQueueRecheck _ => ⟨none, none, none, none, none⟩
  | .retry _ _ => ⟨none, none, none, none, none⟩
  | .resumeAt _ _ _ => ⟨none, none, none, none, none⟩
  | .retire _ _ => ⟨none, none, none, none, none⟩
  | .retryUnchecked _ _ => ⟨none, none, none, none, none⟩
  | .stop _ _ => ⟨none, none, none, none, none⟩
  | .umpireHazard _ _ _ _ => ⟨none, none, none, none, none⟩
  | .correctedError _ => ⟨none, none, none, none, none⟩
  | .uncorrectableError _ => ⟨none, none, none, none, none⟩
  | .linkCrcError _ _ => ⟨none, none, none, none, none⟩
  | .coreFenced _ _ => ⟨none, none, none, none, none⟩
  | .frameMarked _ _ => ⟨none, none, none, none, none⟩
  | .linkHalfWidth _ => ⟨none, none, none, none, none⟩
  | .dieFenced _ => ⟨none, none, none, none, none⟩
  | .pcieLinkDown => ⟨none, none, none, none, none⟩
  | .packagePowerAtCap _ => ⟨none, none, none, none, none⟩
  | .remoteRequestReceived _ _ _ _ _ => ⟨none, none, none, none, none⟩
  | .timelineLostPersists _ => ⟨none, none, none, none, none⟩
  | .codeObjectLoad _ _ _ _ _ => ⟨none, none, none, none, none⟩
  | .codeObjectUnload _ _ => ⟨none, none, none, none, none⟩

/-- The common fields of an instruction word; none for an event and for `hint`, which has no header (R88). -/
def Instr.hdr? : Instr → Option Hdr
  | .nop h => some h
  | .mov h _ => some h
  | .fan h _ _ _ => some h
  | .const h _ => some h
  | .consth h _ _ => some h
  | .null h => some h
  | .sadd h _ => some h
  | .ssub h _ => some h
  | .smul h _ => some h
  | .smulh h _ _ => some h
  | .sdiv h _ _ => some h
  | .srem h _ _ => some h
  | .sand h _ => some h
  | .sor h _ => some h
  | .sxor h _ => some h
  | .sshl h _ => some h
  | .sshr h _ => some h
  | .ssra h _ => some h
  | .smin h _ _ => some h
  | .smax h _ _ => some h
  | .lea h _ _ => some h
  | .scmp h _ _ => some h
  | .ssel h => some h
  | .sclz h => some h
  | .spopc h => some h
  | .kand h _ => some h
  | .kor h _ => some h
  | .kxor h _ => some h
  | .kandn h _ => some h
  | .kcnt h => some h
  | .kff h => some h
  | .kmov h _ => some h
  | .vote h _ => some h
  | .sysrd h _ _ => some h
  | .fmtset h _ => some h
  | .fmtrd h => some h
  | .bro h _ => some h
  | .brx h => some h
  | .brv h _ => some h
  | .call h _ => some h
  | .ret h => some h
  | .exit h => some h
  | .bar h _ _ => some h
  | .yield h => some h
  | .trap h _ _ => some h
  | .brk h _ => some h
  | .tlwait h _ => some h
  | .vadd h _ _ => some h
  | .vsub h _ _ => some h
  | .vaddc h _ => some h
  | .vsubb h _ => some h
  | .vmul h _ _ => some h
  | .vmulh h _ _ => some h
  | .vmulw h _ _ => some h
  | .vmad h _ _ => some h
  | .vdiv h _ _ => some h
  | .vrem h _ _ => some h
  | .vsqrt h => some h
  | .vabs h _ => some h
  | .vneg h _ => some h
  | .vmin h _ _ => some h
  | .vmax h _ _ => some h
  | .vaddsat h _ _ => some h
  | .vsubsat h _ _ => some h
  | .vavg h _ _ => some h
  | .vabsd h _ _ => some h
  | .vdot4 h _ _ => some h
  | .vscale h _ => some h
  | .vrint h _ => some h
  | .vgetexp h => some h
  | .vclass h => some h
  | .vand h _ => some h
  | .vor h _ => some h
  | .vxor h _ => some h
  | .vnot h => some h
  | .vshl h _ _ => some h
  | .vshr h _ _ => some h
  | .vsra h _ _ => some h
  | .vrotl h _ => some h
  | .vclz h => some h
  | .vpopc h => some h
  | .vbrev h => some h
  | .vcmp h _ _ => some h
  | .vsel h _ => some h
  | .vsplat h _ => some h
  | .vshfl h _ => some h
  | .vbcast h _ => some h
  | .vlrot h _ => some h
  | .vcompress h => some h
  | .vexpand h => some h
  | .vcvt h _ _ _ _ => some h
  | .vencb h _ _ => some h
  | .vdecb h _ => some h
  | .vexp2 h => some h
  | .vlog2 h => some h
  | .vrcp h => some h
  | .vrsqrt h => some h
  | .vsin h _ => some h
  | .vcos h _ => some h
  | .vred h _ _ => some h
  | .vscan h _ _ _ => some h
  | .mmode h _ _ _ _ => some h
  | .mzero h _ _ => some h
  | .mma h _ _ => some h
  | .mmar h _ _ => some h
  | .mmax h _ => some h
  | .mexp h _ => some h
  | .mrescale h _ => some h
  | .mld h _ _ => some h
  | .mst h _ _ _ => some h
  | .ld h _ _ => some h
  | .st h _ _ => some h
  | .lds h _ _ => some h
  | .sts h _ _ => some h
  | .spld h _ _ => some h
  | .spst h _ _ => some h
  | .spldq h _ _ => some h
  | .spstq h _ _ => some h
  | .prefetch h _ _ => some h
  | .atom h _ _ => some h
  | .red h _ _ => some h
  | .vmatch h => some h
  | .fence h _ _ => some h
  | .tlrd h _ _ => some h
  | .push h _ _ => some h
  | .stroke h _ => some h
  | .tkrd h _ => some h
  | .tsend h _ => some h
  | .trecv h _ => some h
  | .syswr h _ => some h
  | .cachectlWb h => some h
  | .cachectlWbinv h => some h
  | .cachectlL1inv h => some h
  | .perfctlRd h _ => some h
  | .perfctlCfg h _ => some h
  | .perfctlClr h _ => some h
  | .ctxctlTrrd h => some h
  | .ctxctlTret h => some h
  | .eret h => some h
  | .hint _ _ _ => none
  | .blockFetch _ => none
  | .blockCommit _ => none
  | .blockQuiescent _ => none
  | .barrierComplete _ _ _ => none
  | .tlwaitResume _ => none
  | .strokeBoundaryExit _ => none
  | .seatHandover _ _ _ => none
  | .accessHeldTimeout _ => none
  | .seatTenureExpiry _ => none
  | .warpAccessComplete _ => none
  | .launch _ => none
  | .submissionWindowWrite _ _ => none
  | .launchPlacement => none
  | .effectivePriorityRise _ => none
  | .timedLaunchStart _ => none
  | .preemptGang _ => none
  | .preemptBlockTimeout _ => none
  | .preemptDrained _ => none
  | .contextSwitch _ _ => none
  | .gangResume _ => none
  | .teamComplete _ => none
  | .gridComplete _ => none
  | .copy2d _ => none
  | .copy3d _ => none
  | .gather _ => none
  | .scatter _ => none
  | .fill _ => none
  | .preloadL2 _ => none
  | .copyChunk _ _ => none
  | .commandComplete _ _ => none
  | .timedCopyStart _ _ => none
  | .allreduce _ => none
  | .reducescatter _ => none
  | .allgather _ => none
  | .broadcast _ => none
  | .barrier _ => none
  | .collectiveTimeout _ _ => none
  | .collectiveAbortReceived _ _ _ => none
  | .collectivePacketReceived _ _ _ _ _ _ _ _ => none
  | .groupEnd _ _ => none
  | .groupWashComplete _ _ => none
  | .groupDefine _ _ _ _ => none
  | .remoteRequestTimeout _ => none
  | .tsendTransferStart _ => none
  | .transferLanded _ => none
  | .trecvWindowMiss _ _ => none
  | .trecvCopyDone _ _ => none
  | .loadDataReturn _ _ => none
  | .dieCacheRequest _ => none
  | .dieCacheFillArrival _ => none
  | .storeAcknowledge _ => none
  | .l1ClockAdvance _ _ => none
  | .throughLineExpiry _ _ _ _ => none
  | .leaseWrapAround _ => none
  | .promoteRequest _ => none
  | .gets _ => none
  | .getm _ => none
  | .putm _ => none
  | .puts _ => none
  | .fwdgets _ => none
  | .fwdgetm _ => none
  | .inv _ => none
  | .resp _ => none
  | .invack _ => none
  | .data _ => none
  | .wback _ => none
  | .coxRead _ _ => none
  | .coxEviction _ _ => none
  | .coxWrite _ _ _ => none
  | .refresh _ => none
  | .tickExchangeSend _ => none
  | .tickExchangeReceive _ => none
  | .timelineLost _ => none
  | .clockStepChange => none
  | .droopTickStretch _ => none
  | .junctionHot => none
  | .junctionCool => none
  | .thermalTrip => none
  | .powerOn _ => none
  | .bringUpStageComplete _ => none
  | .setPowerCap _ => none
  | .clearThermalTrip => none
  | .stageFirmwareUpdate _ => none
  | .misroutedPacket _ => none
  | .lqctlWrite _ _ => none
  | .lqstatWrite _ _ => none
  | .lscfgWrite _ _ => none
  | .contextBlockWrite _ _ => none
  | .blockTableSwap _ _ _ _ => none
  | .systemRegisterWrite _ _ => none
  | .map _ _ => none
  | .unmap _ _ => none
  | .protect _ _ => none
  | .pageWalk _ _ => none
  | .ctxCreate _ => none
  | .ctxDestroy _ => none
  | .frameAssign _ _ _ _ _ => none
  | .frameReclaim _ _ _ => none
  | .homeSet _ _ _ => none
  | .windowCreate _ _ _ => none
  | .windowJoin _ _ => none
  | .windowLeave _ _ => none
  | .exportSet _ _ => none
  | .measureExtend _ _ => none
  | .attest _ _ => none
  | .debugUnlock _ => none
  | .faultRecordPost => none
  | .faultQueueRecheck _ => none
  | .retry _ _ => none
  | .resumeAt _ _ _ => none
  | .retire _ _ => none
  | .retryUnchecked _ _ => none
  | .stop _ _ => none
  | .umpireHazard _ _ _ _ => none
  | .correctedError _ => none
  | .uncorrectableError _ => none
  | .linkCrcError _ _ => none
  | .coreFenced _ _ => none
  | .frameMarked _ _ => none
  | .linkHalfWidth _ => none
  | .dieFenced _ => none
  | .pcieLinkDown => none
  | .packagePowerAtCap _ => none
  | .remoteRequestReceived _ _ _ _ _ => none
  | .timelineLostPersists _ => none
  | .codeObjectLoad _ _ _ _ _ => none
  | .codeObjectUnload _ _ => none

/-- Whether the row is an instruction word of Table 3-13, and not an event. -/
def Instr.isWord (i : Instr) : Bool :=
  match i with
  | .hint _ _ _ => true
  | i => i.hdr?.isSome

/-- Type set I of Table 14-1. -/
def VTy.isI : VTy → Bool
  | .i32 | .n32 | .i16x2 | .n16x2 | .i8x4 | .n8x4 => true
  | _ => false

/-- Type set F of Table 14-1. -/
def VTy.isF : VTy → Bool
  | .f32 | .bf16x2 | .f16x2 => true
  | _ => false

/-- Type set N of Table 14-1. -/
def VTy.isN (t : VTy) : Bool := t.isI || t.isF

/-- Type set SG of Table 14-1. -/
def VTy.isSG : VTy → Bool
  | .i32 | .f32 | .bf16x2 | .f16x2 | .i16x2 | .i8x4 => true
  | _ => false

/-- Integer types 0, 1, 5, 6 (`vmulh`, `vmulw`). -/
def VTy.isWideI : VTy → Bool
  | .i32 | .n32 | .i16x2 | .n16x2 => true
  | _ => false

/-- Types of `vshl` and `vshr` (Table 14-5). -/
def VTy.isShl : VTy → Bool
  | .b32 | .n16x2 | .n8x4 => true
  | _ => false

/-- Types of `vsra` (Table 14-5). -/
def VTy.isSra : VTy → Bool
  | .i32 | .i16x2 | .i8x4 => true
  | _ => false

/-- Types 0, 1 (`vrem`). -/
def VTy.isI32 : VTy → Bool
  | .i32 | .n32 => true
  | _ => false

/-- Types 0, 1, 2 (`vdiv`). -/
def VTy.isDiv (t : VTy) : Bool := t.isI32 || t == .f32

/-- Types 0, 1, 2, 11 (`vcmp`, `vred`, `vscan`). -/
def VTy.isCmp (t : VTy) : Bool := t.isDiv || t == .b32

/-- Types 7, 8 (`vdot4`). -/
def VTy.isDot : VTy → Bool
  | .i8x4 | .n8x4 => true
  | _ => false

/-- Types 0 to 10, the types of `vcvt` (R333). -/
def VTy.isCvt (t : VTy) : Bool := t != .b32

/-- Elements of a lane (Table 13-5). -/
def VTy.lanesPer : VTy → Nat
  | .i32 | .n32 | .f32 | .b32 => 1
  | .bf16x2 | .f16x2 | .i16x2 | .n16x2 => 2
  | _ => 4

/-- Whether a type is floating point. -/
def VTy.isFloat : VTy → Bool
  | .f32 | .bf16x2 | .f16x2 | .e4m3x4 | .e5m2x4 => true
  | _ => false

/-- Bits of `IMM` that a vector immediate uses must hold all of it (Table 3-11). -/
def vImmOk (t : VTy) (im : Option (BitVec 28)) : Bool :=
  match im with
  | none => true
  | some i => match t.lanesPer with
    | 1 => true
    | 2 => i.toNat < 65536
    | _ => i.toNat < 256

/-- The pairing of operation and type of `vred` and `vscan` (R341). -/
def redOk (t : VTy) (op : RedOp) : Bool :=
  t.isCmp && (match op with
    | .add | .min | .max => t != .b32
    | _ => t == .b32)

/-- The pairing of condition and type of `vcmp` (R331). -/
def vcondOk (t : VTy) (c : VCond) : Bool :=
  t.isCmp && (match t with
    | .f32 => true
    | .b32 => c == .eq || c == .ne
    | _ => c != .un)

/-- The mode and part of `vcvt` (R333, Table 14-8). -/
def vcvtOk (dst src : VTy) (md : Bool) (part : BitVec 2) : Bool :=
  dst.isCvt && src.isCvt && dst != src && !(md && dst.isFloat) &&
    (if dst.lanesPer > src.lanesPer then part.toNat < dst.lanesPer / src.lanesPer
     else if dst.lanesPer = src.lanesPer then part == 0 else part.toNat < src.lanesPer / dst.lanesPer)

/-- Scope and ordering of `ld`, `st`, `lds` and `sts` (R204). -/
def globalOrdOk (m : MFields) : Bool :=
  match m.ord with
  | .plain => m.scope == .warp
  | .racq => m.scope == .die
  | _ => m.scope != .warp

/-- Fields of an M-format load (Table 8-1). -/
def loadOk (m : MFields) : Bool := m.ord != .rel && globalOrdOk m

/-- Fields of an M-format store (Table 8-1). -/
def storeOk (m : MFields) : Bool := (m.ord == .plain || m.ord == .rel) && globalOrdOk m

/-- Fields of the scratchpad instructions (Table 8-1); `o` is the ordering allowed and `quad` the quad window. -/
def spOk (o : Ord) (quad : Bool) (m : MFields) : Bool :=
  m.rqt == .own && (m.ord == .plain && m.scope == .warp ||
    m.ord == o && (m.scope == .core || quad && m.scope == .quad))

/-- Fields of `atom` and `red` (Table 8-1). -/
def atomOk (m : MFields) (returning : Bool) : Bool :=
  (m.rqt == .wt || m.rqt == .nc) && m.scope != .warp &&
    (m.ord == .plain || m.ord == .rel || returning && m.ord == .acq)

/-- `mmode` (Table 15-7). -/
def mmodeOk (on en1 : Bool) (acc0 acc1 : BitVec 8) : Bool :=
  if on then
    acc0.toNat % 8 = 0 && acc0.toNat ≤ 184 &&
      (if en1 then acc1.toNat % 8 = 0 && acc1.toNat ≤ 184 &&
        (acc0.toNat + 72 ≤ acc1.toNat || acc1.toNat + 72 ≤ acc0.toNat) else acc1 = 0)
  else !en1 && acc0 = 0 && acc1 = 0

/-- Barrier ids below the per-unit limit (R126, Table 2-1). -/
def barOk (sc : Scope) (id : BitVec 16) : Bool :=
  match sc with
  | .core => id.toNat < 16
  | .quad | .die => id.toNat < 4
  | .pkg => id.toNat < 2
  | _ => false

/-- An `.n`-format target kind check: the two targets of an instruction without a result are of kind none (R99). -/
def Hdr.noRes (h : Hdr) : Bool := h.t0 == .none && h.t1 == .none

/-- Targets agree with the results: an instruction without a result names none (R99, R121, R362). -/
def Instr.targetsOk (i : Instr) : Bool :=
  match i with
  | .null _ => true
  | i => match i.hdr? with
    | none => true
    | some h => i.sig.r0.isSome || h.noRes

/-- The BT4 type field of `vencb` (R335). -/
def vencbOk (f : BFmt) (bt : Option BtType) : Bool := f == .bt4 || bt.isNone

/-- Field values each entry accepts (R80). Events are well formed. -/
def Instr.fieldsOk : Instr → Bool
  | .nop _ => true
  | .mov _ _ => true
  | .fan _ _ _ _ => true
  | .const _ _ => true
  | .consth _ top imm => !top || imm.toNat < 256
  | .null _ => true
  | .sadd _ _ => true
  | .ssub _ _ => true
  | .smul _ _ => true
  | .smulh _ _ _ => true
  | .sdiv _ _ _ => true
  | .srem _ _ _ => true
  | .sand _ _ => true
  | .sor _ _ => true
  | .sxor _ _ => true
  | .sshl _ _ => true
  | .sshr _ _ => true
  | .ssra _ _ => true
  | .smin _ _ _ => true
  | .smax _ _ _ => true
  | .lea _ _ _ => true
  | .scmp _ _ _ => true
  | .ssel _ => true
  | .sclz _ => true
  | .spopc _ => true
  | .kand _ _ => true
  | .kor _ _ => true
  | .kxor _ _ => true
  | .kandn _ _ => true
  | .kcnt _ => true
  | .kff _ => true
  | .kmov _ _ => true
  | .vote _ _ => true
  | .sysrd _ sel imm => sel == .linklat || imm == 0
  | .fmtset _ _ => true
  | .fmtrd _ => true
  | .bro _ _ => true
  | .brx _ => true
  | .brv _ _ => true
  | .call _ _ => true
  | .ret _ => true
  | .exit _ => true
  | .bar _ scope id => barOk scope id
  | .yield _ => true
  | .trap _ _ _ => true
  | .brk _ _ => true
  | .tlwait _ _ => true
  | .vadd _ ty im => ty.isN && vImmOk ty im
  | .vsub _ ty im => ty.isN && vImmOk ty im
  | .vaddc _ _ => true
  | .vsubb _ _ => true
  | .vmul _ ty im => ty.isN && vImmOk ty im
  | .vmulh _ ty im => ty.isWideI && vImmOk ty im
  | .vmulw _ ty im => ty.isWideI && vImmOk ty im
  | .vmad _ ty im => ty.isN && vImmOk ty im
  | .vdiv _ ty im => ty.isDiv && vImmOk ty im
  | .vrem _ ty im => ty.isI32 && vImmOk ty im
  | .vsqrt _ => true
  | .vabs _ ty => ty.isSG
  | .vneg _ ty => ty.isSG
  | .vmin _ ty im => ty.isN && vImmOk ty im
  | .vmax _ ty im => ty.isN && vImmOk ty im
  | .vaddsat _ ty im => ty.isI && vImmOk ty im
  | .vsubsat _ ty im => ty.isI && vImmOk ty im
  | .vavg _ ty im => ty.isI && vImmOk ty im
  | .vabsd _ ty im => ty.isI && vImmOk ty im
  | .vdot4 _ ty im => ty.isDot && vImmOk ty im
  | .vscale _ _ => true
  | .vrint _ _ => true
  | .vgetexp _ => true
  | .vclass _ => true
  | .vand _ _ => true
  | .vor _ _ => true
  | .vxor _ _ => true
  | .vnot _ => true
  | .vshl _ ty im => ty.isShl && vImmOk ty im
  | .vshr _ ty im => ty.isShl && vImmOk ty im
  | .vsra _ ty im => ty.isSra && vImmOk ty im
  | .vrotl _ _ => true
  | .vclz _ => true
  | .vpopc _ => true
  | .vbrev _ => true
  | .vcmp _ ty cond => vcondOk ty cond
  | .vsel _ _ => true
  | .vsplat _ _ => true
  | .vshfl _ _ => true
  | .vbcast _ _ => true
  | .vlrot _ _ => true
  | .vcompress _ => true
  | .vexpand _ => true
  | .vcvt _ dst src md part => vcvtOk dst src md part
  | .vencb _ f bt => vencbOk f bt
  | .vdecb _ _ => true
  | .vexp2 _ => true
  | .vlog2 _ => true
  | .vrcp _ => true
  | .vrsqrt _ => true
  | .vsin _ _ => true
  | .vcos _ _ => true
  | .vred _ ty op => redOk ty op
  | .vscan _ ty _ op => redOk ty op
  | .mmode _ on en1 acc0 acc1 => mmodeOk on en1 acc0 acc1
  | .mzero _ _ _ => true
  | .mma _ _ _ => true
  | .mmar _ steps s0 => s0.toNat + steps.toNat + 1 ≤ 32
  | .mmax _ _ => true
  | .mexp _ _ => true
  | .mrescale _ _ => true
  | .mld _ _ _ => true
  | .mst _ _ _ _ => true
  | .ld _ m _ => loadOk m
  | .st _ m _ => storeOk m
  | .lds _ m _ => loadOk m
  | .sts _ m _ => storeOk m
  | .spld _ m _ => spOk .acq false m
  | .spst _ m _ => spOk .rel false m
  | .spldq _ m _ => spOk .acq true m
  | .spstq _ m _ => spOk .rel true m
  | .prefetch _ m _ => m.ord == .plain && m.scope == .warp
  | .atom _ m _ => atomOk m true
  | .red _ m op => atomOk m false && op != .exch && op != .cas
  | .vmatch _ => true
  | .fence _ scope _ => scope != .warp
  | .tlrd _ _ _ => true
  | .push _ _ _ => true
  | .stroke _ _ => true
  | .tkrd _ _ => true
  | .tsend _ _ => true
  | .trecv _ _ => true
  | .syswr _ _ => true
  | .cachectlWb _ => true
  | .cachectlWbinv _ => true
  | .cachectlL1inv _ => true
  | .perfctlRd _ n => n.toNat < 8 || 16 ≤ n.toNat && n.toNat < 32
  | .perfctlCfg _ n => n.toNat < 8 || 16 ≤ n.toNat && n.toNat < 32
  | .perfctlClr _ n => n.toNat < 8 || 16 ≤ n.toNat && n.toNat < 32
  | .ctxctlTrrd _ => true
  | .ctxctlTret _ => true
  | .eret _ => true
  | .hint _ _ _ => true
  | .blockFetch _ => true
  | .blockCommit _ => true
  | .blockQuiescent _ => true
  | .barrierComplete _ _ _ => true
  | .tlwaitResume _ => true
  | .strokeBoundaryExit _ => true
  | .seatHandover _ _ _ => true
  | .accessHeldTimeout _ => true
  | .seatTenureExpiry _ => true
  | .warpAccessComplete _ => true
  | .launch _ => true
  | .submissionWindowWrite _ _ => true
  | .launchPlacement => true
  | .effectivePriorityRise _ => true
  | .timedLaunchStart _ => true
  | .preemptGang _ => true
  | .preemptBlockTimeout _ => true
  | .preemptDrained _ => true
  | .contextSwitch _ _ => true
  | .gangResume _ => true
  | .teamComplete _ => true
  | .gridComplete _ => true
  | .copy2d _ => true
  | .copy3d _ => true
  | .gather _ => true
  | .scatter _ => true
  | .fill _ => true
  | .preloadL2 _ => true
  | .copyChunk _ _ => true
  | .commandComplete _ _ => true
  | .timedCopyStart _ _ => true
  | .allreduce _ => true
  | .reducescatter _ => true
  | .allgather _ => true
  | .broadcast _ => true
  | .barrier _ => true
  | .collectiveTimeout _ _ => true
  | .collectiveAbortReceived _ _ _ => true
  | .collectivePacketReceived _ _ _ _ _ _ _ _ => true
  | .groupEnd _ _ => true
  | .groupWashComplete _ _ => true
  | .groupDefine _ _ _ _ => true
  | .remoteRequestTimeout _ => true
  | .tsendTransferStart _ => true
  | .transferLanded _ => true
  | .trecvWindowMiss _ _ => true
  | .trecvCopyDone _ _ => true
  | .loadDataReturn _ _ => true
  | .dieCacheRequest _ => true
  | .dieCacheFillArrival _ => true
  | .storeAcknowledge _ => true
  | .l1ClockAdvance _ _ => true
  | .throughLineExpiry _ _ _ _ => true
  | .leaseWrapAround _ => true
  | .promoteRequest _ => true
  | .gets _ => true
  | .getm _ => true
  | .putm _ => true
  | .puts _ => true
  | .fwdgets _ => true
  | .fwdgetm _ => true
  | .inv _ => true
  | .resp _ => true
  | .invack _ => true
  | .data _ => true
  | .wback _ => true
  | .coxRead _ _ => true
  | .coxEviction _ _ => true
  | .coxWrite _ _ _ => true
  | .refresh _ => true
  | .tickExchangeSend _ => true
  | .tickExchangeReceive _ => true
  | .timelineLost _ => true
  | .clockStepChange => true
  | .droopTickStretch _ => true
  | .junctionHot => true
  | .junctionCool => true
  | .thermalTrip => true
  | .powerOn _ => true
  | .bringUpStageComplete _ => true
  | .setPowerCap _ => true
  | .clearThermalTrip => true
  | .stageFirmwareUpdate _ => true
  | .misroutedPacket _ => true
  | .lqctlWrite _ _ => true
  | .lqstatWrite _ _ => true
  | .lscfgWrite _ _ => true
  | .contextBlockWrite _ _ => true
  | .blockTableSwap _ _ _ _ => true
  | .systemRegisterWrite _ _ => true
  | .map _ _ => true
  | .unmap _ _ => true
  | .protect _ _ => true
  | .pageWalk _ _ => true
  | .ctxCreate _ => true
  | .ctxDestroy _ => true
  | .frameAssign _ _ _ _ _ => true
  | .frameReclaim _ _ _ => true
  | .homeSet _ _ _ => true
  | .windowCreate _ _ _ => true
  | .windowJoin _ _ => true
  | .windowLeave _ _ => true
  | .exportSet _ _ => true
  | .measureExtend _ _ => true
  | .attest _ _ => true
  | .debugUnlock _ => true
  | .faultRecordPost => true
  | .faultQueueRecheck _ => true
  | .retry _ _ => true
  | .resumeAt _ _ _ => true
  | .retire _ _ => true
  | .retryUnchecked _ _ => true
  | .stop _ _ => true
  | .umpireHazard _ _ _ _ => true
  | .correctedError _ => true
  | .uncorrectableError _ => true
  | .linkCrcError _ _ => true
  | .coreFenced _ _ => true
  | .frameMarked _ _ => true
  | .linkHalfWidth _ => true
  | .dieFenced _ => true
  | .pcieLinkDown => true
  | .packagePowerAtCap _ => true
  | .remoteRequestReceived _ _ _ _ _ => true
  | .timelineLostPersists _ => true
  | .codeObjectLoad _ _ _ _ _ => true
  | .codeObjectUnload _ _ => true

/-- A well-formed instruction: accepted field values and targets that fit its results. -/
def Instr.wf (i : Instr) : Bool := i.fieldsOk && i.targetsOk

end Sys2Proof
end

