-- ==== Sys2Proof/Decode.lean ====
section
/-! DEFINITION. Decoding of an instruction word (R78, R79, R86, Tables 3-8 to 3-13) and the encoder. Total on any word; a word that is no
instruction is refused by name, with the row of Table 3-15 it breaks. -/

namespace Sys2Proof

/-- Why a word is no instruction. -/
inductive DecodeErr where
  /-- A reserved or unused field is not zero (R5, R80): row 2. -/
  | reserved
  /-- An unassigned opcode (R87): row 11. -/
  | opcode
  /-- `PM` = 11: row 12. -/
  | predMode
  /-- A `TYPE` code or modifier the opcode does not accept (R85): row 13. -/
  | type
  /-- A target of a kind or with bits that name nothing, or a target on an instruction without a result: row 14. -/
  | target
  /-- Scope code 6 or 7 (R24): row 17. -/
  | scope
  /-- A used field holds a value the entry does not accept (R80): row 24. -/
  | value
deriving DecidableEq, Repr

/-- The row of Table 3-15. -/
def DecodeErr.row : DecodeErr → Nat
  | .reserved => 2
  | .opcode => 11
  | .predMode => 12
  | .type => 13
  | .target => 14
  | .scope => 17
  | .value => 24

/-- The result of decoding a part of a word. -/
abbrev D (α : Type) := Except DecodeErr α

/-- Apply, keeping the error of the lower row when both fail (R90: the first failing row). -/
def dApp {α β : Type} (f : D (α → β)) (x : D α) : D β :=
  match f, x with
  | .ok g, .ok a => .ok (g a)
  | .error e, .ok _ => .error e
  | .ok _, .error e => .error e
  | .error e, .error e' => if e'.row < e.row then .error e' else .error e

/-- Add a check to a result. -/
def dChk {α : Type} (x : D α) (ok : Bool) (e : DecodeErr) : D α :=
  dApp (dApp (.ok fun a _ => a) x) (if ok then .ok () else .error e)

/-- An option as a result. -/
def dOpt {α : Type} (o : Option α) (e : DecodeErr) : D α :=
  match o with
  | some a => .ok a
  | none => .error e

/-- `OPC`, bits [63:55]. -/
def wOpc (w : BitVec 64) : Nat := (w.extractLsb' 55 9).toNat
/-- `TYPE`, bits [52:49]. -/
def wTy (w : BitVec 64) : BitVec 4 := w.extractLsb' 49 4
/-- Bits [28:0]. -/
def wLow (w : BitVec 64) : BitVec 29 := w.extractLsb' 0 29

/-- A target from its ten bits (Table 3-10). Table 3-15 does not say whether the zero bits of a target of kind 00 or 10 are a reserved field, of
row 2, or part of the target; row 14 is the model's choice (log 53). -/
def decTarget (t : BitVec 10) : D Target :=
  match (t.extractLsb' 8 2).toNat with
  | 0 => if t.extractLsb' 0 8 = 0 then .ok .none else .error .target
  | 1 => dApp (.ok fun s => .opnd (t.extractLsb' 2 6) s) (dOpt (Slot.ofCode (t.extractLsb' 0 2)) .target)
  | 2 => if t.extractLsb' 4 4 = 0 then .ok (.out (t.extractLsb' 0 4)) else .error .target
  | _ => .error .target

/-- The header of a word (Table 3-8). -/
def decHdr (w : BitVec 64) : D Hdr :=
  dApp (dApp (dApp (.ok Hdr.mk) (dOpt (Pred.ofCode (w.extractLsb' 53 2)) .predMode)) (decTarget (w.extractLsb' 39 10)))
    (decTarget (w.extractLsb' 29 10))

/-- The header of an instruction without a result (R99). Table 3-15 names no row for a target on such an instruction; row 14, that of targets,
is the model's choice (log 53). -/
def decHdrNone (w : BitVec 64) : D Hdr := dChk (decHdr w) (w.extractLsb' 29 20 == 0) .target

/-- Slot b immediate of a scalar or mask instruction (R84). -/
def decImm (w : BitVec 64) : D (Option (BitVec 28)) :=
  if w.getLsbD 28 then .ok (some (w.extractLsb' 0 28)) else if w.extractLsb' 0 28 = 0 then .ok none else .error .reserved

/-- Slot b immediate of a vector instruction of type `t` (Table 3-11). The spec says that other bits of `IMM` make the block invalid and names
no row of Table 3-15: row 2 is the model's choice (log 53). -/
def decImmV (t : BitVec 4) (w : BitVec 64) : D (Option (BitVec 28)) :=
  match VTy.ofCode t with
  | none => decImm w
  | some ty => match decImm w with
    | .ok im => if vImmOk ty im then .ok im else .error .reserved
    | .error e => .error e

/-- A type of an accepted set (R85). -/
def decVTy (ok : VTy → Bool) (w : BitVec 64) : D VTy :=
  match VTy.ofCode (wTy w) with
  | some t => if ok t then .ok t else .error .type
  | none => .error .type

/-- A bounded number. -/
def decFin (n : Nat) (x : Nat) (e : DecodeErr) : D (Fin n) := if h : x < n then .ok ⟨x, h⟩ else .error e

/-- A one-bit modifier in `TYPE`. -/
def decBoolTy (w : BitVec 64) : D Bool :=
  match (wTy w).toNat with
  | 0 => .ok false
  | 1 => .ok true
  | _ => .error .type

/-- The fields of format M; the ordering and scope a load or store may carry are checked by the caller. -/
def decM (ok : MFields → Bool) (w : BitVec 64) : D MFields :=
  match Rqt.ofCode (w.extractLsb' 22 2), Ord.ofCode (w.extractLsb' 17 2), Scope.ofCode (w.extractLsb' 19 3) with
  | some r, some o, some s =>
    let m : MFields := ⟨w.extractLsb' 24 5, r, s, o, w.extractLsb' 0 17⟩
    if ok m then .ok m else .error .value
  | _, _, _ => .error .scope

/-- A counter of `tlwait` and `tlrd` (Table 4-9). -/
def decCtr (w : BitVec 64) : D Ctr :=
  match (w.extractLsb' 25 4).toNat with
  | 0 => if w.extractLsb' 0 25 = 0 then .ok .tlc else .error .reserved
  | 1 => if w.extractLsb' 0 25 = 0 then .ok .tlk else .error .reserved
  | 2 => if w.extractLsb' 6 19 = 0 then .ok (.tll (w.extractLsb' 0 6)) else .error .reserved
  | _ => .error .value

/-- A queue of `push` (Table 8-7). -/
def decPushQ (w : BitVec 64) : D PushQ :=
  match (w.extractLsb' 25 4).toNat with
  | 0 => .ok (.copy (w.extractLsb' 0 25))
  | 1 => if w.extractLsb' 0 25 = 0 then .ok .coll else .error .reserved
  | 2 => if w.extractLsb' 6 19 = 0 then .ok (.launch (w.extractLsb' 0 6)) else .error .reserved
  | _ => .error .value

/-- A register of `syswr` (Table 21-9). -/
def decSysReg (w : BitVec 64) : D SysReg :=
  let n := (w.extractLsb' 0 16).toNat
  match (w.extractLsb' 16 13).toNat with
  | 0 => if n < 64 then .ok (.lqctl (w.extractLsb' 0 6)) else .error .value
  | 1 => if n < 8 then .ok (.lscfg (w.extractLsb' 0 3)) else .error .value
  | 2 => if n < 2048 then .ok (.ctxWord (w.extractLsb' 0 11)) else .error .value
  | 3 => if n < 256 then .ok (.faultRes (w.extractLsb' 0 8)) else .error .value
  | _ => .error .value

/-- A one-bit modifier as a `TYPE` code. -/
def boolNib (b : Bool) : BitVec 4 := if b then 1 else 0

/-- `IMMB` and `IMM` of a slot b immediate. -/
def encImm (im : Option (BitVec 28)) : BitVec 29 :=
  match im with
  | none => 0
  | some i => 1#1 ++ i

/-- `IMM` of `vencb` (R335). -/
def encBt (f : BFmt) (bt : Option BtType) : BitVec 29 :=
  match bt with
  | none => 0#25 ++ f.code
  | some t => 0#22 ++ t.code ++ 1#1 ++ f.code

/-- The BT4 type of `vencb` (R335). -/
def decBt (w : BitVec 64) : D (Option BtType) :=
  if w.getLsbD 4 then
    (if w.extractLsb' 0 4 = 8 then dApp (.ok some) (dOpt (BtType.ofCode (w.extractLsb' 5 2)) .value) else .error .value)
  else if w.extractLsb' 5 2 = 0 then .ok none else .error .value

/-- A word of a selected opcode whose `SEL` its entry does not accept (row 24), with whatever else of it is refused: the rows of the header, of
`TYPE` and, where the opcode has no use for it, of `IMM16` come first (R90). -/
def decNoSel (w : BitVec 64) (h : D Hdr) (imm : Bool) : D Instr :=
  dChk (dChk (dChk (dApp (.ok Instr.eret) h) (wTy w == 0#4) .type) (imm || w.extractLsb' 0 16 == 0) .reserved) false .value

/-- Zero bits of a word from bit `lo`, `n` of them. -/
def zeroAt (w : BitVec 64) (lo n : Nat) : Bool := w.extractLsb' lo n == 0

/-- An instruction from its word: fields by Tables 3-8 to 3-13, checks by the entries. Where the spec does not say which row of Table 3-15
a refused field belongs to, the model chooses (log 53): a field of the format that the entry does not use is row 2, one that the entry names
and gives the value zero, such as `SEL` of `brk`, is row 24, and so is a scope that `bar` or `fence` does not accept, 6 and 7 among them. -/
def decode (w : BitVec 64) : Except DecodeErr Instr :=
  match wOpc w with
  | 0x0 => (dChk (dChk (dApp (.ok Instr.nop) (decHdrNone w)) (wTy w == 0#4) .type) (zeroAt w 0 29) .reserved)
  | 0x1 => (dChk (dApp (dApp (.ok Instr.mov) (decHdr w)) (dOpt (Shape.ofCode (wTy w)) .type)) (zeroAt w 0 29) .reserved)
  | 0x2 => (dChk (dChk (dApp (dApp (dApp (dApp (.ok Instr.fan) (decHdr w)) (dOpt (Shape.ofCode (wTy w)) .type)) (decTarget (w.extractLsb' 18 10))) (decTarget (w.extractLsb' 8 10))) (zeroAt w 0 8) .reserved) (zeroAt w 28 1) .reserved)
  | 0x3 => (dChk (dChk (dApp (dApp (.ok Instr.const) (decHdr w)) (.ok (w.extractLsb' 0 28))) (wTy w == 0#4) .type) (zeroAt w 28 1) .reserved)
  | 0x4 => (dChk (dChk (dApp (dApp (dApp (.ok Instr.consth) (decHdr w)) (decBoolTy w)) (.ok (w.extractLsb' 0 28))) (zeroAt w 28 1) .reserved) (wTy w != 1#4 || zeroAt w 8 20) .reserved)
  | 0x5 => (dChk (dChk (dApp (.ok Instr.null) (decHdr w)) (wTy w == 0#4) .type) (zeroAt w 0 29) .reserved)
  | 0x6 => (dChk (dApp (dApp (.ok Instr.sadd) (decHdr w)) (decImm w)) (wTy w == 0#4) .type)
  | 0x7 => (dChk (dApp (dApp (.ok Instr.ssub) (decHdr w)) (decImm w)) (wTy w == 0#4) .type)
  | 0x8 => (dChk (dApp (dApp (.ok Instr.smul) (decHdr w)) (decImm w)) (wTy w == 0#4) .type)
  | 0x9 => (dApp (dApp (dApp (.ok Instr.smulh) (decHdr w)) (dOpt (Sgn.ofCode (wTy w)) .type)) (decImm w))
  | 0xa => (dApp (dApp (dApp (.ok Instr.sdiv) (decHdr w)) (dOpt (Sgn.ofCode (wTy w)) .type)) (decImm w))
  | 0xb => (dApp (dApp (dApp (.ok Instr.srem) (decHdr w)) (dOpt (Sgn.ofCode (wTy w)) .type)) (decImm w))
  | 0xc => (dChk (dApp (dApp (.ok Instr.sand) (decHdr w)) (decImm w)) (wTy w == 0#4) .type)
  | 0xd => (dChk (dApp (dApp (.ok Instr.sor) (decHdr w)) (decImm w)) (wTy w == 0#4) .type)
  | 0xe => (dChk (dApp (dApp (.ok Instr.sxor) (decHdr w)) (decImm w)) (wTy w == 0#4) .type)
  | 0xf => (dChk (dApp (dApp (.ok Instr.sshl) (decHdr w)) (decImm w)) (wTy w == 0#4) .type)
  | 0x10 => (dChk (dApp (dApp (.ok Instr.sshr) (decHdr w)) (decImm w)) (wTy w == 0#4) .type)
  | 0x11 => (dChk (dApp (dApp (.ok Instr.ssra) (decHdr w)) (decImm w)) (wTy w == 0#4) .type)
  | 0x12 => (dApp (dApp (dApp (.ok Instr.smin) (decHdr w)) (dOpt (Sgn.ofCode (wTy w)) .type)) (decImm w))
  | 0x13 => (dApp (dApp (dApp (.ok Instr.smax) (decHdr w)) (dOpt (Sgn.ofCode (wTy w)) .type)) (decImm w))
  | 0x14 => (dApp (dApp (dApp (.ok Instr.lea) (decHdr w)) (decFin 5 (wTy w).toNat .type)) (decImm w))
  | 0x15 => (dApp (dApp (dApp (.ok Instr.scmp) (decHdr w)) (dOpt (SCond.ofCode (wTy w)) .type)) (decImm w))
  | 0x16 => (dChk (dChk (dApp (.ok Instr.ssel) (decHdr w)) (wTy w == 0#4) .type) (zeroAt w 0 29) .reserved)
  | 0x17 => (dChk (dChk (dApp (.ok Instr.sclz) (decHdr w)) (wTy w == 0#4) .type) (zeroAt w 0 29) .reserved)
  | 0x18 => (dChk (dChk (dApp (.ok Instr.spopc) (decHdr w)) (wTy w == 0#4) .type) (zeroAt w 0 29) .reserved)
  | 0x19 => (dChk (dApp (dApp (.ok Instr.kand) (decHdr w)) (decImm w)) (wTy w == 0#4) .type)
  | 0x1a => (dChk (dApp (dApp (.ok Instr.kor) (decHdr w)) (decImm w)) (wTy w == 0#4) .type)
  | 0x1b => (dChk (dApp (dApp (.ok Instr.kxor) (decHdr w)) (decImm w)) (wTy w == 0#4) .type)
  | 0x1c => (dChk (dApp (dApp (.ok Instr.kandn) (decHdr w)) (decImm w)) (wTy w == 0#4) .type)
  | 0x1d => (dChk (dChk (dApp (.ok Instr.kcnt) (decHdr w)) (wTy w == 0#4) .type) (zeroAt w 0 29) .reserved)
  | 0x1e => (dChk (dChk (dApp (.ok Instr.kff) (decHdr w)) (wTy w == 0#4) .type) (zeroAt w 0 29) .reserved)
  | 0x1f => (dChk (dApp (dApp (.ok Instr.kmov) (decHdr w)) (decBoolTy w)) (zeroAt w 0 29) .reserved)
  | 0x20 => (dChk (dApp (dApp (.ok Instr.vote) (decHdr w)) (dOpt (VoteForm.ofCode (wTy w)) .type)) (zeroAt w 0 29) .reserved)
  | 0x21 => (dChk (dChk (dApp (dApp (dApp (.ok Instr.sysrd) (decHdr w)) (dOpt (SysSel.ofCode (w.extractLsb' 16 13)) .value)) (.ok (w.extractLsb' 0 16))) (wTy w == 0#4) .type) (w.extractLsb' 16 13 == 18#13 || zeroAt w 0 16) .reserved)
  | 0x22 => (dChk (dApp (dApp (.ok Instr.fmtset) (decHdrNone w)) (dOpt (FmtForm.ofCode (wTy w)) .type)) (zeroAt w 0 29) .reserved)
  | 0x23 => (dChk (dChk (dApp (.ok Instr.fmtrd) (decHdr w)) (wTy w == 0#4) .type) (zeroAt w 0 29) .reserved)
  | 0x40 => (dChk (dChk (dApp (dApp (.ok Instr.bro) (decHdrNone w)) (.ok (w.extractLsb' 5 24))) (wTy w == 0#4) .type) (zeroAt w 0 5) .reserved)
  | 0x41 => (dChk (dChk (dApp (.ok Instr.brx) (decHdrNone w)) (wTy w == 0#4) .type) (zeroAt w 0 29) .reserved)
  | 0x42 => (dChk (dChk (dApp (dApp (.ok Instr.brv) (decHdrNone w)) (.ok (w.extractLsb' 5 24))) (wTy w == 0#4) .type) (zeroAt w 0 5) .reserved)
  | 0x43 => (dChk (dChk (dApp (dApp (.ok Instr.call) (decHdrNone w)) (.ok (w.extractLsb' 5 24))) (wTy w == 0#4) .type) (zeroAt w 0 5) .reserved)
  | 0x44 => (dChk (dChk (dApp (.ok Instr.ret) (decHdrNone w)) (wTy w == 0#4) .type) (zeroAt w 0 29) .reserved)
  | 0x45 => (dChk (dChk (dApp (.ok Instr.exit) (decHdrNone w)) (wTy w == 0#4) .type) (zeroAt w 0 29) .reserved)
  | 0x46 => (dChk (dChk (dApp (dApp (dApp (.ok Instr.bar) (decHdrNone w)) (dOpt (if zeroAt w 19 10 then Scope.ofCode (w.extractLsb' 16 3) else none) .value)) (.ok (w.extractLsb' 0 16))) (wTy w == 0#4) .type) (match Scope.ofCode (w.extractLsb' 16 3) with | some sc => barOk sc (w.extractLsb' 0 16) | none => false) .value)
  | 0x47 => (dChk (dChk (dApp (.ok Instr.yield) (decHdrNone w)) (wTy w == 0#4) .type) (zeroAt w 0 29) .reserved)
  | 0x48 => (dChk (dChk (dApp (dApp (dApp (.ok Instr.trap) (decHdrNone w)) (.ok (w.extractLsb' 16 8))) (.ok (w.extractLsb' 0 16))) (wTy w == 0#4) .type) (zeroAt w 24 5) .value)
  | 0x49 => (dChk (dChk (dApp (dApp (.ok Instr.brk) (decHdrNone w)) (.ok (w.extractLsb' 0 16))) (wTy w == 0#4) .type) (zeroAt w 16 13) .value)
  | 0x4a => (dChk (dApp (dApp (.ok Instr.tlwait) (decHdrNone w)) (decCtr w)) (wTy w == 0#4) .type)
  | 0x80 => (dApp (dApp (dApp (.ok Instr.vadd) (decHdr w)) (decVTy VTy.isN w)) (decImmV (wTy w) w))
  | 0x81 => (dApp (dApp (dApp (.ok Instr.vsub) (decHdr w)) (decVTy VTy.isN w)) (decImmV (wTy w) w))
  | 0x82 => (dChk (dApp (dApp (.ok Instr.vaddc) (decHdr w)) (decImm w)) (wTy w == 1#4) .type)
  | 0x83 => (dChk (dApp (dApp (.ok Instr.vsubb) (decHdr w)) (decImm w)) (wTy w == 1#4) .type)
  | 0x84 => (dApp (dApp (dApp (.ok Instr.vmul) (decHdr w)) (decVTy VTy.isN w)) (decImmV (wTy w) w))
  | 0x85 => (dApp (dApp (dApp (.ok Instr.vmulh) (decHdr w)) (decVTy VTy.isWideI w)) (decImmV (wTy w) w))
  | 0x86 => (dApp (dApp (dApp (.ok Instr.vmulw) (decHdr w)) (decVTy VTy.isWideI w)) (decImmV (wTy w) w))
  | 0x87 => (dApp (dApp (dApp (.ok Instr.vmad) (decHdr w)) (decVTy VTy.isN w)) (decImmV (wTy w) w))
  | 0x88 => (dApp (dApp (dApp (.ok Instr.vdiv) (decHdr w)) (decVTy VTy.isDiv w)) (decImmV (wTy w) w))
  | 0x89 => (dApp (dApp (dApp (.ok Instr.vrem) (decHdr w)) (decVTy VTy.isI32 w)) (decImmV (wTy w) w))
  | 0x8a => (dChk (dChk (dApp (.ok Instr.vsqrt) (decHdr w)) (wTy w == 2#4) .type) (zeroAt w 0 29) .reserved)
  | 0x8b => (dChk (dApp (dApp (.ok Instr.vabs) (decHdr w)) (decVTy VTy.isSG w)) (zeroAt w 0 29) .reserved)
  | 0x8c => (dChk (dApp (dApp (.ok Instr.vneg) (decHdr w)) (decVTy VTy.isSG w)) (zeroAt w 0 29) .reserved)
  | 0x8d => (dApp (dApp (dApp (.ok Instr.vmin) (decHdr w)) (decVTy VTy.isN w)) (decImmV (wTy w) w))
  | 0x8e => (dApp (dApp (dApp (.ok Instr.vmax) (decHdr w)) (decVTy VTy.isN w)) (decImmV (wTy w) w))
  | 0x8f => (dApp (dApp (dApp (.ok Instr.vaddsat) (decHdr w)) (decVTy VTy.isI w)) (decImmV (wTy w) w))
  | 0x90 => (dApp (dApp (dApp (.ok Instr.vsubsat) (decHdr w)) (decVTy VTy.isI w)) (decImmV (wTy w) w))
  | 0x91 => (dApp (dApp (dApp (.ok Instr.vavg) (decHdr w)) (decVTy VTy.isI w)) (decImmV (wTy w) w))
  | 0x92 => (dApp (dApp (dApp (.ok Instr.vabsd) (decHdr w)) (decVTy VTy.isI w)) (decImmV (wTy w) w))
  | 0x93 => (dApp (dApp (dApp (.ok Instr.vdot4) (decHdr w)) (decVTy VTy.isDot w)) (decImmV (wTy w) w))
  | 0x94 => (dChk (dApp (dApp (.ok Instr.vscale) (decHdr w)) (decImm w)) (wTy w == 2#4) .type)
  | 0x95 => (dChk (dChk (dApp (dApp (.ok Instr.vrint) (decHdr w)) (decFin 6 (w.extractLsb' 0 3).toNat .value)) (wTy w == 2#4) .type) (zeroAt w 3 26) .reserved)
  | 0x96 => (dChk (dChk (dApp (.ok Instr.vgetexp) (decHdr w)) (wTy w == 2#4) .type) (zeroAt w 0 29) .reserved)
  | 0x97 => (dChk (dChk (dApp (.ok Instr.vclass) (decHdr w)) (wTy w == 2#4) .type) (zeroAt w 0 29) .reserved)
  | 0xc0 => (dChk (dApp (dApp (.ok Instr.vand) (decHdr w)) (decImm w)) (wTy w == 11#4) .type)
  | 0xc1 => (dChk (dApp (dApp (.ok Instr.vor) (decHdr w)) (decImm w)) (wTy w == 11#4) .type)
  | 0xc2 => (dChk (dApp (dApp (.ok Instr.vxor) (decHdr w)) (decImm w)) (wTy w == 11#4) .type)
  | 0xc3 => (dChk (dChk (dApp (.ok Instr.vnot) (decHdr w)) (wTy w == 11#4) .type) (zeroAt w 0 29) .reserved)
  | 0xc4 => (dApp (dApp (dApp (.ok Instr.vshl) (decHdr w)) (decVTy VTy.isShl w)) (decImmV (wTy w) w))
  | 0xc5 => (dApp (dApp (dApp (.ok Instr.vshr) (decHdr w)) (decVTy VTy.isShl w)) (decImmV (wTy w) w))
  | 0xc6 => (dApp (dApp (dApp (.ok Instr.vsra) (decHdr w)) (decVTy VTy.isSra w)) (decImmV (wTy w) w))
  | 0xc7 => (dChk (dApp (dApp (.ok Instr.vrotl) (decHdr w)) (decImm w)) (wTy w == 11#4) .type)
  | 0xc8 => (dChk (dChk (dApp (.ok Instr.vclz) (decHdr w)) (wTy w == 11#4) .type) (zeroAt w 0 29) .reserved)
  | 0xc9 => (dChk (dChk (dApp (.ok Instr.vpopc) (decHdr w)) (wTy w == 11#4) .type) (zeroAt w 0 29) .reserved)
  | 0xca => (dChk (dChk (dApp (.ok Instr.vbrev) (decHdr w)) (wTy w == 11#4) .type) (zeroAt w 0 29) .reserved)
  | 0xcb => (dChk (dChk (dApp (dApp (dApp (.ok Instr.vcmp) (decHdr w)) (decVTy VTy.isCmp w)) (dOpt (VCond.ofCode (w.extractLsb' 0 4)) .value)) (zeroAt w 4 25) .reserved) (match VTy.ofCode (wTy w), VCond.ofCode (w.extractLsb' 0 4) with | some t, some c => vcondOk t c | _, _ => false) .value)
  | 0xcc => (dChk (dApp (dApp (.ok Instr.vsel) (decHdr w)) (decImm w)) (wTy w == 11#4) .type)
  | 0xcd => (dChk (dApp (dApp (.ok Instr.vsplat) (decHdr w)) (decBoolTy w)) (zeroAt w 0 29) .reserved)
  | 0xce => (dChk (dApp (dApp (.ok Instr.vshfl) (decHdr w)) (decImm w)) (wTy w == 11#4) .type)
  | 0xcf => (dChk (dApp (dApp (.ok Instr.vbcast) (decHdr w)) (decImm w)) (wTy w == 11#4) .type)
  | 0xd0 => (dChk (dApp (dApp (.ok Instr.vlrot) (decHdr w)) (decImm w)) (wTy w == 11#4) .type)
  | 0xd1 => (dChk (dChk (dApp (.ok Instr.vcompress) (decHdr w)) (wTy w == 11#4) .type) (zeroAt w 0 29) .reserved)
  | 0xd2 => (dChk (dChk (dApp (.ok Instr.vexpand) (decHdr w)) (wTy w == 11#4) .type) (zeroAt w 0 29) .reserved)
  | 0x100 => (dChk (dChk (dApp (dApp (dApp (dApp (dApp (.ok Instr.vcvt) (decHdr w)) (decVTy VTy.isCvt w)) (dOpt (VTy.ofCode (w.extractLsb' 0 4)) .value)) (.ok (w.getLsbD 4))) (.ok (w.extractLsb' 5 2))) (zeroAt w 7 22) .reserved) (match VTy.ofCode (wTy w), VTy.ofCode (w.extractLsb' 0 4) with | some d, some s => vcvtOk d s (w.getLsbD 4) (w.extractLsb' 5 2) | _, _ => false) .value)
  | 0x101 => (dChk (dChk (dApp (dApp (dApp (.ok Instr.vencb) (decHdr w)) (dOpt (BFmt.ofCode (w.extractLsb' 0 4)) .value)) (decBt w)) (wTy w == 2#4) .type) (zeroAt w 7 22) .reserved)
  | 0x102 => (dChk (dChk (dApp (dApp (.ok Instr.vdecb) (decHdr w)) (dOpt (BFmt.ofCode (w.extractLsb' 0 4)) .value)) (wTy w == 2#4) .type) (zeroAt w 4 25) .reserved)
  | 0x103 => (dChk (dChk (dApp (.ok Instr.vexp2) (decHdr w)) (wTy w == 2#4) .type) (zeroAt w 0 29) .reserved)
  | 0x104 => (dChk (dChk (dApp (.ok Instr.vlog2) (decHdr w)) (wTy w == 2#4) .type) (zeroAt w 0 29) .reserved)
  | 0x105 => (dChk (dChk (dApp (.ok Instr.vrcp) (decHdr w)) (wTy w == 2#4) .type) (zeroAt w 0 29) .reserved)
  | 0x106 => (dChk (dChk (dApp (.ok Instr.vrsqrt) (decHdr w)) (wTy w == 2#4) .type) (zeroAt w 0 29) .reserved)
  | 0x107 => (dChk (dChk (dApp (dApp (.ok Instr.vsin) (decHdr w)) (.ok (w.getLsbD 0))) (wTy w == 2#4) .type) (zeroAt w 1 28) .reserved)
  | 0x108 => (dChk (dChk (dApp (dApp (.ok Instr.vcos) (decHdr w)) (.ok (w.getLsbD 0))) (wTy w == 2#4) .type) (zeroAt w 1 28) .reserved)
  | 0x109 => (dChk (dChk (dApp (dApp (dApp (.ok Instr.vred) (decHdr w)) (decVTy VTy.isCmp w)) (dOpt (RedOp.ofCode (w.extractLsb' 0 3)) .value)) (zeroAt w 3 26) .reserved) (match VTy.ofCode (wTy w), RedOp.ofCode (w.extractLsb' 0 3) with | some t, some o => redOk t o | _, _ => false) .value)
  | 0x10a => (dChk (dChk (dApp (dApp (dApp (dApp (.ok Instr.vscan) (decHdr w)) (decVTy VTy.isCmp w)) (.ok (w.getLsbD 3))) (dOpt (RedOp.ofCode (w.extractLsb' 0 3)) .value)) (zeroAt w 4 25) .reserved) (match VTy.ofCode (wTy w), RedOp.ofCode (w.extractLsb' 0 3) with | some t, some o => redOk t o | _, _ => false) .value)
  | 0x140 => (dChk (dChk (dChk (dChk (dApp (dApp (dApp (dApp (dApp (.ok Instr.mmode) (decHdrNone w)) (.ok (w.getLsbD 0))) (.ok (w.getLsbD 1))) (.ok (w.extractLsb' 2 8))) (.ok (w.extractLsb' 10 8))) (wTy w == 0#4) .type) (zeroAt w 20 9) .value) (zeroAt w 18 2) .value) (mmodeOk (w.getLsbD 0) (w.getLsbD 1) (w.extractLsb' 2 8) (w.extractLsb' 10 8)) .value)
  | 0x141 => (dChk (dChk (dChk (dApp (dApp (dApp (.ok Instr.mzero) (decHdrNone w)) (.ok (w.getLsbD 20))) (.ok (w.getLsbD 0))) (wTy w == 0#4) .type) (zeroAt w 21 8) .value) (zeroAt w 1 19) .value)
  | 0x142 => (dChk (dChk (dApp (dApp (dApp (.ok Instr.mma) (decHdrNone w)) (.ok (w.getLsbD 20))) (.ok (w.extractLsb' 21 8))) (wTy w == 0#4) .type) (zeroAt w 0 20) .value)
  | 0x143 => (dChk (dChk (dChk (dChk (dApp (dApp (dApp (.ok Instr.mmar) (decHdrNone w)) (.ok (w.extractLsb' 21 8))) (.ok (w.extractLsb' 0 5))) (wTy w == 0#4) .type) (zeroAt w 5 15) .value) (w.getLsbD 20) .value) (decide ((w.extractLsb' 0 5).toNat + (w.extractLsb' 21 8).toNat + 1 ≤ 32)) .value)
  | 0x144 => (dChk (dChk (dChk (dApp (dApp (.ok Instr.mmax) (decHdrNone w)) (.ok (w.getLsbD 20))) (wTy w == 0#4) .type) (zeroAt w 21 8) .value) (zeroAt w 0 20) .value)
  | 0x145 => (dChk (dChk (dChk (dApp (dApp (.ok Instr.mexp) (decHdrNone w)) (.ok (w.getLsbD 20))) (wTy w == 0#4) .type) (zeroAt w 21 8) .value) (zeroAt w 0 20) .value)
  | 0x146 => (dChk (dChk (dChk (dApp (dApp (.ok Instr.mrescale) (decHdrNone w)) (.ok (w.getLsbD 20))) (wTy w == 0#4) .type) (zeroAt w 21 8) .value) (zeroAt w 0 20) .value)
  | 0x147 => (dChk (dChk (dChk (dApp (dApp (dApp (.ok Instr.mld) (decHdrNone w)) (.ok (w.getLsbD 20))) (dOpt (MPart.ofCode (w.extractLsb' 0 2)) .value)) (wTy w == 0#4) .type) (zeroAt w 21 8) .value) (zeroAt w 2 18) .value)
  | 0x148 => (dChk (dChk (dChk (dApp (dApp (dApp (dApp (.ok Instr.mst) (decHdrNone w)) (.ok (w.getLsbD 20))) (dOpt (MPart.ofCode (w.extractLsb' 0 2)) .value)) (dOpt (SFmt.ofCode (w.extractLsb' 2 4)) .value)) (wTy w == 0#4) .type) (zeroAt w 21 8) .value) (zeroAt w 6 14) .value)
  | 0x180 => (dApp (dApp (dApp (.ok Instr.ld) (decHdr w)) (decM loadOk w)) (dOpt (VTy.ofCode (wTy w)) .type))
  | 0x181 => (dApp (dApp (dApp (.ok Instr.st) (decHdrNone w)) (decM storeOk w)) (dOpt (VTy.ofCode (wTy w)) .type))
  | 0x182 => (dApp (dApp (dApp (.ok Instr.lds) (decHdr w)) (decM loadOk w)) (dOpt (LdWidth.ofCode (wTy w)) .type))
  | 0x183 => (dApp (dApp (dApp (.ok Instr.sts) (decHdrNone w)) (decM storeOk w)) (dOpt (StWidth.ofCode (wTy w)) .type))
  | 0x184 => (dApp (dApp (dApp (.ok Instr.spld) (decHdr w)) (decM (spOk .acq false) w)) (dOpt (VTy.ofCode (wTy w)) .type))
  | 0x185 => (dApp (dApp (dApp (.ok Instr.spst) (decHdrNone w)) (decM (spOk .rel false) w)) (dOpt (VTy.ofCode (wTy w)) .type))
  | 0x186 => (dApp (dApp (dApp (.ok Instr.spldq) (decHdr w)) (decM (spOk .acq true) w)) (dOpt (VTy.ofCode (wTy w)) .type))
  | 0x187 => (dApp (dApp (dApp (.ok Instr.spstq) (decHdrNone w)) (decM (spOk .rel true) w)) (dOpt (VTy.ofCode (wTy w)) .type))
  | 0x188 => (dApp (dApp (dApp (.ok Instr.prefetch) (decHdrNone w)) (decM (fun m => m.ord == .plain && m.scope == .warp) w)) (decBoolTy w))
  | 0x189 => (dApp (dApp (dApp (.ok Instr.atom) (decHdr w)) (decM (fun m => atomOk m true) w)) (dOpt (AtomOp.ofCode (wTy w)) .type))
  | 0x18a => (dChk (dApp (dApp (dApp (.ok Instr.red) (decHdrNone w)) (decM (fun m => atomOk m false) w)) (dOpt (AtomOp.ofCode (wTy w)) .type)) (decide ((wTy w).toNat < 8)) .type)
  | 0x18b => (dChk (dChk (dApp (.ok Instr.vmatch) (decHdr w)) (wTy w == 11#4) .type) (zeroAt w 0 29) .reserved)
  | 0x18c => (dChk (dChk (dChk (dChk (dApp (dApp (dApp (.ok Instr.fence) (decHdrNone w)) (dOpt (Scope.ofCode (w.extractLsb' 16 3)) .value)) (.ok (w.getLsbD 19))) (wTy w == 0#4) .type) (zeroAt w 0 16) .reserved) (zeroAt w 20 9) .value) (!zeroAt w 16 3) .value)
  | 0x18d => (dApp (dApp (dApp (.ok Instr.tlrd) (decHdr w)) (dOpt (TlrdForm.ofCode (wTy w)) .type)) (decCtr w))
  | 0x18e => (dApp (dApp (dApp (.ok Instr.push) (decHdr w)) (if (wTy w).toNat = 0 then .error .type else decFin 7 ((wTy w).toNat - 1) .type)) (decPushQ w))
  | 0x1c0 => (dChk (dApp (dApp (.ok Instr.stroke) (decHdrNone w)) (decBoolTy w)) (zeroAt w 0 29) .reserved)
  | 0x1c1 => (dChk (dChk (dApp (dApp (.ok Instr.tkrd) (decHdr w)) (dOpt (TkSel.ofCode (w.extractLsb' 25 4)) .value)) (wTy w == 0#4) .type) (zeroAt w 0 25) .reserved)
  | 0x1c2 => (dChk (dChk (dApp (dApp (.ok Instr.tsend) (decHdrNone w)) (.ok (w.extractLsb' 0 25))) (wTy w == 0#4) .type) (zeroAt w 25 4) .reserved)
  | 0x1c3 => (dChk (dChk (dApp (dApp (.ok Instr.trecv) (decHdr w)) (.ok (w.extractLsb' 0 25))) (wTy w == 0#4) .type) (zeroAt w 25 4) .reserved)
  | 0x1c4 => (dChk (dApp (dApp (.ok Instr.syswr) (decHdrNone w)) (decSysReg w)) (wTy w == 0#4) .type)
  | 0x1c5 => match (w.extractLsb' 16 13).toNat with
    | 0 => (dChk (dChk (dApp (.ok Instr.cachectlWb) (decHdrNone w)) (zeroAt w 0 16) .reserved) (wTy w == 0#4) .type)
    | 1 => (dChk (dChk (dApp (.ok Instr.cachectlWbinv) (decHdrNone w)) (zeroAt w 0 16) .reserved) (wTy w == 0#4) .type)
    | 2 => (dChk (dChk (dApp (.ok Instr.cachectlL1inv) (decHdrNone w)) (zeroAt w 0 16) .reserved) (wTy w == 0#4) .type)
    | _ => decNoSel w (decHdrNone w) false
  | 0x1c6 => match (w.extractLsb' 16 13).toNat with
    | 0 => (dChk (dChk (dApp (dApp (.ok Instr.perfctlRd) (decHdr w)) (.ok (w.extractLsb' 0 16))) (decide ((w.extractLsb' 0 16).toNat < 8 ∨ (16 ≤ (w.extractLsb' 0 16).toNat ∧ (w.extractLsb' 0 16).toNat < 32))) .value) (wTy w == 0#4) .type)
    | 1 => (dChk (dChk (dApp (dApp (.ok Instr.perfctlCfg) (decHdrNone w)) (.ok (w.extractLsb' 0 16))) (decide ((w.extractLsb' 0 16).toNat < 8 ∨ (16 ≤ (w.extractLsb' 0 16).toNat ∧ (w.extractLsb' 0 16).toNat < 32))) .value) (wTy w == 0#4) .type)
    | 2 => (dChk (dChk (dApp (dApp (.ok Instr.perfctlClr) (decHdrNone w)) (.ok (w.extractLsb' 0 16))) (decide ((w.extractLsb' 0 16).toNat < 8 ∨ (16 ≤ (w.extractLsb' 0 16).toNat ∧ (w.extractLsb' 0 16).toNat < 32))) .value) (wTy w == 0#4) .type)
    | _ => decNoSel w (decHdr w) true
  | 0x1c7 => match (w.extractLsb' 16 13).toNat with
    | 0 => (dChk (dChk (dApp (.ok Instr.ctxctlTrrd) (decHdr w)) (zeroAt w 0 16) .reserved) (wTy w == 0#4) .type)
    | 1 => (dChk (dChk (dApp (.ok Instr.ctxctlTret) (decHdrNone w)) (zeroAt w 0 16) .reserved) (wTy w == 0#4) .type)
    | _ => decNoSel w (decHdr w) false
  | 0x1c8 => (dChk (dChk (dApp (.ok Instr.eret) (decHdrNone w)) (wTy w == 0#4) .type) (zeroAt w 0 29) .reserved)
  | 0x1f0 => (dChk (.ok (.hint (w.extractLsb' 55 4) (wTy w) (wLow w))) (zeroAt w 29 20 && zeroAt w 53 2) .reserved)
  | 0x1f1 => (dChk (.ok (.hint (w.extractLsb' 55 4) (wTy w) (wLow w))) (zeroAt w 29 20 && zeroAt w 53 2) .reserved)
  | 0x1f2 => (dChk (.ok (.hint (w.extractLsb' 55 4) (wTy w) (wLow w))) (zeroAt w 29 20 && zeroAt w 53 2) .reserved)
  | 0x1f3 => (dChk (.ok (.hint (w.extractLsb' 55 4) (wTy w) (wLow w))) (zeroAt w 29 20 && zeroAt w 53 2) .reserved)
  | 0x1f4 => (dChk (.ok (.hint (w.extractLsb' 55 4) (wTy w) (wLow w))) (zeroAt w 29 20 && zeroAt w 53 2) .reserved)
  | 0x1f5 => (dChk (.ok (.hint (w.extractLsb' 55 4) (wTy w) (wLow w))) (zeroAt w 29 20 && zeroAt w 53 2) .reserved)
  | 0x1f6 => (dChk (.ok (.hint (w.extractLsb' 55 4) (wTy w) (wLow w))) (zeroAt w 29 20 && zeroAt w 53 2) .reserved)
  | 0x1f7 => (dChk (.ok (.hint (w.extractLsb' 55 4) (wTy w) (wLow w))) (zeroAt w 29 20 && zeroAt w 53 2) .reserved)
  | 0x1f8 => (dChk (.ok (.hint (w.extractLsb' 55 4) (wTy w) (wLow w))) (zeroAt w 29 20 && zeroAt w 53 2) .reserved)
  | 0x1f9 => (dChk (.ok (.hint (w.extractLsb' 55 4) (wTy w) (wLow w))) (zeroAt w 29 20 && zeroAt w 53 2) .reserved)
  | 0x1fa => (dChk (.ok (.hint (w.extractLsb' 55 4) (wTy w) (wLow w))) (zeroAt w 29 20 && zeroAt w 53 2) .reserved)
  | 0x1fb => (dChk (.ok (.hint (w.extractLsb' 55 4) (wTy w) (wLow w))) (zeroAt w 29 20 && zeroAt w 53 2) .reserved)
  | 0x1fc => (dChk (.ok (.hint (w.extractLsb' 55 4) (wTy w) (wLow w))) (zeroAt w 29 20 && zeroAt w 53 2) .reserved)
  | 0x1fd => (dChk (.ok (.hint (w.extractLsb' 55 4) (wTy w) (wLow w))) (zeroAt w 29 20 && zeroAt w 53 2) .reserved)
  | 0x1fe => (dChk (.ok (.hint (w.extractLsb' 55 4) (wTy w) (wLow w))) (zeroAt w 29 20 && zeroAt w 53 2) .reserved)
  | 0x1ff => (dChk (.ok (.hint (w.extractLsb' 55 4) (wTy w) (wLow w))) (zeroAt w 29 20 && zeroAt w 53 2) .reserved)
  | _ => .error .opcode

/-- An instruction word from its parts (Table 3-8). -/
def mkWord (opc : BitVec 9) (h : Hdr) (ty : BitVec 4) (low : BitVec 29) : BitVec 64 :=
  opc ++ h.pm.code ++ ty ++ h.t0.code ++ h.t1.code ++ low

/-- The word of an instruction (Tables 3-8 to 3-13); an event has none. -/
def encode : Instr → Option (BitVec 64)
  | .nop h => some (mkWord 0x0 h (0#4) (0#29))
  | .mov h sh => some (mkWord 0x1 h (sh.code) (0#29))
  | .fan h sh t2 t3 => some (mkWord 0x2 h (sh.code) (0#1 ++ t2.code ++ t3.code ++ 0#8))
  | .const h imm => some (mkWord 0x3 h (0#4) (0#1 ++ imm))
  | .consth h top imm => some (mkWord 0x4 h (boolNib top) (0#1 ++ imm))
  | .null h => some (mkWord 0x5 h (0#4) (0#29))
  | .sadd h im => some (mkWord 0x6 h (0#4) (encImm im))
  | .ssub h im => some (mkWord 0x7 h (0#4) (encImm im))
  | .smul h im => some (mkWord 0x8 h (0#4) (encImm im))
  | .smulh h sg im => some (mkWord 0x9 h (sg.code) (encImm im))
  | .sdiv h sg im => some (mkWord 0xa h (sg.code) (encImm im))
  | .srem h sg im => some (mkWord 0xb h (sg.code) (encImm im))
  | .sand h im => some (mkWord 0xc h (0#4) (encImm im))
  | .sor h im => some (mkWord 0xd h (0#4) (encImm im))
  | .sxor h im => some (mkWord 0xe h (0#4) (encImm im))
  | .sshl h im => some (mkWord 0xf h (0#4) (encImm im))
  | .sshr h im => some (mkWord 0x10 h (0#4) (encImm im))
  | .ssra h im => some (mkWord 0x11 h (0#4) (encImm im))
  | .smin h sg im => some (mkWord 0x12 h (sg.code) (encImm im))
  | .smax h sg im => some (mkWord 0x13 h (sg.code) (encImm im))
  | .lea h sc im => some (mkWord 0x14 h (BitVec.ofNat 4 sc.val) (encImm im))
  | .scmp h cond im => some (mkWord 0x15 h (cond.code) (encImm im))
  | .ssel h => some (mkWord 0x16 h (0#4) (0#29))
  | .sclz h => some (mkWord 0x17 h (0#4) (0#29))
  | .spopc h => some (mkWord 0x18 h (0#4) (0#29))
  | .kand h im => some (mkWord 0x19 h (0#4) (encImm im))
  | .kor h im => some (mkWord 0x1a h (0#4) (encImm im))
  | .kxor h im => some (mkWord 0x1b h (0#4) (encImm im))
  | .kandn h im => some (mkWord 0x1c h (0#4) (encImm im))
  | .kcnt h => some (mkWord 0x1d h (0#4) (0#29))
  | .kff h => some (mkWord 0x1e h (0#4) (0#29))
  | .kmov h toMask => some (mkWord 0x1f h (boolNib toMask) (0#29))
  | .vote h form => some (mkWord 0x20 h (form.code) (0#29))
  | .sysrd h sel imm => some (mkWord 0x21 h (0#4) (sel.code ++ imm))
  | .fmtset h form => some (mkWord 0x22 h (form.code) (0#29))
  | .fmtrd h => some (mkWord 0x23 h (0#4) (0#29))
  | .bro h block => some (mkWord 0x40 h (0#4) (block ++ 0#5))
  | .brx h => some (mkWord 0x41 h (0#4) (0#29))
  | .brv h join => some (mkWord 0x42 h (0#4) (join ++ 0#5))
  | .call h block => some (mkWord 0x43 h (0#4) (block ++ 0#5))
  | .ret h => some (mkWord 0x44 h (0#4) (0#29))
  | .exit h => some (mkWord 0x45 h (0#4) (0#29))
  | .bar h scope id => some (mkWord 0x46 h (0#4) (0#10 ++ scope.code ++ id))
  | .yield h => some (mkWord 0x47 h (0#4) (0#29))
  | .trap h num payload => some (mkWord 0x48 h (0#4) (0#5 ++ num ++ payload))
  | .brk h payload => some (mkWord 0x49 h (0#4) (0#13 ++ payload))
  | .tlwait h ctr => some (mkWord 0x4a h (0#4) (ctr.code))
  | .vadd h ty im => some (mkWord 0x80 h (ty.code) (encImm im))
  | .vsub h ty im => some (mkWord 0x81 h (ty.code) (encImm im))
  | .vaddc h im => some (mkWord 0x82 h (1#4) (encImm im))
  | .vsubb h im => some (mkWord 0x83 h (1#4) (encImm im))
  | .vmul h ty im => some (mkWord 0x84 h (ty.code) (encImm im))
  | .vmulh h ty im => some (mkWord 0x85 h (ty.code) (encImm im))
  | .vmulw h ty im => some (mkWord 0x86 h (ty.code) (encImm im))
  | .vmad h ty im => some (mkWord 0x87 h (ty.code) (encImm im))
  | .vdiv h ty im => some (mkWord 0x88 h (ty.code) (encImm im))
  | .vrem h ty im => some (mkWord 0x89 h (ty.code) (encImm im))
  | .vsqrt h => some (mkWord 0x8a h (2#4) (0#29))
  | .vabs h ty => some (mkWord 0x8b h (ty.code) (0#29))
  | .vneg h ty => some (mkWord 0x8c h (ty.code) (0#29))
  | .vmin h ty im => some (mkWord 0x8d h (ty.code) (encImm im))
  | .vmax h ty im => some (mkWord 0x8e h (ty.code) (encImm im))
  | .vaddsat h ty im => some (mkWord 0x8f h (ty.code) (encImm im))
  | .vsubsat h ty im => some (mkWord 0x90 h (ty.code) (encImm im))
  | .vavg h ty im => some (mkWord 0x91 h (ty.code) (encImm im))
  | .vabsd h ty im => some (mkWord 0x92 h (ty.code) (encImm im))
  | .vdot4 h ty im => some (mkWord 0x93 h (ty.code) (encImm im))
  | .vscale h im => some (mkWord 0x94 h (2#4) (encImm im))
  | .vrint h mode => some (mkWord 0x95 h (2#4) (BitVec.ofNat 29 mode.val))
  | .vgetexp h => some (mkWord 0x96 h (2#4) (0#29))
  | .vclass h => some (mkWord 0x97 h (2#4) (0#29))
  | .vand h im => some (mkWord 0xc0 h (11#4) (encImm im))
  | .vor h im => some (mkWord 0xc1 h (11#4) (encImm im))
  | .vxor h im => some (mkWord 0xc2 h (11#4) (encImm im))
  | .vnot h => some (mkWord 0xc3 h (11#4) (0#29))
  | .vshl h ty im => some (mkWord 0xc4 h (ty.code) (encImm im))
  | .vshr h ty im => some (mkWord 0xc5 h (ty.code) (encImm im))
  | .vsra h ty im => some (mkWord 0xc6 h (ty.code) (encImm im))
  | .vrotl h im => some (mkWord 0xc7 h (11#4) (encImm im))
  | .vclz h => some (mkWord 0xc8 h (11#4) (0#29))
  | .vpopc h => some (mkWord 0xc9 h (11#4) (0#29))
  | .vbrev h => some (mkWord 0xca h (11#4) (0#29))
  | .vcmp h ty cond => some (mkWord 0xcb h (ty.code) (0#25 ++ cond.code))
  | .vsel h im => some (mkWord 0xcc h (11#4) (encImm im))
  | .vsplat h hi => some (mkWord 0xcd h (boolNib hi) (0#29))
  | .vshfl h im => some (mkWord 0xce h (11#4) (encImm im))
  | .vbcast h im => some (mkWord 0xcf h (11#4) (encImm im))
  | .vlrot h im => some (mkWord 0xd0 h (11#4) (encImm im))
  | .vcompress h => some (mkWord 0xd1 h (11#4) (0#29))
  | .vexpand h => some (mkWord 0xd2 h (11#4) (0#29))
  | .vcvt h dst src md part => some (mkWord 0x100 h (dst.code) (0#22 ++ part ++ BitVec.ofBool md ++ src.code))
  | .vencb h f bt => some (mkWord 0x101 h (2#4) (encBt f bt))
  | .vdecb h f => some (mkWord 0x102 h (2#4) (0#25 ++ f.code))
  | .vexp2 h => some (mkWord 0x103 h (2#4) (0#29))
  | .vlog2 h => some (mkWord 0x104 h (2#4) (0#29))
  | .vrcp h => some (mkWord 0x105 h (2#4) (0#29))
  | .vrsqrt h => some (mkWord 0x106 h (2#4) (0#29))
  | .vsin h turns => some (mkWord 0x107 h (2#4) (0#28 ++ BitVec.ofBool turns))
  | .vcos h turns => some (mkWord 0x108 h (2#4) (0#28 ++ BitVec.ofBool turns))
  | .vred h ty op => some (mkWord 0x109 h (ty.code) (0#26 ++ op.code))
  | .vscan h ty ex op => some (mkWord 0x10a h (ty.code) (0#25 ++ BitVec.ofBool ex ++ op.code))
  | .mmode h on en1 acc0 acc1 => some (mkWord 0x140 h (0#4) (0#9 ++ (0#2 ++ acc1 ++ acc0 ++ BitVec.ofBool en1 ++ BitVec.ofBool on)))
  | .mzero h win tile => some (mkWord 0x141 h (0#4) (0#8 ++ BitVec.ofBool win ++ (0#19 ++ BitVec.ofBool tile)))
  | .mma h win steps => some (mkWord 0x142 h (0#4) (steps ++ BitVec.ofBool win ++ 0#20))
  | .mmar h steps s0 => some (mkWord 0x143 h (0#4) (steps ++ 1#1 ++ (0#15 ++ s0)))
  | .mmax h win => some (mkWord 0x144 h (0#4) (0#8 ++ BitVec.ofBool win ++ 0#20))
  | .mexp h win => some (mkWord 0x145 h (0#4) (0#8 ++ BitVec.ofBool win ++ 0#20))
  | .mrescale h win => some (mkWord 0x146 h (0#4) (0#8 ++ BitVec.ofBool win ++ 0#20))
  | .mld h win part => some (mkWord 0x147 h (0#4) (0#8 ++ BitVec.ofBool win ++ (0#18 ++ part.code)))
  | .mst h win part sfmt => some (mkWord 0x148 h (0#4) (0#8 ++ BitVec.ofBool win ++ (0#14 ++ sfmt.code ++ part.code)))
  | .ld h m ty => some (mkWord 0x180 h (ty.code) (m.code))
  | .st h m ty => some (mkWord 0x181 h (ty.code) (m.code))
  | .lds h m w => some (mkWord 0x182 h (w.code) (m.code))
  | .sts h m w => some (mkWord 0x183 h (w.code) (m.code))
  | .spld h m ty => some (mkWord 0x184 h (ty.code) (m.code))
  | .spst h m ty => some (mkWord 0x185 h (ty.code) (m.code))
  | .spldq h m ty => some (mkWord 0x186 h (ty.code) (m.code))
  | .spstq h m ty => some (mkWord 0x187 h (ty.code) (m.code))
  | .prefetch h m die => some (mkWord 0x188 h (boolNib die) (m.code))
  | .atom h m op => some (mkWord 0x189 h (op.code) (m.code))
  | .red h m op => some (mkWord 0x18a h (op.code) (m.code))
  | .vmatch h => some (mkWord 0x18b h (11#4) (0#29))
  | .fence h scope xpath => some (mkWord 0x18c h (0#4) (0#9 ++ BitVec.ofBool xpath ++ scope.code ++ 0#16))
  | .tlrd h form ctr => some (mkWord 0x18d h (form.code) (ctr.code))
  | .push h grp q => some (mkWord 0x18e h (BitVec.ofNat 4 (grp.val + 1)) (q.code))
  | .stroke h slip => some (mkWord 0x1c0 h (boolNib slip) (0#29))
  | .tkrd h sel => some (mkWord 0x1c1 h (0#4) (sel.code ++ 0#25))
  | .tsend h tick => some (mkWord 0x1c2 h (0#4) (0#4 ++ tick))
  | .trecv h tick => some (mkWord 0x1c3 h (0#4) (0#4 ++ tick))
  | .syswr h reg => some (mkWord 0x1c4 h (0#4) (reg.code))
  | .cachectlWb h => some (mkWord 0x1c5 h (0#4) (0#13 ++ 0#16))
  | .cachectlWbinv h => some (mkWord 0x1c5 h (0#4) (1#13 ++ 0#16))
  | .cachectlL1inv h => some (mkWord 0x1c5 h (0#4) (2#13 ++ 0#16))
  | .perfctlRd h n => some (mkWord 0x1c6 h (0#4) (0#13 ++ n))
  | .perfctlCfg h n => some (mkWord 0x1c6 h (0#4) (1#13 ++ n))
  | .perfctlClr h n => some (mkWord 0x1c6 h (0#4) (2#13 ++ n))
  | .ctxctlTrrd h => some (mkWord 0x1c7 h (0#4) (0#13 ++ 0#16))
  | .ctxctlTret h => some (mkWord 0x1c7 h (0#4) (1#13 ++ 0#16))
  | .eret h => some (mkWord 0x1c8 h (0#4) (0#29))
  | .hint low t p => some ((0x1F#5 ++ low) ++ 0#2 ++ t ++ 0#20 ++ p)
  | .blockFetch _ => none
  | .blockCommit _ => none
  | .blockQuiescent _ => none
  | .barrierComplete _ _ _ => none
  | .tlwaitResume _ => none
  | .strokeBoundaryExit _ => none
  | .seatHandover _ _ _ => none
  | .accessHeldTimeout _ => none
  | .seatTenureExpiry _ => none
  | .warpAccessComplete _ => none
  | .launch _ => none
  | .submissionWindowWrite _ _ => none
  | .launchPlacement => none
  | .effectivePriorityRise _ => none
  | .timedLaunchStart _ => none
  | .preemptGang _ => none
  | .preemptBlockTimeout _ => none
  | .preemptDrained _ => none
  | .contextSwitch _ _ => none
  | .gangResume _ => none
  | .teamComplete _ => none
  | .gridComplete _ => none
  | .copy2d _ => none
  | .copy3d _ => none
  | .gather _ => none
  | .scatter _ => none
  | .fill _ => none
  | .preloadL2 _ => none
  | .copyChunk _ _ => none
  | .commandComplete _ _ => none
  | .timedCopyStart _ _ => none
  | .allreduce _ => none
  | .reducescatter _ => none
  | .allgather _ => none
  | .broadcast _ => none
  | .barrier _ => none
  | .collectiveTimeout _ _ => none
  | .collectiveAbortReceived _ _ _ => none
  | .collectivePacketReceived _ _ _ _ _ _ _ _ => none
  | .groupEnd _ _ => none
  | .groupWashComplete _ _ => none
  | .groupDefine _ _ _ _ => none
  | .remoteRequestTimeout _ => none
  | .tsendTransferStart _ => none
  | .transferLanded _ => none
  | .trecvWindowMiss _ _ => none
  | .trecvCopyDone _ _ => none
  | .loadDataReturn _ _ => none
  | .dieCacheRequest _ => none
  | .dieCacheFillArrival _ => none
  | .storeAcknowledge _ => none
  | .l1ClockAdvance _ _ => none
  | .throughLineExpiry _ _ _ _ => none
  | .leaseWrapAround _ => none
  | .promoteRequest _ => none
  | .gets _ => none
  | .getm _ => none
  | .putm _ => none
  | .puts _ => none
  | .fwdgets _ => none
  | .fwdgetm _ => none
  | .inv _ => none
  | .resp _ => none
  | .invack _ => none
  | .data _ => none
  | .wback _ => none
  | .coxRead _ _ => none
  | .coxEviction _ _ => none
  | .coxWrite _ _ _ => none
  | .refresh _ => none
  | .tickExchangeSend _ => none
  | .tickExchangeReceive _ => none
  | .timelineLost _ => none
  | .clockStepChange => none
  | .droopTickStretch _ => none
  | .junctionHot => none
  | .junctionCool => none
  | .thermalTrip => none
  | .powerOn _ => none
  | .bringUpStageComplete _ => none
  | .setPowerCap _ => none
  | .clearThermalTrip => none
  | .stageFirmwareUpdate _ => none
  | .misroutedPacket _ => none
  | .lqctlWrite _ _ => none
  | .lqstatWrite _ _ => none
  | .lscfgWrite _ _ => none
  | .contextBlockWrite _ _ => none
  | .blockTableSwap _ _ _ _ => none
  | .systemRegisterWrite _ _ => none
  | .map _ _ => none
  | .unmap _ _ => none
  | .protect _ _ => none
  | .pageWalk _ _ => none
  | .ctxCreate _ => none
  | .ctxDestroy _ => none
  | .frameAssign _ _ _ _ _ => none
  | .frameReclaim _ _ _ => none
  | .homeSet _ _ _ => none
  | .windowCreate _ _ _ => none
  | .windowJoin _ _ => none
  | .windowLeave _ _ => none
  | .exportSet _ _ => none
  | .measureExtend _ _ => none
  | .attest _ _ => none
  | .debugUnlock _ => none
  | .faultRecordPost => none
  | .faultQueueRecheck _ => none
  | .retry _ _ => none
  | .resumeAt _ _ _ => none
  | .retire _ _ => none
  | .retryUnchecked _ _ => none
  | .stop _ _ => none
  | .umpireHazard _ _ _ _ => none
  | .correctedError _ => none
  | .uncorrectableError _ => none
  | .linkCrcError _ _ => none
  | .coreFenced _ _ => none
  | .frameMarked _ _ => none
  | .linkHalfWidth _ => none
  | .dieFenced _ => none
  | .pcieLinkDown => none
  | .packagePowerAtCap _ => none
  | .remoteRequestReceived _ _ _ _ _ => none
  | .timelineLostPersists _ => none
  | .codeObjectLoad _ _ _ _ _ => none
  | .codeObjectUnload _ _ => none

/-- The instruction the decoder reads from a table word: bit 0 is the least significant bit of the word. An instruction
word of the G9 has 64 bits; bits above `nbits` are zero. -/
def decodeTableWord (nbits w : Nat) : Option Instr :=
  match decode (BitVec.ofNat 64 (w % 2 ^ nbits)) with
  | .ok i => some i
  | .error _ => none

end Sys2Proof
end

