-- ==== Sys2Proof/Config.lean ====
section
/-! DEFINITION. What an implementation fixes: sizes and latencies that the spec states, and the free values, which nothing
in Lean can evaluate. -/

namespace Sys2Proof.Config

/-- A free 64-bit value; each use reads the next index from the state's `fresh` counter (log 3). -/
opaque freeWord : Nat → BitVec 64

/-- The RSASSA-PSS signature of an attestation report under the device's key, with a salt of its own each time (R405; log 12). -/
opaque signReport : Nat → List (BitVec 8) → BitVec 4096

/-- Whether a debug token is signed by the debug authority and bound to this device and to the nonce of this use (R406; log 12). -/
opaque tokenVerified : Nat → BitVec 512 → Bool

/-- Whether a firmware image carries signatures that the Bexa root verifies (R22, R404; log 12). -/
opaque imageSigned : Nat → Bool

/-- The security version fused in the device (R404; log 12). -/
opaque svnFused : BitVec 32

/-- The certificate chain from the attestation key to Nymcel's root (R405; log 12). -/
opaque certChain : List (BitVec 8)

/-- Device serial number (Table 19-10; log 12). -/
opaque serial : BitVec 128

/-- Security version of the trusted firmware of an image (Table 19-10; log 12). -/
opaque svnt : Nat → BitVec 32

/-- Security version of the runtime firmware of an image (Table 19-10; log 12). -/
opaque svnr : Nat → BitVec 32

/-- Digest of the trusted firmware that the ROM measures into MR0 (R404; log 12). -/
opaque trustedDigest : Nat → BitVec 512

/-- Digest of the runtime firmware that is measured into MR1 (R404; log 12). -/
opaque runtimeDigest : Nat → BitVec 512

/-- Bytes of memory at a home: 64 GiB of bonded DRAM on a compute die, 2 TiB of LPDDR at the hub (Table 1-1). -/
def homeBytes (home : Nat) : Nat := if home < 8 then 2 ^ 36 else 2 ^ 41

/-- First byte of a home's share of the table region (R391): on a compute die the place that Table 19-8's entries show (log 9), on
the hub the top of LPDDR. -/
def tableBase (home : Nat) : Nat := if home < 8 then 0xFC0000000 else 2 ^ 41 - (513 * 2 ^ 20 + 2 ^ 31)

/-- Bytes of a home's memory that the table region takes: 512 MiB of page tables on a compute die; home maps, export lists and the
hub's page tables on LPDDR (R391). -/
def tableBytes (home : Nat) : Nat := if home < 8 then 2 ^ 29 else 513 * 2 ^ 20 + 2 ^ 31

/-- Bytes of a home's share of the table region that page tables can use (R391). -/
def pteBytes (home : Nat) : Nat := if home < 8 then 2 ^ 29 else 2 ^ 31

/-- Row and column of a compute die (R162): two rows of four. -/
def dieRow (d : Nat) : Nat := d / 4
/-- Column of a compute die. -/
def dieCol (d : Nat) : Nat := d % 4

/-- Link latency between compute dies (Table 6-7): 24 on the die, otherwise 40 + 4 per hop. -/
def linkLat (a b : Nat) : Nat :=
  if a = b then 24
  else 40 + 4 * ((dieRow a - dieRow b) + (dieRow b - dieRow a) + (dieCol a - dieCol b) + (dieCol b - dieCol a))

/-- The compute dies at latency 44 from a die (R162). -/
def neighbours (d : Nat) : List Nat := (List.range 8).filter (fun e => linkLat d e = 44)

end Sys2Proof.Config
end

