-- ==== Sys2Proof/Machine/State.lean ====
section
/-! DEFINITION. The state of the machine: plain data, holding everything the spec gives the package, its dies, cores, warps,
launches, contexts, memories, caches, engines and links. -/

namespace Sys2Proof.Machine

/-- A value in flight inside a block: a null token or a value of one shape (R38, R41). -/
inductive Token where
  | null
  | s (x : Word)
  | v (x : Vec)
  | k (x : Word)
deriving DecidableEq, Repr, Inhabited

/-- One memory cell list: addresses strictly rising, no zero byte listed; an unlisted byte reads 0 (R19). -/
abbrev Memory := List Host.Cell

/-- A timeline counter (R224, R225): `val` is the completed prefix, `issued` the highest number given out, `done` the
commands completed beyond the prefix with their error cause (0 for none). -/
structure Counter where
  val : Nat := 0
  status : Word := 0
  issued : Nat := 0
  done : List (Nat × Nat) := []
deriving DecidableEq, Repr, Inhabited

/-- A counter that a warp waits on, with the value awaited (R129). -/
structure WaitOn where
  ctr : CtrRef
  n : Nat
deriving DecidableEq, Repr, Inhabited

/-- A write that a block performs at commit: bytes of global memory, or an atomic over words (R45, R218). -/
inductive GKind where
  | bytes (l : List (Nat × BitVec 8))
  | atomic (op : AtomOp) (l : List (Nat × Lane × Lane))
deriving DecidableEq, Repr, Inhabited

/-- A buffered global access of a block (R46). -/
structure GStore where
  mseq : Nat
  idx : Nat
  rqt : Rqt
  ord : Ord
  scope : Scope
  kind : GKind
deriving DecidableEq, Repr, Inhabited

/-- A buffered scratchpad word of a block: team, byte offset, value, and the scope of a release (R210, R211). -/
structure SpStore where
  mseq : Nat
  idx : Nat
  team : Nat
  ofs : Nat
  val : Lane
  rel : Option Scope := none
deriving DecidableEq, Repr, Inhabited

/-- What an outstanding global read delivers (R206, R207, R214). -/
inductive PKind where
  | ld
  | lds (w : LdWidth)
  | atom (op : AtomOp) (data : List (Lane × Lane))
deriving DecidableEq, Repr, Inhabited

/-- An outstanding global read: per participating lane its byte address, the words still needed and those that have
arrived with their poison mark (R208, R447). -/
structure PLoad where
  idx : Nat
  mseq : Nat
  kind : PKind
  rqt : Rqt
  ord : Ord
  scope : Scope
  lanes : List (Nat × Nat)
  need : List Nat
  at_ : Nat := 0
  got : List (Nat × Lane × Bool)
deriving DecidableEq, Repr, Inhabited

/-- A word of a cached line: index 0-31, value, dirty and poison marks. -/
structure CWord where
  i : Nat
  v : Lane
  d : Bool
  p : Bool
deriving DecidableEq, Repr, Inhabited

/-- A line as a load of a block has read it (R245, R247). -/
structure SeenLine where
  mseq : Nat
  space : Nat
  line : Nat
  words : List CWord
deriving DecidableEq, Repr, Inhabited

/-- What the fired branch of a block selects (Table 4-8, R434). -/
inductive BranchSel where
  | goto (block : Nat)
  | reg (x : Word)
  | lanes (x : Vec) (join : Nat)
  | call (block : Nat)
  | ret
  | exit
  | eret
deriving DecidableEq, Repr, Inhabited

/-- A push that holds a reservation (R50, R228): the queue and the command image. -/
inductive PushDst where
  | copy (tick : Nat)
  | coll
  | launch (q : Nat)
deriving DecidableEq, Repr, Inhabited

structure PushRes where
  idx : Nat
  dst : PushDst
  cmd : List Word
deriving DecidableEq, Repr, Inhabited

/-- A timed transfer that a `tsend` scheduled (R178): `start` is its reconciled start tick; `sent` once it was made, until
its stroke ends; `before` holds the bytes of its range when it fired. -/
structure TSend where
  w : Nat
  idx : Nat
  team : Nat
  die : Nat
  ctx : Nat
  cslot : Nat
  lslot : Nat
  dests : List Nat
  ofs : Nat
  len : Nat
  start : Nat
  committed : Bool
  sent : Bool := false
  before : List (BitVec 8) := []
deriving DecidableEq, Repr, Inhabited

/-- A waiting `trecv`, or one whose copy is under way since local tick `at_` (R179). -/
structure TRecv where
  idx : Nat
  slot : Nat
  len : Nat
  ofs : Nat
  until_ : Nat
  copying : Bool
  at_ : Nat := 0
  breach : Bool := false
deriving DecidableEq, Repr, Inhabited

/-- What a `perfctl` does with its counter (Table 22-6). -/
inductive PerfOp where
  | rd
  | cfg (x : Word)
  | clr
deriving DecidableEq, Repr, Inhabited

/-- Effects of fired instructions that wait for the commit of the block (R101). -/
structure Deferred where
  fmt : Option (Nat × FmtForm × Word) := none
  mmode : Option (Nat × Bool × Bool × Nat × Nat) := none
  bar : Option (Nat × Scope × Nat) := none
  trap : Option (Nat × Nat × Nat) := none
  waits : List WaitOn := []
  yield : Bool := false
  fence : Option (Scope × Bool) := none
  wstclr : Bool := false
  range : Bool := false
  errclr : List CtrRef := []
  syswr : List (SysReg × Word) := []
  perf : List (Nat × PerfOp) := []
  tret : Option Nat := none
  stroke : Option (Nat × Bool) := none
deriving DecidableEq, Repr, Inhabited

/-- A block in execution (R36 to R50). `ops` and `outs` hold delivered values; `settled` the memory instructions settled by
a predicate that does not match (R46); `dropped` those that consumed their operands and produced nothing (R40); `win` the
window instructions of a matrix block (R354); `mstP` the poisoned words among its `mst` writes; `when_` the local tick at which each
instruction fired, ended its last lane-array tick or delivered (R42, R355), `run` the matrix instruction that has lane-array ticks to come, with
the next of them (R355), `hints` the ticks of its timed-issue hints (R172), `seen` the lines that its performed loads have read, with their `MSEQ` (R247), and `flawed` marks a block
that never completes, whose window order its dataflow breaks (R354) or which has a cycle or a slot that nothing fills (R90). -/
structure Blk where
  num : Nat
  cls : Nat
  words : List (BitVec 64)
  wr : List (Option (Nat × Nat))
  nst : Nat
  sprange : Nat × Nat
  live0 : Word
  fmt0 : Word
  mreg0 : Word
  start : Nat
  groups : List (Nat × List Word) := []
  ops : List (Nat × Slot × Token) := []
  outs : List (Nat × Token) := []
  fired : List Nat := []
  dropped : List Nat := []
  when_ : List (Nat × Nat) := []
  run : Option (Nat × Nat) := none
  hints : List (Nat × Nat) := []
  storeCount : Nat := 0
  stores : List GStore := []
  sps : List SpStore := []
  mst : List (Nat × BitVec 8) := []
  mstP : List Nat := []
  win : List Nat := []
  flawed : Bool := false
  loads : List PLoad := []
  seen : List SeenLine := []
  pushes : List PushRes := []
  branch : Option (Nat × BranchSel) := none
  recv : List TRecv := []
  atomDone : Option Word := none
  deferred : Deferred := {}
deriving DecidableEq, Repr, Inhabited

/-- A reconvergence stack entry (Table 2-8). -/
structure REntry where
  join : Bool
  block : Nat
  mask : Word
  fmt : Word
deriving DecidableEq, Repr, Inhabited

/-- The trap state of a warp (R429). -/
structure TrapState where
  on : Bool := false
  tr0 : Word := 0
  tr1 : Word := 0
  tret : Word := 0
  tlive : Word := 0
  tdepth : Nat := 0
  pexit : Bool := false
  pbar : Option (Scope × Nat) := none
  pwait : List WaitOn := []
deriving DecidableEq, Repr, Inhabited

/-- What a warp is parked on; it is ready when nothing is set (R62). `bar2` is an arrival made beside `bar` (R25, R434). `drain` holds a
fence or an acquire that waits until the warp's scratchpad stores are visible and, with the mark, its other stores are acknowledged (R222,
R218, R272), `acq` an acquire to be made before the
next block, `arr` and `arr2` the clock of the warp's core at its arrival at `bar` and `bar2`, once that is made (R126, R272). -/
structure Park where
  bar : Option (Scope × Nat) := none
  bar2 : Option (Scope × Nat) := none
  waits : List WaitOn := []
  stroke : Option Nat := none
  fault : Bool := false
  drain : Option (Scope × Bool) := none
  acq : Option Scope := none
  arr : Option Nat := none
  arr2 : Option Nat := none
deriving DecidableEq, Repr, Inhabited

/-- Timed state of a warp (R165, R167, R170). -/
structure TimedW where
  b0 : Nat := 0
  bt : Nat := 0
  strokes : Nat := 0
  workStart : Nat := 0
  parkedAt : Nat := 0
  lastWait : Nat := 0
  owesMiss : Bool := false
deriving DecidableEq, Repr, Inhabited

/-- Seat of a warp (R149 to R154): the seat, the ticks since which it is seated, ready, or held by an access, the seat that it left
last, with the tick, and the tick of its last commit. -/
structure SeatW where
  seat : Option Nat := none
  seatedAt : Nat := 0
  readyAt : Option Nat := none
  heldAt : Option Nat := none
  left : Option (Nat × Nat) := none
  ended : Option Nat := none
deriving DecidableEq, Repr, Inhabited

/-- A register of a warp, as poison marks it (R447); `x` 0 is `fmt` and 1 `mreg`, as the special read slots number them; `l` is a row of the latch
of acc0 or, with the mark, of acc1 (R445). -/
inductive PReg where
  | v (reg lane : Nat)
  | s (reg : Nat)
  | k (reg : Nat)
  | x (reg : Nat)
  | l (acc1 : Bool) (row : Nat)
deriving DecidableEq, Repr, Inhabited

/-- What is to be read back of a spilled stack before the next block (R55, R56): the newest group; the newest group, with the path-end
loop to go on; or the nearest JOIN among the groups, with the loop to go on. -/
inductive Refill where
  | none
  | group
  | pop
  | seek
deriving DecidableEq, Repr, Inhabited

/-- A warp: the registers of Table 2-2 and its execution state. `v` holds the allocated vector registers; `next` is the block
that it executes next, from local tick `begin_` of its die at the earliest (R45); `commits` counts the blocks that it has committed, and
`breached` is set once it has broken a "must" for which no
outcome is listed (R2); `retiring` when RETIRE was written for it while its state was saved (R442);
`waited` is the place in the order of its stores at which it last passed a `tlwait` (R295). -/
structure Warp where
  team : Nat
  idx : Nat
  v : List Vec
  s : List Word
  k : List Word
  fmt : Word
  mreg : Word
  wst : Word
  live : Word
  retired : Word
  cj : Option Nat
  stack : List REntry
  spilled : Nat
  refill : Refill
  calls : Nat
  latch0 : Vec
  latch1 : Vec
  trap : TrapState
  park : Park
  next : Nat
  begin_ : Nat
  blk : Option Blk
  timed : TimedW
  seat : SeatW
  pslot : Nat
  poison : List PReg
  unchecked : Bool
  commits : Nat := 0
  breached : Bool := false
  retiring : Bool := false
  waited : Nat := 0
  done : Bool
deriving DecidableEq, Repr, Inhabited

/-- A copy command in progress (R231, R232): `tab` is where its context's handle table lay when it was issued (R388); `pos` bytes of its
destination stream are done; `begun` once a timed one has started, `index` the index read for its row; `asked` while the source of its chunk
is being read, with the words needed and those that have come (R293) and the address from which it is read; the stores of its warp before `after` come before its
reads (R295). -/
structure CopyJob where
  seq : Nat
  cmd : List Word
  tab : Word := 0
  pos : Nat
  begun : Bool := false
  index : Nat := 0
  asked : Bool := false
  need : List Nat := []
  got : List (Nat × Lane × Bool) := []
  from_ : Nat := 0
  after : Nat := 0
  paused : Option Nat
  timed : Option Nat
  warp : Option Nat
  finished : Option Nat
deriving DecidableEq, Repr, Inhabited

/-- A queued copy command; `xwarp` names a warp whose stores a cross-path fence orders before it (R223), `after` is as in `CopyJob`. -/
structure CopyCmd where
  seq : Nat
  cmd : List Word
  timed : Option Nat
  warp : Option Nat
  xwarp : Option Nat
  after : Nat := 0
deriving DecidableEq, Repr, Inhabited

/-- A write to a scratchpad that only its writer sees yet (R212, R252): the bytes of one line by a block's stores, or a chunk of copy command
`job` or collective command `coll`; `rel` is the scope of a release among them, `stamp` orders a warp's stores. -/
structure SpPend where
  warp : Option Nat
  job : Option (Nat × Nat)
  coll : Option (Nat × Nat) := none
  stamp : Nat
  rel : Option Scope
  bytes : List (Nat × BitVec 8)
  poison : List Nat
deriving DecidableEq, Repr, Inhabited

/-- A team: its place, scratchpad and copy queue (R187, R224, R240); `pend` holds the writes to its scratchpad not yet visible to all, oldest first; `landed` holds the scratchpad ranges that timed copies have
written, with their end ticks, `filling` those that timed copies in progress write, by command number (R181); `kept` while the state of a
team whose gang is pre-empted stays on its core (R439). -/
structure Team where
  gang : Nat
  idx : Nat
  core : Nat
  alloc : Nat
  spad : Memory
  spPoison : List Nat
  pend : List SpPend := []
  tlc : Counter
  queue : List CopyCmd
  reserved : Nat
  jobs : List CopyJob
  landed : List (Nat × Nat × Nat) := []
  filling : List (Nat × Nat × Nat) := []
  kept : Bool := false
  done : Bool
deriving DecidableEq, Repr, Inhabited

/-- Where a gang stands with respect to pre-emption (R156, R439): `reserve` when the state of at least one of its teams has been kept on its core,
`saved` when all of it is in the save area. -/
inductive GangSt where
  | resident
  | stopping (tick : Nat) (head : Option Nat)
  | reserve
  | saved
  | done
deriving DecidableEq, Repr, Inhabited

/-- A gang; `stoppedAt` is the stakeboat's tick at which it was pre-empted (R157), `freedAt` the local tick of its die in which it gave up its
cores, which are free from the next (R156, R158), `bound` the local tick in which every warp of a stopping gang had reached a block boundary
(R440). -/
structure Gang where
  region : Nat
  idx : Nat
  quad : Nat
  st : GangSt
  stoppedAt : Nat
  freedAt : Option Nat := none
  bound : Option Nat := none
deriving DecidableEq, Repr, Inhabited

/-- A region; `begun` once its timed launch has started on its die (R165), `beat` the stroke that its die is in and the local tick in which it
began there (R172). -/
structure Region where
  grid : Nat
  idx : Nat
  die : Nat
  begun : Bool := false
  beat : Nat × Nat := (0, 0)
  done : Bool
deriving DecidableEq, Repr, Inhabited

/-- A launch record as read (Table 5-3). -/
structure LaunchRec where
  flags : BitVec 32
  kernel : Word
  shape : Word
  stroke : Word
  bars : BitVec 32
  args : Word
  waits : List Word
  doneVA : Word
  reloc : List (BitVec 4)
deriving DecidableEq, Repr, Inhabited

/-- A grid that has been placed at least in part (R145, R159). -/
structure Grid where
  queue : Nat
  seq : Nat
  ctx : Nat
  launch : LaunchRec
  placed : Nat
  prio : Nat
  placedAt : Nat
  started : Bool
  children : Nat
  colls : List Nat
  done : Bool
deriving DecidableEq, Repr, Inhabited

/-- A command of a launch queue; `verdict` is what the reading of its record gave when it entered, a cause or 0 with the record (R137,
R138), `read` its record once the launch has been taken in; `xwarps` are the warps whose published stores come before the launch
(R261); `skip` is decided when its waits are met (R138). -/
structure QEntry where
  seq : Nat
  cmd : List Word
  parent : Option Nat
  verdict : Nat × LaunchRec := default
  read : Option LaunchRec
  xwarps : List Nat := []
  skip : Option Bool := none
deriving DecidableEq, Repr, Inhabited

/-- A launch queue (R132 to R142); `urgent` while gangs have been pre-empted for its head (R156), `risen` the stakeboat's tick of a rise of its
priority after which the heads are still to be considered again (R142). -/
structure Queue where
  ctl : Word := 0
  stat : Word := 0
  tll : Counter := {}
  entries : List QEntry := []
  reserved : Nat := 0
  prio : Nat := 0
  eligAt : Option Nat := none
  urgent : Bool := false
  risen : Option Nat := none
deriving DecidableEq, Repr, Inhabited

/-- A fault record (Table 21-2), with where its context's fault queue lay when it was raised (R388), and the warp, the command or the save it stands for; `released` when a MAP has released it
before it was posted (R454). -/
structure FRec where
  code : Nat
  src : Nat := 0
  detail : Nat := 0
  held : Bool := false
  trapm : Bool := false
  commit : Bool := false
  fetch : Bool := false
  mmod : Bool := false
  atom : Bool := false
  seq : Nat := 0
  index : Nat := 255
  block : Nat := 0
  object : Nat := 0
  core : Nat := 0
  die : Nat := 0
  warp : Nat := 0
  team : Nat := 0
  gang : Nat := 0
  region : Nat := 0
  pslot : Nat := 0
  addr : Word := 0
  lanes : Word := 0
  tick : Word := 0
  aux : Word := 0
  fq : Word := 0
  wid : Option Nat := none
  job : Option (Nat × Nat) := none
  coll : Option (Nat × Nat) := none
  save : Option Nat := none
  released : Bool := false
deriving DecidableEq, Repr, Inhabited

/-- A queued collective command of a context (R287). -/
structure CollCmd where
  seq : Nat
  cmd : List Word
  team : Nat
  xwarp : Option Nat
deriving DecidableEq, Repr, Inhabited

/-- An issued collective command: `tab` and `gtab` are where its context's handle and group tables lay when it was issued (R388), `k` is its place
among the group's commands at this member; `pos` bytes of its source have been read, as the elements `data`, `loaded` once they have been sent,
`out` bytes of its destination have been written; `paused` at an address that met an untranslated page. -/
structure CollJob where
  seq : Nat
  cmd : List Word
  tab : Word := 0
  gtab : Word := 0
  pos : Nat := 0
  data : List (BitVec 32) := []
  out : Nat := 0
  team : Nat
  gid : Nat
  gen : Nat
  k : Nat
  loaded : Bool
  paused : Option Nat
  issuedAt : Nat
  finished : Option Nat
deriving DecidableEq, Repr, Inhabited

/-- A member's matched command and its contribution, one element per entry, as this member has received them (R281, R285). -/
structure Contribution where
  gid : Nat
  gen : Nat
  rank : Nat
  k : Nat
  hdr : Word
  count : Nat
  root : Nat
  data : List (BitVec 32)
deriving DecidableEq, Repr, Inhabited

/-- States of a context (R383). -/
inductive CtxSt where
  | free
  | active
  | dying
deriving DecidableEq, Repr, Inhabited

/-- A context (R383 to R390, R423 to R427). `block` is the context block's eight words. -/
structure Ctx where
  st : CtxSt := .free
  block : List Word := [0, 0, 0, 0, 0, 0, 0, 0]
  tlk : Counter := {}
  coll : List CollCmd := []
  collRes : Nat := 0
  jobs : List CollJob := []
  contrib : List Contribution := []
  kcount : List (Nat × Nat) := []
  gstat : Word := 0
  active : List (Nat × Nat) := []
  washing : List (Nat × Nat × Nat) := []
  aborted : List (Nat × Nat × Nat) := []
  ctxm : BitVec 512 := 0
  exports : List (Nat × Nat) := []
  hubq : List FRec := []
  posted : List FRec := []
  lastCheck : Nat := 0
  irq : Nat := 0
  freeSlots : List Nat := []
  nextSlot : Nat := 0
deriving DecidableEq, Repr, Inhabited

/-- A kernel entry (Table 20-8). -/
structure Kernel where
  entry : Nat
  timed : Bool
  strokes : List Word
  chFirst : Nat
  chCount : Nat
deriving DecidableEq, Repr, Inhabited

/-- A loaded code object (R414 to R418): block table, code address, preload commands and channel map. -/
structure CodeObj where
  ctx : Nat
  oid : Nat
  code : Nat
  btab : List Word
  kernels : List Kernel
  preloads : List (List Word)
  chmap : List (Word × Word)
  unloading : Bool
deriving DecidableEq, Repr, Inhabited

/-- An event counter (R452). -/
structure EvCtr where
  cfg : Word := 0
  count : Nat := 0
  ovf : Bool := false
deriving DecidableEq, Repr, Inhabited

/-- The issue classes of Table 5-7. -/
inductive IssueClass where
  | lane
  | scalar
  | memory
  | control
deriving DecidableEq, Repr, Inhabited

/-- A core (R13, R386): its contexts, `bound` the local tick of the block boundary at which the warps of its primary context were last stopped, `freed` that
in which it was last left without a primary by a stop (R156, R440), its L1 clock and hit count (R268, R271), the replacement bits of its
L1 sets (R191), the team that its copy engine served last (R240), the issue classes that have issued in a tick (R149), counters and error log. -/
structure Core where
  die : Nat
  core : Nat
  primary : Option Nat := none
  reserve : Option Nat := none
  switchAt : Option Nat := none
  bound : Option Nat := none
  freed : Option Nat := none
  pts : Nat := 0
  hits : Nat := 0
  plru : List (Nat × Nat) := []
  served : Option Nat := none
  taken : List (IssueClass × Nat) := []
  ctrs : List EvCtr := []
  fenced : Bool := false
  errs : List Nat := []
deriving DecidableEq, Repr, Inhabited

/-- A compute die (R160, R163, R177, R268, R269); `rels` holds the lines, by space and number, that a release at `.core` wrote, with its core and the
number of its request, until the release is promoted (R254, R273); `arrPoison` the poisoned words of its other arrays (R445). Its clock: `ahead` and `behind` say how much of the pace that R161 allows it has used up, against the
stakeboat's, `adrift` is set from the loss of its timeline until it is within 1 of the stakeboat again (R163), `steered` the corrections made since the last exchange, `lastStake` its
reconciled count as of the last stakeboat message, `relays` the last count that each neighbour relayed, and `awaiting` that its
last exchange has brought no count yet (R162, R163). -/
structure Die where
  local_ : Nat := 0
  recon : Nat := 0
  reconAcc : Int := 0
  lastCorr : Option Nat := none
  ahead : Nat := 0
  behind : Nat := 0
  adrift : Bool := false
  steered : Int := 0
  missed : Nat := 0
  awaiting : Bool := false
  rate : Int := 0
  lastStake : Nat := 0
  relays : List (Nat × Nat) := []
  lost : Option Nat := none
  exchanged : Nat := 0
  refreshed : Nat := 0
  lscfg : Word := 0xA1000
  lsPend : Option Word := none
  tsmax : Nat := 0
  wrapAt : Option Nat := none
  rels : List (Nat × Nat × Nat × Nat) := []
  landing : Memory := []
  landPoison : List Nat := []
  arrPoison : List Nat := []
  full : List Nat := []
  chan : Nat := 0
  ctrs : List EvCtr := []
  fenced : Bool := false
  stopped : Bool := false
deriving DecidableEq, Repr, Inhabited

/-- A tick-exchange message (R162): the sender's counts and its reconciled count as of the last stakeboat message. -/
structure TickMsg where
  src : Nat
  dst : Nat
  loc : Nat
  rec_ : Nat
  relay : Nat
deriving DecidableEq, Repr, Inhabited

/-- A transfer under way to a landing slot (R176). -/
structure Landing where
  die : Nat
  slot : Nat
  at_ : Nat
  bytes : List (BitVec 8)
  poison : List Nat
  team : Nat
  cslot : Nat
deriving DecidableEq, Repr, Inhabited

/-- L1 line states (Table 10-1); an absent line is in I. `weights` is a line of a read-only-weights page (R197). -/
inductive L1St where
  | leased (rts : Nat)
  | through (fill : Nat)
  | owned
  | weights
deriving DecidableEq, Repr, Inhabited

structure L1Line where
  die : Nat
  core : Nat
  space : Nat
  line : Nat
  st : L1St
  words : List CWord
  way : Nat := 0
deriving DecidableEq, Repr, Inhabited

/-- MOESI states of a die-cache line (Table 10-2); an absent line is in I. -/
inductive HSt where
  | M
  | O
  | E
  | S
deriving DecidableEq, Repr, Inhabited

/-- A die-cache line (Table 10-2); `row` marks a line of a read-only-weights page, which no directory knows (R197). -/
structure DieLine where
  die : Nat
  space : Nat
  line : Nat
  row : Bool := false
  hst : HSt
  words : List CWord
  wts : Nat
  rts : Nat
  ownc : Nat
  rlsc : Nat
deriving DecidableEq, Repr, Inhabited

/-- What a request at the die cache asks for (R274). -/
inductive DKind where
  | load (idx : Nat) (words : List Nat)
  | store (bytes : List (Nat × BitVec 8))
  | atomic (idx : Option Nat) (op : AtomOp) (l : List (Nat × Lane × Lane))
  | prefetch (l1 : Bool)
deriving DecidableEq, Repr, Inhabited

/-- A request of a core at its die cache, in arrival order, by a warp or a copy command (team and number, R240); a performed store stays until
it is acknowledged (R267). `stamp` orders a warp's stores, `num` the requests as they were made; `shut` are lines, each with the scope
of the release that wrote it, that no other agent of that scope reads until this request is performed (R248), `counted` once its hit or miss has been counted (R452). -/
structure DReq where
  die : Nat
  core : Nat
  w : Option Nat
  job : Option (Nat × Nat) := none
  stamp : Nat := 0
  space : Nat
  line : Nat
  rqt : Rqt
  ord : Ord
  scope : Scope
  kind : DKind
  pts : Nat
  asked : Bool
  performed : Bool
  wts : Nat
  num : Nat := 0
  shut : List (Nat × Nat × Scope) := []
  counted : Bool := false
deriving DecidableEq, Repr, Inhabited

/-- Directory states (R276); an absent entry is in I. -/
inductive DirSt where
  | S
  | O
  | M
deriving DecidableEq, Repr, Inhabited

/-- A directory entry: nodes 0-7 are the compute dies, 8 and 9 the bridges. -/
structure DirEntry where
  home : Nat
  space : Nat
  line : Nat
  st : DirSt
  owner : Nat
  sharers : List Nat
deriving DecidableEq, Repr, Inhabited

/-- Directory messages (Table 10-6); `inFlight` is a Resp's "no copy, writeback in flight", or marks Data that has reached its
die. -/
inductive MsgKind where
  | getS
  | getM
  | putM
  | putS
  | fwdGetS
  | fwdGetM
  | inv
  | resp
  | invAck
  | data
  | wbAck
deriving DecidableEq, Repr, Inhabited

structure Msg where
  kind : MsgKind
  node : Nat
  home : Nat
  space : Nat
  line : Nat
  words : List CWord := []
  hasS : Bool := false
  needData : Bool := true
  grant : HSt := .S
  dirty : Bool := false
  inFlight : Bool := false
deriving DecidableEq, Repr, Inhabited

/-- A transaction in progress at a home (R277); a victim's back-invalidation has no requester (R278). -/
structure HomeTx where
  home : Nat
  space : Nat
  line : Nat
  req : Option Nat
  getM : Bool
  hasS : Bool
  needData : Bool
  awaitResp : Option Nat
  awaitAcks : List Nat
  awaitPut : Option Nat
  words : List CWord
  dirty : Bool
deriving DecidableEq, Repr, Inhabited

/-- A line of a bridge (R200): device permission M or S, halves held and dirty in cox caches, words, modified mark. -/
structure BridgeLine where
  io : Nat
  space : Nat
  line : Nat
  permM : Bool
  held : List Nat
  dirty : List Nat
  words : List CWord
  modified : Bool
deriving DecidableEq, Repr, Inhabited

/-- A line of the hub cache (R195, R197). -/
structure HubLine where
  space : Nat
  line : Nat
  row : Bool
  words : List CWord
deriving DecidableEq, Repr, Inhabited

/-- Caches, directory and bridge; `sent` counts the requests made at the die caches, `cox` is what the bridge last supplied to a cox read: context, address and the 64 bytes of the half (R200). -/
structure Caches where
  l1 : List L1Line := []
  dc : List DieLine := []
  dreqs : List DReq := []
  dir : List DirEntry := []
  msgs : List Msg := []
  txs : List HomeTx := []
  pwb : List (Nat × Nat × Nat) := []
  bridge : List BridgeLine := []
  hub : List HubLine := []
  sent : Nat := 0
  cox : Option (Nat × Nat × List (BitVec 8)) := none
deriving DecidableEq, Repr, Inhabited

/-- A pending fault of a home: space, 64 KiB-aligned address, attached warps and records, and whether its page fault request has been
posted (R396). -/
structure PFault where
  home : Nat
  space : Nat
  va : Nat
  warps : List Nat
  recs : List FRec
  posted : Bool := false
deriving DecidableEq, Repr, Inhabited

/-- A translation entry of a home: the page's base, the logarithm of its size and its leaf (R395). -/
structure TlbE where
  home : Nat
  space : Nat
  base : Nat
  size : Nat
  leaf : Word
deriving DecidableEq, Repr, Inhabited

/-- A page table taken from the table region (R391, R393). -/
structure PTab where
  home : Nat
  space : Nat
  addr : Nat
  size : Nat
deriving DecidableEq, Repr, Inhabited

/-- A walk in progress or waiting at a home (R395): the first address of its page, and the 64 KiB pages that accesses have asked for. -/
structure Walk where
  home : Nat
  space : Nat
  va : Nat
  asks : List Nat := []
deriving DecidableEq, Repr, Inhabited

/-- A shared window (R399): its granules with their home map entries, and its members. -/
structure Window where
  win : Nat
  entries : List (Nat × Word)
  members : List Nat
deriving DecidableEq, Repr, Inhabited

/-- Translation: page tables, roots, home maps, frame ownership, windows, pending faults. Tables are keyed by
home × 2^48 + table address, home maps by context × 262,144 + granule, frames by home × 2^32 + frame; `mapStatus` is the status
that each home's map mailbox last returned (R398). -/
structure Xlat where
  pte : List (Nat × Word) := []
  roots : List (Nat × Nat × Nat) := []
  tables : List PTab := []
  homeMap : List (Nat × Word) := []
  frames : List (Nat × BitVec 32) := []
  windows : List Window := []
  tlb : List TlbE := []
  walks : List Walk := []
  pfaults : List PFault := []
  mapStatus : List (Nat × Nat) := []
deriving DecidableEq, Repr, Inhabited

/-- A request to another package not yet answered (R291): a load, or a store group of block `block`; `rel` is the scope of a release among them; `at_`
is the tick since which it is under way. -/
structure RemoteReq where
  w : Nat
  idx : Nat
  ctx : Nat
  va : Nat
  isLoad : Bool
  at_ : Nat
  rel : Option Scope := none
  stamp : Nat := 0
  block : Nat := 0
deriving DecidableEq, Repr, Inhabited

/-- Bring-up states (Table 1-8); `off` is the package before power. -/
inductive BringUp where
  | off
  | standby
  | secureBoot
  | runtimeLoad
  | memoryInit
  | linkInit
  | ready
  | degraded
  | failed
deriving DecidableEq, Repr, Inhabited

/-- An attestation report (Table 19-10) and the certificate chain read with it (R405). -/
structure Report where
  body : List (BitVec 8)
  signature : BitVec 4096
  chain : List (BitVec 8) := []
deriving DecidableEq, Repr, Inhabited

/-- The package: bring-up, power, thermal, health and measurement (chapters 1, 19 and 22); `capStep` and `heatStep` are the clock
steps that the power cap and the junction limits ask for, `booting` the update that the bring-up under way takes; `ctrs` are the event counters of the hub and the I/O dies, sockets 8 to 10 (R452), `fencedIo` the I/O dies that are fenced (R448), `arrPoison` the poisoned words of the
other arrays of these three, by socket (R445); `exchanged` is the interval of 1,024 ticks
in which the stakeboat last sent its count (R162), `refused` is the answer of the last
service of the Bexa root, `loadStep` the step of R415 at which werad's last load stopped (0 when it loaded) and `loadBad` the invalid
blocks that it reported with their rows of Table 3-15 (R90). -/
structure Package where
  up : BringUp := .off
  cause : BitVec 8 := 0
  rootPort : Bool := false
  pcieUp : Bool := false
  capW : Nat := 4500
  capStep : Nat := 0
  heatStep : Nat := 0
  clockStep : Nat := 0
  clockPend : Option Nat := none
  trip : Bool := false
  tripLog : Nat := 0
  staged : Option Nat := none
  booting : Option Nat := none
  firmware : Nat := 0
  misroute : Nat := 0
  replace : Bool := false
  debugArmed : Option (BitVec 512) := none
  debugOn : Bool := false
  mr : List (BitVec 512) := List.replicate 8 0
  report : Option Report := none
  halfLinks : List Nat := []
  ctrs : List (List EvCtr) := List.replicate 3 (List.replicate 16 {})
  fencedIo : List Nat := []
  arrPoison : List (Nat × Nat) := []
  marked : List (Nat × Nat) := []
  retiredFrames : List (Nat × Nat) := []
  frameErrs : List (Nat × Nat × Nat) := []
  mgmtLog : List (Nat × Nat × Nat) := []
  stretched : List Nat := []
  linkErrs : List (Nat × Nat) := []
  refused : Bool := false
  exchanged : Nat := 0
  loadStep : Nat := 0
  loadBad : List (Nat × Nat) := []
deriving DecidableEq, Repr, Inhabited

/-- What a breach of R2 leaves with an unspecified value: a register of the warp (Table 2-2), its reconvergence stack entry by entry, or the 32-bit
word at an address that it may write. -/
inductive Smear where
  | reg (r : PReg)
  | wst
  | live
  | join
  | entry (n : Nat)
  | mem (va : Nat)
  | spad (ofs : Nat)
deriving DecidableEq, Repr, Inhabited

/-- What the next step does (log 1): fire an instruction of a warp's block, let an event of the table happen, let one
tick pass, of every clock or of one (a die's, or from 8 on the stakeboat's), or let one tick of a die pass in which its reconciled
counter advances by 2 (`up`) or by 0; let a word of a warp in breach take an unspecified value (R2), or let a pending write `n` to
a team's scratchpad become visible, all of it or, of a copy command's, the words at `part` (R212, R243). -/
inductive Activity where
  | fire (w idx : Nat)
  | event (i : Instr)
  | tick
  | clock (c : Nat)
  | steer (die : Nat) (up : Bool)
  | smear (w : Nat) (x : Smear)
  | spad (team n : Nat) (part : List Nat)
deriving DecidableEq, Repr, Inhabited

/-- The machine. Warps, teams, gangs, regions and grids are numbered by their place in their lists. -/
structure State where
  pkg : Package
  stake : Nat
  dies : List Die
  cores : List Core
  warps : List Warp
  teams : List Team
  gangs : List Gang
  regions : List Region
  grids : List Grid
  queues : List Queue
  served : List (Nat × Nat)
  ctxs : List Ctx
  objs : List CodeObj
  mem : Memory
  memPoison : List Nat
  xl : Xlat
  cache : Caches
  tsends : List TSend
  landings : List Landing
  ticks : List TickMsg
  remote : List RemoteReq
  agenda : List Activity
  cur : Nat
  curIdx : Nat
  fresh : Nat
deriving DecidableEq, Repr, Inhabited

/-- Why the machine stops. A fault of the spec parks a warp and never stops the machine, so only an activity that can
not exist ends here. -/
inductive Fault where
  /-- Raised by `step` when the agenda fires an instruction whose word does not decode. BLOCK_FETCH refuses such a block
  (R90), so no run reaches it; safe. -/
  | undecodable (row : Nat)
deriving DecidableEq, Repr, Inhabited

/-- Why the model gives no meaning. -/
inductive Refusal where
  /-- An instruction not modelled yet, by its mnemonic; raised by `exec`; safe. -/
  | notModelled (mnemonic : String)
deriving DecidableEq, Repr, Inhabited

/-- The machine before power is applied (log 10): every counter, register and memory at its reset value. LEASE is 10 and
TSW 16 on every die (Table 10-3); measurement registers are zero (R404). -/
def State.reset : State :=
  { pkg := {}, stake := 0, dies := List.replicate 8 {}, cores := [], warps := [], teams := [], gangs := [], regions := [],
    grids := [], queues := List.replicate 64 {}, served := [], ctxs := List.replicate 256 {}, objs := [],
    mem := [], memPoison := [], xl := {}, cache := {}, tsends := [], landings := [], ticks := [], remote := [],
    agenda := [], cur := 0, curIdx := 0, fresh := 0 }

end Sys2Proof.Machine
end

