-- ==== Sys2Proof/Machine/Mem.lean ====
section
/-! DEFINITION. Memories as canonical cell lists: reading and writing bytes and little-endian words (R4). -/

namespace Sys2Proof.Machine

/-- A byte of a memory; an unlisted address reads 0 (log 2). -/
def getByte (m : Memory) (a : Nat) : BitVec 8 :=
  match m with
  | [] => 0
  | (b, x) :: r => if b = a then x else getByte r a

/-- Write one byte, keeping addresses rising and no zero byte listed. -/
def setByte (m : Memory) (a : Nat) (v : BitVec 8) : Memory :=
  match m with
  | [] => if v = 0 then [] else [(a, v)]
  | (b, x) :: r =>
    if b < a then (b, x) :: setByte r a v
    else if b = a then (if v = 0 then r else (a, v) :: r)
    else if v = 0 then (b, x) :: r
    else (a, v) :: (b, x) :: r

/-- Every listed address is at or above `lo`, addresses rise strictly and no listed byte is 0. -/
def wfFrom (lo : Nat) (m : Memory) : Bool :=
  match m with
  | [] => true
  | (a, x) :: r => decide (lo ≤ a) && x != 0 && wfFrom (a + 1) r

/-- The canonical form of a memory. -/
def Memory.wf (m : Memory) : Bool := wfFrom 0 m

/-- Write a list of addressed bytes, first to last. -/
def setBytes (m : Memory) (l : List (Nat × BitVec 8)) : Memory := l.foldl (fun m p => setByte m p.1 p.2) m

/-- Read `n` bytes from `a`. -/
def getBytes (m : Memory) (a n : Nat) : List (BitVec 8) := (List.range n).map fun i => getByte m (a + i)

/-- The number that bytes hold, little-endian (R4). -/
def leNat (l : List (BitVec 8)) : Nat :=
  match l with
  | [] => 0
  | b :: r => b.toNat + 256 * leNat r

/-- The low `n` bytes of a number, little-endian (R4). -/
def leBytes (n x : Nat) : List (BitVec 8) :=
  match n with
  | 0 => []
  | n + 1 => BitVec.ofNat 8 x :: leBytes n (x / 256)

/-- Read a 32-bit word. -/
def getW32 (m : Memory) (a : Nat) : Lane := BitVec.ofNat 32 (leNat (getBytes m a 4))

/-- Read a 64-bit word. -/
def getW64 (m : Memory) (a : Nat) : Word := BitVec.ofNat 64 (leNat (getBytes m a 8))

/-- Bytes placed from address `a` on. -/
def placeBytes (a : Nat) (l : List (BitVec 8)) : List (Nat × BitVec 8) :=
  match l with
  | [] => []
  | b :: r => (a, b) :: placeBytes (a + 1) r

/-- Write a 32-bit word. -/
def setW32 (m : Memory) (a : Nat) (v : Lane) : Memory := setBytes m (placeBytes a (leBytes 4 v.toNat))

/-- Write a 64-bit word. -/
def setW64 (m : Memory) (a : Nat) (v : Word) : Memory := setBytes m (placeBytes a (leBytes 8 v.toNat))

/-- Replace byte `i` of a 32-bit word. -/
def putByte (v : Lane) (i : Nat) (b : BitVec 8) : Lane :=
  (v &&& ~~~(0xFF#32 <<< (8 * i))) ||| (b.zeroExtend 32 <<< (8 * i))

/-- Byte `i` of a 32-bit word. -/
def byteOf (v : Lane) (i : Nat) : BitVec 8 := v.extractLsb' (8 * i) 8

/-- 64-bit words of bytes, eight at a time. -/
def words64 (n : Nat) (l : List (BitVec 8)) : List Word :=
  match n with
  | 0 => []
  | n + 1 => BitVec.ofNat 64 (leNat (l.take 8)) :: words64 n (l.drop 8)

/-- A field of a 64-bit word as a number: `n` bits from bit `lo`. -/
def fld (w : Word) (lo n : Nat) : Nat := w.toNat / 2 ^ lo % 2 ^ n

/-- Replace `n` bits from bit `lo` of a 64-bit word. -/
def setFld (w : Word) (lo n x : Nat) : Word :=
  BitVec.ofNat 64 (w.toNat - fld w lo n * 2 ^ lo + x % 2 ^ n * 2 ^ lo)

end Sys2Proof.Machine
end

