-- ==== Sys2Proof/Machine/Ops.lean ====
section
/-! DEFINITION. The named operations over the state that the meanings share: looking a part up and changing it, event
counts, raising a fault and aborting a block, taking a trap, delivery of a value and the firing of an instruction. -/

namespace Sys2Proof.Machine

/-- The outcome of every meaning. -/
abbrev Out := Host.Outcome State Fault Refusal

/-! Parts of the state. -/

/-- Warp `w`. -/
def State.warp (s : State) (w : Nat) : Warp := s.warps.getD w default
/-- Team `t`. -/
def State.team (s : State) (t : Nat) : Team := s.teams.getD t default
/-- Gang `g`. -/
def State.gang (s : State) (g : Nat) : Gang := s.gangs.getD g default
/-- Region `r`. -/
def State.region (s : State) (r : Nat) : Region := s.regions.getD r default
/-- Grid `g`. -/
def State.grid (s : State) (g : Nat) : Grid := s.grids.getD g default
/-- Launch queue `q`. -/
def State.queue (s : State) (q : Nat) : Queue := s.queues.getD q {}
/-- Context `c`. -/
def State.ctx (s : State) (c : Nat) : Ctx := s.ctxs.getD c {}
/-- Die `d`. -/
def State.die (s : State) (d : Nat) : Die := s.dies.getD d {}
/-- The block in execution in warp `w`. -/
def State.blk? (s : State) (w : Nat) : Option Blk := (s.warps[w]?).bind (·.blk)

/-- Change warp `w`. -/
def State.modWarp (s : State) (w : Nat) (f : Warp → Warp) : State := { s with warps := s.warps.modify w f }
/-- Change team `t`. -/
def State.modTeam (s : State) (t : Nat) (f : Team → Team) : State := { s with teams := s.teams.modify t f }
/-- Change gang `g`. -/
def State.modGang (s : State) (g : Nat) (f : Gang → Gang) : State := { s with gangs := s.gangs.modify g f }
/-- Change region `r`. -/
def State.modRegion (s : State) (r : Nat) (f : Region → Region) : State := { s with regions := s.regions.modify r f }
/-- Change grid `g`. -/
def State.modGrid (s : State) (g : Nat) (f : Grid → Grid) : State := { s with grids := s.grids.modify g f }
/-- Change launch queue `q`. -/
def State.modQueue (s : State) (q : Nat) (f : Queue → Queue) : State := { s with queues := s.queues.modify q f }
/-- Change context `c`. -/
def State.modCtx (s : State) (c : Nat) (f : Ctx → Ctx) : State := { s with ctxs := s.ctxs.modify c f }
/-- Change die `d`. -/
def State.modDie (s : State) (d : Nat) (f : Die → Die) : State := { s with dies := s.dies.modify d f }
/-- Change the block in execution in warp `w`. -/
def State.modBlk (s : State) (w : Nat) (f : Blk → Blk) : State :=
  s.modWarp w fun x => { x with blk := x.blk.map f }
/-- Change the caches. -/
def State.modCache (s : State) (f : Caches → Caches) : State := { s with cache := f s.cache }
/-- Change the translation state. -/
def State.modXl (s : State) (f : Xlat → Xlat) : State := { s with xl := f s.xl }
/-- Change the package state. -/
def State.modPkg (s : State) (f : Package → Package) : State := { s with pkg := f s.pkg }

/-- A core; a core that nothing has used yet is at its reset values. -/
def State.core (s : State) (die core : Nat) : Core :=
  (s.cores.find? fun c => c.die == die && c.core == core).getD { die := die, core := core }

/-- Change a core. -/
def State.modCore (s : State) (die core : Nat) (f : Core → Core) : State :=
  if s.cores.any fun c => c.die == die && c.core == core then
    { s with cores := s.cores.map fun c => if c.die == die && c.core == core then f c else c }
  else { s with cores := s.cores ++ [f { die := die, core := core }] }

/-- Where a warp stands (R23). -/
structure Place where
  team : Nat
  gang : Nat
  region : Nat
  grid : Nat
  die : Nat
  core : Nat
  quad : Nat
  ctx : Nat
deriving DecidableEq, Repr, Inhabited

/-- The place of a team. -/
def State.teamPlace (s : State) (t : Nat) : Place :=
  let g := (s.team t).gang
  let r := (s.gang g).region
  let gr := (s.region r).grid
  { team := t, gang := g, region := r, grid := gr, die := (s.region r).die, core := (s.team t).core,
    quad := (s.gang g).quad, ctx := (s.grid gr).ctx }

/-- The place of warp `w`. -/
def State.place (s : State) (w : Nat) : Place := s.teamPlace (s.warp w).team

/-- Warps of a team, in order. -/
def State.warpsOf (s : State) (t : Nat) : List Nat := (List.range s.warps.length).filter fun w => (s.warp w).team == t
/-- Teams of a gang, in order. -/
def State.teamsOf (s : State) (g : Nat) : List Nat := (List.range s.teams.length).filter fun t => (s.team t).gang == g
/-- Gangs of a region, in order. -/
def State.gangsOf (s : State) (r : Nat) : List Nat := (List.range s.gangs.length).filter fun g => (s.gang g).region == r
/-- Regions of a grid, in order. -/
def State.regionsOf (s : State) (g : Nat) : List Nat := (List.range s.regions.length).filter fun r => (s.region r).grid == g
/-- Warps of a gang. -/
def State.gangWarps (s : State) (g : Nat) : List Nat := (s.teamsOf g).flatMap s.warpsOf
/-- Warps of a grid. -/
def State.gridWarps (s : State) (g : Nat) : List Nat := (s.regionsOf g).flatMap fun r => (s.gangsOf r).flatMap s.gangWarps

/-- The local tick of a die (R160). -/
def State.localTick (s : State) (d : Nat) : Nat := (s.die d).local_
/-- The reconciled tick of a die (R160); the hub's is the stakeboat's. -/
def State.reconTick (s : State) (d : Nat) : Nat := if d < 8 then (s.die d).recon else s.stake

/-- Whether a launch is timed (Table 5-3). -/
def LaunchRec.timed (l : LaunchRec) : Bool := l.flags.extractLsb' 0 2 == 1
/-- Whether a launch is co-resident; a timed one always is (R139). -/
def LaunchRec.coresident (l : LaunchRec) : Bool := l.timed || l.flags.getLsbD 2
/-- Stroke length S of a launch (R164). -/
def LaunchRec.strokeS (l : LaunchRec) : Nat := if l.stroke == 0 then 65536 else 2 ^ fld l.stroke 0 5
/-- Drive phase D of a launch (R164). -/
def LaunchRec.strokeD (l : LaunchRec) : Nat := if l.stroke == 0 then 49152 else fld l.stroke 8 21
/-- Guard band G of a launch (R164). -/
def LaunchRec.strokeG (l : LaunchRec) : Nat := if l.stroke == 0 then 256 else fld l.stroke 32 16
/-- Warps per team. -/
def LaunchRec.nWarps (l : LaunchRec) : Nat := fld l.shape 0 8
/-- Teams per gang. -/
def LaunchRec.nTeams (l : LaunchRec) : Nat := fld l.shape 8 8
/-- Gangs per region. -/
def LaunchRec.nGangs (l : LaunchRec) : Nat := fld l.shape 16 8
/-- Regions per grid. -/
def LaunchRec.nRegions (l : LaunchRec) : Nat := fld l.shape 24 8
/-- Scratchpad per team in 256-byte units. -/
def LaunchRec.spUnits (l : LaunchRec) : Nat := fld l.shape 32 16
/-- Vector registers of a warp. -/
def LaunchRec.vregs (l : LaunchRec) : Nat := 8 * fld l.shape 48 8
/-- The code object of a launch. -/
def LaunchRec.object (l : LaunchRec) : Nat := fld l.kernel 0 32
/-- The entry block of a launch. -/
def LaunchRec.entry (l : LaunchRec) : Nat := fld l.kernel 32 24

/-- The launch of warp `w`. -/
def State.launchOf (s : State) (w : Nat) : LaunchRec := (s.grid (s.place w).grid).launch

/-- A code object of a context. -/
def State.obj? (s : State) (ctx oid : Nat) : Option CodeObj := s.objs.find? fun o => o.ctx == ctx && o.oid == oid

/-- The code object that warp `w` runs. -/
def State.objOf (s : State) (w : Nat) : Option CodeObj := s.obj? (s.place w).ctx (s.launchOf w).object

/-- Offset of a block's image in the code section, when the block is present (R76). -/
def CodeObj.offset? (o : CodeObj) (b : Nat) : Option Nat :=
  (o.btab[b]?).bind fun e => if e.getLsbD 63 then some (fld e 0 40) else none

/-- Whether a block is present in the table of warp `w`'s code object (R53, R76). -/
def State.hasBlock (s : State) (w b : Nat) : Bool := ((s.objOf w).bind (·.offset? b)).isSome

/-- Umpire mode of a context, bit 0 of word 6 of its context block (Table 19-1). -/
def State.umpire (s : State) (ctx : Nat) : Bool := ((s.ctx ctx).block.getD 6 0).getLsbD 0

/-! Event counters (R452). -/

/-- Count `n` events on one counter; it wraps past 2^48 - 1 and sets `OVF` (R452). -/
def EvCtr.add (e : EvCtr) (src ctx n : Nat) : EvCtr :=
  if e.cfg.getLsbD 63 && fld e.cfg 0 16 == src && (!e.cfg.getLsbD 62 || fld e.cfg 54 8 == ctx) then
    { e with count := (e.count + n) % 2 ^ 48, ovf := e.ovf || decide (2 ^ 48 ≤ e.count + n) }
  else e

/-- Count events of a core source (Table 22-5). -/
def State.countCore (s : State) (die core src ctx n : Nat) : State :=
  if (s.core die core).ctrs.isEmpty then s
  else s.modCore die core fun c => { c with ctrs := c.ctrs.map fun e => e.add src ctx n }

/-- Count events of a die source (Table 22-5); dies 8 to 10 are the hub and the I/O dies. -/
def State.countDie (s : State) (die src ctx n : Nat) : State :=
  if 8 ≤ die then s.modPkg fun p => { p with ctrs := p.ctrs.modify (die - 8) fun l => l.map fun e => e.add src ctx n }
  else if (s.die die).ctrs.isEmpty then s
  else s.modDie die fun d => { d with ctrs := d.ctrs.map fun e => e.add src ctx n }

/-- Count events of warp `w`'s core. -/
def State.countW (s : State) (w src n : Nat) : State :=
  if n = 0 then s else s.countCore (s.place w).die (s.place w).core src (s.place w).ctx n

/-! Free values (log 3). -/

/-- Use one free value. -/
def State.free (s : State) : Word × State := (Config.freeWord s.fresh, { s with fresh := s.fresh + 1 })

/-! Faults (R419 to R422). -/

/-- A warp's seat once it is left at local tick `now`. -/
def SeatW.leave (x : SeatW) (now : Nat) : SeatW :=
  { x with seat := none, heldAt := none, left := (x.seat.map fun n => (n, now)) <|> x.left }

/-- Free a warp's seat (R151); a warp of a timed launch keeps it (R154). -/
def State.freeSeat (s : State) (w : Nat) : State :=
  if (s.launchOf w).timed then s
  else s.modWarp w fun x => { x with seat := x.seat.leave (s.localTick (s.place w).die) }

/-- Release the queue entries that a block's pushes reserve (R50). -/
def State.releasePush (s : State) (w : Nat) (p : PushRes) : State :=
  match p.dst with
  | .copy _ => s.modTeam (s.warp w).team fun t => { t with reserved := t.reserved - 1 }
  | .coll => s.modCtx (s.place w).ctx fun c => { c with collRes := c.collRes - 1 }
  | .launch q => s.modQueue q fun x => { x with reserved := x.reserved - 1 }

/-- Abort the block of warp `w` (R48, R421): its writes, buffered stores, reservations, transfers and deferred effects are
discarded; what a matrix block did to registers and what a `trecv` delivered stay. A returning atomic of which a part was
performed is performed in full, without a result (R49); a line that a load or an atomic has asked for still comes (R194). -/
def State.abortBlock (s : State) (w : Nat) : State :=
  match s.blk? w with
  | none => s
  | some b =>
    let s := b.pushes.foldl (fun s p => s.releasePush w p) s
    let s := { s with tsends := s.tsends.filter fun t => !(t.w == w && !t.committed),
                      remote := s.remote.filter fun r => !(r.w == w && r.isLoad) }
    let keep (d : DReq) : Option DReq :=
      if d.w == w && !d.performed then match d.kind with
        | .load _ _ => if d.asked then some { d with kind := .prefetch false, ord := .plain } else none
        | .atomic (some _) op l =>
          if b.atomDone.isSome then some { d with kind := .atomic none op l }
          else if d.asked then some { d with kind := .prefetch false, ord := .plain } else none
        | _ => some d
      else some d
    let s := s.modCache fun c => { c with dreqs := c.dreqs.filterMap keep }
    let s := s.countW w 3 1
    s.modWarp w fun x => { x with blk := none, unchecked := false }

/-- Fill a record's place and time (Table 21-2). -/
def State.fillRec (s : State) (w : Nat) (f : FRec) : FRec :=
  let p := s.place w
  let x := s.warp w
  { f with
    object := (s.launchOf w).object, core := p.core, die := p.die, warp := x.idx, team := (s.team p.team).idx,
    gang := (s.gang p.gang).idx, region := (s.region p.region).idx, pslot := x.pslot,
    tick := BitVec.ofNat 64 (s.reconTick p.die), trapm := x.trap.on, block := x.next, wid := some w }

/-- Give a record to the hub for a context's fault queue (R424); behind a held record it is held too (R425). -/
def State.postRec (s : State) (ctx : Nat) (f : FRec) : State :=
  s.modCtx ctx fun c => { c with hubq := c.hubq ++ [{ f with held := f.held || c.hubq.any (·.held), fq := c.block.getD 4 0 }] }

/-- Park warp `w` on a fault and post its record (R419); a block in execution aborts. `A` and its lanes are set when the
block's returning atomic was performed (R49); `M` when a matrix block had started (R360). -/
def State.fault (s : State) (w : Nat) (f : FRec) : State :=
  let f := s.fillRec w f
  let f := match s.blk? w with
    | none => { f with lanes := if f.lanes == 0 then (s.warp w).live else f.lanes }
    | some b =>
      let f := { f with mmod := b.cls == 1, lanes := if f.lanes == 0 then b.live0 else f.lanes }
      match b.atomDone with
      | none => f
      | some l => { f with atom := true, aux := l }
  let ctx := (s.place w).ctx
  let s := (s.abortBlock w).freeSeat w
  let s := s.modWarp w fun x => { x with park := { x.park with fault := true } }
  s.postRec ctx f

/-- Raise a fault of an instruction at firing. -/
def State.faultAt (s : State) (w idx code detail : Nat) : State :=
  s.fault w { code := code, detail := detail, index := idx }

/-! Traps (R429 to R434). -/

/-- The trap vector of a context: whether one is present and the block of trap 0 (Table 21-4). -/
def State.trapVector (s : State) (ctx : Nat) : Bool × Nat :=
  let w := (s.ctx ctx).block.getD 3 0
  (w.getLsbD 24, fld w 0 24)

/-- Taking a trap at commit (R430): the trap words, the return word, the mask and the depth are saved, trap mode is set and
the warp continues at the vector's block with `live` and `fmt` unchanged. The pending exit, bar and tlwait are given. -/
def trapEntry (x : Warp) (num payload block object next handler : Nat) (pexit : Bool) (pbar : Option (Scope × Nat))
    (pwait : List WaitOn) : Warp :=
  { x with
    trap := { on := true,
              tr0 := BitVec.ofNat 64 (payload * 2 ^ 48 + num),
              tr1 := BitVec.ofNat 64 (block * 2 ^ 32 + object),
              tret := BitVec.ofNat 64 (next + (if pexit then 2 ^ 25 else 0) + (if pbar.isSome then 2 ^ 26 else 0)
                + (if pwait.isEmpty then 0 else 2 ^ 27)),
              tlive := x.live, tdepth := x.stack.length + 16 * x.spilled, pexit := pexit, pbar := pbar, pwait := pwait },
    next := handler }

/-- Depth of the reconvergence stack: hardware entries and those of spilled groups (R55). -/
def Warp.depth (x : Warp) : Nat := x.stack.length + 16 * x.spilled

/-- Whether `eret` is refused (R434). -/
def eretRefused (x : Warp) : Bool := !x.trap.on || x.depth != x.trap.tdepth

/-- Return from a trap (R434): trap mode ends, the live mask is restored and the pending effects are given back to the
commit, which performs them. `TR0` and `TR1` keep their values. -/
def trapReturn (x : Warp) : Warp :=
  { x with
    live := x.trap.tlive &&& ~~~x.retired,
    next := fld x.trap.tret 0 24,
    trap := { x.trap with on := false, pexit := false, pbar := none, pwait := [] } }

/-! Delivery (R42). -/

/-- What slot `sl` of instruction `i` has received. -/
def Blk.opnd? (b : Blk) (i : Nat) (sl : Slot) : Option Token :=
  (b.ops.find? fun o => o.1 == i && o.2.1 == sl).map (·.2.2)

/-- What write slot `n` has received. -/
def Blk.out? (b : Blk) (n : Nat) : Option Token := (b.outs.find? fun o => o.1 == n).map (·.2)

/-- Note that an instruction of warp `w` delivers now. -/
def State.stamp (s : State) (w idx : Nat) : State :=
  let now := s.localTick (s.place w).die
  s.modBlk w fun b => { b with when_ := (idx, now) :: b.when_ }

/-- Of two instructions that delivered to one write slot or to the successor, `q` before `p`, the one that made the second delivery: in
one tick that is the one of higher index (R42). -/
def State.second (s : State) (w : Nat) (b : Blk) (q p : Nat) : Nat :=
  if b.when_.find? (fun e => e.1 == q) == some (q, s.localTick (s.place w).die) then max q p else p

/-- The targets of an instruction; `fan` has four (R103). -/
def Instr.targets (i : Instr) : List Target :=
  match i with
  | .fan h _ t2 t3 => [h.t0, h.t1, t2, t3]
  | i => match i.hdr? with
    | some h => [h.t0, h.t1]
    | none => []

/-- The targets of an instruction word. -/
def wordTargets (x : BitVec 64) : List Target := match decode x with
  | .ok i => Instr.targets i
  | .error _ => []

/-- The instruction that delivered to write slot `n` of a block before `p` did. -/
def Blk.outBefore (b : Blk) (n : BitVec 4) (p : Nat) : Nat :=
  (b.fired.find? fun j => j != p && !(b.loads.any fun l => l.idx == j) && !(b.recv.any fun r => r.idx == j) &&
    (wordTargets (b.words.getD j 0)).contains (.out n)).getD p

/-- Deliver a value or null token to one target; a second delivery raises the operand conflict fault, whose `INDEX` names
the instruction whose slot received it, or the producer for a write slot (R42). -/
def State.deliver (s : State) (w producer : Nat) (t : Target) (v : Token) : State :=
  match s.blk? w with
  | none => s
  | some b =>
    match t with
    | .none => s
    | .opnd i sl =>
      if (b.opnd? i.toNat sl).isSome then s.faultAt w i.toNat 2 0
      else s.modBlk w fun b => { b with ops := (i.toNat, sl, v) :: b.ops }
    | .out n =>
      if (b.out? n.toNat).isSome then s.faultAt w (s.second w b (b.outBefore n producer) producer) 2 0
      else s.modBlk w fun b => { b with outs := (n.toNat, v) :: b.outs }

/-- Deliver the results for `T0` and `T1` (R82). -/
def State.deliver2 (s : State) (w producer : Nat) (h : Hdr) (v0 v1 : Token) : State :=
  (s.deliver w producer h.t0 v0).deliver w producer h.t1 v1

/-! Firing (R39 to R41). -/

/-- The operands with which an instruction fires. -/
structure Args where
  a : Token
  b : Token
  c : Token
deriving DecidableEq, Repr, Inhabited

/-- The scalar or mask in a token. -/
def Token.word : Token → Word
  | .s x => x
  | .k x => x
  | _ => 0

/-- The vector in a token. -/
def Token.vec : Token → Vec
  | .v x => x
  | _ => []

/-- Whether an instruction can fire, and how (R39, R40, R41). -/
inductive Ready where
  | waits
  | skips
  | nulls
  | fires (x : Args)
deriving DecidableEq, Repr

/-- Whether a predicate value matches the mode (R40). -/
def predMatches (pm : Pred) (x : Word) : Bool :=
  match pm with
  | .always => true
  | .onTrue => x != 0
  | .onFalse => x == 0

/-- Whether slot p has received a value that does not match the predicate mode (R40, R46). -/
def predFails (b : Blk) (i : Nat) (pm : Pred) : Bool :=
  pm != .always && (match b.opnd? i .p with
    | some (.s x) => !predMatches pm x
    | _ => false)

/-- Whether a slot that an opcode has is filled. -/
def slotFull (b : Blk) (i : Nat) (has : Bool) (sl : Slot) : Bool := !has || (b.opnd? i sl).isSome

/-- Whether a slot that an opcode has holds a null token. -/
def slotNull (b : Blk) (i : Nat) (has : Bool) (sl : Slot) : Bool := has && b.opnd? i sl == some .null

/-- Readiness of instruction `i` of a block. -/
def readiness (b : Blk) (i : Nat) (pm : Pred) (sg : Sig) : Ready :=
  if b.fired.contains i || b.dropped.contains i then .waits
  else if !(slotFull b i sg.a.isSome .a && slotFull b i sg.b.isSome .b && slotFull b i sg.c.isSome .c
      && slotFull b i (pm != .always) .p) then .waits
  else if predFails b i pm then .skips
  else if slotNull b i sg.a.isSome .a || slotNull b i sg.b.isSome .b || slotNull b i sg.c.isSome .c
      || slotNull b i (pm != .always) .p then .nulls
  else .fires { a := (b.opnd? i .a).getD .null, b := (b.opnd? i .b).getD .null, c := (b.opnd? i .c).getD .null }

/-- Whether a home's bonded DRAM is in a refresh tick (R174); LPDDR has none. -/
def State.refreshing (s : State) (home : Nat) : Bool := decide (home < 8) && decide (3776 ≤ s.reconTick home % 4096)

/-- Whether a transfer to a landing slot has come and is still to be noted (R177). -/
def State.landingDue (s : State) (die : Nat) (slot : Nat → Bool) : Bool :=
  s.landings.any fun x => x.die == die && slot x.slot && decide (x.at_ ≤ s.reconTick die)

/-- Whether a wrap-around of its die stops the issue of warp `w` (R275); a timed launch does not pause. -/
def State.wrapStops (s : State) (w : Nat) : Bool := (s.die (s.place w).die).wrapAt.isSome && !(s.launchOf w).timed

/-! Umpire mode (R183, R444). -/

/-- Whether umpire mode checks warp `w` (R183, R426). -/
def State.umpireOn (s : State) (w : Nat) : Bool := s.umpire (s.place w).ctx && !(s.warp w).unchecked

/-- Raise an umpire hazard of a block (R444). -/
def State.hazard (s : State) (w idx code aux : Nat) : State :=
  s.fault w { code := 16, detail := code, index := idx, aux := BitVec.ofNat 64 aux }

/-- Whether a byte range lies in the block's declared scratchpad range (R69). -/
def Blk.inRange (b : Blk) (ofs len : Nat) : Bool :=
  b.sprange.2 == 0 || (decide (b.sprange.1 ≤ ofs) && decide (ofs + len ≤ b.sprange.1 + b.sprange.2))

/-- The first byte of ranges outside the declared range, for hazard 6 of Table 6-9; none outside umpire mode. -/
def State.rangeHazard (s : State) (w : Nat) (b : Blk) (l : List (Nat × Nat)) : Option Nat :=
  if s.umpireOn w then (l.find? fun p => !b.inRange p.1 p.2).map (·.1) else none

/-- What two byte ranges share begins here. -/
def meetAt (p q : Nat × Nat) : Option Nat := if p.1 < q.1 + q.2 ∧ q.1 < p.1 + p.2 then some (max p.1 q.1) else none

/-- The first byte of written ranges, each in a team's scratchpad, that meets a `tsend` range of that team between its firing and the end of
its read: hazard 3 of Table 6-9. -/
def State.tsendHazard (s : State) (l : List (Nat × Nat × Nat)) : Option Nat :=
  l.findSome? fun p =>
    (s.tsends.filter fun t => t.team == p.1 && decide (s.reconTick t.die < t.start + t.len / 64)).findSome? fun t => meetAt p.2 (t.ofs, t.len)

/-- The first byte of ranges, each in a team's scratchpad, that meets the destination of a timed copy of that team before the first stroke
boundary after its end (R181): hazard 5 of Table 6-9. -/
def State.copyHazard (s : State) (w : Nat) (l : List (Nat × Nat × Nat)) : Option Nat :=
  let n := (s.launchOf w).strokeS
  let now := s.reconTick (s.place w).die
  l.findSome? fun p =>
    let t := s.team p.1
    (t.filling.map (·.2) ++ (t.landed.filter fun q => q.2.2 / n == now / n).map fun q => (q.1, q.2.1)).findSome? fun q => meetAt p.2 q

/-- Ranges of warp `w`'s own team, with the team. -/
def State.ofTeam (s : State) (w : Nat) (l : List (Nat × Nat)) : List (Nat × Nat × Nat) := l.map fun p => ((s.warp w).team, p)

/-- The hazard that a scratchpad access meets in umpire mode, with its first offending byte: 6 for its team's ranges, 3 for what it writes and 5
for what it reads (Table 6-9). -/
def State.spadHazard (s : State) (w : Nat) (b : Blk) (own : List (Nat × Nat)) (reads writes : List (Nat × Nat × Nat)) : Option (Nat × Nat) :=
  if s.umpireOn w then
    match s.rangeHazard w b own, s.tsendHazard writes, s.copyHazard w reads with
    | some o, _, _ => some (6, o)
    | none, some o, _ => some (3, o)
    | none, none, some o => some (5, o)
    | none, none, none => none
  else none

/-! The scratchpad. -/

/-- A team with a write to its scratchpad made (R212): a word written whole loses its poison, unless it is written with poison (R447). -/
def Team.put (t : Team) (e : SpPend) : Team :=
  let whole (o : Nat) : Bool := (List.range 4).all fun j => e.bytes.any fun p => p.1 == o + j
  let kept := t.spPoison.filter fun o => !whole o
  { t with spad := setBytes t.spad e.bytes, spPoison := kept ++ e.poison.filter fun o => !kept.contains o }

/-- A team's scratchpad as warp `w` sees it: with its own stores that no other agent sees yet (R212, R252). -/
def State.seen (s : State) (w t : Nat) : Team :=
  ((s.team t).pend.filter fun e => e.warp == some w).foldl Team.put (s.team t)

/-- The block whose instruction the step issues: that of a seated warp with a block (R149, log 14), once the ticks of its last hand-over have
passed (R152). -/
def State.issuing? (s : State) : Option Blk :=
  if (s.warp s.cur).seat.seat.isSome && decide ((s.warp s.cur).begin_ ≤ s.localTick (s.place s.cur).die) && !s.wrapStops s.cur then
    s.blk? s.cur
  else none

/-- A block in which the issued instruction has fired, now. -/
def State.marked (s : State) (b : Blk) : Blk :=
  { b with fired := s.curIdx :: b.fired, when_ := (s.curIdx, s.localTick (s.place s.cur).die) :: b.when_ }

/-- Note that the issued instruction has fired or been nullified. -/
def State.markFired (s : State) : State := s.modBlk s.cur s.marked

/-- Whether instruction `j` of a block has lane-array ticks to come (R355). -/
def Blk.runs (b : Blk) (j : Nat) : Bool := b.run.any fun q => q.1 == j

/-- Window order (R354): a window instruction waits until each earlier one has fired, with its last lane-array tick, or produced nothing. -/
def Blk.windowTurn (b : Blk) (i : Nat) : Bool :=
  !b.win.contains i || b.win.all fun j => decide (i ≤ j) || (b.fired.contains j && !b.runs j) || b.dropped.contains j

/-- Issue instruction `i`: when it is ready and `gate` holds it fires; a mismatched predicate consumes the operands and
produces nothing (R40); a null token is passed by `onNull` (R41). What is not ready changes nothing (log 1). -/
def State.issue (s : State) (i : Instr) (gate : Blk → Bool) (onNull : State → State) (onFire : Blk → Args → State → State) :
    State :=
  match s.issuing?, i.hdr? with
  | some b, some h =>
    match readiness b s.curIdx h.pm i.sig with
    | .waits => s
    | .skips => s.modBlk s.cur fun b => { b with dropped := s.curIdx :: b.dropped }
    | .nulls => onNull s.markFired
    | .fires x => if b.windowTurn s.curIdx && gate b then onFire b x s.markFired else s
  | _, _ => s

/-- The header of an instruction word; an event has none. -/
def Instr.header (i : Instr) : Hdr := i.hdr?.getD ⟨.always, .none, .none⟩

/-- Deliver null tokens to both targets (R41). -/
def State.deliverNull (s : State) (i : Instr) : State := s.deliver2 s.cur s.curIdx (Instr.header i) .null .null

/-- Issue an instruction whose only effect is to deliver results for `T0` and `T1` (R82); `lane` is the number of lane-array
issue ticks it takes (R149). -/
def execValue (i : Instr) (lane : Nat) (f : Blk → Args → Token × Token) (s : State) : Out :=
  .next (s.issue i (fun _ => true) (fun s => s.deliverNull i) fun b x s =>
    (s.countW s.cur 4 lane).deliver2 s.cur s.curIdx (Instr.header i) (f b x).1 (f b x).2)

/-- Issue an instruction that delivers one scalar to both targets. -/
def execS (i : Instr) (f : Args → Word) (s : State) : Out := execValue i 0 (fun _ x => (.s (f x), .s (f x))) s

/-- Issue an instruction that delivers one mask to both targets. -/
def execK (i : Instr) (f : Args → Word) (s : State) : Out := execValue i 0 (fun _ x => (.k (f x), .k (f x))) s

/-- Issue a lane-array instruction that delivers one vector to both targets (R149). -/
def execV (i : Instr) (f : Blk → Args → Vec) (s : State) : Out := execValue i 1 (fun b x => (.v (f b x), .v (f b x))) s

/-- Issue an instruction without a result (R99). -/
def execQuiet (i : Instr) (onFire : Blk → Args → State → State) (s : State) : Out :=
  .next (s.issue i (fun _ => true) id onFire)

/-- What an activity makes of the state, where it has something to do. -/
def State.acted (s : State) (f : State → Out) : Option State :=
  match f s with
  | .next t => if t = s then none else some t
  | _ => none

end Sys2Proof.Machine
end

