-- ==== Sys2Proof/Machine/Translate.lean ====
section
/-! DEFINITION. Homes, page tables, translation entries and the checks on a global access (chapters 7, 8 and 19). -/

namespace Sys2Proof.Machine

/-- Look a key up in an association list. -/
def assoc {α : Type} (l : List (Nat × α)) (k : Nat) (d : α) : α :=
  match l with
  | [] => d
  | (a, x) :: r => if a = k then x else assoc r k d

/-- Set a key of an association list. -/
def assocSet {α : Type} (l : List (Nat × α)) (k : Nat) (v : α) : List (Nat × α) :=
  match l with
  | [] => [(k, v)]
  | (a, x) :: r => if a = k then (a, v) :: r else (a, x) :: assocSet r k v

/-- Where the granule of an address lies (R185, Table 19-2). -/
inductive Home where
  | none
  | loc (home space : Nat)
  | remote (pkg rctx : Nat)
deriving DecidableEq, Repr

/-- Decode a home map entry for a context (Table 19-2); homes 0 to 7 are the compute dies, 8 the hub. -/
def homeOfEntry (ctx : Nat) (e : Word) : Home :=
  if !e.getLsbD 63 then .none
  else
    let sp := if e.getLsbD 56 then 256 else ctx
    match fld e 60 3 with
    | 0 => .loc (fld e 57 3) sp
    | 1 => .loc 8 sp
    | 2 => .remote (fld e 46 10) (fld e 38 8)
    | _ => .none

/-- The home map entry of a context's granule. -/
def State.homeEntry (s : State) (ctx granule : Nat) : Word := assoc s.xl.homeMap (ctx * 262144 + granule) 0

/-- The home of an address of a context. -/
def State.homeOf (s : State) (ctx va : Nat) : Home := homeOfEntry ctx (s.homeEntry ctx (va / 2 ^ 30))

/-- The granules of a window. -/
def Window.granules (w : Window) : List Nat := w.entries.map (·.1)

/-- The home map entry of a window's granule. -/
def Window.entry (w : Window) (granule : Nat) : Word := assoc w.entries granule 0

/-- The home of a line's space: a context's own map, or the windows for space 256 (R399). -/
def State.homeOfSpace (s : State) (space va : Nat) : Home :=
  if space < 256 then s.homeOf space va
  else match s.xl.windows.find? fun w => w.granules.contains (va / 2 ^ 30) with
    | some w => homeOfEntry 256 (w.entry (va / 2 ^ 30))
    | none => .none

/-- A page table entry in a home's table region. -/
def State.pte (s : State) (home a : Nat) : Word := assoc s.xl.pte (home * 2 ^ 48 + a) 0

/-- `V` of an entry (Table 19-4). -/
def pteV (e : Word) : Bool := e.getLsbD 63
/-- `LEAF`. -/
def pteLeaf (e : Word) : Bool := e.getLsbD 62
/-- `RD`. -/
def pteRd (e : Word) : Bool := e.getLsbD 61
/-- `WR`. -/
def pteWr (e : Word) : Bool := e.getLsbD 60
/-- `EX`. -/
def pteEx (e : Word) : Bool := e.getLsbD 59
/-- `ROW`. -/
def pteRow (e : Word) : Bool := e.getLsbD 58
/-- `DRV`. -/
def pteDrv (e : Word) : Bool := e.getLsbD 57
/-- `ADDR`, as a byte address. -/
def pteAddr (e : Word) : Nat := fld e 8 44 * 256

/-- The root table of a space at a home. -/
def State.root? (s : State) (home space : Nat) : Option Nat :=
  (s.xl.roots.find? fun r => r.1 == home && r.2.1 == space).map (·.2.2)

/-- The walk of Table 19-3: the leaf for an address and the logarithm of its page size; none where `V` is 0 (R394). -/
def State.walk (s : State) (home space va : Nat) : Option (Word × Nat) :=
  match s.root? home space with
  | none => none
  | some r0 =>
    let e0 := s.pte home (r0 + 8 * (va / 2 ^ 39 % 512))
    if !pteV e0 then none else
    let e1 := s.pte home (pteAddr e0 + 8 * (va / 2 ^ 30 % 512))
    if !pteV e1 then none else
    if pteLeaf e1 then some (e1, 30) else
    let e2 := s.pte home (pteAddr e1 + 8 * (va / 2 ^ 21 % 512))
    if !pteV e2 then none else
    if pteLeaf e2 then some (e2, 21) else
    let e3 := s.pte home (pteAddr e2 + 8 * (va / 2 ^ 16 % 32))
    if !pteV e3 then none else some (e3, 16)

/-- The physical cell of an address under a leaf. -/
def physAddr (home : Nat) (leaf : Word) (size va : Nat) : Nat := home * 2 ^ 48 + pteAddr leaf + va % 2 ^ size

/-- The translation entry that covers an address. -/
def State.tlb? (s : State) (home space va : Nat) : Option TlbE :=
  s.xl.tlb.find? fun e => e.home == home && e.space == space && e.base == va / 2 ^ e.size * 2 ^ e.size

/-- Entries that a home holds of a page size (R395). -/
def tlbCap (size : Nat) : Nat := if size = 30 then 1024 else if size = 21 then 16384 else 65536

/-- Keep at most `n` entries of a home and size, latest used first. -/
def tlbTrim (home size n : Nat) (l : List TlbE) : List TlbE :=
  match l with
  | [] => []
  | e :: r =>
    if e.home == home && e.size == size then
      match n with
      | 0 => tlbTrim home size 0 r
      | n + 1 => e :: tlbTrim home size n r
    else e :: tlbTrim home size n r

/-- An access uses the entry that covers its address, which is then the latest used (R395). -/
def State.tlbUse (s : State) (home space va : Nat) : State :=
  match s.tlb? home space va with
  | some e => s.modXl fun x => { x with tlb := e :: x.tlb.filter (· != e) }
  | none => s

/-- Enter a translation; the least recently used entry of its size goes when there is no room (R395). -/
def State.tlbAdd (s : State) (e : TlbE) : State :=
  s.modXl fun x => { x with tlb := tlbTrim e.home e.size (tlbCap e.size) (e :: x.tlb.filter (· != e)) }

/-- What an access does with a page (Table 19-4): read, write, fetch, or read and write by an atomic. -/
inductive Acc where
  | rd
  | wr
  | ex
  | rw
deriving DecidableEq, Repr

/-- Whether any grid of a context is placed or pre-empted (R197). -/
def State.ctxBusy (s : State) (ctx : Nat) : Bool := s.grids.any fun g => g.ctx == ctx && !g.done

/-- Whether a leaf permits an access (R394, R197); warps have no access to `DRV` pages. -/
def leafPermits (s : State) (ctx : Nat) (warp : Bool) (acc : Acc) (leaf : Word) : Bool :=
  !(warp && pteDrv leaf) && (match acc with
    | .rd => pteRd leaf
    | .wr => pteWr leaf && !(pteRow leaf && s.ctxBusy ctx)
    | .ex => pteEx leaf
    | .rw => pteRd leaf && pteWr leaf && !(pteRow leaf && s.ctxBusy ctx))

/-- The outcome of translating and checking one address. -/
inductive TRes where
  | ok (phys space : Nat) (leaf : Word)
  | far (pkg rctx : Nat)
  | miss (home space : Nat)
  | nohome
  | page (home space : Nat)
  | prot
deriving DecidableEq, Repr

/-- Checks 3 and 4 of Table 8-1a for a warp, from the translation entries: a miss needs a walk (R395); a page with a pending
fault faults (R396). -/
def State.transWarp (s : State) (ctx : Nat) (acc : Acc) (rqt : Rqt) (va : Nat) : TRes :=
  match s.homeOf ctx va with
  | .none => .nohome
  | .remote p c => if rqt == .own || rqt == .si then .prot else .far p c
  | .loc h sp =>
    match s.tlb? h sp va with
    | some e => if leafPermits s ctx true acc e.leaf then .ok (physAddr h e.leaf e.size va) sp e.leaf else .prot
    | none =>
      if s.xl.pfaults.any fun p => p.home == h && p.space == sp && p.va == va / 65536 * 65536 then .page h sp
      else .miss h sp

/-- The same checks made by walking the tables at once: engines, the hub, fetches and the device's own accesses. -/
def State.transNow (s : State) (ctx : Nat) (warp : Bool) (acc : Acc) (va : Nat) : TRes :=
  if 2 ^ 48 ≤ va then .prot else
  match s.homeOf ctx va with
  | .none => .nohome
  | .remote p c => .far p c
  | .loc h sp =>
    match s.walk h sp va with
    | some (leaf, size) => if leafPermits s ctx warp acc leaf then .ok (physAddr h leaf size va) sp leaf else .prot
    | none => .page h sp

/-- The physical cell of a line's first byte, wherever its page allows (a line's bytes share one page). -/
def State.linePhys? (s : State) (space line : Nat) : Option Nat :=
  match s.homeOfSpace space (line * 128) with
  | .loc h _ => (s.walk h space (line * 128)).map fun p => physAddr h p.1 p.2 (line * 128)
  | _ => none

/-- The leaf of a line's page. -/
def State.lineLeaf? (s : State) (space line : Nat) : Option Word :=
  match s.homeOfSpace space (line * 128) with
  | .loc h _ => (s.walk h space (line * 128)).map (·.1)
  | _ => none

/-- The home of a line. -/
def State.lineHome (s : State) (space line : Nat) : Nat :=
  match s.homeOfSpace space (line * 128) with
  | .loc h _ => h
  | _ => 0

/-- The first address of the page that a walk of an address finds, or of its 64 KiB page where it finds none. -/
def State.walkBase (s : State) (home space va : Nat) : Nat :=
  let bits := ((s.walk home space va).map (·.2)).getD 16
  va / 2 ^ bits * 2 ^ bits

/-- Ask for a walk of a page, joining one in progress (R395); the walk keeps the 64 KiB page of every access that waits for it (R396). -/
def State.askWalk (s : State) (home space va : Nat) : State :=
  let page := va / 65536 * 65536
  let base := s.walkBase home space va
  let is (w : Walk) : Bool := w.home == home && w.space == space && w.va == base
  let ask (w : Walk) : Walk := if is w && !w.asks.contains page then { w with asks := w.asks ++ [page] } else w
  s.modXl fun x => { x with
    walks := if x.walks.any is then x.walks.map ask else x.walks ++ [{ home := home, space := space, va := base, asks := [page] }] }

/-- The number of the first failing check of Table 8-1a for one lane; 0 when all hold. -/
def checkNo (align : Bool) (va : Nat) (r : TRes) : Nat :=
  if 2 ^ 48 ≤ va then 1
  else if !align then 2
  else match r with
    | .nohome => 3
    | .page _ _ => 3
    | .prot => 4
    | _ => 0

/-- Check every participating lane of a warp's access (R205): each lane's number, address, and result. `width` is the access
width. -/
def State.checkLanes (s : State) (ctx : Nat) (acc : Acc) (rqt : Rqt) (width : Nat) (lanes : List (Nat × Nat)) :
    List (Nat × Nat × Nat × TRes) :=
  lanes.map fun p =>
    let r := s.transWarp ctx acc rqt p.2
    (p.1, p.2, checkNo (p.2 % width == 0) p.2 r, r)

/-- The earliest failing check among the lanes, none when every lane passes (R205). -/
def firstCheck (l : List (Nat × Nat × Nat × TRes)) : Option Nat :=
  (l.map fun p => p.2.2.1).foldl (fun m c => if c = 0 then m else match m with
    | none => some c
    | some d => some (min c d)) none

/-- The fault code of a check (Table 8-1a). -/
def checkCode (c : Nat) : Nat := if c = 2 then 5 else if c = 3 then 3 else 4

/-- The fault record of a failed check: the lanes that fail it and the lowest one's address (R205, Table 21-3). -/
def checkRec (idx : Nat) (perLane : Bool) (acc : Acc) (c : Nat) (l : List (Nat × Nat × Nat × TRes)) : FRec :=
  let bad := l.filter fun p => p.2.2.1 == c
  { code := checkCode c, detail := if c = 1 ∨ c = 4 then c else 0, index := idx,
    addr := BitVec.ofNat 64 ((bad.headD (0, 0, 0, .prot)).2.1),
    lanes := if perLane then bad.foldl (fun m p => m ||| (1#64 <<< p.1)) 0 else 0,
    aux := if c = 2 then 0 else match acc with
      | .rd => 0
      | .wr => 1
      | .ex => 2
      | .rw => 1 }

/-- Pages of a set of lanes that need a walk. -/
def missing (l : List (Nat × Nat × Nat × TRes)) : List (Nat × Nat × Nat) :=
  l.filterMap fun p => match p.2.2.2 with
    | .miss h sp => some (h, sp, p.2.1)
    | _ => none

/-- Whether a home can make no further pending fault (R396). -/
def State.pfaultsFull (s : State) (home : Nat) : Bool := decide (4096 ≤ (s.xl.pfaults.filter fun p => p.home == home).length)

/-- Raise a page fault of a warp: the first one on a page creates its pending entry and posts its record, each later one attaches to it and posts
nothing; with no entry free the access waits (R396). A fault on a granule without a home makes no entry (R186). -/
def State.pageFault (s : State) (w : Nat) (f : FRec) (at_ : Option (Nat × Nat × Nat)) : State :=
  match at_ with
  | none => s.fault w f
  | some (h, sp, va) =>
    let page := va / 65536 * 65536
    let ctx := (s.place w).ctx
    let before := (s.ctx ctx).hubq
    let isP (p : PFault) : Bool := p.home == h && p.space == sp && p.va == page
    if !s.xl.pfaults.any isP && s.pfaultsFull h then s else
    let s := s.fault w f
    let recs := ((s.ctx ctx).hubq).drop before.length
    match s.xl.pfaults.find? isP with
    | some p =>
      let attach (q : PFault) : PFault := if isP q then { q with warps := q.warps ++ [w], recs := q.recs ++ recs, posted := true } else q
      let s := s.modXl fun x => { x with pfaults := x.pfaults.map attach }
      if p.posted then s.modCtx ctx fun c => { c with hubq := before } else s
    | none => s.modXl fun x => { x with
        pfaults := x.pfaults ++ [{ home := h, space := sp, va := page, warps := [w], recs := recs, posted := true }] }

/-- Raise the fault of a failed check of a warp's access. -/
def State.checkFault (s : State) (w idx : Nat) (perLane : Bool) (acc : Acc) (c : Nat) (l : List (Nat × Nat × Nat × TRes)) : State :=
  let f := checkRec idx perLane acc c l
  let bad := l.filter fun p => p.2.2.1 == c
  if c = 3 then
    s.pageFault w f (match bad.headD (0, 0, 0, .prot) with
      | (_, va, _, .page h sp) => some (h, sp, va)
      | _ => none)
  else s.fault w f

end Sys2Proof.Machine
end

