-- ==== Sys2Proof/Machine/Coherence.lean ====
section
/-! DEFINITION. Operations over the caches: L1 lines and leases, die-cache lines, the home directory and its messages
(chapters 7 and 10), and the coherent value of memory as engines and the device itself reach it (log 5). -/

namespace Sys2Proof.Machine

/-! Words of a line. -/

/-- The word of index `i`. -/
def wordAt? (l : List CWord) (i : Nat) : Option CWord := l.find? fun w => w.i == i

/-- Put one word into a line, words in rising order. -/
def putWord (l : List CWord) (w : CWord) : List CWord :=
  match l with
  | [] => [w]
  | x :: r => if x.i < w.i then x :: putWord r w else if x.i = w.i then w :: r else w :: x :: r

/-- Merge words into a line. -/
def mergeWords (l new : List CWord) : List CWord := new.foldl putWord l

/-- Merge words beneath the valid ones (R274). -/
def mergeBeneath (l new : List CWord) : List CWord := mergeWords new l

/-- The dirty words. -/
def dirtyWords (l : List CWord) : List CWord := l.filter (·.d)

/-- Mark every word clean. -/
def cleanWords (l : List CWord) : List CWord := l.map fun w => { w with d := false }

/-- Word `i` of the line at a physical address as memory holds it. -/
def State.memWord (s : State) (a i : Nat) : CWord :=
  { i := i, v := getW32 s.mem (a + 4 * i), d := false, p := s.memPoison.contains (a + 4 * i) }

/-- The words of a line as its home's memory holds them. -/
def State.memWords (s : State) (space line : Nat) : List CWord :=
  match s.linePhys? space line with
  | none => []
  | some a => (List.range 32).map (s.memWord a)

/-- Write words of a line to its home's memory, with their poison (R192, R447); the hub cache, which is on the memory's side of the hub,
follows, but for a line of a read-only-weights page (R195, R197). -/
def State.writeHome (s : State) (space line : Nat) (l : List CWord) : State :=
  match s.linePhys? space line with
  | none => s
  | some a =>
    let up (h : HubLine) : HubLine := if h.space == space && h.line == line && !h.row then { h with words := mergeWords h.words (cleanWords l) } else h
    let s := s.modCache fun c => { c with hub := c.hub.map up }
    l.foldl (fun s w =>
      { s with mem := setW32 s.mem (a + 4 * w.i) w.v,
               memPoison := if w.p then (if s.memPoison.contains (a + 4 * w.i) then s.memPoison else (a + 4 * w.i) :: s.memPoison)
                            else s.memPoison.filter (· != a + 4 * w.i) }) s

/-- Lines that the hub cache holds: 512 MiB (R195). -/
def hubLines : Nat := 4194304

/-- What the home's side gives a reader of a line: memory, or for a line of the hub the hub cache, which takes the line in (R195, R197). The
spec gives no order of replacement there; the line taken in first goes (log 6). -/
def State.homeRead (s : State) (space line : Nat) (row : Bool) : List CWord × State :=
  let words := s.memWords space line
  match s.homeOfSpace space (line * 128) with
  | .loc 8 _ => match s.cache.hub.find? fun h => h.space == space && h.line == line with
    | some h => (h.words, s)
    | none => (words, s.modCache fun c => { c with hub := ({ space := space, line := line, row := row, words := words } :: c.hub).take hubLines })
  | _ => (words, s)

/-- Write bytes, given by address, into the words of a line; a word replaced whole loses its poison, and a byte of an absent
word is written on `under`'s word (R447). -/
def storeBytes (l under : List CWord) (line : Nat) (bytes : List (Nat × BitVec 8)) (dirty : Bool) : List CWord :=
  (List.range 32).foldl (fun l i =>
    let a := line * 128 + 4 * i
    let mine := bytes.filter fun p => decide (a ≤ p.1 ∧ p.1 < a + 4)
    if mine.isEmpty then l
    else
      let whole := (List.range 4).all fun j => mine.any fun p => p.1 == a + j
      let old := match wordAt? l i with
        | some w => w
        | none => (wordAt? under i).getD { i := i, v := 0, d := false, p := false }
      putWord l { i := i, v := mine.foldl (fun v p => putByte v (p.1 - a) p.2) old.v, d := dirty || old.d, p := old.p && !whole }) l

/-! L1 lines. -/

/-- An L1 line. -/
def State.l1? (s : State) (die core space line : Nat) : Option L1Line :=
  s.cache.l1.find? fun x => x.die == die && x.core == core && x.space == space && x.line == line

/-- Remove an L1 line. -/
def State.l1Drop (s : State) (die core space line : Nat) : State :=
  s.modCache fun c => { c with l1 := c.l1.filter fun x => !(x.die == die && x.core == core && x.space == space && x.line == line) }

/-- A die-cache line. -/
def State.dc? (s : State) (die space line : Nat) : Option DieLine :=
  s.cache.dc.find? fun x => x.die == die && x.space == space && x.line == line

/-- Replace a die-cache line that is present. -/
def State.dcSet (s : State) (x : DieLine) : State :=
  s.modCache fun c => { c with dc := c.dc.map fun y => if y.die == x.die && y.space == x.space && y.line == x.line then x else y }

/-- Remove a die-cache line. -/
def State.dcDrop (s : State) (die space line : Nat) : State :=
  s.modCache fun c => { c with dc := c.dc.filter fun x => !(x.die == die && x.space == space && x.line == line) }

/-- `TSW` of a die (Table 10-3). -/
def Die.tsw (d : Die) : Nat := fld d.lscfg 8 5
/-- `LEASE` of a die as it acts (R269). -/
def Die.lease (d : Die) : Nat := min (max 1 (fld d.lscfg 16 8)) (2 ^ (d.tsw - 2))
/-- Largest timestamp (R268). -/
def Die.tsTop (d : Die) : Nat := 2 ^ d.tsw - 1

/-- Change the warps of a die. -/
def State.modDieWarps (s : State) (die : Nat) (f : Warp → Warp) : State :=
  { s with warps := s.warps.mapIdx fun w x => if (s.place w).die == die then f x else x }

/-- A warp's arrivals at barriers after a wrap-around: their clocks are of before it, and count as 0 (R272, R275). -/
def Warp.arrivalsZero (x : Warp) : Warp :=
  { x with park := { x.park with arr := x.park.arr.map fun _ => 0, arr2 := x.park.arr2.map fun _ => 0 } }

/-- Wrap-around of a die's timestamps (R275): L and T lines go to I, clocks and timestamps to 0, with those that requests not yet performed and
arrivals at barriers carry; a pending `LSCFG` takes effect (R269). Counted as a lease wrap, which is no context's. -/
def State.wrapDie (s : State) (die : Nat) : State :=
  let zero (d : DReq) : DReq := if d.die == die && !d.performed then { d with pts := 0 } else d
  let s := s.modCache fun c => { c with
    l1 := c.l1.filter fun x => x.die != die || x.st == .owned || x.st == .weights,
    dc := c.dc.map fun x => if x.die == die then { x with wts := 0, rts := 0 } else x,
    dreqs := c.dreqs.map zero }
  let start (c : Core) : Core := if c.die == die then { c with pts := 0 } else c
  let s := { s with cores := s.cores.map start }.modDieWarps die Warp.arrivalsZero
  let s := s.modDie die fun d => { d with tsmax := 0, wrapAt := none, lscfg := d.lsPend.getD d.lscfg, lsPend := none }
  s.countDie die 34 256 1

/-- Set the L1 clock of a core: its lines in L whose lease the clock passes go to I (R266). -/
def State.setPts (s : State) (die core pts : Nat) : State :=
  (s.modCore die core fun c => { c with pts := pts }).modCache fun c => { c with
    l1 := c.l1.filter fun x => !(x.die == die && x.core == core && (match x.st with
      | .leased rts => decide (rts < pts)
      | _ => false)) }

/-- The L1 clock of a core takes a timestamp that a reply carries (R270). -/
def State.ptsUp (s : State) (die core wts : Nat) : State := s.setPts die core (max (s.core die core).pts wts)

/-- Start a wrap-around of a die's timestamps (R275). -/
def State.startWrap (s : State) (die : Nat) : State :=
  s.modDie die fun q => { q with wrapAt := q.wrapAt <|> some q.local_ }

/-- Recall a line from its owning core (R274): the dirty words are merged into the die cache's copy, the owner's copy goes to
I, and the timestamps follow R270. -/
def State.recall (s : State) (die space line : Nat) : State :=
  match s.dc? die space line with
  | none => s
  | some x =>
    if x.ownc = 255 then s else
    let words := match s.l1? die x.ownc space line with
      | some l => mergeWords x.words (dirtyWords l.words)
      | none => x.words
    let w := max x.wts (s.core die x.ownc).pts
    let s := (s.l1Drop die x.ownc space line).dcSet { x with words := words, wts := w, rts := w, ownc := 255 }
    s.modDie die fun d => { d with tsmax := max d.tsmax w }

/-- Replacement of an L1 line: an owned line writes its dirty words back (Table 10-1). -/
def State.l1Evict (s : State) (x : L1Line) : State :=
  if x.st == .owned then s.recall x.die x.space x.line else s.l1Drop x.die x.core x.space x.line

/-! Tree pseudo-LRU of a set of 8 ways (R191): seven bits, the root at bit 0 and the children of bit n at 2n + 1 and 2n + 2; a bit that is
set points to the upper half. -/

/-- The way that the bits point to. -/
def plruWay (b : Nat) : Nat :=
  let n0 := (b.testBit 0).toNat
  let n1 := (b.testBit (1 + n0)).toNat
  let n2 := (b.testBit (3 + 2 * n0 + n1)).toNat
  4 * n0 + 2 * n1 + n2

/-- One bit of a number set to a value. -/
def putBit (b i : Nat) (v : Bool) : Nat := if b.testBit i = v then b else if v then b + 2 ^ i else b - 2 ^ i

/-- The bits once a way has been used: they point away from it. -/
def plruUse (b way : Nat) : Nat :=
  let h := way / 4
  putBit (putBit (putBit b 0 (h = 0)) (1 + h) (way / 2 % 2 = 0)) (3 + way / 2) (way % 2 = 0)

/-- A use of an L1 line. -/
def State.l1Use (s : State) (die core line way : Nat) : State :=
  s.modCore die core fun c => { c with plru := assocSet c.plru (line % 64) (plruUse (assoc c.plru (line % 64) 0) way) }

/-- Enter a line into an L1 of 64 sets of 8 ways (R191): in the way of its old copy, in a free way, or in the place of the line that the
set's bits point to. -/
def State.l1Put (s : State) (x : L1Line) : State :=
  let mine (y : L1Line) : Bool := y.die == x.die && y.core == x.core && y.line % 64 == x.line % 64
  let old := s.l1? x.die x.core x.space x.line
  let s := s.l1Drop x.die x.core x.space x.line
  let used := (s.cache.l1.filter mine).map (·.way)
  let way := match old with
    | some y => y.way
    | none => ((List.range 8).find? fun k => !used.contains k).getD (plruWay (assoc (s.core x.die x.core).plru (x.line % 64) 0))
  let s := match s.cache.l1.find? fun y => mine y && y.way == way with
    | some y => s.l1Evict y
    | none => s
  (s.modCache fun c => { c with l1 := c.l1 ++ [{ x with way := way }] }).l1Use x.die x.core x.line way

/-- Whether a load of a request type hits a line in the L1 (Table 10-1, R266); `acq` is an acquire at `.quad` or wider. A core whose 256th hit
waits for a wrap-around of the clock makes no further hit on a lease (R271). -/
def l1Hits (s : State) (x : L1Line) (rqt : Rqt) (acq : Bool) : Bool :=
  rqt != .nc && (match x.st with
    | .owned => true
    | .weights => true
    | .leased rts => rqt != .own && !acq && decide ((s.core x.die x.core).pts ≤ rts ∧ (s.core x.die x.core).hits < 256)
    | .through fill => rqt != .own && !acq && decide (s.localTick x.die < fill + 1024))

/-- An acquire at `.quad` or wider: every T line of the core goes to I (R272). -/
def State.dropThrough (s : State) (die core : Nat) : State :=
  s.modCache fun c => { c with l1 := c.l1.filter fun x => !(x.die == die && x.core == core && (match x.st with
    | .through _ => true
    | _ => false)) }

/-- A fence, or an acquire by a scratchpad load, at `.quad` or wider: the core keeps no copy that could be older than what it orders, since no
timestamp comes with it (R251, R263). A line in L that goes is replaced, which changes no clock (R191, R266; log 50). -/
def State.dropCopies (s : State) (die core : Nat) : State :=
  s.modCache fun c => { c with l1 := c.l1.filter fun x => !(x.die == die && x.core == core && (match x.st with
    | .through _ => true
    | .leased _ => true
    | _ => false)) }

/-- The clock after an acquire at `.pkg` or `.dom` that reads no line: `TSMAX` + 1 (Table 10-4), and no less than it was (R270). -/
def State.acquireTime (s : State) (die core : Nat) : Nat := max ((s.die die).tsmax + 1) (s.core die core).pts

/-- An acquire at `.pkg` or `.dom` that reads no line (Table 10-4). -/
def State.clockAcquire (s : State) (die core : Nat) : State :=
  let t := s.acquireTime die core
  (s.setPts die core t).modDie die fun d => { d with tsmax := max d.tsmax t }

/-- Whether a scope is `.quad` or wider. -/
def Scope.quadUp (c : Scope) : Bool := c != .warp && c != .core
/-- Whether a scope is `.pkg` or `.dom`. -/
def Scope.pkgUp (c : Scope) : Bool := c == .pkg || c == .dom

/-- An acquire that reads no line, of warp `w` at a scope: it is made before the warp's next block (R272, R275). -/
def State.acquire (s : State) (w : Nat) (sc : Scope) : State :=
  s.modWarp w fun x => { x with park := { x.park with acq := some (match x.park.acq with
    | some o => if o.code.toNat < sc.code.toNat then sc else o
    | none => sc) } }

/-- Whether an acquire that a warp owes must wait for a wrap-around of its die's clocks (R275). -/
def State.acquireWraps (s : State) (w : Nat) : Bool :=
  let p := s.place w
  (s.warp w).park.acq.any Scope.pkgUp && decide ((s.die p.die).tsTop < s.acquireTime p.die p.core)

/-- Make the acquire that a warp owes (R272). -/
def State.payAcquire (s : State) (w : Nat) : State :=
  match (s.warp w).park.acq with
  | none => s
  | some sc =>
    let p := s.place w
    let s := s.modWarp w fun x => { x with park := { x.park with acq := none } }
    let s := if Scope.quadUp sc then s.dropThrough p.die p.core else s
    if Scope.pkgUp sc then s.clockAcquire p.die p.core else s

/-- Whether a request writes and delivers nothing: it ends with an acknowledgement (R267). -/
def DReq.stores (d : DReq) : Bool := match d.kind with
  | .store _ => true
  | .atomic none _ _ => true
  | _ => false

/-- Whether a warp has global stores not yet acknowledged, here or at another package (R265, R272). -/
def State.unacked (s : State) (w : Nat) : Bool :=
  s.cache.dreqs.any (fun d => d.w == some w && d.stores) || s.remote.any fun r => r.w == w && !r.isLoad

/-- Whether a warp has scratchpad stores that only it sees yet (R212). -/
def State.unseen (s : State) (w : Nat) : Bool := s.teams.any fun t => t.pend.any fun e => e.warp == some w

/-- Whether a warp has stores that are not yet where every agent of their reach sees them. -/
def State.unsettled (s : State) (w : Nat) : Bool := s.unacked w || s.unseen w

/-! The die cache and the directory. -/

/-- The slice and set of a line (R193); space 256 counts as 0. -/
def sliceSet (space line : Nat) : Nat × Nat :=
  (((line % 64) ^^^ (line / 64 % 64) ^^^ (line / 4096 % 64) ^^^ (line / 262144 % 64) ^^^ (if space < 256 then space % 64 else 0)),
   line / 64 % 1024)

/-- Send a directory message. -/
def State.send (s : State) (m : Msg) : State := s.modCache fun c => { c with msgs := c.msgs ++ [m] }

/-- A die cache evicts a line (R279): PutM with a pending-writeback record for M and O, PutS or PutE otherwise; a
read-only-weights line is dropped (R197). -/
def State.dcEvict (s : State) (x : DieLine) : State :=
  let s := s.recall x.die x.space x.line
  let x := (s.dc? x.die x.space x.line).getD x
  let s := s.dcDrop x.die x.space x.line
  if x.row then s
  else
    let home := s.lineHome x.space x.line
    if x.hst == .M || x.hst == .O then
      (s.send { kind := .putM, node := x.die, home := home, space := x.space, line := x.line, words := dirtyWords x.words }).modCache
        fun c => { c with pwb := c.pwb ++ [(x.die, x.space, x.line)] }
    else s.send { kind := .putS, node := x.die, home := home, space := x.space, line := x.line }

/-- Enter a line into the die cache of 16-way sets (R193); the oldest line of a full set is evicted (log 6). -/
def State.dcPut (s : State) (x : DieLine) : State :=
  let s := s.dcDrop x.die x.space x.line
  let set := s.cache.dc.filter fun y => y.die == x.die && sliceSet y.space y.line == sliceSet x.space x.line
  let s := if 16 ≤ set.length then match set with
      | y :: _ => s.dcEvict y
      | [] => s
    else s
  s.modCache fun c => { c with dc := c.dc ++ [x] }

/-- A directory entry. -/
def State.dir? (s : State) (space line : Nat) : Option DirEntry :=
  s.cache.dir.find? fun e => e.space == space && e.line == line

/-- Set or remove a directory entry. -/
def State.dirSet (s : State) (home space line : Nat) (e : Option DirEntry) : State :=
  s.modCache fun c =>
    let r := c.dir.filter fun x => !(x.space == space && x.line == line)
    { c with dir := match e with
        | some e => r ++ [{ e with home := home }]
        | none => r }

/-- Whether anything about a line is on its way: a message, a home transaction or a request that waits for a fill. -/
def State.lineBusy (s : State) (space line : Nat) : Bool :=
  s.cache.msgs.any (fun m => m.space == space && m.line == line) || s.cache.txs.any (fun t => t.space == space && t.line == line) ||
    s.cache.dreqs.any (fun d => d.space == space && d.line == line && d.asked)

/-! The coherent value (log 5). -/

/-- The current value of a word of a line: the owning L1's copy, a die cache's, one under way, the bridge's, the hub cache's, or memory's. -/
def State.peekWord (s : State) (space line i : Nat) : CWord :=
  let here (l : List CWord) : Option CWord := wordAt? l i
  let l1 := s.cache.l1.findSome? fun x => if x.space == space && x.line == line && x.st == .owned then here x.words else none
  let dc := s.cache.dc.findSome? fun x => if x.space == space && x.line == line then here x.words else none
  let msg := s.cache.msgs.findSome? fun m => if m.space == space && m.line == line then here m.words else none
  let tx := s.cache.txs.findSome? fun t => if t.space == space && t.line == line then here t.words else none
  let br := s.cache.bridge.findSome? fun b => if b.space == space && b.line == line then here b.words else none
  let hub := s.cache.hub.findSome? fun h => if h.space == space && h.line == line && !h.row then here h.words else none
  match l1.orElse (fun _ => dc.orElse fun _ => msg.orElse fun _ => tx.orElse fun _ => br.orElse fun _ => hub), s.linePhys? space line with
  | some w, _ => w
  | none, some a => s.memWord a i
  | none, none => { i := i, v := 0, d := false, p := false }

/-- Update one word in a copy that holds it. -/
def pokeIn (l : List CWord) (i : Nat) (v : Lane) (p : Bool) : List CWord :=
  l.map fun w => if w.i == i then { w with v := v, p := p } else w

/-- A write of the device itself needs a timestamp that does not fit: a wrap-around starts (R275), and until it comes the die's cores keep no copy that
the write makes old, so that the line may bear the largest timestamp (log 50). -/
def State.topOut (s : State) (die : Nat) : State :=
  (s.modCache fun c => { c with l1 := c.l1.filter fun x => !(x.die == die && (match x.st with
    | .through _ => true
    | .leased _ => true
    | _ => false)) }).startWrap die

/-- A line changes at its home under a die's copy: the owning core's copy is recalled and the line takes the timestamps of a fill, since it comes
from outside the die (R268, R270, R274). -/
def State.freshen (s : State) (die space line : Nat) : State :=
  match s.dc? die space line with
  | none => s
  | some x =>
    if x.row then s
    else
      let s := s.recall die space line
      let s := if (s.die die).tsTop < (s.die die).tsmax + 1 then s.topOut die else s
      let t := min (s.die die).tsTop ((s.die die).tsmax + 1)
      match s.dc? die space line with
      | none => s
      | some x => (s.dcSet { x with wts := t, rts := t }).modDie die fun d => { d with tsmax := t }

/-- Write a word at every place that holds its coherent value, and in memory. Copies in L and T stay until they expire (R266), and so do
those of read-only-weights pages (R197). -/
def State.pokeWord (s : State) (space line i : Nat) (v : Lane) (p : Bool) : State :=
  let s := s.modCache fun c => { c with
    l1 := c.l1.map fun x => if x.space == space && x.line == line && x.st == .owned then { x with words := pokeIn x.words i v p } else x,
    dc := c.dc.map fun x => if x.space == space && x.line == line && !x.row then { x with words := pokeIn x.words i v p } else x,
    msgs := c.msgs.map fun x => if x.space == space && x.line == line then { x with words := pokeIn x.words i v p } else x,
    txs := c.txs.map fun x => if x.space == space && x.line == line then { x with words := pokeIn x.words i v p } else x,
    bridge := c.bridge.map fun x => if x.space == space && x.line == line then { x with words := pokeIn x.words i v p } else x }
  s.writeHome space line [{ i := i, v := v, d := false, p := p }]

/-- Read a byte of a space at its coherent value. -/
def State.peekByte (s : State) (space va : Nat) : BitVec 8 :=
  byteOf (s.peekWord space (va / 128) (va / 4 % 32)).v (va % 4)

/-- Whether a byte's word is poisoned. -/
def State.peekPoison (s : State) (space va : Nat) : Bool := (s.peekWord space (va / 128) (va / 4 % 32)).p

/-- The device itself writes bytes of a space, at the coherent value (log 5): every die that holds the line sees it as newly come from its home;
a word written whole loses its poison (R447). -/
def State.pokeBytes (s : State) (space : Nat) (bytes : List (Nat × BitVec 8)) : State :=
  let lines := (bytes.map fun p => p.1 / 128).dedup
  let keys := (bytes.map fun p => p.1 / 4).dedup
  let s := lines.foldl (fun (s : State) n => (List.range 8).foldl (fun (s : State) d => s.freshen d space n) s) s
  keys.foldl (fun s k =>
    let mine := bytes.filter fun p => p.1 / 4 == k
    let w := s.peekWord space (k / 32) (k % 32)
    let whole := (List.range 4).all fun j => mine.any fun p => p.1 % 4 == j
    s.pokeWord space (k / 32) (k % 32) (mine.foldl (fun v p => putByte v (p.1 % 4) p.2) w.v) (w.p && !whole)) s

/-- The space of an address of a context (R384, R399). -/
def State.spaceOf (s : State) (ctx va : Nat) : Nat :=
  match s.homeOf ctx va with
  | .loc _ sp => sp
  | _ => ctx

/-- Read `n` bytes of a context's memory at their coherent values. -/
def State.peekBytes (s : State) (ctx va n : Nat) : List (BitVec 8) :=
  (List.range n).map fun i => s.peekByte (s.spaceOf ctx (va + i)) (va + i)

/-- Read a 64-bit word of a context's memory. -/
def State.peek64 (s : State) (ctx va : Nat) : Word := BitVec.ofNat 64 (leNat (s.peekBytes ctx va 8))

/-- Whether a range of a context's memory touches bonded DRAM that is in a refresh: an access of the hub or of the driver, which keeps no copy of it,
waits (R174, R196). -/
def State.homeBusy (s : State) (ctx va n : Nat) : Bool :=
  (List.range ((va % 128 + n + 127) / 128)).any fun k => match s.homeOf ctx ((va / 128 + k) * 128) with
    | .loc h _ => s.refreshing h
    | _ => false

/-- Whether an access to a line reaches bonded DRAM that is in a refresh: no die cache and no L1 of a die holds it (R174, R196). -/
def State.dramBusy (s : State) (die space line : Nat) : Bool :=
  (match s.homeOfSpace space (line * 128) with
    | .loc h _ => s.refreshing h
    | _ => false) &&
  !((s.dc? die space line).isSome || s.cache.l1.any fun x => x.die == die && x.space == space && x.line == line)

/-- Write bytes of a context's memory, each in its own space; what lies on another package is not written here. -/
def State.pokeCtx (s : State) (ctx va : Nat) (l : List (BitVec 8)) : State :=
  let place (p : Nat × BitVec 8) : Option (Nat × Nat × BitVec 8) := match s.homeOf ctx p.1 with
    | .loc _ sp => some (sp, p)
    | _ => none
  let all := (placeBytes va l).filterMap place
  ((all.map (·.1)).dedup).foldl (fun (s : State) sp => s.pokeBytes sp ((all.filter fun q => q.1 == sp).map (·.2))) s

/-- Write every dirty word of a line to its home; copies stay and become clean (R437). -/
def State.cleanLine (s : State) (space line : Nat) : State :=
  let is (a b : Nat) : Bool := a == space && b == line
  let dcW := (s.cache.dc.filter fun x => is x.space x.line).flatMap fun x => dirtyWords x.words
  let brW := (s.cache.bridge.filter fun x => is x.space x.line && (x.modified || !x.dirty.isEmpty)).flatMap (·.words)
  let l1W := (s.cache.l1.filter fun x => is x.space x.line && x.st == .owned).flatMap fun x => dirtyWords x.words
  let s := s.writeHome space line (mergeWords (mergeWords (mergeWords [] dcW) brW) l1W)
  s.modCache fun c => { c with
    l1 := c.l1.map fun x => if is x.space x.line && x.st == .owned then { x with words := cleanWords x.words } else x,
    dc := c.dc.map fun x => if is x.space x.line then { x with words := cleanWords (mergeWords x.words l1W) } else x,
    bridge := c.bridge.map fun x => if is x.space x.line then { x with dirty := [], modified := false } else x }

/-- Write a line back and remove every copy and its directory entry (R400, R437). -/
def State.flushLine (s : State) (space line : Nat) : State :=
  let is (a b : Nat) : Bool := a == space && b == line
  let s := s.cleanLine space line
  s.modCache fun c => { c with
    l1 := c.l1.filter fun x => !is x.space x.line,
    dc := c.dc.filter fun x => !is x.space x.line,
    dir := c.dir.filter fun x => !is x.space x.line,
    bridge := c.bridge.filter fun x => !is x.space x.line,
    hub := c.hub.filter fun x => !is x.space x.line }

/-- Every line of a space that some cache, the hub cache among them, directory or bridge holds. -/
def State.linesOf (s : State) (space : Nat) : List Nat :=
  let f (a b : Nat) : Option Nat := if a == space then some b else none
  ((s.cache.l1.filterMap fun x => f x.space x.line) ++ (s.cache.dc.filterMap fun x => f x.space x.line) ++
    (s.cache.dir.filterMap fun x => f x.space x.line) ++ (s.cache.bridge.filterMap fun x => f x.space x.line) ++
    (s.cache.hub.filterMap fun x => f x.space x.line)).dedup

/-- Remove every trace of a space from caches, directory and bridge without writing back, with the promotions owed for its lines (R385). -/
def State.purgeSpace (s : State) (space : Nat) : State :=
  let s := { s with dies := s.dies.map fun (d : Die) => { d with rels := d.rels.filter fun r => r.1 != space } }
  s.modCache fun c => { c with
    l1 := c.l1.filter fun x => x.space != space,
    dc := c.dc.filter fun x => x.space != space,
    dreqs := c.dreqs.filter fun x => x.space != space,
    dir := c.dir.filter fun x => x.space != space,
    msgs := c.msgs.filter fun x => x.space != space,
    txs := c.txs.filter fun x => x.space != space,
    pwb := c.pwb.filter fun x => x.2.1 != space,
    bridge := c.bridge.filter fun x => x.space != space,
    hub := c.hub.filter fun x => x.space != space }

/-- Whether a line is a context's: in its own space, or of a shared window that it has joined (R384, R399). -/
def State.lineOf (s : State) (ctx space line : Nat) : Bool :=
  space == ctx || (space == 256 && (match s.homeOf ctx (line * 128) with
    | .loc _ sp => sp == 256
    | _ => false))

/-- Flash-invalidate the read-only-weights lines of a context in every cache (R197). -/
def State.flashWeights (s : State) (ctx : Nat) : State :=
  s.modCache fun c => { c with
    l1 := c.l1.filter fun x => !(s.lineOf ctx x.space x.line && x.st == .weights),
    dc := c.dc.filter fun x => !(s.lineOf ctx x.space x.line && x.row),
    hub := c.hub.filter fun x => !(s.lineOf ctx x.space x.line && x.row) }

end Sys2Proof.Machine
end

