-- ==== Sys2Proof/Machine/Operands.lean ====
section
/-! DEFINITION. Operand forms: the values that slots a, b, c and an immediate give an instruction (R84, Table 3-11). -/

namespace Sys2Proof.Machine

/-- The scalar immediate: `IMM` sign-extended to 64 bits. -/
def immS (i : BitVec 28) : Word := i.signExtend 64

/-- The vector immediate of one lane, by type (Table 3-11). -/
def immLane (ty : VTy) (i : BitVec 28) : Lane :=
  match ty with
  | .i32 | .n32 | .b32 => i.signExtend 32
  | .f32 => i ++ 0#4
  | .bf16x2 | .f16x2 | .i16x2 | .n16x2 => i.extractLsb' 0 16 ++ i.extractLsb' 0 16
  | .i8x4 | .n8x4 | .e4m3x4 | .e5m2x4 =>
    i.extractLsb' 0 8 ++ i.extractLsb' 0 8 ++ (i.extractLsb' 0 8 ++ i.extractLsb' 0 8)

/-- Slot a as a scalar or mask. -/
def Args.sa (x : Args) : Word := x.a.word
/-- Slot c as a scalar or mask. -/
def Args.sc (x : Args) : Word := x.c.word
/-- Slot b as a scalar or mask, or the scalar immediate. -/
def Args.sb (x : Args) (im : Option (BitVec 28)) : Word :=
  match im with
  | some i => immS i
  | none => x.b.word
/-- Slot a as a vector. -/
def Args.va (x : Args) : Vec := x.a.vec
/-- Slot c as a vector. -/
def Args.vc (x : Args) : Vec := x.c.vec
/-- Slot b as a vector, or the vector immediate of a type. -/
def Args.vb (x : Args) (ty : VTy) (im : Option (BitVec 28)) : Vec :=
  match im with
  | some i => Vec.tab fun _ => immLane ty i
  | none => x.b.vec

/-- A 64-bit value as a signed number. -/
abbrev sgn (x : Word) : Int := x.toInt

/-- A 64-bit value as a number under a signedness modifier (R107). -/
def sgnNum (g : Sgn) (x : Word) : Int :=
  match g with
  | .i64 => x.toInt
  | .n64 => x.toNat

/-- Elements of `n` bits in a lane, lowest first. -/
def elems (n k : Nat) (x : Lane) : List (BitVec n) := (List.range k).map fun i => x.extractLsb' (n * i) n

/-- A lane from its elements of `n` bits, lowest first. -/
def packElems (n : Nat) (l : List (BitVec n)) : Lane :=
  BitVec.ofNat 32 (l.foldr (fun e acc => e.toNat + 2 ^ n * acc) 0)

/-- Bits of an element of a type. -/
def elemBits (ty : VTy) : Nat := 32 / ty.lanesPer

/-- Whether an integer type is signed (Table 3-12). -/
def isSigned : VTy → Bool
  | .i32 | .i16x2 | .i8x4 => true
  | _ => false

/-- An element as a number, by type. -/
def elemInt (ty : VTy) (x : BitVec n) : Int := if isSigned ty then x.toInt else x.toNat

/-- Smallest element of an integer type. -/
def elemLo (ty : VTy) : Int := if isSigned ty then -(2 ^ (elemBits ty - 1) : Nat) else 0
/-- Largest element of an integer type. -/
def elemHi (ty : VTy) : Int :=
  if isSigned ty then (2 ^ (elemBits ty - 1) : Nat) - 1 else (2 ^ elemBits ty : Nat) - 1

/-- Apply an operation of elements to two lanes, element by element; the element's index in the lane is given (R311). -/
def zipElems (ty : VTy) (f : Nat → BitVec (elemBits ty) → BitVec (elemBits ty) → BitVec (elemBits ty)) (x y : Lane) : Lane :=
  packElems (elemBits ty) ((List.range ty.lanesPer).map fun i =>
    f i (x.extractLsb' (elemBits ty * i) (elemBits ty)) (y.extractLsb' (elemBits ty * i) (elemBits ty)))

/-- As `zipElems`, with three lanes. -/
def zipElems3 (ty : VTy)
    (f : Nat → BitVec (elemBits ty) → BitVec (elemBits ty) → BitVec (elemBits ty) → BitVec (elemBits ty)) (x y z : Lane) : Lane :=
  packElems (elemBits ty) ((List.range ty.lanesPer).map fun i =>
    f i (x.extractLsb' (elemBits ty * i) (elemBits ty)) (y.extractLsb' (elemBits ty * i) (elemBits ty))
      (z.extractLsb' (elemBits ty * i) (elemBits ty)))

/-- Lane-wise operation on one vector. -/
def map1 (f : Nat → Lane → Lane) (x : Vec) : Vec := Vec.tab fun l => f l (x.lane l)
/-- Lane-wise operation on two vectors. -/
def map2 (f : Nat → Lane → Lane → Lane) (x y : Vec) : Vec := Vec.tab fun l => f l (x.lane l) (y.lane l)
/-- Lane-wise operation on three vectors. -/
def map3 (f : Nat → Lane → Lane → Lane → Lane) (x y z : Vec) : Vec := Vec.tab fun l => f l (x.lane l) (y.lane l) (z.lane l)

end Sys2Proof.Machine
end

