-- ==== Sys2Proof/Machine/Flags.lean ====
section
/-! DEFINITION. Conditions, the sticky bits of `WST`, the fields of `fmt` and `mreg`, and the counter status words. -/

namespace Sys2Proof.Machine

/-- The condition of `scmp` (Table 4-4). -/
def scondHolds (c : SCond) (a b : Word) : Bool :=
  match c with
  | .eq => a == b
  | .ne => a != b
  | .lt => a.slt b
  | .le => a.sle b
  | .gt => b.slt a
  | .ge => b.sle a
  | .ltn => a.ult b
  | .len => a.ule b
  | .gtn => b.ult a
  | .gen => b.ule a

/-- `WST.RANGE`, sticky (Table 2-5). -/
def wstRange (w : Word) : Word := w ||| 1
/-- `WST.SPILL`, sticky (Table 2-5). -/
def wstSpill (w : Word) : Word := w ||| 2
/-- Add missed boundaries to `WST.SLIP`, which saturates at 65,535 (Table 2-5, R167). -/
def wstSlip (w : Word) (n : Nat) : Word := setFld w 48 16 (Nat.min 65535 (fld w 48 16 + n))

/-- Bits of `fmt` that `fmtset.mode` writes: [19:6] and [4:0] (R119). -/
def fmtModeBits : Word := 0xFFFDF
/-- The seed bits of `fmt`. -/
def fmtSeedBits : Word := 0xFFFFFFFF00000000

/-- `fmt` after `fmtset` (R119). -/
def fmtWrite (f : FmtForm) (old a : Word) : Word :=
  match f with
  | .all => a &&& (fmtSeedBits ||| fmtModeBits)
  | .seed => (old &&& ~~~fmtSeedBits) ||| (a <<< 32)
  | .mode => (old &&& ~~~fmtModeBits) ||| (a &&& fmtModeBits)

/-- `fmt` at warp start (R31, Table 2-3): `FA` and `FB` are BF16. -/
def fmtReset : Word := 0x1100

/-- `mreg` from its fields (Table 2-4). -/
def mregPack (on en1 : Bool) (acc0 acc1 : Nat) : Word :=
  BitVec.ofNat 64 ((if on then 1 else 0) + acc0 * 2 ^ 8 + acc1 * 2 ^ 16 + (if en1 then 2 ^ 24 else 0))

/-- `MM` of `mreg`. -/
def mregOn (m : Word) : Bool := m.getLsbD 0
/-- `ACC0` of `mreg`. -/
def mregAcc0 (m : Word) : Nat := fld m 8 8
/-- `ACC1` of `mreg`. -/
def mregAcc1 (m : Word) : Nat := fld m 16 8
/-- `ACC1EN` of `mreg`. -/
def mregEn1 (m : Word) : Bool := m.getLsbD 24

/-- `RND` of `fmt` selects rounding toward minus infinity, under which an exact zero sum is -0. -/
def fmtRdn (f : Word) : Bool := fld f 0 2 == 3
/-- `FA`, `FB` and `FC` of `fmt`. -/
def fmtFA (f : Word) : Nat := fld f 8 4
/-- `FB`. -/
def fmtFB (f : Word) : Nat := fld f 12 4
/-- `FC`. -/
def fmtFC (f : Word) : Nat := fld f 16 4
/-- `B4T`. -/
def fmtB4T (f : Word) : BtType := (BtType.ofCode (f.extractLsb' 6 2)).getD .int4

end Sys2Proof.Machine
end

