-- ==== Sys2Proof/Machine/Control.lean ====
section
/-! DEFINITION. Group 1: branches and the instructions that wait or leave the code (chapter 4). Every effect waits for the
commit of the block (R101). -/

namespace Sys2Proof.Machine

/-- Fire a branch: the first gives the block its successor, a second raises the operand conflict fault (R42, R43). -/
def State.fireBranch (s : State) (b : Blk) (sel : BranchSel) : State :=
  match b.branch with
  | some (q, _) => s.faultAt s.cur (s.second s.cur b q s.curIdx) 2 0
  | none => s.modBlk s.cur fun b => { b with branch := some (s.curIdx, sel) }

/-- Record an effect that waits for commit. -/
def State.defer (s : State) (f : Deferred → Deferred) : State :=
  s.modBlk s.cur fun b => { b with deferred := f b.deferred }

/-- `bro` (Table 4-8). -/
def execBro (h : Hdr) (block : BitVec 24) (s : State) : Out :=
  execQuiet (.bro h block) (fun b _ s => s.fireBranch b (.goto block.toNat)) s
/-- `brx` (Table 4-8). -/
def execBrx (h : Hdr) (s : State) : Out := execQuiet (.brx h) (fun b x s => s.fireBranch b (.reg x.sa)) s
/-- `brv` (Table 4-8). -/
def execBrv (h : Hdr) (join : BitVec 24) (s : State) : Out :=
  execQuiet (.brv h join) (fun b x s => s.fireBranch b (.lanes x.va join.toNat)) s
/-- `call` (Table 4-8). -/
def execCall (h : Hdr) (block : BitVec 24) (s : State) : Out :=
  execQuiet (.call h block) (fun b _ s => s.fireBranch b (.call block.toNat)) s
/-- `ret` (Table 4-8). -/
def execRet (h : Hdr) (s : State) : Out := execQuiet (.ret h) (fun b _ s => s.fireBranch b .ret) s
/-- `exit` (Table 4-8). -/
def execExit (h : Hdr) (s : State) : Out := execQuiet (.exit h) (fun b _ s => s.fireBranch b .exit) s

/-- `bar` (R126): the warp arrives at commit; a second one raises the operand conflict fault. -/
def execBar (h : Hdr) (scope : Scope) (id : BitVec 16) (s : State) : Out :=
  execQuiet (.bar h scope id) (fun b _ s =>
    if b.deferred.bar.isSome then s.faultAt s.cur s.curIdx 2 0
    else s.defer fun d => { d with bar := some (s.curIdx, scope, id.toNat) }) s

/-- `yield` (R127): at commit the warp leaves its seat if a ready warp waits. -/
def execYield (h : Hdr) (s : State) : Out := execQuiet (.yield h) (fun _ _ s => s.defer fun d => { d with yield := true }) s

/-- Fire `trap` or `brk` (R128): a second one raises the operand conflict fault. -/
def State.fireTrap (s : State) (b : Blk) (num payload : Nat) : State :=
  if b.deferred.trap.isSome then s.faultAt s.cur s.curIdx 2 0
  else s.defer fun d => { d with trap := some (s.curIdx, num, payload) }

/-- `trap` (R128): the trap is taken at commit. -/
def execTrap (h : Hdr) (num : BitVec 8) (payload : BitVec 16) (s : State) : Out :=
  execQuiet (.trap h num payload) (fun b _ s => s.fireTrap b num.toNat payload.toNat) s
/-- `brk` (R128): trap number 256 (Table 21-7). -/
def execBrk (h : Hdr) (payload : BitVec 16) (s : State) : Out :=
  execQuiet (.brk h payload) (fun b _ s => s.fireTrap b 256 payload.toNat) s

/-- The counter that an instruction of warp `w` names (Table 4-9). -/
def State.ctrOf (s : State) (w : Nat) (c : Ctr) : CtrRef :=
  match c with
  | .tlc => .tlc (s.warp w).team
  | .tlk => .tlk (s.place w).ctx
  | .tll q => .tll q.toNat

/-- A timeline counter (R224). -/
def State.counter (s : State) (c : CtrRef) : Counter :=
  match c with
  | .tlc t => (s.team t).tlc
  | .tlk x => (s.ctx x).tlk
  | .tll q => (s.queue q).tll

/-- Change a timeline counter. -/
def State.modCounter (s : State) (c : CtrRef) (f : Counter → Counter) : State :=
  match c with
  | .tlc t => s.modTeam t fun x => { x with tlc := f x.tlc }
  | .tlk x => s.modCtx x fun c => { c with tlk := f c.tlk }
  | .tll q => s.modQueue q fun x => { x with tll := f x.tll }

/-- Whether a counter belongs to another context than warp `w`'s (R129, R133, R226). -/
def State.foreignCtr (s : State) (w : Nat) (c : Ctr) : Bool :=
  match c with
  | .tll q => fld (s.queue q.toNat).ctl 0 8 != (s.place w).ctx
  | _ => false

/-- `tlwait` (R129): at commit the warp waits until the counter reaches a; a queue of another context raises the protection
fault, `DETAIL` 17. -/
def execTlwait (h : Hdr) (ctr : Ctr) (s : State) : Out :=
  execQuiet (.tlwait h ctr) (fun _ x s =>
    if s.foreignCtr s.cur ctr then s.faultAt s.cur s.curIdx 4 17
    else s.defer fun d => { d with waits := d.waits ++ [{ ctr := s.ctrOf s.cur ctr, n := x.sa.toNat }] }) s

end Sys2Proof.Machine
end

