-- ==== Sys2Proof/Machine/GlobalMem.lean ====
section
/-! DEFINITION. Group 6, global memory: loads, stores, atomics, `prefetch`, `vmatch` and `fence` (chapter 8), the order of a
block's accesses (R46, R49, R218), and the delivery of a load (R447). -/

namespace Sys2Proof.Machine

/-! The block's instructions by MSEQ. -/

/-- The M-format fields of an instruction. -/
def Instr.m? : Instr → Option MFields
  | .ld _ m _ => some m
  | .st _ m _ => some m
  | .lds _ m _ => some m
  | .sts _ m _ => some m
  | .spld _ m _ => some m
  | .spst _ m _ => some m
  | .spldq _ m _ => some m
  | .spstq _ m _ => some m
  | .prefetch _ m _ => some m
  | .atom _ m _ => some m
  | .red _ m _ => some m
  | _ => none

/-- Store-class instructions (R43). -/
def Instr.storeClass : Instr → Bool
  | .st _ _ _ => true
  | .sts _ _ _ => true
  | .spst _ _ _ => true
  | .spstq _ _ _ => true
  | .atom _ _ _ => true
  | .red _ _ _ => true
  | _ => false

/-- Instructions that access global memory (R49). -/
def Instr.globalAcc : Instr → Bool
  | .ld _ _ _ => true
  | .st _ _ _ => true
  | .lds _ _ _ => true
  | .sts _ _ _ => true
  | .prefetch _ _ _ => true
  | .atom _ _ _ => true
  | .red _ _ _ => true
  | _ => false

/-- Whether an `atom` returns a value (R218). -/
def hdrReturns (h : Hdr) : Bool := h.t0 != .none || h.t1 != .none

/-- The decoded instructions of a block, by index. -/
def Blk.instrs (b : Blk) : List (Nat × Instr) :=
  (List.range b.words.length).filterMap fun j => match decode (b.words.getD j 0) with
    | .ok i => some (j, i)
    | .error _ => none

/-- Whether a memory instruction is settled: fired, nullified, consumed, or its slot p does not match (R46). -/
def Blk.settled (b : Blk) (j : Nat) (i : Instr) : Bool :=
  b.fired.contains j || b.dropped.contains j || predFails b j (Instr.header i).pm

/-- Whether an access of a given MSEQ may fire: every store of lower MSEQ is settled (R46), and every acquire of lower MSEQ is
settled and has delivered (R208, R212). -/
def Blk.mseqTurn (b : Blk) (mseq : Nat) : Bool :=
  b.instrs.all fun p => match Instr.m? p.2 with
    | some m =>
      if m.mseq.toNat < mseq && (Instr.storeClass p.2 || m.ord == .acq || m.ord == .racq) then
        b.settled p.1 p.2 && !((m.ord == .acq || m.ord == .racq) && b.loads.any fun l => l.idx == p.1)
      else true
    | none => true

/-- Whether every other global access of the block is settled, so that a returning atomic may be performed (R49). -/
def Blk.othersSettled (b : Blk) (idx : Nat) : Bool :=
  b.instrs.all fun p => p.1 == idx || !Instr.globalAcc p.2 || b.settled p.1 p.2

/-! Addresses, lanes and checks. -/

/-- The base of an M-format access: slot a plus the sign-extended `OFS`, modulo 2^64 (R203). -/
def mBase (a : Word) (m : MFields) : Word := a + m.ofs.signExtend 64

/-- Lanes that reach consecutive words (R206). -/
def wordLanes (base : Word) (part : Word) : List (Nat × Nat) :=
  (lanesOf part).map fun l => (l, (base + BitVec.ofNat 64 (4 * l)).toNat)

/-- Take an instruction back to unfired: it waits for a walk (R395). -/
def State.unmark (s : State) : State := s.modBlk s.cur fun b => { b with fired := b.fired.erase s.curIdx, when_ := b.when_.drop 1 }

/-- Whether an address of a context is on another package. -/
def State.isFar (s : State) (ctx va : Nat) : Bool := match s.homeOf ctx va with
  | .remote _ _ => true
  | _ => false

/-- Whether a lane of an access reaches another package. -/
def TRes.isFar : TRes → Bool
  | .far _ _ => true
  | _ => false

/-- The lanes of an access that the homes of other packages refuse: what they answer is a free value here (R392, log 7). -/
def State.refusedLanes (s : State) (l : List (Nat × Nat × Nat × TRes)) : List (Nat × Nat × Nat × TRes) :=
  l.map fun p => if p.2.2.2.isFar && (Config.freeWord s.fresh).getLsbD p.1 then (p.1, p.2.1, 4, .prot) else p

/-- The translation entries that an access uses become the latest used (R395). -/
def State.tlbUses (s : State) (l : List (Nat × Nat × Nat × TRes)) : State :=
  ((l.map fun p => p.2.1 / 65536 * 65536).dedup).foldl (fun s va => match s.homeOf (s.place s.cur).ctx va with
    | .loc h sp => s.tlbUse h sp va
    | _ => s) s

/-- An access whose checks have passed on this package goes on, unless the home of a lane on another package refuses it with the protection
fault (R392). -/
def State.granted (s : State) (perLane : Bool) (acc : Acc) (l : List (Nat × Nat × Nat × TRes))
    (go : List (Nat × Nat × Nat × TRes) → State → State) : State :=
  let far := l.any fun p => p.2.2.2.isFar
  let r := s.refusedLanes l
  let s := if far then { s with fresh := s.fresh + 1 } else s
  if r.any fun p => p.2.2.1 == 4 then s.checkFault s.cur s.curIdx perLane acc 4 r else go l (s.tlbUses l)

/-- Check a warp's access and go on (R205): a translation that no entry holds asks for a walk, and the instruction fires once
the walk is done; the first failing check raises its fault. -/
def State.access (s : State) (perLane : Bool) (acc : Acc) (rqt : Rqt) (width : Nat) (lanes : List (Nat × Nat))
    (go : List (Nat × Nat × Nat × TRes) → State → State) : State :=
  let l := s.checkLanes (s.place s.cur).ctx acc rqt width lanes
  let m := missing l
  match firstCheck l with
  | some c =>
    if c ≤ 2 ∨ m = [] then s.checkFault s.cur s.curIdx perLane acc c l
    else m.foldl (fun s p => s.askWalk p.1 p.2.1 p.2.2) s.unmark
  | none => if m = [] then s.granted perLane acc l go else m.foldl (fun s p => s.askWalk p.1 p.2.1 p.2.2) s.unmark

/-- The space of a checked address; none for a remote package. -/
def TRes.space? : TRes → Option Nat
  | .ok _ sp _ => some sp
  | _ => none

/-- Words of `width` bytes at each lane, by lane result. -/
def wordsOf (l : List (Nat × Nat × Nat × TRes)) (width : Nat) : List (Nat × Nat) :=
  (l.flatMap fun p => match TRes.space? p.2.2.2 with
    | some sp => if width = 8 then [(sp, p.2.1 / 4), (sp, p.2.1 / 4 + 1)] else [(sp, p.2.1 / 4)]
    | none => []).dedup

/-- The address of the first lane on another package. -/
def farVa? (l : List (Nat × Nat × Nat × TRes)) : Option Nat := (l.find? fun p => p.2.2.2.isFar).map (·.2.1)

/-! Loads. -/

/-- The number that orders the stores of a warp: by block, then by `MSEQ`; the device's own writes at a commit, with key 40, come last (R246). -/
def State.stampOf (s : State) (w key : Nat) : Nat := 4096 * (s.warp w).commits + 64 * key

/-- The block to which a stamp belongs. -/
def stampBlock (n : Nat) : Nat := n / 4096

/-- A request of warp `w` at its die cache, not yet performed (R274). -/
def State.newReq (s : State) (w space line : Nat) (rqt : Rqt) (ord : Ord) (scope : Scope) (kind : DKind) : DReq :=
  let p := s.place w
  { die := p.die, core := p.core, w := some w, stamp := s.stampOf w 40, space := space, line := line, rqt := rqt, ord := ord, scope := scope,
    kind := kind, pts := (s.core p.die p.core).pts, asked := false, performed := false, wts := 0 }

/-- Send requests to the die cache, numbered as they are made. -/
def State.addReqs (s : State) (l : List DReq) : State :=
  s.modCache fun c => { c with dreqs := c.dreqs ++ l.mapIdx fun i d => { d with num := c.sent + i }, sent := c.sent + l.length }

/-- Whether a release by warp `w` must wait: for the warp's earlier scratchpad stores to be visible, for an earlier release of a wider scope,
and at `.quad` or wider for every earlier store to be acknowledged (R208, R212, R248, R272). -/
def State.relWaits (s : State) (w stamp : Nat) (sc : Scope) : Bool :=
  (s.teams.any fun t => t.pend.any fun e => e.warp == some w && decide (e.stamp < stamp)) ||
  (s.cache.dreqs.any fun e => e.w == some w && e.stores && decide (e.stamp < stamp) &&
    (Scope.quadUp sc || (e.ord == .rel && !e.performed && Scope.quadUp e.scope))) ||
  (Scope.quadUp sc && s.remote.any fun r => r.w == w && !r.isLoad && decide (r.stamp < stamp))

/-- Whether a release request has not entered the memory system yet (R208). -/
def State.relHeld (s : State) (d : DReq) : Bool := d.ord == .rel && !d.performed && d.w.any fun w => s.relWaits w d.stamp d.scope

/-- Whether request `n` has not entered the memory system: a release that waits, or a request of the same warp to its line behind one. The other
warps of the core do not see it yet, and pass it (R208, R247, R252). -/
def State.stuck (s : State) (n : Nat) (d : DReq) : Bool :=
  s.relHeld d || (s.cache.dreqs.take n).any fun e => e.w == d.w && e.space == d.space && e.line == d.line && s.relHeld e

/-- The requests not yet performed, each with whether it is stuck. -/
def State.pending (s : State) : List (DReq × Bool) :=
  (s.cache.dreqs.zipIdx.filter fun p => !p.1.performed).map fun p => (p.1, s.stuck p.2 p.1)

/-- Whether warp `w` has made every store of its visible at a scope: with `acks` every one is acknowledged (R126, R222, R248, R272). -/
def State.drained (s : State) (w : Nat) (acks : Bool) : Bool :=
  !s.unseen w && (if acks then !s.unacked w else !(s.cache.dreqs.any fun d => d.w == some w && s.relHeld d))

/-- The bytes that a request stores. -/
def DReq.bytes (d : DReq) : List (Nat × BitVec 8) := match d.kind with
  | .store l => l
  | _ => []

/-- Bytes that the stores of a core's warps not yet performed write to a line, in order, as its warp `w` sees them: what is stuck is seen by its
own warp only, after the rest, which comes before it (R208, R247, R267). A performed store is in the L1's copy and in the die cache. -/
def State.forwarded (s : State) (die core w space line : Nat) : List (Nat × BitVec 8) :=
  let here := s.pending.filter fun p => p.1.die == die && p.1.core == core && p.1.space == space && p.1.line == line && p.1.w.isSome
  (here.filter fun p => !p.2).flatMap (fun p => DReq.bytes p.1) ++ (here.filter fun p => p.2 && p.1.w == some w).flatMap fun p => DReq.bytes p.1

/-- The words of a line as a warp sees them over `words`. -/
def State.coreView (s : State) (w space line : Nat) (words : List CWord) : List CWord :=
  let p := s.place w
  storeBytes words words line (s.forwarded p.die p.core w space line) false

/-- The acknowledgement of a performed store reaches its core (R267, R270): an L copy takes its `WTS` as `RTS`, but for an atomic. -/
def State.ackReq (s : State) (d : DReq) : State :=
  let up (y : L1Line) : L1Line :=
    if y.die == d.die && y.core == d.core && y.space == d.space && y.line == d.line then
      (match y.st with
      | .leased _ => { y with st := .leased d.wts }
      | _ => y)
    else y
  let bytes := match d.kind with
    | .store _ => true
    | _ => false
  (s.modCache fun c => { c with l1 := if bytes then c.l1.map up else c.l1, dreqs := c.dreqs.erase d }).ptsUp d.die d.core d.wts

/-- The acknowledgements that the die cache has sent to a core before a reply to it have come when the reply does. -/
def State.ackCore (s : State) (die core : Nat) : State :=
  (s.cache.dreqs.filter fun d => d.die == die && d.core == core && d.performed).foldl State.ackReq s

/-- Whether an agent of a core, a warp or a copy engine, must not read a line yet: a release of another warp has been performed there, and another
release of its block, whose stores become visible with it, has not (R248, log 30). -/
def State.shutTo (s : State) (die core : Nat) (w : Option Nat) (space line : Nat) : Bool :=
  let reaches (e : DReq) (sc : Scope) : Bool := match sc with
    | .warp => false
    | .core => e.die == die && e.core == core
    | .quad => e.die == die
    | .die => e.die == die
    | _ => true
  let waits (e : DReq) : Bool := s.cache.dreqs.any fun x =>
    x.w == e.w && x.space == space && x.line == line && x.stores && !x.performed && stampBlock x.stamp == stampBlock e.stamp
  s.cache.dreqs.any fun e => !e.performed && e.w != w && (e.shut.any fun q => q.1 == space && q.2.1 == line && reaches e q.2.2) && !waits e

/-- Whether a request is an atomic. -/
def DReq.isAtomic (d : DReq) : Bool := match d.kind with
  | .atomic _ _ _ => true
  | _ => false

/-- What an agent's load finds in the L1: the line, when it hits, holds every word asked for, may be read, and has no request of the core on
its way that comes `first`. -/
def State.l1Load? (s : State) (die core : Nat) (w : Option Nat) (space line : Nat) (rqt : Rqt) (acq : Bool) (ws : List Nat)
    (first : DReq → Bool) : Option L1Line :=
  match s.l1? die core space line with
  | some x =>
    if l1Hits s x rqt acq && (ws.all fun i => (wordAt? x.words i).isSome) && !s.shutTo die core w space line &&
        !(s.cache.dreqs.any fun d => d.die == die && d.core == core && d.space == space && d.line == line && first d)
    then some x else none
  | none => none

/-- Whether a load of lower `MSEQ` than `n` is still to read: one that fires later must not read an older value (R247). -/
def Blk.lowerLoad (b : Blk) (n : Nat) : Bool :=
  b.instrs.any fun p => match Instr.m? p.2 with
    | some m => decide (m.mseq.toNat < n) && Instr.globalAcc p.2 && !Instr.storeClass p.2 &&
        (!b.settled p.1 p.2 || b.loads.any fun l => l.idx == p.1)
    | none => false

/-- Whether a line in the L1 lacks a word. -/
def L1Line.partly (x : L1Line) : Bool := !((List.range 32).all fun i => (wordAt? x.words i).isSome)

/-- What a load of `MSEQ` `n` reads of a line that holds `words`: what the nearest load of higher `MSEQ` has already read there, if there is one,
since a later load of the block must not read an older value (R245, R247). -/
def Blk.readsAs (b : Blk) (n space line : Nat) (ws : List Nat) (words : List CWord) : List CWord :=
  let later := b.seen.filter fun q => q.space == space && q.line == line && decide (n < q.mseq) && ws.all fun i => (wordAt? q.words i).isSome
  match later.foldl (fun (m : Option SeenLine) q => match m with
      | none => some q
      | some p => if q.mseq < p.mseq then some q else some p) none with
  | some q => q.words
  | none => words

/-- Put words of a line into an outstanding load, and note the line as it was read. -/
def Blk.gotWords (b : Blk) (idx space line : Nat) (ws : List Nat) (words : List CWord) : Blk :=
  match b.loads.find? fun l => l.idx == idx with
  | none => b
  | some l =>
    let words := b.readsAs l.mseq space line ws words
    let vals := ws.filterMap fun i => (wordAt? words i).map fun c => (line * 32 + i, c.v, c.p)
    let put (l : PLoad) : PLoad := if l.idx == idx then { l with got := l.got ++ vals } else l
    { b with loads := b.loads.map put, seen := b.seen ++ [{ mseq := l.mseq, space := space, line := line, words := words }] }

/-- Words of a line reach an outstanding load of a warp. -/
def State.gotWords (s : State) (w idx space line : Nat) (ws : List Nat) (words : List CWord) : State :=
  s.modBlk w fun b => b.gotWords idx space line ws words

/-- A load hits a line of the L1 (R191, R271): after 256 hits on leased lines the clock of the core advances by 1; where it cannot, a wrap-around
starts and comes first. -/
def State.l1Hit (s : State) (x : L1Line) : State :=
  let s := s.l1Use x.die x.core x.line x.way
  match x.st with
  | .leased _ =>
    let c := s.core x.die x.core
    if c.hits + 1 < 256 then s.modCore x.die x.core fun c => { c with hits := c.hits + 1 }
    else if (s.die x.die).tsTop < c.pts + 1 then (s.modCore x.die x.core fun c => { c with hits := 256 }).startWrap x.die
    else (s.modCore x.die x.core fun c => { c with hits := 0 }).setPts x.die x.core (c.pts + 1)
  | _ => s

/-- Read one line for an outstanding load: from the L1 on a hit (R266, R271), otherwise by a request at the die cache. A remote acquire always asks
the die cache (R254), and so do an acquire at `.quad` or wider while any request of the core for the line is on its way, since it reads what every
agent of its scope can see (R256), a load behind an atomic, and a load of a line not held whole, while one of lower `MSEQ` is still to read. -/
def State.readLine (s : State) (w idx space line : Nat) (ws : List Nat) (rqt : Rqt) (ord : Ord) (scope : Scope) : State :=
  let p := s.place w
  let acq := (ord == .acq || ord == .racq) && Scope.quadUp scope
  let mseq := (((s.blk? w).bind fun b => b.loads.find? fun l => l.idx == idx).map (·.mseq)).getD 0
  let late := (s.blk? w).any (·.lowerLoad mseq)
  match if ord == .racq then none else (s.l1Load? p.die p.core (some w) space line rqt acq ws fun d => acq || d.isAtomic).filter fun x => !(late && x.partly) with
  | some x => ((s.countW w 6 1).gotWords w idx space line ws (s.coreView w space line x.words)).l1Hit x
  | none =>
    (s.countW w 7 1).addReqs [s.newReq w space line rqt ord scope (.load idx ws)]

/-- Send the part of a load, or of a returning atomic, that lies on another package (R291); a release among them has its place in the order of the
warp's stores (R248, R265). -/
def State.askRemote (s : State) (idx : Nat) (m : MFields) (va : Nat) : State :=
  let r : RemoteReq := { w := s.cur, idx := idx, ctx := (s.place s.cur).ctx, va := va, isLoad := true, at_ := s.stake,
                         rel := if m.ord == .rel then some m.scope else none, stamp := s.stampOf s.cur m.mseq.toNat,
                         block := ((s.blk? s.cur).map (·.num)).getD 0 }
  { s with remote := s.remote ++ [r] }

/-- Start a load whose checks have passed (R208). -/
def State.startLoad (s : State) (m : MFields) (kind : PKind) (width : Nat) (l : List (Nat × Nat × Nat × TRes)) : State :=
  let w := s.cur
  let idx := s.curIdx
  let words := wordsOf l width
  let ld : PLoad :=
    { idx := idx, mseq := m.mseq.toNat, kind := kind, rqt := m.rqt, ord := m.ord, scope := m.scope,
      lanes := l.map (fun p => (p.1, p.2.1)), need := words.map (·.2),
      at_ := s.localTick (s.place w).die, got := [] }
  let s := s.modBlk w fun b => { b with loads := b.loads ++ [ld] }
  let s := match farVa? l with
    | some va => s.askRemote idx m va
    | none => s
  match kind with
  | .atom op data =>
    let lines := (words.map fun p => (p.1, p.2 / 32)).dedup
    let item (q : Nat × Nat × Nat × TRes) : Nat × Lane × Lane := (q.2.1, data.getD q.1 (0, 0))
    let req (ln : Nat × Nat) : DReq :=
      { s.newReq w ln.1 ln.2 m.rqt m.ord m.scope
          (.atomic (some idx) op ((l.filter fun q => TRes.space? q.2.2.2 == some ln.1 && q.2.1 / 128 == ln.2).map item)) with
        stamp := s.stampOf w m.mseq.toNat }
    s.addReqs (lines.map req)
  | _ =>
    (words.map fun p => (p.1, p.2 / 32)).dedup.foldl (fun s ln =>
      s.readLine w idx ln.1 ln.2 ((words.filter fun p => p.1 == ln.1 && p.2 / 32 == ln.2).map fun p => p.2 % 32) m.rqt m.ord m.scope) s

/-- `ld` (R206). -/
def execLd (h : Hdr) (m : MFields) (ty : VTy) (s : State) : Out :=
  .next (s.issue (.ld h m ty) (fun b => b.mseqTurn m.mseq.toNat) (fun s => s.deliverNull (.ld h m ty)) fun b x s =>
    s.access true .rd m.rqt 4 (wordLanes (mBase x.sa m) (b.live0 &&& x.sc)) fun l s => s.startLoad m .ld 4 l)

/-- Bytes of an `lds` width (Table 8-2). -/
def LdWidth.bytes : LdWidth → Nat
  | .b64 => 8
  | .i32 => 4
  | .n32 => 4
  | .i16 => 2
  | .n16 => 2
  | .i8 => 1
  | .n8 => 1

/-- What `lds` delivers from the bytes read (Table 8-2). -/
def LdWidth.value (w : LdWidth) (l : List (BitVec 8)) : Word :=
  match w with
  | .i32 => (BitVec.ofNat 32 (leNat l)).signExtend 64
  | .i16 => (BitVec.ofNat 16 (leNat l)).signExtend 64
  | .i8 => (BitVec.ofNat 8 (leNat l)).signExtend 64
  | _ => BitVec.ofNat 64 (leNat l)

/-- `lds` (R207). -/
def execLds (h : Hdr) (m : MFields) (wd : LdWidth) (s : State) : Out :=
  .next (s.issue (.lds h m wd) (fun b => b.mseqTurn m.mseq.toNat) (fun s => s.deliverNull (.lds h m wd)) fun _ x s =>
    s.access false .rd m.rqt (LdWidth.bytes wd) [(0, (mBase x.sa m).toNat)] fun l s => s.startLoad m (.lds wd) (LdWidth.bytes wd) l)

/-! Stores: checked when they fire, performed at commit. -/

/-- The addresses that a buffered store writes. -/
def GStore.addrs (t : GStore) : List Nat := match t.kind with
  | .bytes l => l.map (·.1)
  | .atomic _ l => l.map (·.1)

/-- Buffer a write until commit. -/
def State.bufferStore (s : State) (m : MFields) (kind : GKind) : State :=
  let t : GStore := { mseq := m.mseq.toNat, idx := s.curIdx, rqt := m.rqt, ord := m.ord, scope := m.scope, kind := kind }
  s.modBlk s.cur fun b => { b with stores := b.stores ++ [t] }

/-- Count a store-class instruction that fired or was nullified; one too many raises the invalid block fault (R44). -/
def State.countStore (s : State) (go : State → State) : State :=
  match s.blk? s.cur with
  | none => s
  | some b =>
    if b.nst ≤ b.storeCount then s.faultAt s.cur s.curIdx 1 33
    else go (s.modBlk s.cur fun b => { b with storeCount := b.storeCount + 1 })

/-- A store-class instruction passed by a null token is nullified (R41). -/
def State.nullStore (s : State) (i : Instr) : State := s.countStore fun s => s.deliverNull i

/-- Uncount a store-class instruction that waits for a walk: it has not fired. -/
def State.uncountStore (s : State) : State :=
  s.modBlk s.cur fun b => if b.fired.contains s.curIdx then b else { b with storeCount := b.storeCount - 1 }

/-- `st` (R206). -/
def execSt (h : Hdr) (m : MFields) (ty : VTy) (s : State) : Out :=
  .next (s.issue (.st h m ty) (fun _ => true) (fun s => s.nullStore (.st h m ty)) fun b x s => s.countStore fun s =>
    (s.access true .wr m.rqt 4 (wordLanes (mBase x.sa m) (b.live0 &&& x.sc)) fun l s =>
      s.bufferStore m (.bytes (l.flatMap fun p => placeBytes p.2.1 (leBytes 4 ((x.vb .b32 none).lane p.1).toNat)))).uncountStore)

/-- Bytes of an `sts` width (Table 8-2). -/
def StWidth.bytes : StWidth → Nat
  | .b64 => 8
  | .b32 => 4
  | .b16 => 2
  | .b8 => 1

/-- `sts` (R207). -/
def execSts (h : Hdr) (m : MFields) (wd : StWidth) (s : State) : Out :=
  .next (s.issue (.sts h m wd) (fun _ => true) (fun s => s.nullStore (.sts h m wd)) fun _ x s => s.countStore fun s =>
    (s.access false .wr m.rqt (StWidth.bytes wd) [(0, (mBase x.sa m).toNat)] fun _ s =>
      s.bufferStore m (.bytes (placeBytes (mBase x.sa m).toNat (leBytes (StWidth.bytes wd) (x.sb none).toNat)))).uncountStore)

/-- `prefetch` (R213): an address that fails a check or needs a walk is dropped; a line already where it is wanted is not asked for. -/
def execPrefetch (h : Hdr) (m : MFields) (die : Bool) (s : State) : Out :=
  .next (s.issue (.prefetch h m die) (fun b => b.mseqTurn m.mseq.toNat) id fun _ x s =>
    let va := (mBase x.sa m).toNat
    let p := s.place s.cur
    if 2 ^ 48 ≤ va then s
    else match s.transWarp p.ctx .rd m.rqt va with
      | .ok _ sp leaf =>
        if pteRow leaf && m.rqt == .own then s
        else if !die && (s.l1Load? p.die p.core (some s.cur) sp (va / 128) m.rqt false [] fun _ => false).isSome then s
        else s.addReqs [s.newReq s.cur sp (va / 128) m.rqt .plain .warp (.prefetch (!die))]
      | _ => s)

/-! Atomics. -/

/-- The new value of an atomic (Table 8-3); `c` is slot c, `b` the comparand. -/
def atomVal (op : AtomOp) (old c b : Lane) : Lane :=
  match op with
  | .add => old + c
  | .mini => if c.slt old then c else old
  | .maxi => if old.slt c then c else old
  | .minn => if c.ult old then c else old
  | .maxn => if old.ult c then c else old
  | .and => old &&& c
  | .or => old ||| c
  | .xor => old ^^^ c
  | .exch => c
  | .cas => if old = b then c else old

/-- How an atomic reaches its pages (Table 19-4): `red` needs the permission to write, `atom` the one to read too. -/
def atomAcc (red : Bool) : Acc := if red then .wr else .rw

/-- Perform an atomic on the words of a line, lane by lane: the words, and the old value and poison of each. -/
def atomRun (op : AtomOp) (words : List CWord) (l : List (Nat × Lane × Lane)) : List CWord × List (Nat × Lane × Bool) :=
  l.foldl (fun (r : List CWord × List (Nat × Lane × Bool)) q =>
    let old := (wordAt? r.1 (q.1 / 4 % 32)).getD { i := q.1 / 4 % 32, v := 0, d := false, p := false }
    (putWord r.1 { i := old.i, v := atomVal op old.v q.2.1 q.2.2, d := true, p := false }, r.2 ++ [(q.1 / 4, old.v, old.p)])) (words, [])

/-- The lanes of an atomic with their addresses (R215). -/
def atomLanes (op : AtomOp) (live base : Word) (b : Vec) : List (Nat × Nat) :=
  match op with
  | .cas => wordLanes base live
  | _ => (lanesOf live).filterMap fun l =>
      if b.lane l = 0xFFFFFFFF then none else some (l, (base + (b.lane l).zeroExtend 64).toNat)

/-- Lanes that share their address with another lane (R215). -/
def laneConflicts (l : List (Nat × Nat)) : List (Nat × Nat) := l.filter fun p => l.any fun q => p.1 != q.1 && p.2 == q.2

/-- An `atom` or `red` fires (R214 to R218): the lane conflict check, the checks of R205, then a returning atomic is sent and
any other is buffered until commit. -/
def State.fireAtomic (s : State) (b : Blk) (x : Args) (m : MFields) (op : AtomOp) (acc : Acc) (returns : Bool) : State :=
  let lanes := atomLanes op b.live0 (mBase x.sa m) (x.vb .b32 none)
  match laneConflicts lanes with
  | q :: r => s.fault s.cur { code := 6, index := s.curIdx, addr := BitVec.ofNat 64 q.2,
                              lanes := (q :: r).foldl (fun m p => m ||| (1#64 <<< p.1)) 0 }
  | [] =>
    let data (l : Nat) : Lane × Lane := (x.vc.lane l, (x.vb .b32 none).lane l)
    (s.access true acc m.rqt 4 lanes fun l s =>
      if returns then s.startLoad m (.atom op ((List.range 64).map data)) 4 l
      else s.bufferStore m (.atomic op (l.map fun p => (p.2.1, data p.1)))).uncountStore

/-- `atom` (R214): one that returns a value waits until every other global access of the block is settled (R49). -/
def execAtom (h : Hdr) (m : MFields) (op : AtomOp) (s : State) : Out :=
  .next (s.issue (.atom h m op) (fun b => b.mseqTurn m.mseq.toNat && (!hdrReturns h || b.othersSettled s.curIdx))
    (fun s => s.nullStore (.atom h m op)) fun b x s => s.countStore fun s => s.fireAtomic b x m op (atomAcc false) (hdrReturns h))

/-- `red` (R214). -/
def execRed (h : Hdr) (m : MFields) (op : AtomOp) (s : State) : Out :=
  .next (s.issue (.red h m op) (fun _ => true) (fun s => s.nullStore (.red h m op)) fun b x s =>
    s.countStore fun s => s.fireAtomic b x m op (atomAcc true) false)

/-- The group leader of a lane (R220): the lowest live lane with the same value. -/
def matchLeader (live : Word) (v : Vec) (l : Nat) : Nat :=
  ((lanesOf live).find? fun k => v.lane k == v.lane l).getD 64

/-- `vmatch` (R220). -/
def execVmatch (h : Hdr) (s : State) : Out :=
  execValue (.vmatch h) 1 (fun b x =>
    (.v (Vec.tab fun l => if b.live0.getLsbD l then BitVec.ofNat 32 (matchLeader b.live0 x.va l) else 64),
     .k (BitVec.ofNat 64 (((lanesOf b.live0).filter fun l => matchLeader b.live0 x.va l == l).foldl (fun n l => n + 2 ^ l) 0)))) s

/-- The wider of two scopes. -/
def Scope.wider (a b : Scope) : Scope := if a.code.toNat < b.code.toNat then b else a

/-- `fence` (R221, R222): takes effect at commit; several fences of a block act as one. -/
def execFence (h : Hdr) (scope : Scope) (xpath : Bool) (s : State) : Out :=
  execQuiet (.fence h scope xpath) (fun _ _ s => s.defer fun d => { d with fence := match d.fence with
    | none => some (scope, xpath)
    | some (c, x) => some (Scope.wider c scope, x || xpath) }) s

/-! Delivery of a load. -/

/-- Bytes that the block's own stores of lower MSEQ wrote, lowest first (R46); atomics are not seen (R218). -/
def Blk.ownBytes (b : Blk) (mseq : Nat) : List (Nat × BitVec 8) :=
  ((b.stores.filter fun t => decide (t.mseq < mseq)).mergeSort fun x y => decide (x.mseq ≤ y.mseq)).flatMap fun t => match t.kind with
    | .bytes l => l
    | .atomic _ _ => []

/-- The last value that a list of writes gives a byte. -/
def lastByte? (l : List (Nat × BitVec 8)) (a : Nat) : Option (BitVec 8) := (l.reverse.find? fun p => p.1 == a).map (·.2)

/-- The word that a load has received. -/
def PLoad.word? (l : PLoad) (k : Nat) : Option (Lane × Bool) := (l.got.find? fun g => g.1 == k).map (·.2)

/-- A byte of a load: its own store's, memory's with its poison, or a free value for another package (log 7). -/
def PLoad.byte (l : PLoad) (own : List (Nat × BitVec 8)) (free : Word) (a : Nat) : BitVec 8 × Bool :=
  match lastByte? own a with
  | some v => (v, false)
  | none => match l.word? (a / 4) with
    | some (v, p) => (byteOf v (a % 4), p)
    | none => (free.extractLsb' 0 8, false)

/-- Bytes of a load. -/
def PLoad.bytes (l : PLoad) (own : List (Nat × BitVec 8)) (fresh : Nat) (a n : Nat) : List (BitVec 8 × Bool) :=
  (List.range n).map fun i => l.byte own (Config.freeWord (fresh + i)) (a + i)

/-- What an outstanding load delivers, the lanes that meet poison, and the free values it uses. -/
def PLoad.result (l : PLoad) (own : List (Nat × BitVec 8)) (fresh : Nat) : Token × List (Nat × Nat) :=
  match l.kind with
  | .lds wd =>
    let a := (l.lanes.headD (0, 0)).2
    let r := l.bytes own fresh a (LdWidth.bytes wd)
    (.s (LdWidth.value wd (r.map (·.1))), if r.any (·.2) then [(0, a)] else [])
  | k =>
    let own := match k with
      | .atom _ _ => []
      | _ => own
    let f (p : Nat × Nat) : Nat × Lane × Bool :=
      let r := l.bytes own (fresh + 4 * p.1) p.2 4
      (p.1, BitVec.ofNat 32 (leNat (r.map (·.1))), r.any (·.2))
    let vals := l.lanes.map f
    (.v (Vec.tab fun n => ((vals.find? fun v => v.1 == n).map (·.2.1)).getD 0),
     l.lanes.filter fun p => (vals.any fun v => v.1 == p.1 && v.2.2))

/-- An acquire load is performed (R272): at `.quad` or wider the T lines go; at `.pkg` or wider, where it reads no line since an address is on
another package, the clock moves too. -/
def State.loadAcquires (s : State) (w : Nat) (l : PLoad) (far : Bool) : State :=
  let p := s.place w
  if (l.ord == .acq || l.ord == .racq) && Scope.quadUp l.scope then
    let s := s.dropThrough p.die p.core
    if far && Scope.pkgUp l.scope then s.clockAcquire p.die p.core else s
  else s

/-- Whether the part of a load on another package is a release that must wait for the warp's earlier stores (R248, R265). -/
def State.farWaits (s : State) (w idx : Nat) : Bool :=
  s.remote.any fun q => q.w == w && q.idx == idx && q.isLoad && q.rel.any fun sc => s.relWaits w q.stamp sc

/-- LOAD_DATA_RETURN (R208): when every word has arrived the load is performed: poison raises its fault (R447), an acquire acts on the
clocks, after a wrap-around if it needs one (R272, R275), and the value is delivered. -/
def execLoadDataReturn (w idx : Nat) (s : State) : Out :=
  .next (match s.blk? w with
  | none => s
  | some b => match b.loads.find? fun l => l.idx == idx with
    | none => s
    | some l =>
      let p := s.place w
      let far := l.lanes.any fun q => s.isFar p.ctx q.2
      if !(l.need.all fun k => (l.word? k).isSome) || s.farWaits w idx then s
      else if l.ord == .acq && Scope.pkgUp l.scope && far && decide ((s.die p.die).tsTop < s.acquireTime p.die p.core) then s.startWrap p.die
      else
        let r := l.result (b.ownBytes l.mseq) s.fresh
        let s := { s with fresh := s.fresh + 256, remote := s.remote.filter fun q => !(q.w == w && q.idx == idx && q.isLoad) }
        match r.2 with
        | q :: rest =>
          s.fault w { code := 15, index := idx, addr := BitVec.ofNat 64 q.2,
                      lanes := if r.1.vec.isEmpty then 0 else (q :: rest).foldl (fun m p => m ||| (1#64 <<< p.1)) 0 }
        | [] =>
          let s := s.modBlk w fun b => { b with loads := b.loads.filter fun x => x.idx != idx }
          let s := s.loadAcquires w l far
          match decode (b.words.getD idx 0) with
          | .ok i => (s.stamp w idx).deliver2 w idx (Instr.header i) r.1 r.1
          | .error _ => s)

end Sys2Proof.Machine
end

