-- ==== Sys2Proof/Machine/Spad.lean ====
section
/-! DEFINITION. Group 6, scratchpad: `spld`, `spst`, and the quad window's `spldq` and `spstq` (R210 to R212). -/

namespace Sys2Proof.Machine

/-- A write to a team's scratchpad takes place. Where a `tsend` of the team is still reading its range, each byte that it sends is the old or the
new one, by a free value (R178); the bytes of one transfer are the same at every destination. -/
def State.spadPut (s : State) (t : Nat) (e : SpPend) : State :=
  let live := s.tsends.filter fun x => x.team == t && x.sent && decide (s.reconTick x.die < x.start + x.len / 64)
  let patch (l : Landing) : Landing := match live.find? fun x => x.team == l.team && x.cslot == l.cslot with
    | some x => { l with bytes := l.bytes.mapIdx fun i c => match lastByte? e.bytes (x.ofs + i) with
        | some v => if (Config.freeWord (s.fresh + i)).getLsbD 0 then v else c
        | none => c }
    | none => l
  let s := s.modTeam t fun x => x.put e
  if live.isEmpty then s else { s with landings := s.landings.map patch, fresh := s.fresh + 4096 }

/-- Whether a write to a scratchpad comes after another that only its writer sees yet: they are of one agent and meet (R244), or it is a
release and the other the warp's earlier store (R212, R248). -/
def SpPend.follows (e q : SpPend) : Bool :=
  e.warp == q.warp && e.job == q.job && e.coll == q.coll &&
    ((e.bytes.any fun p => q.bytes.any fun r => r.1 == p.1) || (e.rel.isSome && decide (q.stamp < e.stamp)))

/-- Whether pending write `n` of a team may become visible: a warp's after those of lower `MSEQ` of its block, to whichever team, and a release after
every earlier one (R212, R244, R248). -/
def State.spadMay (s : State) (t n : Nat) (e : SpPend) : Bool :=
  let before (q : SpPend) : Bool := q.warp == e.warp && stampBlock q.stamp == stampBlock e.stamp && decide (q.stamp < e.stamp)
  !(((s.team t).pend.take n).any e.follows) && !(e.warp.isSome && s.teams.any fun x => x.pend.any before) &&
    (match e.warp, e.rel with
    | some w, some sc => !s.relWaits w e.stamp sc
    | _, _ => true)

/-- Take bytes out of a pending write; it goes when none is left. -/
def Team.pendLess (x : Team) (n : Nat) (e : SpPend) : Team :=
  { x with pend := if e.bytes.isEmpty then x.pend.eraseIdx n else x.pend.set n e }

/-- Pending write `n` to a team's scratchpad becomes visible: a block's stores to a line at once (R245), of an engine command's chunk the words at
`part`, in any order (R243, R259). Which do, and when, the agenda says (R212, log 49). -/
def State.spadDrain (s : State) (t n : Nat) (part : List Nat) : State :=
  match (s.team t).pend[n]? with
  | none => s
  | some e =>
    if !s.spadMay t n e then s
    else
      let all := e.warp.isSome || part.isEmpty
      let now (o : Nat) : Bool := all || part.contains (o / 4 * 4)
      (s.spadPut t { e with bytes := e.bytes.filter fun p => now p.1, poison := e.poison.filter now }).modTeam t fun x =>
        x.pendLess n { e with bytes := e.bytes.filter fun p => !now p.1, poison := e.poison.filter fun o => !now o }

/-- A write to a scratchpad is made: it waits to become visible, but in a timed launch, whose results are fixed, it does at once (R182, log 49). -/
def State.spadSend (s : State) (t : Nat) (e : SpPend) : State :=
  if (s.grid (s.teamPlace t).grid).launch.timed then s.spadPut t e else s.modTeam t fun x => { x with pend := x.pend ++ [e] }

/-- A warp's earlier pending writes to bytes that it writes now are overtaken (R244). -/
def Team.pendCut (x : Team) (w : Nat) (l : List (Nat × BitVec 8)) : Team :=
  let cut (e : SpPend) : SpPend := if e.warp == some w then { e with bytes := e.bytes.filter fun p => !(l.any fun q => q.1 == p.1) } else e
  { x with pend := (x.pend.map cut).filter fun e => !e.bytes.isEmpty }

/-- A warp's write to a scratchpad is made and is visible at once. -/
def State.spadNow (s : State) (t w : Nat) (e : SpPend) : State := (s.spadPut t e).modTeam t fun x => x.pendCut w e.bytes

/-- The word offset of a lane (R210): the offset plus `OFS` modulo 2^32 with bits [1:0] cleared. -/
def spOffset (m : MFields) (a : Lane) : Nat := (a + m.ofs.signExtend 32).toNat / 4 * 4

/-- The team and offset that a lane reaches; none when it takes no part (R210, R211, R189). -/
def State.spPlace (s : State) (w : Nat) (quad : Bool) (o : Nat) : Option (Nat × Nat) :=
  let t := (s.warp w).team
  if quad then
    let teams := s.teamsOf (s.team t).gang
    if o / 2 ^ 21 != 0 then none
    else match teams[o / 2 ^ 19 % 4]? with
      | none => none
      | some u => if o % 2 ^ 19 + 4 ≤ (s.team u).alloc then some (u, o % 2 ^ 19) else none
  else if o + 4 ≤ (s.team t).alloc then some (t, o) else none

/-- The lanes of a scratchpad access with the place each reaches. -/
def State.spLanes (s : State) (w : Nat) (quad : Bool) (m : MFields) (part : Word) (a : Vec) : List (Nat × Option (Nat × Nat)) :=
  (lanesOf part).map fun l => (l, s.spPlace w quad (spOffset m (a.lane l)))

/-- The word of a team's scratchpad as a load of the block sees it: the block's own store of lower MSEQ, or the scratchpad
as its warp sees it (R46, R252); with its poison. -/
def State.spWord (s : State) (b : Blk) (mseq : Nat) (t o : Nat) : Lane × Bool :=
  let own := (b.sps.filter fun x => x.team == t && x.ofs == o && decide (x.mseq < mseq)).foldl (fun acc x => match acc with
    | none => some x
    | some y => if y.mseq ≤ x.mseq then some x else some y) none
  match own with
  | some x => (x.val, false)
  | none => (getW32 (s.seen s.cur t).spad o, (s.seen s.cur t).spPoison.contains o)

/-- `spld` and `spldq` (R210, R211): lanes outside are counted, poison raises its fault (R447), hazards 6 and 5 in umpire mode; an acquire at `.quad`
keeps no copy of its core that could be older (R263, R272). -/
def State.fireSpld (s : State) (b : Blk) (x : Args) (quad : Bool) (i : Instr) (m : MFields) : State :=
  let w := s.cur
  let lanes := s.spLanes w quad m (b.live0 &&& x.sc) x.va
  let own := lanes.filterMap fun p => p.2.bind fun q => if q.1 == (s.warp w).team then some (q.2, 4) else none
  match s.spadHazard w b own (lanes.filterMap fun p => p.2.map fun q => (q.1, q.2, 4)) [] with
  | some (c, o) => s.hazard w s.curIdx c o
  | none =>
    let val (p : Nat × Option (Nat × Nat)) : Nat × Lane × Bool := match p.2 with
      | some q => (p.1, s.spWord b m.mseq.toNat q.1 q.2)
      | none => (p.1, 0, false)
    let vals := lanes.map val
    let s := s.countW w 8 (lanes.filter fun p => p.2.isNone).length
    match vals.filter fun v => v.2.2 with
    | q :: r => s.fault w { code := 15, index := s.curIdx, addr := 0, lanes := (q :: r).foldl (fun m v => m ||| (1#64 <<< v.1)) 0 }
    | [] =>
      let out := Vec.tab fun n => ((vals.find? fun v => v.1 == n).map (·.2.1)).getD 0
      let s := if m.ord == .acq && Scope.quadUp m.scope then s.dropCopies (s.place w).die (s.place w).core else s
      (s.countW w 4 1).deliver2 w s.curIdx (Instr.header i) (.v out) (.v out)

/-- `spst` and `spstq` (R210, R211): buffered until commit. -/
def State.fireSpst (s : State) (b : Blk) (x : Args) (quad : Bool) (m : MFields) : State :=
  let w := s.cur
  let lanes := s.spLanes w quad m (b.live0 &&& x.sc) x.va
  let own := lanes.filterMap fun p => p.2.bind fun q => if q.1 == (s.warp w).team then some (q.2, 4) else none
  match s.spadHazard w b own [] (lanes.filterMap fun p => p.2.map fun q => (q.1, q.2, 4)) with
  | some (c, o) => s.hazard w s.curIdx c o
  | none =>
    let data := x.vb .b32 none
    let rel := if m.ord == .rel then some m.scope else none
    let one (p : Nat × Option (Nat × Nat)) : Option SpStore :=
      p.2.map fun q => { mseq := m.mseq.toNat, idx := s.curIdx, team := q.1, ofs := q.2, val := data.lane p.1, rel := rel }
    let new := lanes.filterMap one
    let s := (s.countW w 8 (lanes.filter fun p => p.2.isNone).length).countW w 4 1
    s.modBlk w fun b => { b with sps := b.sps ++ new }

/-- `spld` (R210). -/
def execSpld (h : Hdr) (m : MFields) (ty : VTy) (s : State) : Out :=
  .next (s.issue (.spld h m ty) (fun b => b.mseqTurn m.mseq.toNat) (fun s => s.deliverNull (.spld h m ty)) fun b x s =>
    s.fireSpld b x false (.spld h m ty) m)

/-- `spldq` (R211). -/
def execSpldq (h : Hdr) (m : MFields) (ty : VTy) (s : State) : Out :=
  .next (s.issue (.spldq h m ty) (fun b => b.mseqTurn m.mseq.toNat) (fun s => s.deliverNull (.spldq h m ty)) fun b x s =>
    s.fireSpld b x true (.spldq h m ty) m)

/-- `spst` (R210). -/
def execSpst (h : Hdr) (m : MFields) (ty : VTy) (s : State) : Out :=
  .next (s.issue (.spst h m ty) (fun _ => true) (fun s => s.nullStore (.spst h m ty)) fun b x s =>
    s.countStore fun s => s.fireSpst b x false m)

/-- `spstq` (R211). -/
def execSpstq (h : Hdr) (m : MFields) (ty : VTy) (s : State) : Out :=
  .next (s.issue (.spstq h m ty) (fun _ => true) (fun s => s.nullStore (.spstq h m ty)) fun b x s =>
    s.countStore fun s => s.fireSpst b x true m)

end Sys2Proof.Machine
end

