-- ==== Sys2Proof/Machine/Engine.lean ====
section
/-! DEFINITION. Group 6, engines: `tlrd` and `push` (R224 to R228). -/

namespace Sys2Proof.Machine

/-- The value of a `tlrd` form (Table 8-6). -/
def tlrdVal (f : TlrdForm) (c : Counter) : Word :=
  match f with
  | .val => BitVec.ofNat 64 c.val
  | .err => c.status
  | .errclr => c.status
  | .issued => BitVec.ofNat 64 c.issued

/-- `tlrd` (R226): a queue of another context raises the protection fault, `DETAIL` 17; `.errclr` clears at commit. -/
def execTlrd (h : Hdr) (form : TlrdForm) (ctr : Ctr) (s : State) : Out :=
  .next (s.issue (.tlrd h form ctr) (fun _ => true) (fun s => s.deliverNull (.tlrd h form ctr)) fun _ _ s =>
    if s.foreignCtr s.cur ctr then s.faultAt s.cur s.curIdx 4 17
    else
      let r := s.ctrOf s.cur ctr
      let v := tlrdVal form (s.counter r)
      let s := if form == .errclr then s.defer fun d => { d with errclr := d.errclr ++ [r] } else s
      s.deliver2 s.cur s.curIdx h (.s v) (.s v))

/-- The reconciled tick of warp `w`'s die. -/
def State.wRecon (s : State) (w : Nat) : Nat := s.reconTick (s.place w).die

/-- The stroke-relative tick of warp `w` (chapter 6). -/
def State.wPhase (s : State) (w : Nat) : Nat := s.wRecon w % (s.launchOf w).strokeS

/-- Reserve an entry for a push, or not when its queue is full (R132, R133, R228). -/
def State.reservePush (s : State) (dst : PushDst) : Option State :=
  let w := s.cur
  match dst with
  | .copy _ =>
    let t := (s.warp w).team
    if (s.team t).queue.length + (s.team t).reserved < 32 then
      some (s.modTeam t fun x => { x with reserved := x.reserved + 1 })
    else none
  | .coll =>
    let c := (s.place w).ctx
    if (s.ctx c).coll.length + (s.ctx c).collRes < 256 then some (s.modCtx c fun x => { x with collRes := x.collRes + 1 }) else none
  | .launch q =>
    if (s.queue q).entries.length + (s.queue q).reserved < 256 ∧ (s.queue q).ctl.getLsbD 10 then
      some (s.modQueue q fun x => { x with reserved := x.reserved + 1 })
    else none

/-- The queue a push names (Table 8-7); a timed push holds its reconciled start tick, 0 for none. -/
def PushDst.of : PushQ → PushDst
  | .copy t => .copy t.toNat
  | .coll => .coll
  | .launch q => .launch q.toNat

/-- `push` (R227, R228): delivers 0 with an entry reserved, or 1. A launch queue of another context raises the protection
fault, `DETAIL` 17 (R133); a timed push past `TICK` - 4 the stroke overrun fault (R181). -/
def execPush (h : Hdr) (grp : Fin 7) (q : PushQ) (s : State) : Out :=
  .next (s.issue (.push h grp q) (fun _ => true) (fun s => s.deliverNull (.push h grp q)) fun b _ s =>
    let w := s.cur
    let dst := match PushDst.of q with
      | .copy t => if b.cls == 2 then .copy (s.wRecon w - s.wPhase w + t) else .copy t
      | d => d
    let foreign := match q with
      | .launch n => fld (s.queue n.toNat).ctl 0 8 != (s.place w).ctx
      | _ => false
    let late := match q with
      | .copy t => b.cls == 2 && decide (t.toNat < s.wPhase w + 4)
      | _ => false
    if foreign then s.faultAt w s.curIdx 4 17
    else if late then s.faultAt w s.curIdx 11 0
    else match s.reservePush dst with
      | none => s.deliver2 w s.curIdx h (.s 1) (.s 1)
      | some s =>
        let r : PushRes := { idx := s.curIdx, dst := dst, cmd := (b.groups.find? fun g => g.1 == grp.val + 1).map (·.2) |>.getD [] }
        (s.modBlk w fun b => { b with pushes := b.pushes ++ [r] }).deliver2 w s.curIdx h (.s 0) (.s 0))

end Sys2Proof.Machine
end

