-- ==== Sys2Proof/Machine/Timed.lean ====
section
/-! DEFINITION. Group 7, timed: `stroke`, `tkrd`, `tsend`, `trecv`, and the timed channels (R167 to R180). -/

namespace Sys2Proof.Machine

/-- `stroke` (R167): acts at commit; a second one raises the operand conflict fault. -/
def execStroke (h : Hdr) (slip : Bool) (s : State) : Out :=
  execQuiet (.stroke h slip) (fun b _ s =>
    if b.deferred.stroke.isSome then s.faultAt s.cur s.curIdx 2 0
    else s.defer fun d => { d with stroke := some (s.curIdx, slip) }) s

/-- The value of a `tkrd` selector (Table 6-4). -/
def State.tkVal (s : State) (w : Nat) (sel : TkSel) : Nat :=
  let x := (s.warp w).timed
  let l := s.launchOf w
  match sel with
  | .stroke => if l.timed then (x.bt - x.b0) / l.strokeS - 1 else x.strokes
  | .phase => s.wPhase w
  | .work => s.localTick (s.place w).die - x.workStart
  | .wait => x.lastWait

/-- `tkrd` (R170). -/
def execTkrd (h : Hdr) (sel : TkSel) (s : State) : Out :=
  execS (.tkrd h sel) (fun _ => BitVec.ofNat 64 (s.tkVal s.cur sel)) s

/-- `LSLOT` of a descriptor (Table 6-8). -/
def dLslot (d : Word) : Nat := fld d 25 6
/-- Bytes that a descriptor moves. -/
def dLen (d : Word) : Nat := 64 * (fld d 19 6 + 1)
/-- Scratchpad offset of a descriptor. -/
def dOfs (d : Word) : Nat := 64 * fld d 6 13
/-- Whether a zero bit of a descriptor is set (R2); a `tsend` has `LSLOT` zero too. -/
def dBreach (d : Word) (send : Bool) : Bool := fld d 31 33 != 0 || fld d 0 6 != 0 || (send && dLslot d != 0)

/-- The channel map entry of warp `w` at a channel slot (Table 6-6): landing slot and destination mask. -/
def State.chEntry (s : State) (w k : Nat) : Option (Nat × Word) :=
  let p := s.place w
  match s.objOf w with
  | none => none
  | some o =>
    let mine := match o.kernels.find? fun x => x.entry == (s.launchOf w).entry with
      | some x => (o.chmap.drop x.chFirst).take x.chCount
      | none => []
    (mine.find? fun e => fld e.1 0 14 == k && fld e.1 14 6 == (s.region p.region).idx && fld e.1 20 6 == (s.gang p.gang).idx &&
      fld e.1 26 2 == (s.team p.team).idx).map fun e => (fld e.1 28 6, e.2)

/-! Breaches (R2). -/

/-- Note that warp `w` has broken a "must" for which no outcome is listed (R2). -/
def State.breachIf (s : State) (w : Nat) (b : Bool) : State := if b then s.modWarp w fun x => { x with breached := true } else s

/-- A register of a warp takes the value `v`; `s0` and `k0` keep theirs (R30). -/
def Warp.smearReg (x : Warp) (r : PReg) (v : Word) : Warp :=
  match r with
  | .v r l => { x with v := x.v.modify r fun old => Vec.tab fun k => if k = l then v.extractLsb' 0 32 else old.lane k }
  | .s r => if r = 0 then x else { x with s := x.s.set r v }
  | .k r => if r = 0 then x else { x with k := x.k.set r v }
  | .x r => if r = 0 then { x with fmt := fmtWrite .all x.fmt v } else { x with mreg := v &&& 0x1FFFF01 }
  | .l win r =>
    let put (old : Vec) : Vec := Vec.tab fun k => if k = r then v.extractLsb' 0 32 else old.lane k
    if win then { x with latch1 := put x.latch1 } else { x with latch0 := put x.latch0 }

/-- A register that no slot names takes the values `v` (Table 2-2): the status word, whose reserved bits stay 0, the live mask, of lanes that have
not retired, the current join, or an entry of the reconvergence stack. -/
def Warp.smearPath (x : Warp) (m : Smear) (v : Nat → Word) : Warp :=
  match m with
  | .wst => { x with wst := v 0 &&& 0xFFFF000000000003 }
  | .live => { x with live := v 0 &&& ~~~x.retired }
  | .join => { x with cj := if (v 0).getLsbD 24 then some (fld (v 0) 0 24) else none }
  | .entry n => { x with stack := x.stack.modify n fun _ =>
      { join := (v 0).getLsbD 24, block := fld (v 0) 0 24, mask := v 1 &&& ~~~x.retired, fmt := fmtWrite .all x.fmt (v 2) } }
  | _ => x

/-- A register of a warp in breach, a word of its team's scratchpad or a word at an address that it may write takes an unspecified value (R2);
which do, and when, the agenda says (log 20). -/
def State.smear (s : State) (w : Nat) (x : Smear) : State :=
  let y := s.warp w
  let v := Config.freeWord s.fresh
  let ctx := (s.place w).ctx
  let bytes := leBytes 4 (fld v 0 32)
  if !y.breached || y.done then s
  else
    let free (i : Nat) : Word := Config.freeWord (s.fresh + i)
    let s := { s with fresh := s.fresh + 3 }
    match x with
    | .reg r => s.modWarp w fun x => x.smearReg r v
    | .spad o =>
      if o % 4 = 0 ∧ o + 4 ≤ (s.team y.team).alloc then
        s.spadPut y.team { warp := some w, job := none, stamp := 0, rel := none, bytes := placeBytes o bytes, poison := [] }
      else s
    | .mem a => match s.transWarp ctx .wr .wt (a / 4 * 4) with
      | .ok _ _ _ => s.pokeCtx ctx (a / 4 * 4) bytes
      | _ => s
    | m => s.modWarp w fun x => x.smearPath m free

/-- The bytes of a range that a transfer reads (R178): zero beyond the allocation. -/
def Team.sendBytes (t : Team) (ofs len : Nat) : List (BitVec 8) :=
  (List.range len).map fun i => if ofs + i < t.alloc then getByte t.spad (ofs + i) else 0

/-- `tsend` (R178): scheduled when it fires, made at its start tick if its block has committed. -/
def execTsend (h : Hdr) (tick : BitVec 25) (s : State) : Out :=
  execQuiet (.tsend h tick) (fun b x s =>
    let w := s.cur
    let d := x.sa
    let t := tick.toNat
    let p := s.place w
    if t < s.wPhase w + 4 then s.faultAt w s.curIdx 11 0
    else match s.spadHazard w b [(dOfs d, dLen d)] (s.ofTeam w [(dOfs d, dLen d)]) [] with
      | some (c, o) => s.hazard w s.curIdx c o
      | none =>
        let e := (s.chEntry w (t / 64)).getD (0, 0)
        let dies := ((s.regionsOf p.grid).filter fun r => e.2.getLsbD (s.region r).idx).map fun r => (s.region r).die
        let new : TSend :=
          { w := w, idx := s.curIdx, team := p.team, die := p.die, ctx := p.ctx, cslot := t / 64, lslot := e.1, dests := dies,
            ofs := dOfs d, len := dLen d, start := s.wRecon w - s.wPhase w + t, committed := false,
            before := (s.seen w p.team).sendBytes (dOfs d) (dLen d) }
        ({ s with tsends := s.tsends ++ [new] }).breachIf w (dBreach d true)) s

/-- `trecv` (R179): copies a full landing slot, or waits for it until its window ends. Hazard 1 in umpire mode. -/
def execTrecv (h : Hdr) (tick : BitVec 25) (s : State) : Out :=
  .next (s.issue (.trecv h tick) (fun _ => true) (fun s => s.deliverNull (.trecv h tick)) fun b x s =>
    let w := s.cur
    let d := x.sa
    let full := (s.die (s.place w).die).full.contains (dLslot d) || s.landingDue (s.place w).die (· == dLslot d)
    let late := decide (tick.toNat < s.wPhase w)
    match s.spadHazard w b [(dOfs d, dLen d)] [] (s.ofTeam w [(dOfs d, dLen d)]) with
    | some (c, o) => s.hazard w s.curIdx c o
    | none =>
      if !full && s.umpireOn w then s.hazard w s.curIdx 1 (dLslot d + 2 ^ 16 * s.wPhase w)
      else if !full && late then s.faultAt w s.curIdx 10 0
      else
        let r : TRecv := { idx := s.curIdx, slot := dLslot d, len := dLen d, ofs := dOfs d,
                           until_ := s.wRecon w - s.wPhase w + tick.toNat, copying := full, at_ := s.localTick (s.place w).die,
                           breach := dBreach d false }
        (s.modBlk w fun b => { b with recv := b.recv ++ [r] }).breachIf w (dBreach d false))

/-- Fill a record's place for a team (Table 21-2). -/
def State.fillTeam (s : State) (t : Nat) (f : FRec) : FRec :=
  let p := s.teamPlace t
  { f with
    object := (s.grid p.grid).launch.object, core := p.core, die := p.die, team := (s.team t).idx, gang := (s.gang p.gang).idx,
    region := (s.region p.region).idx, tick := BitVec.ofNat 64 (s.reconTick p.die) }

/-- A hazard found at the landing buffer (R444): posted with `SRC` 4 for the sending team. -/
def State.landingHazard (s : State) (t cslot lslot : Nat) : State :=
  let ctx := (s.teamPlace t).ctx
  if s.umpire ctx then
    s.postRec ctx (s.fillTeam t { code := 16, src := 4, detail := 2, aux := BitVec.ofNat 64 (cslot + 2 ^ 16 * lslot) })
  else s

/-- Count a timed-channel drop of a die (R177, R178). -/
def State.countChan (s : State) (d ctx : Nat) : State := (s.modDie d fun x => { x with chan := x.chan + 1 }).countDie d 40 ctx 1

/-- The bytes that a transfer sends (R178): a byte that the team has written since the firing is the old one or the new one, by a free value. -/
def State.tsendBytes (s : State) (x : TSend) : List (BitVec 8) :=
  ((s.team x.team).sendBytes x.ofs x.len).mapIdx fun i new => match x.before[i]? with
    | some old => if old = new ∨ (Config.freeWord (s.fresh + i)).getLsbD 0 then new else old
    | none => new

/-- TSEND_TRANSFER_START (R178): at the start tick a transfer is sent, is dropped as the second of its slot in the stroke, or
raises the stroke overrun fault of a block that has not committed. -/
def execTsendTransferStart (n : Nat) (s : State) : Out :=
  .next (match s.tsends[n]? with
  | none => s
  | some x =>
    if s.reconTick x.die < x.start || x.sent then s
    else if !x.committed then ({ s with tsends := s.tsends.eraseIdx n }).faultAt x.w x.idx 11 0
    else
      let len := (s.grid (s.teamPlace x.team).grid).launch.strokeS
      let old (y : TSend) : Bool := y.sent && y.start / len < x.start / len
      let again := s.tsends.any fun y => y.sent && y.team == x.team && y.cslot == x.cslot && y.start / len == x.start / len
      if again then
        (({ s with tsends := s.tsends.eraseIdx n }).countChan x.die x.ctx).landingHazard x.team x.cslot x.lslot
      else
        let bytes := s.tsendBytes x
        let bad := (List.range (x.len / 4)).filter fun i => (s.team x.team).spPoison.contains (x.ofs + 4 * i)
        let land (d : Nat) : Landing :=
          { die := d, slot := x.lslot, at_ := x.start + Config.linkLat x.die d + x.len / 64, bytes := bytes,
            poison := bad.map (4 * ·), team := x.team, cslot := x.cslot }
        let rest := (s.tsends.eraseIdx n).filter fun y => !old y
        { s with tsends := rest ++ [{ x with sent := true }], landings := s.landings ++ x.dests.map land, fresh := s.fresh + x.len })

/-- Warps with a waiting `trecv` on a landing slot of a die begin to copy when it becomes full in their window (R179). -/
def startRecv (s : State) (die slot : Nat) (w : Nat) (x : Warp) : Warp :=
  if (s.place w).die == die then
    let go (r : TRecv) : TRecv := if r.slot == slot && decide (s.reconTick die ≤ r.until_) then { r with copying := true, at_ := s.localTick die } else r
    { x with blk := x.blk.map fun b => { b with recv := b.recv.map go } }
  else x

/-- TRANSFER_LANDED (R177): the bytes are in the landing slot and its full flag is set; landing in a full slot is counted. -/
def execTransferLanded (n : Nat) (s : State) : Out :=
  .next (match s.landings[n]? with
  | none => s
  | some x =>
    if s.reconTick x.die < x.at_ then s
    else
      let base := 4096 * x.slot
      let wasFull := (s.die x.die).full.contains x.slot
      let ctx := (s.teamPlace x.team).ctx
      let s := { s with landings := s.landings.eraseIdx n }
      let s := if wasFull then (s.countChan x.die ctx).landingHazard x.team x.cslot x.slot else s
      let s := s.modDie x.die fun d => { d with
        landing := setBytes d.landing (placeBytes base x.bytes),
        landPoison := (d.landPoison.filter fun a => !(decide (base ≤ a ∧ a < base + x.bytes.length))) ++ x.poison.map (base + ·),
        full := if wasFull then d.full else x.slot :: d.full }
      { s with warps := s.warps.mapIdx fun w y => startRecv s x.die x.slot w y })

/-- The local tick in which a `trecv` whose copy is under way delivers (R179). -/
def TRecv.endsAt (r : TRecv) : Nat := r.at_ + 6 + r.len / 64

/-- TRECV_COPY_DONE (R179): in the tick in which the copy ends the bytes are written to the scratchpad, the full flag is cleared and the offset
is delivered. -/
def execTrecvCopyDone (w idx : Nat) (s : State) : Out :=
  .next (match s.blk? w with
  | none => s
  | some b => match b.recv.find? fun r => r.idx == idx && r.copying with
    | none => s
    | some r =>
      if s.landingDue (s.place w).die (· == r.slot) || decide (s.localTick (s.place w).die < r.endsAt) then s else
      let d := s.die (s.place w).die
      let t := (s.warp w).team
      let alloc := (s.team t).alloc
      let n := min r.len (alloc - r.ofs)
      let src (i : Nat) : BitVec 8 :=
        if r.breach then (Config.freeWord (s.fresh + i)).extractLsb' 0 8 else getByte d.landing (4096 * r.slot + i)
      let bytes := (List.range n).map src
      let bad := (List.range (n / 4)).filter fun i => d.landPoison.contains (4096 * r.slot + 4 * i)
      let e : SpPend :=
        { warp := some w, job := none, stamp := 0, rel := none, bytes := placeBytes r.ofs bytes, poison := bad.map fun i => r.ofs + 4 * i }
      let s := ({ s with fresh := s.fresh + n }).spadPut t e
      let s := s.modDie (s.place w).die fun d => { d with full := d.full.filter (· != r.slot) }
      let v : Word := if r.breach then Config.freeWord s.fresh else BitVec.ofNat 64 r.ofs
      let s := { s with fresh := s.fresh + 1 }
      let s := s.modBlk w fun b => { b with recv := b.recv.filter fun q => q.idx != idx }
      match decode (b.words.getD idx 0) with
      | .ok i => (s.stamp w idx).deliver2 w idx (Instr.header i) (.s v) (.s v)
      | .error _ => s)

/-- TRECV_WINDOW_MISS (R179): a `trecv` whose window has passed without its slot becoming full raises the window miss fault. -/
def execTrecvWindowMiss (w idx : Nat) (s : State) : Out :=
  .next (match s.blk? w with
  | none => s
  | some b => match b.recv.find? fun r => r.idx == idx && !r.copying with
    | none => s
    | some r => if r.until_ < s.wRecon w then s.faultAt w idx 10 0 else s)

end Sys2Proof.Machine
end

