-- ==== Sys2Proof/Machine/System.lean ====
section
/-! DEFINITION. Group 7, system: `syswr`, `cachectl`, `perfctl`, `ctxctl`, `eret`, and `hint` (R88, R434 to R437, R453). -/

namespace Sys2Proof.Machine

/-- `syswr` (R436): written at commit; outside context 0 the protection fault, `DETAIL` 18. -/
def execSyswr (h : Hdr) (reg : SysReg) (s : State) : Out :=
  execQuiet (.syswr h reg) (fun _ x s =>
    if (s.place s.cur).ctx != 0 then s.faultAt s.cur s.curIdx 4 18
    else s.defer fun d => { d with syswr := d.syswr ++ [(reg, x.sa)] }) s

/-- The line operation of `cachectl` (R437): checks 1, 3 and 4 as a load; it waits while anything of the line is on its way, and for the end of a
refresh of its home (R174). -/
def State.cacheOp (s : State) (va : Nat) (f : State → Nat → Nat → State) : State :=
  s.access false .rd .wt 1 [(0, va)] fun l s => match l with
    | (_, _, _, .ok _ sp _) :: _ => if s.lineBusy sp (va / 128) || s.refreshing (s.lineHome sp (va / 128)) then s.unmark else f s sp (va / 128)
    | _ => s

/-- `cachectl.wb` (R437). -/
def execCachectlWb (h : Hdr) (s : State) : Out :=
  execQuiet (.cachectlWb h) (fun _ x s => s.cacheOp x.sa.toNat fun s sp ln => s.cleanLine sp ln) s
/-- `cachectl.wbinv` (R437). -/
def execCachectlWbinv (h : Hdr) (s : State) : Out :=
  execQuiet (.cachectlWbinv h) (fun _ x s => s.cacheOp x.sa.toNat fun s sp ln => s.flushLine sp ln) s
/-- `cachectl.l1inv` (R437): every line of the core's L1 in L or T goes to I. -/
def execCachectlL1inv (h : Hdr) (s : State) : Out :=
  execQuiet (.cachectlL1inv h) (fun _ _ s =>
    let p := s.place s.cur
    s.modCache fun c => { c with l1 := c.l1.filter fun x => !(x.die == p.die && x.core == p.core && x.st != .owned && x.st != .weights) }) s

/-- The counter that `perfctl` names (R453): 0-7 of the core, 16-31 of the die. -/
def State.perfCtr (s : State) (w n : Nat) : EvCtr :=
  let p := s.place w
  if n < 16 then (s.core p.die p.core).ctrs.getD n {} else (s.die p.die).ctrs.getD (n - 16) {}

/-- Change counter `n` of a bank of `k`. -/
def setCtr (l : List EvCtr) (k n : Nat) (f : EvCtr → EvCtr) : List EvCtr :=
  (if l.isEmpty then List.replicate k {} else l).modify n f

/-- Change the counter that `perfctl` names. -/
def State.modPerf (s : State) (w n : Nat) (f : EvCtr → EvCtr) : State :=
  let p := s.place w
  if n < 16 then s.modCore p.die p.core fun c => { c with ctrs := setCtr c.ctrs 8 n f }
  else s.modDie p.die fun d => { d with ctrs := setCtr d.ctrs 16 (n - 16) f }

/-- Note a `perfctl` of a counter; a second one raises the operand conflict fault (R453). -/
def State.perfNote (s : State) (b : Blk) (n : Nat) (op : PerfOp) (go : State → State) : State :=
  if b.deferred.perf.any fun p => p.1 == n then s.faultAt s.cur s.curIdx 2 0
  else go (s.defer fun d => { d with perf := d.perf ++ [(n, op)] })

/-- `perfctl.rd` (R453): the count is read when it fires. -/
def execPerfctlRd (h : Hdr) (n : BitVec 16) (s : State) : Out :=
  .next (s.issue (.perfctlRd h n) (fun _ => true) (fun s => s.deliverNull (.perfctlRd h n)) fun b _ s =>
    let c := s.perfCtr s.cur n.toNat
    let v : Word := BitVec.ofNat 64 (c.count + if c.ovf then 2 ^ 63 else 0)
    s.perfNote b n.toNat .rd fun s => s.deliver2 s.cur s.curIdx h (.s v) (.s v))

/-- A `perfctl` of context 0 only (Table 22-6). -/
def State.perfSet (s : State) (b : Blk) (n : Nat) (op : PerfOp) : State :=
  if (s.place s.cur).ctx != 0 then s.faultAt s.cur s.curIdx 4 18 else s.perfNote b n op id

/-- `perfctl.cfg` (R453): acts at commit. -/
def execPerfctlCfg (h : Hdr) (n : BitVec 16) (s : State) : Out :=
  execQuiet (.perfctlCfg h n) (fun b x s => s.perfSet b n.toNat (.cfg x.sa)) s
/-- `perfctl.clr` (R453): acts at commit. -/
def execPerfctlClr (h : Hdr) (n : BitVec 16) (s : State) : Out :=
  execQuiet (.perfctlClr h n) (fun b _ s => s.perfSet b n.toNat .clr) s

/-- The trap word that `ctxctl trrd` delivers (Table 21-8); 0 outside trap mode. -/
def trapWord (t : TrapState) (a : Word) : Word :=
  if !t.on then 0
  else match a.toNat % 4 with
    | 0 => t.tr0
    | 1 => t.tr1
    | 2 => t.tret
    | _ => t.tlive

/-- `ctxctl trrd` (R435). -/
def execCtxctlTrrd (h : Hdr) (s : State) : Out :=
  execS (.ctxctlTrrd h) (fun x => trapWord (s.warp s.cur).trap x.sa) s
/-- `ctxctl tret` (R435): at commit; a second one raises the operand conflict fault. -/
def execCtxctlTret (h : Hdr) (s : State) : Out :=
  execQuiet (.ctxctlTret h) (fun b x s =>
    if b.deferred.tret.isSome then s.faultAt s.cur s.curIdx 2 0
    else s.defer fun d => { d with tret := some (fld x.sa 0 24) }) s

/-- `eret` (R434): a branch that returns from a trap at commit. -/
def execEret (h : Hdr) (s : State) : Out := execQuiet (.eret h) (fun b _ s => s.fireBranch b .eret) s

/-- `hint` (R88): no effect, and no part in completion. -/
def execHint (_ : BitVec 4) (_ : BitVec 4) (_ : BitVec 29) (s : State) : Out := .next s

end Sys2Proof.Machine
end

