-- ==== Sys2Proof/Machine/Succ.lean ====
section
/-! DEFINITION. Divergence, calls and retirement: private memory, the reconvergence and call stacks, and the successor of a
block (R53 to R61, R121 to R125, R198). -/

namespace Sys2Proof.Machine

/-- The first byte of warp `w`'s private slot (R198, Table 19-1). -/
def State.privBase (s : State) (w : Nat) : Nat :=
  fld ((s.ctx (s.place w).ctx).block.getD 2 0) 0 48 + 2 ^ 21 * (s.warp w).pslot

/-! The device's own accesses to private memory: `.own`, at `.warp` scope (R199). -/

/-- Stores of warp `w`'s device to a space, a request a line. -/
def State.ownStore (s : State) (w space va : Nat) (l : List (BitVec 8)) : State :=
  let bytes := placeBytes va l
  s.addReqs (((bytes.map fun p => p.1 / 128).dedup).map fun n =>
    s.newReq w space n .own .plain .warp (.store (bytes.filter fun p => p.1 / 128 == n)))

/-- A line as the device reads it for warp `w`: its current value, under the warp's own stores that are on their way. -/
def State.ownLine (s : State) (w space line : Nat) : List CWord := s.coreView w space line ((List.range 32).map fun i => s.peekWord space line i)

/-- Bytes that the device reads for warp `w`, each with its poison mark. -/
def State.ownBytes (s : State) (w space va n : Nat) : List (BitVec 8 × Bool) :=
  let first := va / 128
  let views := (List.range ((va % 128 + n + 127) / 128)).map fun k => s.ownLine w space (first + k)
  (List.range n).map fun i => match wordAt? (views.getD ((va + i) / 128 - first) []) ((va + i) / 4 % 32) with
    | some c => (byteOf c.v ((va + i) % 4), c.p)
    | none => (0, false)

/-- The device's read takes the lines of a range that the core does not own yet (R199, R274). -/
def State.ownTake (s : State) (w va n : Nat) : State :=
  let p := s.place w
  let sp := s.spaceOf p.ctx va
  let lines := (List.range ((va % 128 + n + 127) / 128)).map fun k => va / 128 + k
  let far (line : Nat) : Bool := match s.l1? p.die p.core sp line with
    | some x => x.st != .owned
    | none => true
  s.addReqs ((lines.filter far).map fun n => s.newReq w sp n .own .plain .warp (.prefetch true))

/-- A write of the device to private memory (R199): an unmapped page raises the high-water fault, whose `ADDR` is the page's
first byte (R428). -/
def State.privWrite (s : State) (w va : Nat) (l : List (BitVec 8)) : Except FRec State :=
  match s.transNow (s.place w).ctx true .wr va with
  | .ok _ sp _ => .ok (s.ownStore w sp va l)
  | .page _ _ => .error { code := 13, commit := true, addr := BitVec.ofNat 64 (va / 65536 * 65536) }
  | .nohome => .error { code := 13, commit := true, addr := BitVec.ofNat 64 (va / 65536 * 65536) }
  | _ => .error { code := 4, detail := 4, commit := true, addr := BitVec.ofNat 64 va, aux := 1 }

/-- The bytes of a stack entry (Table 2-8). -/
def REntry.bytes (e : REntry) : List (BitVec 8) :=
  leBytes 8 (e.block + if e.join then 2 ^ 24 else 0) ++ leBytes 8 e.mask.toNat ++ leBytes 8 e.fmt.toNat ++ leBytes 8 0

/-- A stack entry from its four words (Table 2-8). -/
def REntry.ofWords (l : List Word) : REntry :=
  { join := (l.getD 0 0).getLsbD 24, block := fld (l.getD 0 0) 0 24, mask := l.getD 1 0, fmt := l.getD 2 0 }

/-- The entries of a spilled group from its bytes, newest first (R55). -/
def REntry.group (l : List (BitVec 8)) : List REntry :=
  let ws := words64 64 l
  ((List.range 16).map fun i => REntry.ofWords (ws.drop (4 * i))).reverse

/-- A fault in reading a spilled group back, with the home, space and address of a page fault. -/
abbrev BackFault := FRec × Option (Nat × Nat × Nat)

/-- Read spilled group `g` back (R56): an unmapped page or a poisoned word faults at the fetch, with the group's address. -/
def State.readGroup (s : State) (w g : Nat) : Except BackFault (List REntry) :=
  let a := s.privBase w + 512 * g
  let f : FRec := { code := 3, fetch := true, addr := BitVec.ofNat 64 a }
  match s.transNow (s.place w).ctx true .rd a with
  | .ok _ sp _ =>
    let l := s.ownBytes w sp a 512
    if l.any (·.2) then .error ({ f with code := 15 }, none) else .ok (REntry.group (l.map (·.1)))
  | .page h sp => .error (f, some (h, sp, a))
  | .nohome => .error (f, none)
  | _ => .error ({ f with code := 4, detail := 4 }, none)

/-- The block of the nearest JOIN entry of a stack, newest first. -/
def nearestJoin (l : List REntry) : Option Nat := (l.find? fun e => e.join).map (·.block)

/-- The nearest JOIN among the first `n` spilled groups, read back from the newest on (R54, R56). R55 reads groups back when the hardware entries are
used up; where a popped JOIN's nearest lower JOIN lies in spilled groups while hardware entries remain, the model reads them for the next fetch all
the same, with the faults that the reading meets (log 22). -/
def State.spilledJoin (s : State) (w n : Nat) : Except BackFault (Option Nat) :=
  match n with
  | 0 => .ok none
  | n + 1 => match s.readGroup w n with
    | .error f => .error f
    | .ok l => match nearestJoin l with
      | some b => .ok (some b)
      | none => s.spilledJoin w n

/-- Push an entry (R55): a push that finds 32 entries spills the oldest 16 and sets `WST.SPILL`; a 129th group raises the stack
spill exhausted fault (R56). -/
def State.pushEntry (s : State) (w : Nat) (e : REntry) : Except FRec State :=
  let x := s.warp w
  if x.stack.length < 32 then .ok (s.modWarp w fun x => { x with stack := e :: x.stack })
  else if 128 ≤ x.spilled then .error { code := 14, commit := true }
  else
    match s.privWrite w (s.privBase w + 512 * x.spilled) ((x.stack.drop 16).reverse.flatMap REntry.bytes) with
    | .error f => .error f
    | .ok s => .ok (s.modWarp w fun x => { x with stack := e :: x.stack.take 16, spilled := x.spilled + 1, wst := wstSpill x.wst })

/-- A warp whose hardware stack is empty with groups spilled: the newest is to be read back (R55). -/
def Warp.owesGroup (x : Warp) (r : Refill) : Warp := { x with refill := if x.stack.isEmpty && decide (0 < x.spilled) then r else .none }

/-- The warp once an entry of its path-end loop has been popped to leave the stack `r` (R54). A JOIN below which only spilled groups
lie leaves the nearest JOIN to be found there, after the commit (R56). -/
def Warp.popped (x : Warp) (e : REntry) (r : List REntry) : Warp :=
  let live := e.mask &&& ~~~x.retired
  let y := { x with stack := r, live := live, fmt := e.fmt, next := e.block }
  if e.join && (nearestJoin r).isNone && decide (0 < x.spilled) then { y with refill := .seek }
  else
    let cj := if e.join then nearestJoin r else x.cj
    { y with cj := cj, next := if live = 0 then cj.getD e.block else e.block }

/-- The path-end loop of R54, at most `n` pops. Where it needs a spilled group it stops, and goes on at the next fetch, when the group has
been read back (R55, R56). -/
def Warp.pathEnd (x : Warp) (n : Nat) : Warp :=
  match n with
  | 0 => x
  | n + 1 =>
    if x.cj != some x.next then x.owesGroup .group
    else match x.stack with
      | [] => if 0 < x.spilled then { x with refill := .pop } else { x with cj := none }
      | e :: r =>
        let y := x.popped e r
        if y.refill = .seek then y else y.pathEnd n

/-- Pops that a stack can give (R56). -/
def maxDepth : Nat := 2081

/-- Retire a warp (R58, R151, R158): its seat and its private slot return, and its records are no longer outstanding (R426). -/
def State.retireWarp (s : State) (w : Nat) : State :=
  let c := (s.place w).ctx
  let now := s.localTick (s.place w).die
  let s := s.modCtx c fun c => { c with freeSlots := c.freeSlots ++ [(s.warp w).pslot],
                                        posted := c.posted.filter fun r => r.src != 0 || r.wid != some w }
  s.modWarp w fun x => { x with done := true, retiring := false, retired := allLanes, live := 0, blk := none, park := {},
                                seat := { left := (x.seat.leave now).left }, stack := [], spilled := 0, refill := .none, calls := 0, cj := none }

/-- The path-end loop; when it ends with no live lane and no current join, the warp retires (R58). -/
def State.finishPath (s : State) (w : Nat) : State :=
  let s := s.modWarp w fun x => ({ x with refill := .none } : Warp).pathEnd maxDepth
  if (s.warp w).live = 0 ∧ (s.warp w).cj = none then s.retireWarp w else s

/-- The live lanes retire, and the warp continues at its current join (R58). -/
def State.exitLanes (s : State) (w : Nat) : State :=
  let s := s.modWarp w fun x => { x with retired := x.retired ||| x.live, live := 0, next := x.cj.getD x.next }
  if (s.warp w).retired = allLanes then s.retireWarp w else s.finishPath w

/-- What a branch of a warp does: a fault, or a state with the successor chosen; `uniform` when the block named is entered
directly and on no divergent path, so that its preload is issued (R51). -/
structure Succ where
  st : State
  uniform : Bool

/-- Continue at a block for the whole warp, with the path-end loop (R54). -/
def State.goTo (s : State) (w idx b : Nat) : Except FRec Succ :=
  if !s.hasBlock w b then .error { code := 1, detail := 34, commit := true, index := idx }
  else
    let s1 := s.modWarp w fun x => { x with next := b }
    .ok { st := s1.finishPath w, uniform := (s.warp w).cj.isNone }

/-- Push the PATH entries of a divergence, last first (R54). -/
def State.pushPaths (s : State) (w : Nat) (fmt : Word) (l : List (Nat × Word)) : Except FRec State :=
  match l with
  | [] => .ok s
  | (b, m) :: r => match s.pushEntry w { join := false, block := b, mask := m, fmt := fmt } with
    | .error f => .error f
    | .ok s => s.pushPaths w fmt r

/-- Distinct numbers, ascending. -/
def ascending (l : List Nat) : List Nat := l.dedup.mergeSort fun a b => decide (a ≤ b)

/-- `brv` (R52, R54, R121, R122): uniform, or a JOIN entry and a PATH entry for each further target; the lowest-numbered path runs. Every
block that it names must be present, the join too. In a timed or matrix block whose lanes disagree and name an absent block the
spec leaves open which `DETAIL` is raised; the model raises 34 before 36 (log 22). -/
def State.branchLanes (s : State) (w idx cls : Nat) (v : Vec) (join : Nat) : Except FRec Succ :=
  let x := s.warp w
  let lanes := lanesOf x.live
  let vals := lanes.map fun l => (v.lane l).toNat
  let absent : FRec := { code := 1, detail := 34, commit := true, index := idx }
  if !s.hasBlock w join || vals.any fun b => decide (2 ^ 24 ≤ b) || !s.hasBlock w b then .error absent
  else match vals.dedup with
    | [b] => s.goTo w idx b
    | _ =>
      if cls = 1 ∨ cls = 2 then .error { code := 1, detail := 36, commit := true, index := idx }
      else
        let ts := ascending (vals.filter (· != join))
        let mask (b : Nat) : Word := maskTab fun l => x.live.getLsbD l && (v.lane l).toNat == b
        let t0 := ts.headD join
        match s.pushEntry w { join := true, block := join, mask := x.live, fmt := x.fmt } with
        | .error f => .error { f with index := idx }
        | .ok s => match s.pushPaths w x.fmt ((ts.drop 1).reverse.map fun b => (b, mask b)) with
          | .error f => .error { f with index := idx }
          | .ok s =>
            .ok { st := (s.modWarp w fun y => { y with cj := some join, live := mask t0, next := t0 }).finishPath w, uniform := false }

/-- The address of call frame `n` (Table 7-4). -/
def State.frameAddr (s : State) (w n : Nat) : Nat := s.privBase w + 0x10000 + 16 * n

/-- `call` (R59, R123): the frame of Table 2-9 is pushed. -/
def State.doCall (s : State) (w idx b : Nat) : Except FRec Succ :=
  let x := s.warp w
  if !s.hasBlock w b then .error { code := 1, detail := 34, commit := true, index := idx }
  else if 65536 ≤ x.calls then .error { code := 14, commit := true, index := idx }
  else
    let frame := leBytes 8 ((s.launchOf w).object + 2 ^ 32 * ((x.next + 1) % 2 ^ 24)) ++ leBytes 8 (x.depth % 4096)
    match s.privWrite w (s.frameAddr w x.calls) frame with
    | .error f => .error { f with index := idx }
    | .ok s => (s.modWarp w fun x => { x with calls := x.calls + 1 }).goTo w idx b

/-- `ret` (R60, R61, R124): a deeper stack or none raises the invalid block fault, `DETAIL` 35. The frame's `BLOCK` is read from private
memory; its `OBJECT`, which only software could have changed, is taken to be the launch's own. The spec gives no fault for a frame
that can no longer be read; the model raises the page, poison or protection fault at commit (log 22). -/
def State.doRet (s : State) (w idx : Nat) : Except FRec Succ :=
  let x := s.warp w
  let bad : FRec := { code := 1, detail := 35, commit := true, index := idx }
  if x.calls = 0 then .error bad
  else
    let a := s.frameAddr w (x.calls - 1)
    let c := (s.place w).ctx
    match s.transNow c true .rd a with
    | .ok _ sp _ =>
      let l := s.ownBytes w sp a 16
      let ws := words64 2 (l.map (·.1))
      if l.any (·.2) then .error { code := 15, commit := true, index := idx, addr := BitVec.ofNat 64 a }
      else if fld (ws.getD 1 0) 0 12 < x.depth then .error bad
      else ((s.ownTake w a 16).modWarp w fun x => { x with calls := x.calls - 1 }).goTo w idx (fld (ws.getD 0 0) 32 24)
    | .prot => .error { code := 4, detail := 4, commit := true, index := idx, addr := BitVec.ofNat 64 a }
    | .far _ _ => .error { code := 4, detail := 4, commit := true, index := idx, addr := BitVec.ofNat 64 a }
    | _ => .error { code := 3, commit := true, index := idx, addr := BitVec.ofNat 64 a }

/-- `exit` (R58). -/
def State.doExit (s : State) (w : Nat) : Succ := { st := s.exitLanes w, uniform := false }

/-- `eret` (R434): refused outside trap mode or at another depth; the pending exit, arrival and wait take effect. -/
def State.doEret (s : State) (w idx : Nat) : Except FRec Succ :=
  let x := s.warp w
  if eretRefused x then .error { code := 1, detail := 41, commit := true, index := idx }
  else
    let y := trapReturn x
    let s := s.modWarp w fun _ => y
    if x.trap.pexit then .ok (s.doExit w)
    else s.goTo w idx y.next

/-- The successor that a fired branch selects (R54, R121). -/
def State.branch (s : State) (w idx cls : Nat) (b : BranchSel) : Except FRec Succ :=
  match b with
  | .goto n => s.goTo w idx n
  | .reg x => if 2 ^ 24 ≤ x.toNat then .error { code := 1, detail := 34, commit := true, index := idx } else s.goTo w idx x.toNat
  | .lanes v j => s.branchLanes w idx cls v j
  | .call n => s.doCall w idx n
  | .ret => s.doRet w idx
  | .exit => .ok (s.doExit w)
  | .eret => s.doEret w idx

end Sys2Proof.Machine
end

