-- ==== Sys2Proof/Machine/Crew.lean ====
section
/-! DEFINITION. The crew and the boathouse, barriers, `tlwait` and `stroke` parks (R25, R62, R126 to R129, R149 to R154, R167). -/

namespace Sys2Proof.Machine

/-- Whether a gang is stopping. -/
def GangSt.stops : GangSt → Bool
  | .stopping _ _ => true
  | _ => false

/-- Whether a gang is pre-empted. -/
def GangSt.out : GangSt → Bool
  | .reserve => true
  | .saved => true
  | _ => false

/-- Whether a warp is ready in the sense of R62: resident, or with a block to end in a gang that stops (R439), its context primary on its
core, and not parked. -/
def State.canRun (s : State) (w : Nat) : Bool :=
  let x := s.warp w
  let p := s.place w
  !x.done && decide (w < s.warps.length) && ((s.gang p.gang).st == .resident || ((s.gang p.gang).st.stops && x.blk.isSome)) &&
    (s.core p.die p.core).primary == some p.ctx &&
    x.park.bar.isNone && x.park.waits.isEmpty && x.park.stroke.isNone && !x.park.fault

/-- Whether a warp waits ready in the boathouse of a core. -/
def State.waiting (s : State) (w : Nat) : Bool :=
  s.canRun w && (s.warp w).seat.seat.isNone && (s.warp w).seat.heldAt.isNone

/-- The warps of a core. -/
def State.coreWarps (s : State) (die core : Nat) : List Nat :=
  (List.range s.warps.length).filter fun w => (s.place w).die == die && (s.place w).core == core

/-- Whether a ready warp waits in the boathouse of warp `w`'s core. -/
def State.hasWaiter (s : State) (w : Nat) : Bool :=
  (s.coreWarps (s.place w).die (s.place w).core).any s.waiting

/-- Note that a warp has become ready now (R152). -/
def State.nowReady (s : State) (w : Nat) : State :=
  let t := s.localTick (s.place w).die
  s.modWarp w fun x => if x.seat.seat.isSome then x else { x with seat := { x.seat with readyAt := some t } }

/-- The ready boathouse warp of a core that has been ready longest (R152). The spec does not say which warp slot a warp has; ties go to the warp
that was created first (log 14). -/
def State.nextSeated (s : State) (die core : Nat) : Option Nat :=
  ((s.coreWarps die core).filter s.waiting).foldl (fun m w => match m with
    | none => some w
    | some v => if ((s.warp w).seat.readyAt.getD 0) < ((s.warp v).seat.readyAt.getD 0) then some w else some v) none

/-- The first tick in which a warp given a seat of a core now may issue: 2 after the seat was freed (R152). -/
def State.seatFrom (s : State) (die core seat : Nat) : Nat :=
  (s.coreWarps die core).foldl (fun m w => match (s.warp w).seat.left with
    | some (n, t) => if n = seat then max m (t + 2) else m
    | none => m) 0

/-- SEAT_HANDOVER (R152): a free seat is given to the warp that has been ready longest. -/
def execSeatHandover (die core seat : Nat) (s : State) : Out :=
  .next (if 8 ≤ seat || (s.coreWarps die core).any (fun w => (s.warp w).seat.seat == some seat) then s
  else match s.nextSeated die core with
    | none => s
    | some w =>
      (s.countW w 9 1).modWarp w fun x => { x with
        begin_ := max x.begin_ (s.seatFrom die core seat),
        seat := { x.seat with seat := some seat, seatedAt := s.localTick die, readyAt := none, heldAt := none } })

/-- ACCESS_HELD_TIMEOUT (R151): a warp held more than 16,384 ticks by an outstanding access leaves its seat; its block stays. -/
def execAccessHeldTimeout (w : Nat) (s : State) : Out :=
  let t := s.localTick (s.place w).die
  .next (match s.blk? w with
  | none => s
  | some b =>
    if (s.warp w).seat.seat.isSome && !(s.launchOf w).timed && b.loads.any (fun l => decide (l.at_ + 16384 < t)) then
      s.modWarp w fun x => { x with seat := { x.seat.leave t with heldAt := some t } }
    else s)

/-- WARP_ACCESS_COMPLETE (R151): a warp that left its seat for an access is ready again once the access is complete, whatever younger
accesses of its block are still under way. -/
def execWarpAccessComplete (w : Nat) (s : State) : Out :=
  .next (match s.blk? w with
  | none => s
  | some b =>
    let ready := match (s.warp w).seat.heldAt with
      | some t => !(b.loads.any fun l => decide (l.at_ + 16384 < t))
      | none => false
    if ready then
      (s.modWarp w fun x => { x with seat := { x.seat with heldAt := none } }).nowReady w
    else s)

/-- A warp gives up its seat when a ready warp waits (R127, R153). -/
def State.leaveSeat (s : State) (w : Nat) : State :=
  if (s.warp w).seat.seat.isSome && !(s.launchOf w).timed && s.hasWaiter w then (s.freeSeat w).nowReady w else s

/-- SEAT_TENURE_EXPIRY (R153): a warp that has held its seat 65,536 ticks leaves it in the tick of a commit if a ready warp waits. -/
def execSeatTenureExpiry (w : Nat) (s : State) : Out :=
  .next (if (s.blk? w).isNone && (s.warp w).seat.ended == some (s.localTick (s.place w).die) &&
    decide ((s.warp w).seat.seatedAt + 65536 ≤ s.localTick (s.place w).die) then s.leaveSeat w else s)

/-- The warps of a barrier's unit (Table 2-1). -/
def State.unitWarps (s : State) (scope : Scope) (unit : Nat) : List Nat :=
  match scope with
  | .core => s.warpsOf unit
  | .quad => s.gangWarps unit
  | .die => (s.gangsOf unit).flatMap s.gangWarps
  | .pkg => s.gridWarps unit
  | _ => []

/-- Whether the release of a warp's arrival at a barrier is done, with the fence of its block (R126, R222, R272). -/
def State.mayArrive (s : State) (w : Nat) (scope : Scope) : Bool :=
  s.drained w (Scope.quadUp scope) && (s.warp w).park.drain.all fun q => s.drained w q.2

/-- A warp parked at barriers arrives at each once its release is done; the clock of its core is noted (R25, R272). -/
def State.arrive (s : State) (w : Nat) : State :=
  let now := (s.core (s.place w).die (s.place w).core).pts
  let at_ (bar : Option (Scope × Nat)) (arr : Option Nat) : Option Nat := arr <|> (if bar.any fun q => s.mayArrive w q.1 then some now else none)
  s.modWarp w fun x => { x with park := { x.park with arr := at_ x.park.bar x.park.arr, arr2 := at_ x.park.bar2 x.park.arr2 } }

/-- The clock with which a warp has arrived at a barrier, where it is parked alone or beside another arrival (R272, R434). -/
def Park.arrival (p : Park) (q : Scope × Nat) : Option Nat := if p.bar = some q then p.arr else if p.bar2 = some q then p.arr2 else none

/-- Whether a warp has arrived at a barrier (R25). -/
def State.arrived (s : State) (w : Nat) (scope : Scope) (id : Nat) : Bool := ((s.warp w).park.arrival (scope, id)).isSome

/-- The largest clock with which warps have arrived at a barrier (R272). -/
def State.maxPts (s : State) (scope : Scope) (id : Nat) (l : List Nat) : Nat :=
  l.foldl (fun m w => max m (((s.warp w).park.arrival (scope, id)).getD 0)) 0

/-- A park once a barrier has completed: the other arrival stays. -/
def Park.passed (p : Park) (q : Scope × Nat) : Park :=
  if p.bar = some q then { p with bar := p.bar2, arr := p.arr2, bar2 := none, arr2 := none } else { p with bar2 := none, arr2 := none }

/-- BARRIER_COMPLETE (R25, R126): every warp of the unit that has not exited has arrived; they resume and acquire, with the
clocks of Table 10-4. -/
def execBarrierComplete (scope : Scope) (unit id : Nat) (s : State) : Out :=
  let ws := (s.unitWarps scope unit).filter fun w => !(s.warp w).done
  .next (if ws.isEmpty || !ws.all (fun w => s.arrived w scope id) then s
  else
    let top := s.maxPts scope id ws
    let s := if scope == .quad || scope == .die then ws.foldl (fun s w => s.ptsUp (s.place w).die (s.place w).core top) s else s
    ws.foldl (fun s w => ((s.modWarp w fun x => { x with park := x.park.passed (scope, id) }).acquire w scope).nowReady w) s)

/-- The acquire scope of a counter (Table 4-9). -/
def ctrScope (c : CtrRef) : Scope :=
  match c with
  | .tlk _ => .dom
  | _ => .pkg

/-- Whether every awaited counter has reached its value (R129). -/
def State.waitsMet (s : State) (l : List WaitOn) : Bool := l.all fun x => decide (x.n ≤ (s.counter x.ctr).val)

/-- The acquires of a `tlwait` that is met (R129); the place among the warp's stores is noted (R295). -/
def State.acquireWaits (s : State) (w : Nat) (l : List WaitOn) : State :=
  (l.foldl (fun s x => s.acquire w (ctrScope x.ctr)) s).modWarp w fun x => { x with waited := s.stampOf w 0 }

/-- TLWAIT_RESUME (R129). -/
def execTlwaitResume (w : Nat) (s : State) : Out :=
  let l := (s.warp w).park.waits
  .next (if l.isEmpty || !s.waitsMet l then s
  else ((s.modWarp w fun x => { x with park := { x.park with waits := [] } }).acquireWaits w l).nowReady w)

/-- A warp leaves its `stroke` park (R167, R170). -/
def strokeExit (t : Nat) (x : Warp) : Warp :=
  { x with park := { x.park with stroke := none }, begin_ := t + 2,
           timed := { x.timed with lastWait := t - x.timed.parkedAt, workStart := t } }

/-- STROKE_BOUNDARY_EXIT (R167): every warp of warp `w`'s die whose boundary the reconciled counter has reached leaves, once every transfer
that has come has landed (R180). -/
def execStrokeBoundaryExit (w : Nat) (s : State) : Out :=
  let d := (s.place w).die
  let l := (List.range s.warps.length).filter fun v => (s.place v).die == d && (match (s.warp v).park.stroke with
    | some b => decide (b ≤ s.reconTick d)
    | none => false)
  .next (if s.landingDue d (fun _ => true) then s
  else l.foldl (fun s v => (s.modWarp v (strokeExit (s.localTick d))).nowReady v) s)

end Sys2Proof.Machine
end

