-- ==== Sys2Proof/Machine/FaultQueue.lean ====
section
/-! DEFINITION. The fault queue and the resolution of records (R422 to R427, R454), and the counters of engine commands (R225). -/

namespace Sys2Proof.Machine

/-- Advance a counter over the unbroken prefix of completed commands, at most `n` steps (R225). -/
def Counter.advance (c : Counter) (n : Nat) : Counter :=
  match n with
  | 0 => c
  | n + 1 =>
    if c.done.any fun d => d.1 == c.val + 1 then
      Counter.advance { c with val := c.val + 1, done := c.done.filter fun d => d.1 != c.val + 1 } n
    else c

/-- A command of a counter completes, with its error cause or 0 (R225, Table 8-5). -/
def Counter.finish (c : Counter) (seq cause : Nat) : Counter :=
  let st : Word := if cause = 0 ∨ c.status.getLsbD 63 then c.status
    else BitVec.ofNat 64 (2 ^ 63 + cause % 128 * 2 ^ 56 + seq % 2 ^ 56)
  Counter.advance { c with status := st, done := (seq, cause) :: c.done } (c.done.length + 1)

/-- The bytes of a fault record (Table 21-2). -/
def FRec.bytes (f : FRec) : List (BitVec 8) :=
  let b (x : Bool) (n : Nat) : Nat := if x then 2 ^ n else 0
  leBytes 1 f.code ++ leBytes 1 f.src ++ leBytes 2 f.detail ++
  leBytes 4 (b f.held 7 + b f.trapm 6 + b f.commit 5 + b f.fetch 4 + b f.mmod 1 + b f.atom 0) ++
  leBytes 8 f.seq ++
  leBytes 8 (f.index % 256 * 2 ^ 56 + f.block % 2 ^ 24 * 2 ^ 32 + f.object % 2 ^ 32) ++
  leBytes 8 (f.core % 256 * 2 ^ 39 + f.die % 8 * 2 ^ 36 + f.warp % 32 * 2 ^ 31 + f.team % 4 * 2 ^ 29 + f.gang % 64 * 2 ^ 23 +
    f.region % 64 * 2 ^ 17 + f.pslot % 2 ^ 16) ++
  leBytes 8 f.addr.toNat ++ leBytes 8 f.lanes.toNat ++ leBytes 8 f.tick.toNat ++ leBytes 8 f.aux.toNat

/-- The control line of a context's fault queue (R424, Table 21-4). -/
def State.fqCtl (s : State) (c : Nat) : Nat := fld ((s.ctx c).block.getD 4 0) 12 36 * 4096
/-- The control line of the fault queue of a record, as it lay when its fault was raised (R388). -/
def FRec.ctl (f : FRec) : Nat := fld f.fq 12 36 * 4096
/-- The capacity of the fault queue of a record. -/
def FRec.cap (f : FRec) : Nat := 2 ^ (fld f.fq 48 4 + 6)

/-- Whether the hub can write at an address of a context. -/
def State.hubWrites (s : State) (c va : Nat) : Bool := match s.transNow c false .wr va with
  | .ok _ _ _ => true
  | _ => false

/-- Whether a record's queue has room for it now (R425). -/
def State.fqRoom (s : State) (c : Nat) (f : FRec) : Bool :=
  let a := f.ctl
  let n := f.cap
  let t := (s.peek64 c a).toNat
  decide (a + 64 + 64 * n ≤ 2 ^ 48) && s.hubWrites c a && s.hubWrites c (a + 64 + 64 * (t % n)) &&
    (s.peek64 c a - s.peek64 c (a + 8)) != BitVec.ofNat 64 n

/-- Post the oldest record of a context (R424): the record, then `FQT`, then the interrupt. It is outstanding from then on (R426),
unless a MAP has released it already (R454). -/
def State.postHead (s : State) (c : Nat) : State :=
  match (s.ctx c).hubq with
  | [] => s
  | f :: r =>
    let a := f.ctl
    let t := (s.peek64 c a).toNat
    let f := { f with seq := t }
    let s := s.pokeCtx c (a + 64 + 64 * (t % f.cap)) f.bytes
    let s := s.pokeCtx c a (leBytes 8 (t + 1))
    s.modCtx c fun x => { x with hubq := r, posted := if f.released then x.posted else x.posted ++ [f], irq := x.irq + 1 }

/-- Whether the hub's accesses to a record's queue must wait for a refresh of its home (R174, R196). -/
def State.fqBusy (s : State) (c : Nat) (f : FRec) : Bool :=
  s.homeBusy c f.ctl 64 || s.homeBusy c (f.ctl + 64 + 64 * ((s.peek64 c f.ctl).toNat % f.cap)) 64

/-- Post the oldest record, or hold it when there is no room (R425); in a refresh of the queue's home the hub waits. -/
def State.tryPost (s : State) (c : Nat) : State :=
  if (s.ctx c).hubq.head?.any (s.fqBusy c) then s
  else if (s.ctx c).hubq.head?.any (s.fqRoom c) then s.postHead c
  else s.modCtx c fun x => { x with lastCheck := s.stake, hubq := x.hubq.map fun f => { f with held := true } }

/-- FAULT_RECORD_POST (R424): the hub posts the next record of the first context that has one not held. -/
def execFaultRecordPost (s : State) : Out :=
  .next (match (List.range s.ctxs.length).find? fun c => match (s.ctx c).hubq with
    | f :: _ => !f.held
    | [] => false with
  | some c => s.tryPost c
  | none => s)

/-- FAULT_QUEUE_RECHECK (R425): a held record is posted once room exists. -/
def execFaultQueueRecheck (ctx : Nat) (s : State) : Out :=
  .next (match (s.ctx ctx).hubq with
  | f :: _ => if f.held then s.tryPost ctx else s
  | [] => s)

/-- A parked warp becomes ready (R426). -/
def State.unpark (s : State) (w : Nat) : State :=
  if (s.warp w).park.fault then (s.modWarp w fun x => { x with park := { x.park with fault := false } }).nowReady w else s

/-- Change a copy command in progress. -/
def State.modJob (s : State) (t seq : Nat) (f : CopyJob → CopyJob) : State :=
  let g (j : CopyJob) : CopyJob := if j.seq == seq then f j else j
  s.modTeam t fun x => { x with jobs := x.jobs.map g }

/-- A paused copy command resumes at its chunk (R233). -/
def State.resumeJob (s : State) (j : Nat × Nat) : State := s.modJob j.1 j.2 fun x => { x with paused := none }

/-- Change a collective command in progress. -/
def State.modColl (s : State) (ctx seq : Nat) (f : CollJob → CollJob) : State :=
  let g (j : CollJob) : CollJob := if j.seq == seq then f j else j
  s.modCtx ctx fun x => { x with jobs := x.jobs.map g }

/-- The paused command of a record resumes (R233). -/
def State.resumeRec (s : State) (f : FRec) : State :=
  let s := match f.job with
    | some j => s.resumeJob j
    | none => s
  match f.coll with
  | some j => s.modColl j.1 j.2 fun x => { x with paused := none }
  | none => s

/-- Whether a record stands for an engine command. -/
def FRec.engine (f : FRec) : Bool := f.job.isSome || f.coll.isSome

/-- Whether two records report one fault: posting changes only `SEQ` and `HELD` of a record. -/
def FRec.same (r f : FRec) : Bool :=
  r.wid == f.wid && r.job == f.job && r.coll == f.coll && r.code == f.code && r.addr == f.addr && r.tick == f.tick

/-- The pending-fault entry of a record (R396). -/
def State.entryOf (s : State) (f : FRec) : Option PFault :=
  s.xl.pfaults.find? fun p => p.recs.any fun r => r.same f

/-- Whether an engine's access to an untranslated page finds its pending entry, or room for one (R396). -/
def State.pageRoom (s : State) (va : Nat) (page : Option (Nat × Nat)) : Bool :=
  match page with
  | none => true
  | some (h, sp) => (s.xl.pfaults.any fun p => p.home == h && p.space == sp && p.va == va / 65536 * 65536) || !s.pfaultsFull h

/-- Post an engine command's page fault record (R233): the first on a page makes its pending entry, a later one attaches to it and
posts nothing (R396); without a home there is no entry (R186). -/
def State.postPage (s : State) (ctx va : Nat) (f : FRec) (page : Option (Nat × Nat)) : State :=
  match page with
  | none => s.postRec ctx f
  | some (h, sp) =>
    let base := va / 65536 * 65536
    let isP (p : PFault) : Bool := p.home == h && p.space == sp && p.va == base
    let attach (p : PFault) : PFault := if isP p then { p with recs := p.recs ++ [f], posted := true } else p
    match s.xl.pfaults.find? isP with
    | some p => (if p.posted then s else s.postRec ctx f).modXl fun x => { x with pfaults := x.pfaults.map attach }
    | none => (s.postRec ctx f).modXl fun x => { x with
        pfaults := x.pfaults ++ [{ home := h, space := sp, va := base, warps := [], recs := [f], posted := true }] }

/-- A MAP releases everything attached to a pending-fault entry, and frees it (R396, R427). Its record is no longer outstanding, and
will not be when it is still to be posted (R454). -/
def State.releaseEntry (s : State) (p : PFault) : State :=
  let s := p.warps.foldl (fun (s : State) w => s.unpark w) s
  let s := p.recs.foldl (fun (s : State) r => s.resumeRec r) s
  let gone (r : FRec) : Bool := p.recs.any fun q => q.same r
  let mark (r : FRec) : FRec := if gone r then { r with released := true } else r
  let s := { s with ctxs := s.ctxs.map fun (c : Ctx) =>
    { c with posted := c.posted.filter (fun r => !gone r), hubq := c.hubq.map mark } }
  s.modXl fun x => { x with pfaults := x.pfaults.filter (· != p) }

/-- The newest record of a warp that its context's hub has received. -/
def State.lastRec (s : State) (w : Nat) : Option FRec :=
  let c := s.ctx (s.place w).ctx
  (c.posted ++ c.hubq).reverse.find? fun r => r.src == 0 && r.wid == some w

/-- The warps that an action on a record applies to: those of its pending entry (R427), or its own while that one is parked on it. -/
def State.recWarps (s : State) (f : FRec) : List Nat :=
  match s.entryOf f with
  | some p => p.warps
  | none => f.wid.toList.filter fun w =>
      (s.warp w).park.fault && s.lastRec w == some f && !(s.xl.pfaults.any fun p => p.warps.contains w)

/-- Free the pending entry of a record. -/
def State.freeEntry (s : State) (f : FRec) : State :=
  match s.entryOf f with
  | some p => s.modXl fun x => { x with pfaults := x.pfaults.filter (· != p) }
  | none => s

/-- The paused command of a record stops (Table 21-6): a copy with cause 7, a collective with cause 10. -/
def State.stopRec (s : State) (f : FRec) : State :=
  let s := match f.job with
    | some j => s.modJob j.1 j.2 fun x => { x with finished := some 7, paused := none }
    | none => s
  match f.coll with
  | some j => s.modColl j.1 j.2 fun x => { x with finished := some 10, paused := none }
  | none => s

/-- Resume the paused commands attached to the entry of a record, but for the record's own, and free the entry (R396). -/
def State.settle (s : State) (f : FRec) : State :=
  match s.entryOf f with
  | some p => ((p.recs.filter fun r => r.engine && !r.same f).foldl (fun (s : State) r => s.resumeRec r) s).freeEntry f
  | none => s

/-- RETIRE for a warp (Table 21-6): at once, or, while its state is in the save area, when it is restored (R442). -/
def State.retireOne (s : State) (w : Nat) : State :=
  let x := s.gang (s.place w).gang
  if x.st.out && !(s.team (s.warp w).team).kept then s.modWarp w fun y => { y with retiring := true } else s.retireWarp w

/-- Apply an action to an outstanding record (Table 21-6): the status and the state. It applies to every warp attached to the
record's entry (R427); STOP stops the record's own command, and every other attached access re-executes (R396). -/
def State.act (s : State) (f : FRec) (action block : Nat) : Nat × State :=
  let ws := s.recWarps f
  match action with
  | 1 =>
    if f.atom || f.mmod || f.code == 16 || !(f.src == 0 || f.src == 2 || f.src == 3) then (2, s)
    else (0, ((ws.foldl (fun (s : State) w => s.unpark w) s).resumeRec f).settle f)
  | 2 =>
    if f.src != 0 || !(ws.all fun w => s.hasBlock w block) then (2, s)
    else (0, (ws.foldl (fun (s : State) w => (s.modWarp w fun x => { x with next := block }).unpark w) s).settle f)
  | 3 => if f.src != 0 then (2, s) else (0, (ws.foldl (fun (s : State) w => s.retireOne w) s).settle f)
  | 4 =>
    if f.src != 0 || f.code != 16 || f.atom || f.mmod then (2, s)
    else (0, ws.foldl (fun (s : State) w => (s.modWarp w fun x => { x with unchecked := true }).unpark w) s)
  | 5 =>
    if f.src != 2 then (2, s)
    else (0, (ws.foldl (fun (s : State) w => s.unpark w) (s.stopRec f)).settle f)
  | _ => (2, s)

/-- A write of a context's fault resolution register (R426): the action is applied and `FRS` is written, after a refresh of its home (R174). -/
def State.resolve (s : State) (c : Nat) (v : Word) : State :=
  let seq := fld v 32 32
  if s.homeBusy c (s.fqCtl c + 16) 8 then s else
  let r := if fld v 0 8 = 0 ∨ 5 < fld v 0 8 then (2, s)
    else match (s.ctx c).posted.find? fun f => f.seq % 2 ^ 32 == seq with
    | none => (1, s)
    | some f => match s.act f (fld v 0 8) (fld v 8 24) with
      | (0, t) => (0, t.modCtx c fun x => { x with posted := x.posted.filter (· != f) })
      | q => q
  let s := r.2
  let a := s.fqCtl c + 16
  if s.hubWrites c a then s.pokeCtx c a (leBytes 8 (seq * 2 ^ 32 + r.1)) else s

/-- The value that an action on a record writes (Table 21-5). -/
def resolution (seq block action : Nat) : Word := BitVec.ofNat 64 (seq % 2 ^ 32 * 2 ^ 32 + block % 2 ^ 24 * 2 ^ 8 + action)

/-- RETRY (R426). -/
def execRetry (ctx seq : Nat) (s : State) : Out := .next (s.resolve ctx (resolution seq 0 1))
/-- RESUME-AT (R426). -/
def execResumeAt (ctx seq block : Nat) (s : State) : Out := .next (s.resolve ctx (resolution seq block 2))
/-- RETIRE (R426). -/
def execRetire (ctx seq : Nat) (s : State) : Out := .next (s.resolve ctx (resolution seq 0 3))
/-- RETRY-UNCHECKED (R426). -/
def execRetryUnchecked (ctx seq : Nat) (s : State) : Out := .next (s.resolve ctx (resolution seq 0 4))
/-- STOP (R426). -/
def execStop (ctx seq : Nat) (s : State) : Out := .next (s.resolve ctx (resolution seq 0 5))

end Sys2Proof.Machine
end

