-- ==== Sys2Proof/Machine/Clock.lean ====
section
/-! DEFINITION. Clocks: one tick of every counter, the tick exchange, timeline lost, clock steps, refresh and droop (R10, R11,
R15 to R17, R160 to R163, R174), and health events (R450, R451). -/

namespace Sys2Proof.Machine

/-! Health events. -/

/-- Whether the conditions of R451 hold: fenced cores and dies, the I/O dies among them, retired frames, links at half width, timeline lost. -/
def State.degradedNow (s : State) : Bool :=
  let fenced (d : Nat) : Nat := (s.cores.filter fun c => c.die == d && c.fenced).length
  let retired (h lo n : Nat) : Bool := decide (n < 100 * (s.pkg.retiredFrames.filter fun f => f.1 == h && decide (lo ≤ f.2 ∧ f.2 < lo + n)).length)
  decide (8 ≤ (s.cores.filter (·.fenced)).length) || (List.range 8).any (fun d => decide (4 < fenced d) || (s.die d).fenced) ||
    !s.pkg.fencedIo.isEmpty ||
    (List.range 8).any (fun h => retired h 0 (2 ^ 20)) || retired 8 0 (2 ^ 24) || retired 8 (2 ^ 24) (2 ^ 24) ||
    decide (2 ≤ s.pkg.halfLinks.length) ||
    (s.dies.any fun d => match d.lost with
      | some t => decide (t + 2 ^ 30 ≤ s.stake)
      | none => false)

/-- Enter `DEGRADED` and report replace requested when a condition of R451 holds. -/
def State.degrade (s : State) : State :=
  if s.degradedNow && s.pkg.up == .ready then s.modPkg fun p => { p with up := .degraded, replace := true } else s

/-- Post a health event (R450): to the management log and to the fault queue of context 0. The record's `DIE` has three bits (Table 21-2), which hold no
socket from 8 to 10: there it is a free value, and the log holds the socket (log 42). -/
def State.health (s : State) (code socket addr : Nat) : State :=
  let s := s.modPkg fun p => { p with mgmtLog := p.mgmtLog ++ [(code, socket, addr)] }
  let die := if socket < 8 then socket else (Config.freeWord s.fresh).toNat % 8
  let f : FRec := { code := 0, src := 5, detail := code, die := die, addr := BitVec.ofNat 64 addr, tick := BitVec.ofNat 64 s.stake }
  ({ s with fresh := s.fresh + 1 }.postRec 0 f).degrade

/-! Ticks. -/

/-- Whether the arithmetic clocks run: from RUNTIME LOAD on (R160). -/
def BringUp.clocked : BringUp → Bool
  | .off => false
  | .standby => false
  | .secureBoot => false
  | _ => true

/-- Whether a die may correct in its next local tick: at most one of any 64 (R162). -/
def Die.may (d : Die) : Bool := match d.lastCorr with
  | none => true
  | some t => decide (t + 64 ≤ d.local_ + 1)

/-- What is left of a correction that an exchange asked for once `n` reconciled ticks have been made in one: a step the other way, which the die
makes of its own, asks for none. -/
def leftOf (acc : Int) (n : Nat) : Int :=
  if n = 2 then (if 0 < acc then acc - 1 else acc) else if n = 0 then (if acc < 0 then acc + 1 else acc) else acc

/-- One local tick in which the reconciled counter advances by `n`: 1, or 0 or 2 in a correction (R160, R162). -/
def Die.advance (d : Die) (n : Nat) : Die :=
  { d with
    local_ := d.local_ + 1, recon := d.recon + n, lastCorr := if n = 1 then d.lastCorr else some (d.local_ + 1),
    reconAcc := leftOf d.reconAcc n, steered := d.steered + (n - 1) }

/-- How far two counts are apart. -/
def apart (a b : Nat) : Nat := (a - b) + (b - a)

/-- One tick of a compute die (R160, R162), `stake` the stakeboat's count after it: a correction that the last exchange asked for is
made where it may be and brings the die nearer; with timeline lost the die keeps its last rate (R163). -/
def Die.tick (stake : Nat) (d : Die) : Die :=
  if d.stopped then d
  else
    let d := if d.lost.isSome && (d.local_ + 1) % 1024 == 0 then { d with reconAcc := d.rate } else d
    let nearer (n : Nat) : Bool := d.lost.isSome || decide (apart (d.recon + n) stake < apart (d.recon + 1) stake)
    if d.may && decide (0 < d.reconAcc) && nearer 2 then d.advance 2
    else if d.may && decide (d.reconAcc < 0) && nearer 0 then d.advance 0
    else d.advance 1

/-- A core counts a local tick (Table 22-5). -/
def Core.tick (c : Core) : Core := { c with ctrs := c.ctrs.map fun e => e.add 1 (c.primary.getD 256) 1 }

/-! The pace of a die. Real time has no place in the state: what R10 and R161 leave of it is the rate of a die's clock against the stakeboat's, between 1/1.0026
and 1.0026 (log 8). -/

/-- One tick of a lead, in a unit in which both rates of R161 are whole numbers for each local tick. -/
def paceUnit : Nat := 50130000
/-- What a die may gain on the stakeboat in a tick of its own: 1 - 1/1.0026. -/
def paceGain : Nat := 130000
/-- What a die may fall behind the stakeboat in a tick of its own: 0.0026. -/
def paceLoss : Nat := 130338

/-- A moment in which a die's clock, the stakeboat's or both tick: how far the die is ahead of, and behind, the fastest and the slowest pace since
any earlier moment. -/
def Die.paced (d : Die) (own stake : Bool) : Die :=
  { d with
    ahead := d.ahead + (if own && !stake then paceUnit else 0) - ((if own then paceGain else 0) + if own then 0 else paceUnit)
    behind := d.behind + (if own then 0 else paceUnit) - ((if own then paceLoss else 0) + if own && !stake then paceUnit else 0) }

/-- Whether a die is in pace: n ticks are n - 1 periods apart, and a clock that ticks m times in a while has had less than m + 1 periods, so that since
every earlier moment a die is ahead of the fastest and behind the slowest pace by less than a tick of each clock. -/
def Die.paceOk (d : Die) : Bool := decide (d.ahead < 2 * paceUnit - paceGain ∧ d.behind < 2 * paceUnit + paceLoss)

/-- Whether R162 is promised for a die (R163). -/
def Die.promised (d : Die) : Bool := !d.stopped && d.lost.isNone && !d.adrift

/-- The stakeboat ticks, to count `stake`: a die that has its timeline again and has come within 1 of it is no more adrift (R163). -/
def Die.settle (d : Die) (stake : Nat) : Die :=
  if d.lost.isNone && decide (apart d.recon stake ≤ 1) then { d with adrift := false } else d

/-- Whether the counters are bound to each other (R162): from LINK INIT on. -/
def State.reconciled (s : State) : Bool := s.pkg.up == .ready || s.pkg.up == .degraded

/-- Whether a die stands while the stakeboat ticks: it is as far before it as R162 allows. -/
def State.stands (s : State) (d : Die) : Bool := d.stopped || (s.reconciled && d.promised && decide (s.stake + 2 ≤ d.recon))

/-- One tick of every clock; a die that is as far before the stakeboat as it may be lets it catch up. -/
def State.tick (s : State) : State :=
  let die (d : Die) : Die :=
    if d.stopped then d else (if s.stands d then d.paced false true else (d.tick (s.stake + 1)).paced true true).settle (s.stake + 1)
  if s.pkg.up.clocked then
    { s with stake := s.stake + 1, dies := s.dies.map die, cores := s.cores.map fun k => if s.stands (s.die k.die) then k else k.tick }
  else s

/-- Whether the stakeboat's next tick, of its own, leaves every die in pace (R10, R161) and within 1 of it (R162). -/
def State.stakeMay (s : State) : Bool :=
  s.dies.all fun d => d.stopped ||
    ((d.paced false true).paceOk && (!s.reconciled || !d.promised || decide (apart d.recon (s.stake + 1) ≤ 1)))

/-- Whether die `c` may come to be `y` by one tick of its own: in pace (R10, R161), within 2 of every other die, and no farther before the
stakeboat than its next tick makes good (R162). -/
def State.dieMay (s : State) (c : Nat) (y : Die) : Bool :=
  let x := s.die c
  let other (e : Nat) : Bool := e == c || !(s.die e).promised || decide (apart y.recon (s.die e).recon ≤ 2)
  (y.paced true false).paceOk && (!s.reconciled || !x.promised || (decide (y.recon ≤ s.stake + 2) && (List.range s.dies.length).all other))

/-- Die `c` comes to be `y` by one tick of its own, where it may. -/
def State.dieClock (s : State) (c : Nat) (y : Die) : State :=
  if (s.die c).stopped || !s.dieMay c y then s
  else { s with
    dies := s.dies.set c (y.paced true false), cores := s.cores.map fun k => if k.die = c then k.tick else k }

/-- One tick of one clock (R10): of die `c`, or from 8 on of the stakeboat; none where it would break R10, R161 or R162. -/
def State.clock (s : State) (c : Nat) : State :=
  if !s.pkg.up.clocked then s
  else if 8 ≤ c then
    if s.stakeMay then
      { s with
        stake := s.stake + 1, dies := s.dies.map fun d => if d.stopped then d else (d.paced false true).settle (s.stake + 1) }
    else s
  else s.dieClock c ((s.die c).tick s.stake)

/-- One tick of die `c` in which its reconciled counter advances by 2 (`up`) or 0 (R162): how a die steers between exchanges is the
device's choice within the bounds (log 8). -/
def State.steer (s : State) (c : Nat) (up : Bool) : State :=
  let x := s.die c
  let y := x.advance (if up then 2 else 0)
  if s.pkg.up.clocked && decide (c < 8) && x.may && x.lost.isNone && decide (apart y.recon s.stake ≤ max 1 (apart x.recon s.stake)) then
    s.dieClock c y
  else s

/-! The tick exchange (R162, R163). -/

/-- The local count of a die or of the stakeboat. -/
def State.localOf (s : State) (d : Nat) : Nat := if d < 8 then s.localTick d else s.stake

/-- TICK_EXCHANGE_SEND (R162): every 1,024 local ticks, to the stakeboat and the neighbours; the stakeboat sends to every die. An
exchange that has brought no count by the next one is missed (R163). -/
def execTickExchangeSend (die : Nat) (s : State) : Out :=
  let now := s.localOf die
  let msg (e : Nat) : TickMsg :=
    { src := die, dst := e, loc := now, rec_ := s.reconTick die, relay := if die < 8 then (s.die die).lastStake else s.stake }
  .next (if 8 < die || now % 1024 != 0 || now == 0 then s
  else if die = 8 then
    if s.pkg.exchanged = now / 1024 then s
    else { s with ticks := s.ticks ++ (List.range 8).map msg, pkg := { s.pkg with exchanged := now / 1024 } }
  else if (s.die die).exchanged = now / 1024 then s
  else
    let s := { s with ticks := s.ticks ++ (8 :: Config.neighbours die).map msg }
    s.modDie die fun d => { d with exchanged := now / 1024, missed := d.missed + (if d.awaiting then 1 else 0), awaiting := true })

/-- TICK_EXCHANGE_RECEIVE (R162, R163): the difference from the count that a message brings, latency compensated, is corrected. The stakeboat
brings its own count. A neighbour stands in for it while its message is missing, with the count that it relays, carried on by
the ticks that its reconciled counter has made since (log 8); a count relayed before is no new one. -/
def execTickExchangeReceive (n : Nat) (s : State) : Out :=
  .next (match s.ticks[n]? with
  | none => s
  | some m =>
    let s := { s with ticks := s.ticks.eraseIdx n }
    if 8 ≤ m.dst then s
    else
      let d := s.die m.dst
      let transit := s.localOf m.src - m.loc
      let count := (if m.src = 8 then m.rec_ else m.relay + (m.rec_ - m.relay)) + transit
      let new := decide (0 < m.relay) && !(d.relays.contains (m.src, m.relay))
      let s := if m.src = 8 then s else s.modDie m.dst fun d => { d with
        relays := (m.src, m.relay) :: d.relays.filter fun r => r.1 != m.src }
      if m.src == 8 || (new && d.awaiting) then
        let err : Int := (count : Int) - d.recon
        let s := s.modDie m.dst fun d => { d with
          reconAcc := err, rate := err + d.steered, steered := 0, missed := 0, awaiting := false, lost := none,
          lastStake := if m.src == 8 then d.recon else d.lastStake }
        if d.lost.isSome then s.health 7 m.dst 0 else s
      else s)

/-- TIMELINE_LOST (R163): after 8 exchanges without a count. -/
def execTimelineLost (die : Nat) (s : State) : Out :=
  .next (if die < 8 ∧ 8 ≤ (s.die die).missed ∧ (s.die die).lost = none then
    (s.modDie die fun d => { d with lost := some s.stake, adrift := true }).health 6 die 0
  else s)

/-- TIMELINE_LOST_PERSISTS (R451): for 2^30 stakeboat ticks. -/
def execTimelineLostPersists (die : Nat) (s : State) : Out :=
  .next (match (s.die die).lost with
  | some t => if t + 2 ^ 30 ≤ s.stake then s.degrade else s
  | none => s)

/-! Refresh and droop. -/

/-- REFRESH (R174): the untimed accesses that have reached a die's DRAM wait and are counted once in the interval. -/
def execRefresh (die : Nat) (s : State) : Out :=
  let now := s.reconTick die / 4096 + 1
  .next (if s.refreshing die && (s.die die).refreshed != now then
    let held := (s.cache.msgs.filter fun m => m.home == die && (m.kind == .getS || m.kind == .getM)).length
    (s.modDie die fun d => { d with refreshed := now }).countDie die 36 256 held
  else s)

/-- DROOP_TICK_STRETCH (R11): a stretched tick changes wall time only; the die is noted. -/
def execDroopTickStretch (die : Nat) (s : State) : Out :=
  .next (if die < 8 then s.modPkg fun p => { p with stretched := if p.stretched.contains die then p.stretched else p.stretched ++ [die] } else s)

/-! Clock steps (R15 to R17). -/

/-- Ask for the clock steps that the cap and the junctions call for (R15 to R17): the lower clock of the two holds; a change waits for
its boundary (R16). -/
def State.askSteps (s : State) (cap heat : Nat) : State :=
  s.modPkg fun p => { p with
    capStep := cap, heatStep := heat, clockPend := if max cap heat = p.clockStep then none else some (max cap heat) }

/-- The step below the one asked for; step 3 is the lowest. -/
def Package.stepDown (p : Package) : Nat := min 3 (max p.capStep p.heatStep + 1)

/-- Whether a timed grid runs. -/
def Grid.timedRuns (g : Grid) : Bool := g.launch.timed && g.started && !g.done

/-- The largest stroke length among the running timed launches, at least 65,536 (R16). -/
def State.stepBoundary (s : State) : Nat :=
  (s.grids.filter Grid.timedRuns).foldl (fun m g => max m g.launch.strokeS) 65536

/-- CLOCK_STEP_CHANGE (R16). -/
def execClockStepChange (s : State) : Out :=
  .next (match s.pkg.clockPend with
  | none => s
  | some n => if s.stake % s.stepBoundary = 0 then s.modPkg fun p => { p with clockStep := n, clockPend := none } else s)

/-- JUNCTION_HOT (R17): one step down. -/
def execJunctionHot (s : State) : Out :=
  .next (if s.pkg.up.clocked then s.askSteps s.pkg.capStep s.pkg.stepDown else s)

/-- JUNCTION_COOL (R17): one step back up, no higher than the cap allows. A step that the cap withholds is given back as soon as the cap
allows it (log 14). -/
def execJunctionCool (s : State) : Out :=
  .next (if s.pkg.up.clocked then s.askSteps s.pkg.capStep (s.pkg.heatStep - 1) else s)

/-- PACKAGE_POWER_AT_CAP (R15): power that reaches the cap moves the step down by one, each time that it is found there; power that falls back
below it moves the step up by one. The opcode table gives the two moves; that each is one step, and that the step up is made at once, with no wait for the
junctions, whose own step stands beside the cap's, is the model's choice (log 14). -/
def execPackagePowerAtCap (above : Bool) (s : State) : Out :=
  .next (if s.pkg.up.clocked then s.askSteps (if above then s.pkg.stepDown else s.pkg.capStep - 1) s.pkg.heatStep else s)

end Sys2Proof.Machine
end

