-- ==== Sys2Proof/Machine/Driver.lean ====
section
/-! DEFINITION. The driver's registers: `LQCTL`, `LQSTAT`, `LSCFG`, the context blocks and the hub's system register space
(R132, R134, R269, R388, R423, R436). -/

namespace Sys2Proof.Machine

/-- The bits of `LQCTL` that hold a field (Table 5-1). -/
def lqctlBits : Word := 0xFFF

/-- Bind or set a launch queue (R132): a new `CTX` takes effect only on a queue that was disabled, held no command and no
launch not yet complete, and for a context that is active (R383); a bind clears TLL and status. The spec does not say whether a push that holds
a reservation, and so a command still to come, keeps the queue from being bound: the model refuses the bind (log 16). -/
def State.writeLqctl (s : State) (q : Nat) (v : Word) : State :=
  let x := s.queue q
  let busy := x.ctl.getLsbD 10 || !x.entries.isEmpty || x.reserved != 0 || s.grids.any fun g => g.queue == q && !g.done
  let changes := fld v 0 8 != fld x.ctl 0 8
  let bind := changes && !busy && (s.ctx (fld v 0 8)).st == .active
  s.modQueue q fun x =>
    let y := { x with ctl := setFld (v &&& lqctlBits) 0 8 (if bind then fld v 0 8 else fld x.ctl 0 8), prio := if bind || fld v 8 2 != fld x.ctl 8 2 then fld v 8 2 else x.prio }
    if bind then { y with tll := {}, stat := 0 } else y

/-- The bits of `LSCFG` that hold a field (Table 10-3). -/
def lscfgBits : Word := 0xFF1F00

/-- Write `LSCFG` of a die (R269): a `TSW` outside 8 to 20 leaves the field unchanged; at once if no grid is placed on the die,
otherwise at the next wrap-around. -/
def State.writeLscfg (s : State) (die : Nat) (v : Word) : State :=
  s.modDie die fun d =>
    let old := d.lsPend.getD d.lscfg
    let w := fld v 8 5
    let new := if 8 ≤ w ∧ w ≤ 20 then v &&& lscfgBits else setFld (v &&& lscfgBits) 8 5 (fld old 8 5)
    if s.regions.any fun r => r.die == die && !r.done then { d with lsPend := some new } else { d with lscfg := new, lsPend := none }

/-- The bits of a context block's word that hold a field (Tables 19-1 and 21-4); the others read zero. -/
def ctxBits (word : Nat) : Word :=
  match word with
  | 0 => BitVec.allOnes 64
  | 1 => 0x8000FFFFFFFFFFFF
  | 2 => BitVec.allOnes 64
  | 3 => 0x1FFFFFF
  | 4 => 0xFFFFFFFFFF000
  | 5 => 0xFFFFFFFF0000
  | 6 => 1
  | _ => 0

/-- Write word `n` mod 8 of the block of context `n` / 8 (R388). -/
def State.writeCtxWord (s : State) (n : Nat) (v : Word) : State :=
  s.modCtx (n / 8) fun c => { c with block := c.block.set (n % 8) (v &&& ctxBits (n % 8)) }

/-- A write through the system register space (Table 21-9). -/
def State.sysWrite (s : State) (r : SysReg) (v : Word) : State :=
  match r with
  | .lqctl q => s.writeLqctl q.toNat v
  | .lscfg d => s.writeLscfg d.toNat v
  | .ctxWord n => s.writeCtxWord n.toNat v
  | .faultRes c => s.resolve c.toNat v

/-- LQCTL_WRITE (R132). -/
def execLqctlWrite (q : Nat) (v : BitVec 64) (s : State) : Out := .next (s.writeLqctl q v)
/-- LQSTAT_WRITE (R134): any value clears the register. -/
def execLqstatWrite (q : Nat) (_ : BitVec 64) (s : State) : Out := .next (s.modQueue q fun x => { x with stat := 0 })
/-- LSCFG_WRITE (R269). -/
def execLscfgWrite (die : Nat) (v : BitVec 64) (s : State) : Out := .next (s.writeLscfg die v)
/-- CONTEXT_BLOCK_WRITE (R388). -/
def execContextBlockWrite (word : Nat) (v : BitVec 64) (s : State) : Out := .next (s.writeCtxWord word v)
/-- SYSTEM_REGISTER_WRITE (R436). -/
def execSystemRegisterWrite (reg : SysReg) (v : BitVec 64) (s : State) : Out := .next (s.sysWrite reg v)

end Sys2Proof.Machine
end

