-- ==== Sys2Proof/Machine/Image.lean ====
section
/-! DEFINITION. Block images: the layout of R66 to R74, the checks of Table 3-15, those of Table 15-2, and the length of a
matrix block (R361). -/

namespace Sys2Proof.Machine

/-- A block image: its words from H0 on. -/
abbrev Img := List Word

/-- H0 of an image. -/
def Img.h0 (m : Img) : Word := List.getD m 0 0
/-- H1 of an image. -/
def Img.h1 (m : Img) : Word := List.getD m 1 0
/-- Instruction count (Table 3-1). -/
def Img.nins (m : Img) : Nat := fld m.h0 50 6 + 1
/-- Class (Table 3-1). -/
def Img.cls (m : Img) : Nat := fld m.h0 48 2
/-- Read-slot count. -/
def Img.nrd (m : Img) : Nat := fld m.h0 43 5
/-- Write-slot count. -/
def Img.nwr (m : Img) : Nat := fld m.h0 38 5
/-- Store count. -/
def Img.nst (m : Img) : Nat := fld m.h0 32 6
/-- Hint-word count. -/
def Img.nhint (m : Img) : Nat := fld m.h0 28 4
/-- First write-slot word (R66). -/
def Img.wbase (m : Img) : Nat := 2 + (m.nrd + 1) / 2
/-- First instruction word (R66). -/
def Img.ibase (m : Img) : Nat := m.wbase + (m.nwr + 3) / 4
/-- Words of an image with header H0 (R66). -/
def Img.size (m : Img) : Nat := m.ibase + m.nins + m.nhint
/-- `SPBASE`. -/
def Img.spbase (m : Img) : Nat := fld m.h1 53 11
/-- `SPLEN`. -/
def Img.splen (m : Img) : Nat := fld m.h1 42 11
/-- `PRELOAD`. -/
def Img.preload (m : Img) : Nat := fld m.h1 34 8

/-- A read slot (Table 3-4): class, register, targets. -/
structure RSlot where
  raw : Nat
  cls : Nat
  reg : Nat
  t0 : BitVec 10
  t1 : BitVec 10
deriving DecidableEq, Repr, Inhabited

/-- A write slot (Table 3-5). -/
structure WSlot where
  raw : Nat
  val : Bool
  cls : Nat
  reg : Nat
deriving DecidableEq, Repr, Inhabited

/-- The read slots, in order. -/
def Img.reads (m : Img) : List RSlot := (List.range m.nrd).map fun i =>
  let x := fld (List.getD m (2 + i / 2) 0) (32 * (i % 2)) 32
  { raw := x, cls := x / 2 ^ 30, reg := x / 2 ^ 22 % 256, t0 := BitVec.ofNat 10 (x / 2 ^ 12), t1 := BitVec.ofNat 10 (x / 2 ^ 2) }

/-- The write slots, in order. -/
def Img.writes (m : Img) : List WSlot := (List.range m.nwr).map fun i =>
  let x := fld (List.getD m (m.wbase + i / 4) 0) (16 * (i % 4)) 16
  { raw := x, val := x / 2 ^ 15 == 1, cls := x / 2 ^ 13 % 4, reg := x / 2 ^ 5 % 256 }

/-- The instruction words, in order. -/
def Img.ins (m : Img) : List Word := (List.range m.nins).map fun i => List.getD m (m.ibase + i) 0

/-- The hint words of an image (R75). -/
def Img.hints (m : Img) : List Word := (List.range m.nhint).map fun j => List.getD m (m.ibase + m.nins + j) 0

/-- The instruction of an index, when its word decodes. -/
def Img.instr? (m : Img) (i : Nat) : Option Instr :=
  match decode (List.getD m (m.ibase + i) 0) with
  | .ok x => if i < m.nins then some x else none
  | .error _ => none

/-- Store-class opcodes (R43). -/
def opStore (o : Nat) : Bool := o == 0x181 || o == 0x183 || o == 0x185 || o == 0x187 || o == 0x189 || o == 0x18A
/-- Opcodes that access global memory (R49). -/
def opGlobal (o : Nat) : Bool := (0x180 ≤ o && o ≤ 0x183) || (0x188 ≤ o && o ≤ 0x18A)
/-- M-format opcodes. -/
def opM (o : Nat) : Bool := 0x180 ≤ o && o ≤ 0x18A
/-- Branch opcodes (R43, R434). -/
def opBranch (o : Nat) : Bool := (0x40 ≤ o && o ≤ 0x45) || o == 0x1C8
/-- Opcodes of group 5. -/
def opGroup5 (o : Nat) : Bool := 0x140 ≤ o && o ≤ 0x148
/-- Opcodes of R347. -/
def opMatrix (o : Nat) : Bool := 0x141 ≤ o && o ≤ 0x148
/-- Vector instructions of groups 2 to 4. -/
def opVector (o : Nat) : Bool := 0x80 ≤ o && o < 0x140

/-- Whether an instruction word breaks the restrictions of its block's class (Table 2-7, R89, R121 to R129, R167, R173, R181,
R221, R226, R228, R347). -/
def classBroken (cls o : Nat) (w : Word) : Bool :=
  let priv := 0x1C4 ≤ o && o ≤ 0x1C8
  (priv && cls != 3) || (opMatrix o && cls != 1) ||
  (match cls with
  | 1 => opGlobal o || o == 0x18B || o == 0x18E || o == 0x43 || o == 0x44 || o == 0x48 || o == 0x49 || o == 0x1C0
  | 2 => opGlobal o || o == 0x18C || o == 0x18D || o == 0x43 || o == 0x44 || o == 0x46 || o == 0x48 || o == 0x49 || o == 0x4A ||
      (o == 0x18E && fld w 25 4 != 0)
  | 3 => o == 0x1C0 || o == 0x140 || o == 0x48 || o == 0x49
  | _ => false)

/-- Whether an instruction needs a scratchpad-use flag that H0 lacks (Table 3-3). -/
def flagMissing (h0 : Word) (o : Nat) : Bool :=
  let rd := o == 0x184 || o == 0x142 || o == 0x143 || o == 0x147 || o == 0x1C2
  let wr := o == 0x185 || o == 0x148 || o == 0x1C3
  let qw := o == 0x186 || o == 0x187
  (rd && !h0.getLsbD 27) || (wr && !h0.getLsbD 26) || (qw && !h0.getLsbD 25) || (o == 0x1C3 && !h0.getLsbD 24)

/-- The shape that a read slot delivers (R36). -/
def RSlot.shape (r : RSlot) : Shape :=
  if r.cls = 0 then .vector else if r.cls = 1 then .scalar else if r.cls = 2 then .mask
  else if r.reg = 2 then .vector else .scalar

/-- A delivery that an image holds: producing instruction, shape (none for any) and target. -/
structure Link where
  src : Option Nat
  sh : Option Shape
  tgt : Target
deriving DecidableEq, Repr

/-- The deliveries of an instruction. -/
def instrLinks (k : Nat) (i : Instr) : List Link :=
  match i with
  | .fan h sh t2 t3 => [h.t0, h.t1, t2, t3].map fun t => { src := some k, sh := some sh, tgt := t }
  | .null h => [h.t0, h.t1].map fun t => { src := some k, sh := none, tgt := t }
  | i => match i.hdr? with
    | none => []
    | some h => [{ src := some k, sh := i.sig.r0, tgt := h.t0 }, { src := some k, sh := i.sig.r1, tgt := h.t1 }]

/-- Whether an opcode's results or slots depend on its selector. -/
def opSelected (o : Nat) : Bool := o == 0x21 || (0x1C5 ≤ o && o ≤ 0x1C7)

/-- The instruction of a word, or, where only its bits [28:0] are refused, of the same opcode with other bits there: its operand slots and
the shape of its results are those of its opcode (Table 3-13), whatever the refused field holds. -/
def wordForm (w : Word) : Option Instr :=
  let low : List (BitVec 29) := wLow w :: (List.range 16).map (BitVec.ofNat 29) ++ [0x10000, 0x100000, 0x480000]
  (low.filterMap fun l => match decode (w.extractLsb' 29 35 ++ l) with
    | .ok i => some i
    | .error _ => none).head?

/-- The deliveries that the target fields of a word name, with the shape that its opcode gives, whatever else is wrong with it. -/
def rawLinks (k : Nat) (w : Word) : List Link :=
  let sg := if opSelected (wOpc w) then none else (wordForm w).map Instr.sig
  [(w.extractLsb' 39 10, sg.bind (·.r0)), (w.extractLsb' 29 10, sg.bind (·.r1))].filterMap fun q => match decTarget q.1 with
    | .ok x => some { src := some k, sh := q.2, tgt := x }
    | .error _ => none

/-- Every delivery of an image. -/
def Img.links (m : Img) : List Link :=
  (m.reads.flatMap fun r => [r.t0, r.t1].filterMap fun t => match decTarget t with
    | .ok x => some { src := none, sh := some r.shape, tgt := x }
    | .error _ => none) ++
  (List.range m.nins).flatMap fun k => match m.instr? k with
    | some i => instrLinks k i
    | none => rawLinks k (List.getD m (m.ibase + k) 0)

/-- Shape of a write slot's class. -/
def WSlot.shape? (w : WSlot) : Option Shape :=
  match w.cls with
  | 0 => some .vector
  | 1 => some .scalar
  | 2 => some .mask
  | _ => none

/-- The shape of an operand slot of an instruction; none where it has no such slot (R81). -/
def slotShape (i : Instr) (sl : Slot) : Option Shape :=
  match sl with
  | .a => i.sig.a
  | .b => i.sig.b
  | .c => i.sig.c
  | .p => if (i.hdr?.map (·.pm)).getD .always == .always then none else some .scalar

/-- Rows 14 and 15 of Table 3-15 for a delivery (R81, R82, R38). -/
def Img.linkRow (m : Img) (l : Link) : List Nat :=
  let shapes (d : Option Shape) : List Nat := match l.sh, d with
    | some x, some y => if x = y then [] else [15]
    | _, _ => []
  match l.tgt with
  | .none => []
  | .out n => match (m.writes)[n.toNat]? with
    | some w => if w.val then shapes w.shape? else [14]
    | none => [14]
  | .opnd i sl =>
    if m.nins ≤ i.toNat then [14]
    else match wordForm (List.getD m (m.ibase + i.toNat) 0) with
      | none => []
      | some x => match slotShape x sl with
        | none => [14]
        | some d => shapes (some d)

/-- Dataflow edges between instructions. -/
def Img.edges (m : Img) : List (Nat × Nat) := m.links.filterMap fun l => match l.src, l.tgt with
  | some k, .opnd i _ => some (k, i.toNat)
  | _, _ => none

/-- What is reached along edges from a set, in at most `n` rounds. -/
def reach (e : List (Nat × Nat)) (n : Nat) (l : List Nat) : List Nat :=
  match n with
  | 0 => l
  | n + 1 => reach e n (l ++ (e.filterMap fun p => if l.contains p.1 then some p.2 else none)).dedup

/-- What instruction `k` feeds, directly or through others. -/
def Img.feeds (m : Img) (k : Nat) : List Nat :=
  reach m.edges m.nins ((m.edges.filterMap fun p => if p.1 = k then some p.2 else none).dedup)

/-- The instructions of a matrix block with an opcode of `ops`, and its vector instructions that touch a vector slot for which `win` holds
(R354). -/
def Img.touching (m : Img) (ops : Nat → Bool) (win : Nat → Bool) : List Nat :=
  if m.cls != 1 then []
  else (List.range m.nins).filter fun k =>
    let o := wOpc ((m.ins).getD k 0)
    ops o || (opVector o &&
      ((m.reads.any fun r => r.cls == 0 && win r.reg && ([r.t0, r.t1].any fun t => match decTarget t with
          | .ok (.opnd i _) => i.toNat == k
          | _ => false)) ||
       (m.links.any fun l => l.src == some k && (match l.tgt with
          | .out n => (m.writes.getD n.toNat default).val && (m.writes.getD n.toNat default).cls == 0 && win (m.writes.getD n.toNat default).reg
          | _ => false))))

/-- Window instructions of a matrix block: those of R347, and vector instructions that touch a window. -/
def Img.windowIns (m : Img) (win : Nat → Bool) : List Nat := m.touching opMatrix win

/-- The wider set of which werad checks the window order, `mreg` being unknown at load (R354). -/
def Img.wideIns (m : Img) : List Nat := m.touching opGroup5 fun _ => true

/-- A register of the windows that `mreg` binds (R344). -/
def winReg (mreg : Word) (r : Nat) : Bool :=
  mregOn mreg && (decide (mregAcc0 mreg ≤ r ∧ r < mregAcc0 mreg + 66) ||
    (mregEn1 mreg && decide (mregAcc1 mreg ≤ r ∧ r < mregAcc1 mreg + 66)))

/-- An instruction of a set that a higher-indexed one of the set feeds (R354): consumer and producer. -/
def Img.windowFlaw (m : Img) (l : List Nat) : Option (Nat × Nat) :=
  (l.flatMap fun c => (l.filter fun p => decide (c < p) && (m.feeds p).contains c).map fun p => (c, p)).head?

/-- Whether an operand slot of an instruction gets nothing from a read slot, an instruction or an immediate, or the dataflow has a cycle (row 22).
A block with such a flaw that reaches the core never completes (R90). -/
def Img.stalls (m : Img) : Bool :=
  let ls := m.links
  let fed (k : Nat) (sl : Slot) : Bool := ls.any fun l => match l.tgt with
    | .opnd i s => i.toNat == k && s == sl
    | _ => false
  ((List.range m.nins).any fun k => match m.instr? k with
    | some i => [Slot.a, Slot.b, Slot.c, Slot.p].any fun sl => (slotShape i sl).isSome && !fed k sl
    | none => false) ||
  (List.range m.nins).any fun k => (m.feeds k).contains k

/-- Whether a valid write slot gets nothing from a read slot or an instruction: werad refuses such a block under row 22 too (Table 23-7). -/
def Img.unwritten (m : Img) : Bool :=
  let ls := m.links
  (List.range m.nwr).any fun n => ((m.writes)[n]?.any (·.val)) && !ls.any fun l => match l.tgt with
    | .out i => i.toNat == n
    | _ => false

/-- Latency of a vector instruction (Tables 6-5, 14-1, 14-5 and 14-8). -/
def vecLatency (w : Word) : Nat :=
  let o := wOpc w
  let t := (wTy w).toNat
  let f := t == 2 || t == 3 || t == 4
  if o = 0x88 ∨ o = 0x89 ∨ o = 0x8A then 16
  else if o = 0x87 ∨ o = 0x93 ∨ (0x94 ≤ o ∧ o ≤ 0x97) ∨ (0x100 ≤ o ∧ o ≤ 0x102) then 4
  else if 0x103 ≤ o ∧ o ≤ 0x108 then 12
  else if f && (o = 0x80 ∨ o = 0x81 ∨ o = 0x84 ∨ (0x8B ≤ o ∧ o ≤ 0x8E) ∨ o = 0xCB ∨ o = 0x109 ∨ o = 0x10A) then 4
  else 2

/-- Lane-array ticks of a matrix instruction (Table 15-6). -/
def matLane (w : Word) : Nat :=
  let part := fld w 0 2
  let wide := if part = 2 then 2 else if part = 1 then 66 else 64
  let bytes := (if part = 2 then 0 else 64 * 8 * (if fld w 2 4 = 0 then 32 else if fld w 2 4 ≤ 2 then 16 else 8)) + (if part = 0 then 0 else 512)
  match wOpc w with
  | 0x141 => 1
  | 0x142 => fld w 21 8 + 1
  | 0x143 => fld w 21 8 + 1
  | 0x144 => 1
  | 0x145 => 2
  | 0x146 => 1
  | 0x147 => wide
  | 0x148 => bytes / 256
  | _ => 0

/-- Latency of a matrix instruction (Table 15-6). -/
def matLatency (w : Word) : Nat :=
  match wOpc w with
  | 0x141 => 2
  | 0x142 => 12
  | 0x143 => 12
  | 0x144 => 4
  | 0x145 => 20
  | 0x146 => 16
  | 0x147 => 6
  | 0x148 => 6
  | _ => 0

/-- The length of a matrix block (R361). -/
def Img.length (m : Img) (win : Nat → Bool) : Nat :=
  let l := m.windowIns win
  (List.range m.nins).foldl (fun n k =>
    let w := (m.ins).getD k 0
    n + (if opMatrix (wOpc w) then matLane w + matLatency w
         else if l.contains k then 1 + vecLatency w
         else if opVector (wOpc w) then 1 else 0)) 0

/-- Rows 2 and 5 to 9 of Table 3-15 on the header, the read slots and the write slots. -/
def Img.slotRows (m : Img) (preloads : Nat) : List Nat :=
  let ws := m.writes.filter (·.val)
  (if fld m.h0 0 24 != 0 || fld m.h1 0 34 != 0 then [2] else []) ++
  (if 1535 < m.spbase || 1536 < m.splen || 1536 < m.spbase + m.splen || (m.splen == 0 && m.spbase != 0) || preloads < m.preload
   then [5] else []) ++
  (m.reads.flatMap fun r =>
    (if r.raw % 4 != 0 then [2] else []) ++
    (if (r.cls == 1 && 63 < r.reg) || (r.cls == 2 && 15 < r.reg) || (r.cls == 3 && 2 < r.reg) then [7] else []) ++
    (if r.t0.toNat / 256 == 0 && r.t1.toNat / 256 != 0 then [8] else []) ++
    ([r.t0, r.t1].flatMap fun t => match decTarget t with
      | .ok _ => []
      | .error e => [e.row])) ++
  (if m.nrd % 2 == 1 && fld (List.getD m (2 + m.nrd / 2) 0) 32 32 != 0 then [2] else []) ++
  (m.writes.flatMap fun w =>
    (if w.raw % 32 != 0 then [2] else []) ++
    (if (!w.val && w.raw != 0) || (w.val && (w.cls == 3 || (w.cls == 1 && 63 < w.reg) || (w.cls == 2 && 15 < w.reg))) then [9] else [])) ++
  (if (ws.map fun w => (w.cls, w.reg)).dedup.length != ws.length then [9] else []) ++
  (if m.nwr % 4 != 0 && fld (List.getD m (m.wbase + m.nwr / 4) 0) (16 * (m.nwr % 4)) (64 - 16 * (m.nwr % 4)) != 0 then [2] else [])

/-- Rows of Table 3-15 on the instructions. -/
def Img.insRows (m : Img) : List Nat :=
  let ops := m.ins.map wOpc
  let ms := (m.ins.filter fun w => opM (wOpc w)).map fun w => fld w 24 5
  (if m.ins.any fun w => m.cls != 2 && wOpc w == 0x18E && fld w 25 4 == 0 && fld w 0 25 != 0 then [2] else []) ++
  (if (ops.filter opStore).length < m.nst then [4] else []) ++
  (if ops.any (flagMissing m.h0) then [6] else []) ++
  (m.ins.flatMap fun w => match decode w with
    | .ok _ => []
    | .error e => [e.row]) ++
  (m.links.flatMap m.linkRow) ++
  (if 32 < ms.length || ms.dedup.length != ms.length then [16] else []) ++
  (if m.ins.any fun w => classBroken m.cls (wOpc w) w then [18] else []) ++
  (if (List.range m.nins).any fun k =>
      let w := (m.ins).getD k 0
      wOpc w == 0x189 && fld w 29 20 != 0 && ((List.range m.nins).any fun j =>
        let v := (m.ins).getD j 0
        j != k && opGlobal (wOpc v) && decide (fld w 24 5 ≤ fld v 24 5)) then [19] else []) ++
  (if ops.any opBranch then [] else [21])

/-- Rows that depend on the launch: registers above the allocation, and barrier ids (R26, R27, R29). -/
def Img.launchRows (m : Img) (vregs : Nat) (bars : BitVec 32) (coresident : Bool) : List Nat :=
  (if (m.reads.any fun r => r.cls == 0 && decide (vregs ≤ r.reg)) || (m.writes.any fun w => w.val && w.cls == 0 && decide (vregs ≤ w.reg))
   then [10] else []) ++
  (if m.ins.any fun w =>
      let sc := fld w 16 13
      wOpc w == 0x46 && decide (1 ≤ sc ∧ sc ≤ 4) &&
        (decide (bars.toNat / 2 ^ (8 * (sc - 1)) % 256 ≤ fld w 0 16) || (sc == 4 && !coresident)) then [20] else [])

/-- The first of a list of rows. -/
def firstRow (l : List Nat) : Option Nat := l.foldl (fun m x => match m with
  | none => some x
  | some y => some (min x y)) none

/-- Rows 2 and 23 of Table 3-15 on a block's entry of the block table (Table 3-7). -/
def entryRows (e : Word) : List Nat :=
  (if fld e 40 23 != 0 then [2] else []) ++ (if fld e 0 40 % 64 != 0 then [23] else [])

/-- The first failing row of Table 3-15 at fetch (R90). -/
def Img.fetchRow (m : Img) (vregs : Nat) (bars : BitVec 32) (coresident : Bool) (preloads : Nat) (mreg : Word) : Option Nat :=
  if fld m.h0 60 4 != 0xB || fld m.h0 56 4 != 3 then some 1
  else if 16 < m.nrd ∨ 16 < m.nwr then some (if fld m.h0 0 24 != 0 || fld m.h1 0 34 != 0 then 2 else 3)
  else firstRow (m.slotRows preloads ++ m.insRows ++ m.launchRows vregs bars coresident ++
    (if m.cls == 1 && decide (16384 < m.length (winReg mreg)) then [27] else []))

/-- The first failing check of Table 15-2: fault code and detail (R52, R348, R352, R363). Row 2 is of every `mmode`, one that turns matrix
mode off among them (log 54). -/
def Img.matrixFault (m : Img) (live mreg fmt : Word) (vregs : Nat) : Option (Nat × Nat) :=
  let has (p : Word → Bool) : Bool := m.ins.any p
  let op (o : Nat) (w : Word) : Bool := wOpc w == o
  let mmode := has (op 0x140)
  let grid := has fun w => opMatrix (wOpc w)
  let fa := fmtFA fmt
  let fb := fmtFB fmt
  let fc := fmtFC fmt
  let mma := has (op 0x142)
  let kOf (c : Nat) : Nat := if c = 1 ∨ c = 2 then 2 else if c = 5 ∨ c = 8 then 16 else 4
  let isInt (c : Nat) : Bool := c == 9 || c == 10
  let scaled (c : Nat) : Bool := decide (5 ≤ c ∧ c ≤ 8)
  let win1 (w : Word) : Bool := opMatrix (wOpc w) && w.getLsbD 20
  if (m.cls == 1 || (m.cls == 0 && mmode)) && live != allLanes then some (9, 0)
  else if has fun w => op 0x140 w &&
      (decide (vregs < fld w 2 8 + 66) || (w.getLsbD 1 && decide (vregs < fld w 10 8 + 66))) then some (8, 1)
  else if m.cls != 1 || !grid then none
  else if !mregOn mreg then some (7, 0)
  else if !mregEn1 mreg && (has win1 || has (op 0x146)) then some (8, 2)
  else if mma && !(decide (1 ≤ fa ∧ fa ≤ 10) && decide (1 ≤ fb ∧ fb ≤ 10)) then some (8, 3)
  else if mma && (kOf fa != kOf fb || isInt fa != isInt fb) then some (8, 4)
  else if decide (1 < fc) || (fc == 1 && ((mma && !isInt fa) || has (op 0x143) || has (op 0x144) || has (op 0x145) || has (op 0x146) ||
      (has fun w => op 0x148 w && fld w 2 4 != 0))) || (fc == 0 && mma && isInt fa) then some (8, 5)
  else if mma && (scaled fa || scaled fb) && (has fun w => op 0x142 w && (fld w 21 8 + 1) * kOf fa % 32 != 0) then some (8, 6)
  else if has (op 0x143) && !(fb == 1 || fb == 2) then some (8, 7)
  else none

end Sys2Proof.Machine
end

