-- ==== Sys2Proof/Machine/Float.lean ====
section
/-! DEFINITION. Number formats, exact values and rounding (chapter 13). -/

namespace Sys2Proof.Machine

/-- An exact operand or result: NaN, an infinity, or (-1)^neg · m · 2^e. A zero keeps its sign. -/
inductive Ext where
  | nan
  | inf (neg : Bool)
  | fin (neg : Bool) (m : Nat) (e : Int)
deriving DecidableEq, Repr

/-- Floating-point formats with exponent and mantissa fields (Table 13-2). -/
inductive FF where
  | fp32
  | bf16
  | fp16
  | e4m3
  | e5m2
  | e2m1
deriving DecidableEq, Repr

/-- Mantissa width. -/
def FF.mbits : FF → Nat
  | .fp32 => 23 | .bf16 => 7 | .fp16 => 10 | .e4m3 => 3 | .e5m2 => 2 | .e2m1 => 1
/-- Exponent width. -/
def FF.ebits : FF → Nat
  | .fp32 => 8 | .bf16 => 8 | .fp16 => 5 | .e4m3 => 4 | .e5m2 => 5 | .e2m1 => 2
/-- Exponent bias. -/
def FF.bias : FF → Nat
  | .fp32 => 127 | .bf16 => 127 | .fp16 => 15 | .e4m3 => 7 | .e5m2 => 15 | .e2m1 => 1
/-- Magnitude code of the largest finite value. -/
def FF.maxCode : FF → Nat
  | .fp32 => 0x7F7FFFFF | .bf16 => 0x7F7F | .fp16 => 0x7BFF | .e4m3 => 0x7E | .e5m2 => 0x7B | .e2m1 => 0x7
/-- Canonical NaN; E2M1 has none, and a NaN operand gives +0 there (Table 13-7). -/
def FF.nanCode : FF → Nat
  | .fp32 => 0x7FC00000 | .bf16 => 0x7FC0 | .fp16 => 0x7E00 | .e4m3 => 0x7F | .e5m2 => 0x7E | .e2m1 => 0
/-- Whether the format has infinities (Table 13-2). -/
def FF.hasInf : FF → Bool
  | .e4m3 | .e2m1 => false
  | _ => true
/-- Width of a code. -/
def FF.width (f : FF) : Nat := 1 + f.ebits + f.mbits
/-- Position of the sign bit. -/
def FF.signBit (f : FF) : Nat := f.ebits + f.mbits
/-- The code of an infinity. -/
def FF.infCode (f : FF) : Nat := (2 ^ f.ebits - 1) * 2 ^ f.mbits

/-- A magnitude code with its sign. -/
def FF.withSign (f : FF) (neg : Bool) (c : Nat) : Nat := if neg then c + 2 ^ f.signBit else c

/-- `val(f, c)`: the exact value of a code (R299), an infinity or a NaN. -/
def val (f : FF) (c : Nat) : Ext :=
  let neg := c.testBit f.signBit
  let mag := c % 2 ^ f.signBit
  let E := mag / 2 ^ f.mbits
  let M := mag % 2 ^ f.mbits
  if f.hasInf ∧ E = 2 ^ f.ebits - 1 then (if M = 0 then .inf neg else .nan)
  else if f = .e4m3 ∧ mag = 0x7F then .nan
  else if E = 0 then .fin neg M (1 - (f.bias : Int) - f.mbits)
  else .fin neg (2 ^ f.mbits + M) ((E : Int) - f.bias - f.mbits)

/-- Rounding modes (R307). -/
inductive RM where
  | rne
  | rtz
  | rup
  | rdn
  | sr
  | rna
deriving DecidableEq, Repr

/-- `fmt.RND` (Table 2-3). -/
def rndMode (fmt : Word) : RM :=
  match (fmt.extractLsb' 0 2).toNat with
  | 0 => .rne | 1 => .rtz | 2 => .rup | _ => .rdn

/-- `fmt.NRW` (Table 2-3). -/
def nrwMode (fmt : Word) : RM :=
  match (fmt.extractLsb' 2 2).toNat with
  | 0 => .rne | 1 => .rtz | 2 => .sr | _ => .rna

/-- `fmt.SAT8`. -/
def sat8 (fmt : Word) : Bool := fmt.getLsbD 4

/-- `fmt.SEED`. -/
def seedOf (fmt : Word) : BitVec 32 := fmt.extractLsb' 32 32

/-- `sr_hash` (R312). -/
def srHash (seed : BitVec 32) (l idx : Nat) : BitVec 32 :=
  let x := seed ^^^ (BitVec.ofNat 32 l * 0x9E3779B1) ^^^ (BitVec.ofNat 32 idx * 0x85EBCA77)
  let x := x ^^^ (x >>> 16)
  let x := x * 0x7FEB352D
  let x := x ^^^ (x >>> 15)
  let x := x * 0x846CA68B
  x ^^^ (x >>> 16)

/-- Whether the candidate farther from zero is taken, for the fraction num/den between the candidates, `odd` telling whether
the nearer one's magnitude code is odd (R307). -/
def roundsAway (mode : RM) (h : BitVec 32) (neg odd : Bool) (num den : Nat) : Bool :=
  if num = 0 then false else
  match mode with
  | .rne => den < 2 * num || (2 * num == den && odd)
  | .rna => den ≤ 2 * num
  | .rtz => false
  | .rup => !neg
  | .rdn => neg
  | .sr => (h >>> 8).toNat < num * 2 ^ 24 / den

/-- Rounding of a magnitude m · 2^e to a multiple of 2^q: the count of 2^q. -/
def roundQ (mode : RM) (h : BitVec 32) (neg : Bool) (m : Nat) (e q : Int) : Nat :=
  if q ≤ e then m * 2 ^ (e - q).toNat
  else
    let den := 2 ^ (q - e).toNat
    let lo := m / den
    if roundsAway mode h neg (lo % 2 = 1) (m % den) den then lo + 1 else lo

/-- ⌊log2⌋ of m · 2^e for m > 0. -/
def flog2 (m : Nat) (e : Int) : Int := (Nat.log2 m : Int) + e

/-- The result of an overflow (Table 13-7). -/
def overflowCode (f : FF) (neg : Bool) (mode : RM) (sat : Bool) : Nat :=
  match f with
  | .e4m3 => if sat then f.withSign neg f.maxCode else f.nanCode
  | .e2m1 => f.withSign neg f.maxCode
  | _ =>
    if sat && f == .e5m2 then f.withSign neg f.maxCode
    else match mode with
      | .rtz => f.withSign neg f.maxCode
      | .rup => if neg then f.withSign true f.maxCode else f.infCode
      | .rdn => if neg then f.withSign true f.infCode else f.maxCode
      | _ => f.withSign neg f.infCode

/-- The result of an infinite operand (Table 13-7). -/
def infResult (f : FF) (neg sat : Bool) : Nat :=
  match f with
  | .e4m3 => if sat then f.withSign neg f.maxCode else f.nanCode
  | .e2m1 => f.withSign neg f.maxCode
  | .e5m2 => if sat then f.withSign neg f.maxCode else f.withSign neg f.infCode
  | _ => f.withSign neg f.infCode

/-- `round_fmt(x, f, mode, sat, L, idx)` (R307), with `h` the hash of L and idx. -/
def roundFmt (f : FF) (mode : RM) (sat : Bool) (h : BitVec 32) (x : Ext) : Nat :=
  match x with
  | .nan => f.nanCode
  | .inf neg => infResult f neg sat
  | .fin neg m e =>
    if m = 0 then f.withSign neg 0
    else
      let q := max (flog2 m e) (1 - (f.bias : Int)) - f.mbits
      let n := roundQ mode h neg m e q
      let code := (q + f.mbits + f.bias - 1).toNat * 2 ^ f.mbits + n
      if f.maxCode < code then overflowCode f neg mode sat else f.withSign neg code

/-- `rne32` (Table 13-8). -/
def rne32 (x : Ext) : Lane := BitVec.ofNat 32 (roundFmt .fp32 .rne false 0 x)
/-- `rnd32` (Table 13-8). -/
def rnd32 (fmt : Word) (x : Ext) : Lane := BitVec.ofNat 32 (roundFmt .fp32 (rndMode fmt) false 0 x)
/-- `rnebf16` (Table 13-8). -/
def rnebf16 (x : Ext) : Nat := roundFmt .bf16 .rne false 0 x
/-- `cvtn` (Table 13-8). -/
def cvtn (fmt : Word) (f : FF) (l idx : Nat) (x : Ext) : Nat :=
  let s := sat8 fmt && (f == .e4m3 || f == .e5m2 || f == .e2m1)
  roundFmt f (nrwMode fmt) s (srHash (seedOf fmt) l idx) x
/-- The exact value of an FP32 lane. -/
def f32 (x : Lane) : Ext := val .fp32 x.toNat

/-- The sign of a value; a NaN counts as positive. -/
def Ext.isNeg : Ext → Bool
  | .nan => false
  | .inf n => n
  | .fin n _ _ => n

/-- Negation. -/
def Ext.neg : Ext → Ext
  | .nan => .nan
  | .inf n => .inf (!n)
  | .fin n m e => .fin (!n) m e

/-- Exact product (R300, R309). -/
def Ext.mul : Ext → Ext → Ext
  | .nan, _ => .nan
  | _, .nan => .nan
  | .inf a, .inf b => .inf (a != b)
  | .inf a, .fin b m _ => if m = 0 then .nan else .inf (a != b)
  | .fin a m _, .inf b => if m = 0 then .nan else .inf (a != b)
  | .fin a m e, .fin b n d => .fin (a != b) (m * n) (e + d)

/-- Multiplication by 2^k. -/
def Ext.scale (x : Ext) (k : Int) : Ext :=
  match x with
  | .fin n m e => .fin n m (e + k)
  | x => x

/-- A finite value as a signed count of 2^q, for q no greater than its exponent. -/
def Ext.units (q : Int) : Ext → Int
  | .fin n m e => (if n then -1 else 1) * ((m * 2 ^ (e - q).toNat : Nat) : Int)
  | _ => 0

/-- The least exponent among the finite terms. -/
def minExp (l : List Ext) : Int :=
  l.foldl (fun q x => match x with
    | .fin _ _ e => min q e
    | _ => q) 0

/-- Exact sum of the terms; `rdn` is the rounding mode that makes a cancelled zero negative (R309). -/
def Ext.sum (rdn : Bool) (l : List Ext) : Ext :=
  if l.any (fun x => x == .nan) then .nan
  else
    let pos := l.any (fun x => x == .inf false)
    let neg := l.any (fun x => x == .inf true)
    if pos && neg then .nan else if pos then .inf false else if neg then .inf true
    else
      let q := minExp l
      let t : Int := l.foldl (fun a x => a + x.units q) 0
      if t = 0 then .fin (l.all Ext.isNeg || (rdn && !l.all (fun x => !x.isNeg))) 0 0
      else .fin (t < 0) t.natAbs q

/-- Exact sum of two terms. -/
def Ext.add (rdn : Bool) (x y : Ext) : Ext := Ext.sum rdn [x, y]

/-- Quotient, with a sticky bit far below any rounding position (R326). -/
def Ext.div : Ext → Ext → Ext
  | .nan, _ => .nan
  | _, .nan => .nan
  | .inf _, .inf _ => .nan
  | .inf a, .fin b _ _ => .inf (a != b)
  | .fin a _ _, .inf b => .fin (a != b) 0 0
  | .fin a m e, .fin b n d =>
    if n = 0 then (if m = 0 then .nan else .inf (a != b))
    else
      let k := Nat.log2 n + 128
      let q := m * 2 ^ k / n
      .fin (a != b) (2 * q + (if m * 2 ^ k % n = 0 then 0 else 1)) (e - d - k - 1)

/-- ⌊√n⌋ for n below 2^(2·bits), bit by bit. -/
def isqrt (bits n : Nat) : Nat :=
  (List.range bits).foldl (fun r i =>
    let c := r + 2 ^ (bits - 1 - i)
    if c * c ≤ n then c else r) 0

/-- Square root with a sticky bit (R326). -/
def Ext.sqrt : Ext → Ext
  | .nan => .nan
  | .inf n => if n then .nan else .inf false
  | .fin n m e =>
    if m = 0 then .fin n 0 0
    else if n then .nan
    else
      let odd := e % 2 = 1
      let m' := (if odd then 2 * m else m) * 2 ^ 128
      let e' := (if odd then e - 1 else e) / 2 - 64
      let r := isqrt (Nat.log2 m' / 2 + 1) m'
      .fin false (2 * r + (if r * r = m' then 0 else 1)) (e' - 1)

/-- Less than, on values that are no NaN; zeros are equal. -/
def Ext.lt : Ext → Ext → Bool
  | .nan, _ => false
  | _, .nan => false
  | .inf a, .inf b => a && !b
  | .inf a, .fin _ _ _ => a
  | .fin _ _ _, .inf b => !b
  | x, y => let q := minExp [x, y]; x.units q < y.units q

/-- IEEE equality: zeros are equal and a NaN equals nothing. -/
def Ext.eq (x y : Ext) : Bool :=
  match x, y with
  | .nan, _ => false
  | _, .nan => false
  | .inf a, .inf b => a == b
  | .fin _ _ _, .fin _ _ _ => !x.lt y && !y.lt x
  | _, _ => false

/-- Rounding to an integer, q = 1 in the rules of R307. -/
def Ext.toInt (mode : RM) (h : BitVec 32) : Ext → Int
  | .fin n m e => (if n then -1 else 1) * (roundQ mode h n m e 0 : Int)
  | _ => 0

/-- `toint` (R311). -/
def toint (mode : RM) (h : BitVec 32) (lo hi : Int) (x : Ext) : Int :=
  match x with
  | .nan => 0
  | .inf n => if n then lo else hi
  | x => max lo (min hi (x.toInt mode h))

/-- An integer as an exact value. -/
def Ext.ofInt (i : Int) : Ext := .fin (i < 0) i.natAbs 0

/-- Larger of two values (Table 14-3): -0 is below +0, a NaN gives a NaN. -/
def Ext.max (x y : Ext) : Ext :=
  if x == .nan || y == .nan then .nan
  else if x.lt y then y else if y.lt x then x else if x.isNeg then y else x

/-- Smaller of two values (Table 14-3). -/
def Ext.min (x y : Ext) : Ext :=
  if x == .nan || y == .nan then .nan
  else if x.lt y then x else if y.lt x then y else if x.isNeg then x else y

/-- `mul32` (Table 13-8). -/
def mul32 (x y : Lane) : Lane := rne32 ((f32 x).mul (f32 y))
/-- `fma32` (Table 13-8). -/
def fma32 (x y z : Lane) : Lane := rne32 (((f32 x).mul (f32 y)).add false (f32 z))
/-- FP32 addition rounded by RNE. -/
def add32 (x y : Lane) : Lane := rne32 ((f32 x).add false (f32 y))
/-- FP32 subtraction rounded by RNE. -/
def sub32 (x y : Lane) : Lane := rne32 ((f32 x).add false (f32 y).neg)

/-- One level of the pairwise tree of R342, absent lanes passing their partner through. -/
def treeLevel (op : Lane → Lane → Lane) : List (Option Lane) → List (Option Lane)
  | [] => []
  | [x] => [x]
  | x :: y :: r => (match x, y with
    | some a, some b => some (op a b)
    | some a, none => some a
    | none, y => y) :: treeLevel op r

/-- The pairwise tree over 64 lanes (R342). -/
def tree64 (op : Lane → Lane → Lane) (l : List (Option Lane)) : Option Lane :=
  let f := treeLevel op
  (f (f (f (f (f (f l)))))).headD none

/-- `psum64` (Table 13-8). -/
def psum64 (p : Vec) : Lane := (tree64 add32 ((List.range 64).map fun l => some (p.lane l))).getD 0

/-- Value of a BT4 code in units of the scale (Table 13-3), as a multiple of 1/8; the zero of a signed set keeps its sign. -/
def bt4Mag (t : BtType) (k : Nat) : Nat :=
  match t with
  | .int4 => 8 * k
  | .e2m1 => [0, 4, 8, 12, 16, 24, 32, 48].getD k 0
  | .log4 => if k = 0 then 0 else 2 ^ (k - 1)
  | .hyb4 => [0, 8, 16, 24, 32, 48, 64, 96].getD k 0

/-- v(c) of Table 13-3. -/
def bt4Val (t : BtType) (c : Nat) : Ext :=
  match t with
  | .int4 => Ext.ofInt (if c < 8 then (c : Int) else (c : Int) - 16)
  | .log4 => if c = 8 then .fin false 0 0 else .fin (8 ≤ c) (bt4Mag t (c % 8)) (-3)
  | _ => .fin (8 ≤ c) (bt4Mag t (c % 8)) (-3)

/-- `round_fmt` on the LOG4 and HYB4 sets (Table 13-6, Table 13-7): the code of the rounded value. -/
def roundSet (t : BtType) (mode : RM) (h : BitVec 32) (x : Ext) : Nat :=
  let signed (neg : Bool) (k : Nat) : Nat := if neg && !(t == .log4 && k == 0) then 8 + k else k
  match x with
  | .nan => 0
  | .inf n => signed n 7
  | .fin n m e =>
    let q : Int := min e (-3)
    let xm := m * 2 ^ (e - q).toNat
    let mag (k : Nat) : Nat := bt4Mag t k * 2 ^ (-3 - q).toNat
    if mag 7 ≤ xm then signed n 7
    else
      let k := (List.range 7).foldl (fun a i => if mag i ≤ xm then i else a) 0
      signed n (if roundsAway mode h n (k % 2 = 1) (xm - mag k) (mag (k + 1) - mag k) then k + 1 else k)

/-- `quantise` for an element of a block format (R315): the element's code. -/
def quantise (fmt : Word) (f : BFmt) (t : BtType) (l idx : Nat) (x : Ext) : Nat :=
  match f with
  | .mxfp4 => cvtn fmt .e2m1 l idx x
  | .mxfp8e4 => cvtn fmt .e4m3 l idx x
  | .mxfp8e5 => cvtn fmt .e5m2 l idx x
  | .bt4 =>
    if x == .nan then 0 else
    match t with
    | .e2m1 => cvtn fmt .e2m1 l idx x
    | .int4 => ((toint (nrwMode fmt) (srHash (seedOf fmt) l idx) (-8) 7 x) % 16).toNat
    | t => roundSet t (nrwMode fmt) (srHash (seedOf fmt) l idx) x

/-- Largest element exponent (Table 13-11). -/
def emax (f : BFmt) (t : BtType) : Int :=
  match f with
  | .mxfp4 => 2
  | .mxfp8e4 => 8
  | .mxfp8e5 => 15
  | .bt4 => match t with
    | .int4 => 2 | .e2m1 => 2 | .log4 => 3 | .hyb4 => 3

/-- `encb` (R314): scale byte and element codes; element i is quantised with lane `lane0` + i and index i. -/
def encb (fmt : Word) (f : BFmt) (t : BtType) (lane0 : Nat) (x : List Ext) : Nat × List Nat :=
  let special := x.any fun y => match y with
    | .fin _ _ _ => false
    | _ => true
  if f != .bt4 && special then (0xFF, x.map fun _ => 0)
  else
    let logs := x.filterMap fun y => match y with
      | .fin _ m e => if m = 0 then none else some (flog2 m e)
      | _ => none
    let s : Int := match logs with
      | [] => 0
      | a :: r => r.foldl max a - emax f t
    let (byte, sc) : Nat × Int :=
      if f == .bt4 then
        let e := max 0 (min 63 (s + 31))
        (t.code.toNat * 64 + e.toNat, e - 31)
      else
        let b := max 0 (min 254 (s + 127))
        (b.toNat, b - 127)
    (byte, x.mapIdx fun i y => quantise fmt f t (lane0 + i) i (y.scale (-sc)))

/-- The BT4 type that a scale byte names. -/
def btOfScale (s : Nat) : BtType := (BtType.ofCode (BitVec.ofNat 2 (s / 64))).getD .int4

/-- `decb` (R316). -/
def decb (f : BFmt) (s c : Nat) : Ext :=
  match f with
  | .bt4 => (bt4Val (btOfScale s) c).scale ((s % 64 : Nat) - 31)
  | .mxfp4 => if s = 255 then .nan else (val .e2m1 c).scale ((s : Int) - 127)
  | .mxfp8e4 => if s = 255 then .nan else (val .e4m3 c).scale ((s : Int) - 127)
  | .mxfp8e5 => if s = 255 then .nan else (val .e5m2 c).scale ((s : Int) - 127)

/-- rne32 of a positive rational. -/
def ratRne (n d : Nat) : Lane := rne32 ((Ext.fin false n 0).div (.fin false d 0))
/-- rne32 of a decimal with ten fractional digits' worth of scale. -/
def decRne (neg : Bool) (n d : Nat) : Lane := rne32 ((Ext.fin neg n 0).div (.fin false d 0))

/-- TE[j] = rne32(2^(j/64)) (Table 14-9). -/
def tabTE : List Lane :=
  [0x3F800000, 0x3F8164D2, 0x3F82CD87, 0x3F843A29, 0x3F85AAC3, 0x3F871F62, 0x3F88980F, 0x3F8A14D5] ++
  [0x3F8B95C2, 0x3F8D1ADF, 0x3F8EA43A, 0x3F9031DC, 0x3F91C3D3, 0x3F935A2B, 0x3F94F4F0, 0x3F96942D] ++
  [0x3F9837F0, 0x3F99E046, 0x3F9B8D3A, 0x3F9D3EDA, 0x3F9EF532, 0x3FA0B051, 0x3FA27043, 0x3FA43516] ++
  [0x3FA5FED7, 0x3FA7CD94, 0x3FA9A15B, 0x3FAB7A3A, 0x3FAD583F, 0x3FAF3B79, 0x3FB123F6, 0x3FB311C4] ++
  [0x3FB504F3, 0x3FB6FD92, 0x3FB8FBAF, 0x3FBAFF5B, 0x3FBD08A4, 0x3FBF179A, 0x3FC12C4D, 0x3FC346CD] ++
  [0x3FC5672A, 0x3FC78D75, 0x3FC9B9BE, 0x3FCBEC15, 0x3FCE248C, 0x3FD06334, 0x3FD2A81E, 0x3FD4F35B] ++
  [0x3FD744FD, 0x3FD99D16, 0x3FDBFBB8, 0x3FDE60F5, 0x3FE0CCDF, 0x3FE33F89, 0x3FE5B907, 0x3FE8396A] ++
  [0x3FEAC0C7, 0x3FED4F30, 0x3FEFE4BA, 0x3FF28177, 0x3FF5257D, 0x3FF7D0DF, 0x3FFA83B3, 0x3FFD3E0C]

/-- GL[j] = rne32(log2(1 + j/64)) (Table 14-9). -/
def tabGL : List Lane :=
  [0x00000000, 0x3CB73CB4, 0x3D35D69C, 0x3D8759C5, 0x3DB31FB8, 0x3DDE4212, 0x3E0462C4, 0x3E19574F] ++
  [0x3E2E00D2, 0x3E42615F, 0x3E567AF1, 0x3E6A4F72, 0x3E7DE0B6, 0x3E88983F, 0x3E92203D, 0x3E9B8926] ++
  [0x3EA4D3C2, 0x3EAE00D2, 0x3EB7110E, 0x3EC0052B, 0x3EC8DDD4, 0x3ED19BB0, 0x3EDA3F60, 0x3EE2C97D] ++
  [0x3EEB3A9F, 0x3EF39355, 0x3EFBD42B, 0x3F01FED4, 0x3F060828, 0x3F0A0650, 0x3F0DF989, 0x3F11E20F] ++
  [0x3F15C01A, 0x3F1993E3, 0x3F1D5DA0, 0x3F211D84, 0x3F24D3C2, 0x3F28808C, 0x3F2C2411, 0x3F2FBE80] ++
  [0x3F335004, 0x3F36D8CB, 0x3F3A58FF, 0x3F3DD0C8, 0x3F41404F, 0x3F44A7BA, 0x3F480731, 0x3F4B5ED7] ++
  [0x3F4EAED0, 0x3F51F740, 0x3F553848, 0x3F587209, 0x3F5BA4A4, 0x3F5ED039, 0x3F61F4E5, 0x3F6512C7] ++
  [0x3F6829FB, 0x3F6B3A9F, 0x3F6E44CD, 0x3F7148A1, 0x3F744636, 0x3F773DA4, 0x3F7A2F04, 0x3F7D1A71]

/-- K = rne32(1/(2π)) (Table 14-9). -/
def constK : Lane := 0x3E22F983

/-- RL[j] = rne32(64 / (64 + j)) (Table 14-9). -/
def tabRL (j : Nat) : Lane := ratRne 64 (64 + j)
/-- TR[j] = rne32(512 / (513 + 2j)) (Table 14-9). -/
def tabTR (j : Nat) : Lane := ratRne 512 (513 + 2 * j)
/-- TQ[j] = rne32(1/√M_j) (Table 14-9). -/
def tabTQ (j : Nat) : Lane :=
  let (n, d) := if j < 128 then (257 + 2 * j, 256) else (256 + 2 * (j - 128) + 1, 128)
  -- 1/√(n/d) = √(d/n): scale by 2^160 and keep a sticky bit
  let t := d * 2 ^ 160 / n
  let r := isqrt 90 t
  rne32 (.fin false (2 * r + 1) (-81))

/-- E1 to E4 (Table 14-9). -/
def coefE : List Lane := [decRne false 6931471806 (10 ^ 10), decRne false 2402265070 (10 ^ 10), decRne false 5550410866 (10 ^ 11), decRne false 9618129108 (10 ^ 12)]
/-- L1 to L5. -/
def coefL : List Lane := [decRne false 1442695041 (10 ^ 9), decRne true 7213475204 (10 ^ 10), decRne false 4808983470 (10 ^ 10), decRne true 3606737602 (10 ^ 10), decRne false 2885390082 (10 ^ 10)]
/-- S1 to S5. -/
def coefS : List Lane := [decRne false 6283185307 (10 ^ 9), decRne true 4134170224 (10 ^ 8), decRne false 8160524928 (10 ^ 8), decRne true 7670585975 (10 ^ 8), decRne false 4205869394 (10 ^ 8)]
/-- C1 to C4. -/
def coefC : List Lane := [decRne true 1973920880 (10 ^ 8), decRne false 6493939402 (10 ^ 8), decRne true 8545681720 (10 ^ 8), decRne false 6024464137 (10 ^ 8)]

/-- Horner's scheme from the last coefficient down, each step one `fma32`. -/
def horner (cs : List Lane) (x : Lane) : Lane :=
  match cs.reverse with
  | [] => 0
  | c :: r => r.foldl (fun p k => fma32 p x k) c

/-- 1.0, an infinity and the canonical NaN in FP32. -/
abbrev one32 : Lane := 0x3F800000
abbrev inf32 : Lane := 0x7F800000
abbrev ninf32 : Lane := 0xFF800000
abbrev nan32 : Lane := 0x7FC00000

/-- `vexp2` (R338). -/
def vexp2 (x : Lane) : Lane :=
  match f32 x with
  | .nan => nan32
  | .inf n => if n then 0 else inf32
  | .fin n m e =>
    let y := Ext.fin n m e
    if !y.lt (.fin false 128 0) then inf32
    else if y.lt (.fin true 150 0) then 0
    else
      let k := (y.scale 6).toInt .rne 0
      let r := rne32 (y.add false ((Ext.ofInt (-k)).scale (-6)))
      let j := (k % 64).toNat
      let t := tabTE.getD j 0
      let p := mul32 (horner coefE r) r
      rne32 ((f32 (fma32 t p t)).scale ((k - j) / 64))

/-- Exponent and significand of |x| = m · 2^e with 1 ≤ m < 2, the significand as an FP32 code (R337). -/
def norm32 (m : Nat) (e : Int) : Lane × Int :=
  let k := flog2 m e
  (rne32 (.fin false m (e - k)), k)

/-- `vlog2` (R338). -/
def vlog2 (x : Lane) : Lane :=
  match f32 x with
  | .nan => nan32
  | .inf n => if n then nan32 else inf32
  | .fin n m e =>
    if m = 0 then ninf32 else if n then nan32
    else
      let (mm, ex) := norm32 m e
      let j := (mm.toNat - one32.toNat) / 2 ^ 17
      let u := fma32 mm (tabRL j) 0xBF800000
      let p := mul32 (horner coefL u) u
      rne32 ((Ext.ofInt ex).add false (f32 (add32 (tabGL.getD j 0) p)))

/-- A lane with the sign of `neg`. -/
def signed32 (neg : Bool) (x : Lane) : Lane := if neg then x ||| 0x80000000 else x

/-- `vrcp` (R339). -/
def vrcp (x : Lane) : Lane :=
  match f32 x with
  | .nan => nan32
  | .inf n => signed32 n 0
  | .fin n m e =>
    if m = 0 then signed32 n inf32
    else
      let (mm, ex) := norm32 m e
      let nm := mm ^^^ 0x80000000
      let y0 := tabTR ((mm.toNat - one32.toNat) / 2 ^ 15)
      let step (y : Lane) : Lane := fma32 y (fma32 nm y one32) y
      signed32 n (rne32 ((f32 (step (step y0))).scale (-ex)))

/-- `vrsqrt` (R339). -/
def vrsqrt (x : Lane) : Lane :=
  match f32 x with
  | .nan => nan32
  | .inf n => if n then nan32 else 0
  | .fin n m e =>
    if m = 0 then signed32 n inf32 else if n then nan32
    else
      let (mm, ex) := norm32 m e
      let odd := ex % 2 = 1
      let frac := mm.toNat - one32.toNat
      let m2 := if odd then mm + 0x800000 else mm
      let e2 := if odd then ex - 1 else ex
      let j := if odd then 128 + frac / 2 ^ 16 else frac / 2 ^ 16
      let nm := m2 ^^^ 0x80000000
      let step (y : Lane) : Lane := fma32 (mul32 0x3F000000 y) (fma32 nm (mul32 y y) one32) y
      rne32 ((f32 (step (step (tabTQ j)))).scale (-e2 / 2))

/-- `trig` (R340): `turns` is the turns form and `isSin` the function. -/
def trig (turns isSin : Bool) (x0 : Lane) : Lane :=
  let x := if turns then x0 else mul32 x0 constK
  match f32 x with
  | .nan => nan32
  | .inf _ => nan32
  | .fin n m e =>
    if m = 0 then (if isSin then x else one32)
    else
      let y := Ext.fin n m e
      let r := y.add false (Ext.ofInt (-(y.toInt .rne 0)))
      let q := (r.scale 2).toInt .rne 0
      let f := rne32 (r.add false ((Ext.ofInt (-q)).scale (-2)))
      let z := mul32 f f
      let S := mul32 (horner coefS z) f
      let C := fma32 (horner coefC z) z one32
      let neg (a : Lane) : Lane := a ^^^ 0x80000000
      match (q % 4).toNat, isSin with
      | 0, true => S | 1, true => C | 2, true => neg S | _, true => neg C
      | 0, false => C | 1, false => neg S | 2, false => neg C | _, false => S

/-- Whether an operand of `vsin` or `vcos` sets `WST.RANGE` (R340). -/
def trigRange (x : Lane) : Bool := 0x4A800000 ≤ (x &&& 0x7FFFFFFF).toNat && (x &&& 0x7FFFFFFF).toNat ≤ 0x7F800000

end Sys2Proof.Machine
end

