-- ==== Sys2Proof/Machine/Vector.lean ====
section
/-! DEFINITION. Groups 2 and 3: per-element arithmetic, logic, comparison, selection and lane movement (chapter 14). Every
instruction computes in all 64 lanes (R320) under `fmt` as at block start (R323). -/

namespace Sys2Proof.Machine

/-- The format of a floating-point type's elements (Table 3-12). -/
def floatFF : VTy → FF
  | .bf16x2 => .bf16
  | .f16x2 => .fp16
  | .e4m3x4 => .e4m3
  | .e5m2x4 => .e5m2
  | _ => .fp32

/-- `rnd_T` of R323, as an element of the type. -/
def rndT (ty : VTy) (fmt : Word) (x : Ext) : BitVec (elemBits ty) :=
  BitVec.ofNat _ (roundFmt (floatFF ty) (rndMode fmt) false 0 x)

/-- The exact value of a floating-point element. -/
def elemF (ty : VTy) (x : BitVec n) : Ext := val (floatFF ty) x.toNat

/-- An element-wise operation with an exact integer and an exact floating-point form; integer results wrap (R325). -/
def arith2 (ty : VTy) (fi : Int → Int → Int) (ff : Ext → Ext → Ext) (fmt : Word) : Lane → Lane → Lane :=
  zipElems ty fun _ x y =>
    if ty.isFloat then rndT ty fmt (ff (elemF ty x) (elemF ty y))
    else BitVec.ofInt _ (fi (elemInt ty x) (elemInt ty y))

/-- An integer operation whose result is clamped to the type's range. -/
def clamp (ty : VTy) (x : Int) : Int := max (elemLo ty) (min (elemHi ty) x)

/-- `vadd` (Table 14-3). -/
def vaddLane (ty : VTy) (fmt : Word) : Lane → Lane → Lane := arith2 ty (· + ·) (Ext.add (fmtRdn fmt)) fmt
/-- `vadd` (R325). -/
def execVadd (h : Hdr) (ty : VTy) (im : Option (BitVec 28)) (s : State) : Out :=
  execV (.vadd h ty im) (fun b x => map2 (fun _ => vaddLane ty b.fmt0) x.va (x.vb ty im)) s
/-- `vsub` (Table 14-3). -/
def vsubLane (ty : VTy) (fmt : Word) : Lane → Lane → Lane :=
  arith2 ty (· - ·) (fun x y => x.add (fmtRdn fmt) y.neg) fmt
/-- `vsub` (R325). -/
def execVsub (h : Hdr) (ty : VTy) (im : Option (BitVec 28)) (s : State) : Out :=
  execV (.vsub h ty im) (fun b x => map2 (fun _ => vsubLane ty b.fmt0) x.va (x.vb ty im)) s

/-- Issue a lane-array instruction with two vector results (R82). -/
def execV2 (i : Instr) (f : Blk → Args → Vec × Vec) (s : State) : Out :=
  execValue i 1 (fun b x => (.v (f b x).1, .v (f b x).2)) s

/-- `vaddc` (R329): sum to `T0`, carry to `T1`. -/
def execVaddc (h : Hdr) (im : Option (BitVec 28)) (s : State) : Out :=
  execV2 (.vaddc h im) (fun _ x =>
    let t (l : Nat) : Nat := (x.va.lane l).toNat + ((x.vb .n32 im).lane l).toNat + (x.vc.lane l).toNat % 2
    (Vec.tab fun l => BitVec.ofNat 32 (t l), Vec.tab fun l => BitVec.ofNat 32 (t l / 2 ^ 32))) s
/-- `vsubb` (R329): difference to `T0`, borrow to `T1`. -/
def execVsubb (h : Hdr) (im : Option (BitVec 28)) (s : State) : Out :=
  execV2 (.vsubb h im) (fun _ x =>
    let y (l : Nat) : Nat := ((x.vb .n32 im).lane l).toNat + (x.vc.lane l).toNat % 2
    (Vec.tab fun l => BitVec.ofInt 32 ((x.va.lane l).toNat - y l),
     Vec.tab fun l => if (x.va.lane l).toNat < y l then 1 else 0)) s

/-- `vmul` (Table 14-3). -/
def vmulLane (ty : VTy) (fmt : Word) : Lane → Lane → Lane := arith2 ty (· * ·) Ext.mul fmt
/-- `vmul` (R325). -/
def execVmul (h : Hdr) (ty : VTy) (im : Option (BitVec 28)) (s : State) : Out :=
  execV (.vmul h ty im) (fun b x => map2 (fun _ => vmulLane ty b.fmt0) x.va (x.vb ty im)) s
/-- `vmulh` (Table 14-3): the high half of the exact product. -/
def execVmulh (h : Hdr) (ty : VTy) (im : Option (BitVec 28)) (s : State) : Out :=
  execV (.vmulh h ty im) (fun b x =>
    map2 (fun _ => arith2 ty (fun p q => (p * q) / 2 ^ elemBits ty) Ext.mul b.fmt0) x.va (x.vb ty im)) s
/-- `vmulw` (R327): the two halves of the product, or the products of the two elements. -/
def vmulwLane (ty : VTy) (hi : Bool) (x y : Lane) : Lane :=
  if ty.lanesPer = 1 then
    let p := BitVec.ofInt 64 (elemInt ty x * elemInt ty y)
    if hi then p.extractLsb' 32 32 else p.extractLsb' 0 32
  else
    let o := if hi then 16 else 0
    BitVec.ofInt 32 (elemInt ty (x.extractLsb' o 16) * elemInt ty (y.extractLsb' o 16))
/-- `vmulw` (R327). -/
def execVmulw (h : Hdr) (ty : VTy) (im : Option (BitVec 28)) (s : State) : Out :=
  execV2 (.vmulw h ty im) (fun _ x =>
    (map2 (fun _ => vmulwLane ty false) x.va (x.vb ty im), map2 (fun _ => vmulwLane ty true) x.va (x.vb ty im))) s
/-- `vmad` (Table 14-3): one rounding. -/
def vmadLane (ty : VTy) (fmt : Word) : Lane → Lane → Lane → Lane :=
  zipElems3 ty fun _ x y z =>
    if ty.isFloat then rndT ty fmt (((elemF ty x).mul (elemF ty y)).add (fmtRdn fmt) (elemF ty z))
    else BitVec.ofInt _ (elemInt ty x * elemInt ty y + elemInt ty z)
/-- `vmad` (R325). -/
def execVmad (h : Hdr) (ty : VTy) (im : Option (BitVec 28)) (s : State) : Out :=
  execV (.vmad h ty im) (fun b x => map3 (fun _ => vmadLane ty b.fmt0) x.va (x.vb ty im) x.vc) s

/-- The division rule at 32 bits (R326): quotient and remainder. -/
def divRule32 (signed : Bool) (x y : Lane) : Lane × Lane :=
  if y = 0 then (0xFFFFFFFF, x)
  else if signed && x == 0x80000000 && y == 0xFFFFFFFF then (x, 0)
  else
    let a : Int := if signed then x.toInt else x.toNat
    let b : Int := if signed then y.toInt else y.toNat
    (BitVec.ofInt 32 (a.tdiv b), BitVec.ofInt 32 (a.tmod b))
/-- `vdiv` (R326). -/
def vdivLane (ty : VTy) (fmt : Word) (x y : Lane) : Lane :=
  if ty.isFloat then rnd32 fmt ((f32 x).div (f32 y)) else (divRule32 (isSigned ty) x y).1
/-- `vdiv` (R326). -/
def execVdiv (h : Hdr) (ty : VTy) (im : Option (BitVec 28)) (s : State) : Out :=
  execV (.vdiv h ty im) (fun b x => map2 (fun _ => vdivLane ty b.fmt0) x.va (x.vb ty im)) s
/-- `vrem` (R326). -/
def execVrem (h : Hdr) (ty : VTy) (im : Option (BitVec 28)) (s : State) : Out :=
  execV (.vrem h ty im) (fun _ x => map2 (fun _ p q => (divRule32 (isSigned ty) p q).2) x.va (x.vb ty im)) s
/-- `vsqrt` (R326). -/
def execVsqrt (h : Hdr) (s : State) : Out :=
  execV (.vsqrt h) (fun b x => map1 (fun _ p => rnd32 b.fmt0 (f32 p).sqrt) x.va) s

/-- A floating-point element with its sign replaced; a NaN becomes canonical (Table 14-3). -/
def signElem (ty : VTy) (neg : Bool) (x : BitVec n) : BitVec n :=
  let f := floatFF ty
  if elemF ty x == .nan then BitVec.ofNat n f.nanCode
  else BitVec.ofNat n (f.withSign neg (x.toNat % 2 ^ f.signBit))
/-- `vabs` (Table 14-3). -/
def vabsLane (ty : VTy) (x : Lane) : Lane :=
  zipElems ty (fun _ e _ => if ty.isFloat then signElem ty false e else BitVec.ofInt _ (elemInt ty e).natAbs) x x
/-- `vabs` (R325). -/
def execVabs (h : Hdr) (ty : VTy) (s : State) : Out := execV (.vabs h ty) (fun _ x => map1 (fun _ => vabsLane ty) x.va) s
/-- `vneg` (Table 14-3). -/
def vnegLane (ty : VTy) (x : Lane) : Lane :=
  zipElems ty (fun _ e _ => if ty.isFloat then signElem ty (!e.getLsbD (floatFF ty).signBit) e else -e) x x
/-- `vneg` (R325). -/
def execVneg (h : Hdr) (ty : VTy) (s : State) : Out := execV (.vneg h ty) (fun _ x => map1 (fun _ => vnegLane ty) x.va) s

/-- `vmin` and `vmax` on one lane (Table 14-3). -/
def minmaxLane (ty : VTy) (larger : Bool) : Lane → Lane → Lane :=
  zipElems ty fun _ x y =>
    if ty.isFloat then
      let p := elemF ty x
      let q := elemF ty y
      BitVec.ofNat _ (roundFmt (floatFF ty) .rne false 0 (if larger then p.max q else p.min q))
    else if decide (elemInt ty x ≤ elemInt ty y) == larger then y else x
/-- `vmin` (R325). -/
def execVmin (h : Hdr) (ty : VTy) (im : Option (BitVec 28)) (s : State) : Out :=
  execV (.vmin h ty im) (fun _ x => map2 (fun _ => minmaxLane ty false) x.va (x.vb ty im)) s
/-- `vmax` (R325). -/
def execVmax (h : Hdr) (ty : VTy) (im : Option (BitVec 28)) (s : State) : Out :=
  execV (.vmax h ty im) (fun _ x => map2 (fun _ => minmaxLane ty true) x.va (x.vb ty im)) s

/-- An integer operation on elements of an integer type. -/
def int2 (ty : VTy) (f : Int → Int → Int) : Lane → Lane → Lane :=
  zipElems ty fun _ x y => BitVec.ofInt _ (f (elemInt ty x) (elemInt ty y))
/-- `vaddsat` (Table 14-3). -/
def execVaddsat (h : Hdr) (ty : VTy) (im : Option (BitVec 28)) (s : State) : Out :=
  execV (.vaddsat h ty im) (fun _ x => map2 (fun _ => int2 ty fun p q => clamp ty (p + q)) x.va (x.vb ty im)) s
/-- `vsubsat` (Table 14-3). -/
def execVsubsat (h : Hdr) (ty : VTy) (im : Option (BitVec 28)) (s : State) : Out :=
  execV (.vsubsat h ty im) (fun _ x => map2 (fun _ => int2 ty fun p q => clamp ty (p - q)) x.va (x.vb ty im)) s
/-- `vavg` (Table 14-3): ⌊(x + y + 1) / 2⌋. -/
def execVavg (h : Hdr) (ty : VTy) (im : Option (BitVec 28)) (s : State) : Out :=
  execV (.vavg h ty im) (fun _ x => map2 (fun _ => int2 ty fun p q => (p + q + 1) / 2) x.va (x.vb ty im)) s
/-- `vabsd` (Table 14-3). -/
def execVabsd (h : Hdr) (ty : VTy) (im : Option (BitVec 28)) (s : State) : Out :=
  execV (.vabsd h ty im) (fun _ x => map2 (fun _ => int2 ty fun p q => (p - q).natAbs) x.va (x.vb ty im)) s
/-- `vdot4` (R327): z plus the four products. -/
def vdot4Lane (ty : VTy) (x y z : Lane) : Lane :=
  BitVec.ofInt 32 ((List.range 4).foldl (fun acc j =>
    acc + elemInt ty (x.extractLsb' (8 * j) 8) * elemInt ty (y.extractLsb' (8 * j) 8)) z.toInt)
/-- `vdot4` (R327). -/
def execVdot4 (h : Hdr) (ty : VTy) (im : Option (BitVec 28)) (s : State) : Out :=
  execV (.vdot4 h ty im) (fun _ x => map3 (fun _ => vdot4Lane ty) x.va (x.vb ty im) x.vc) s

/-- `vscale` on one lane (R328): rnd32(x * 2^k). A count beyond ±1000 gives the result of a count of ±1000, which is already
an overflow or rounds as the smallest magnitude does. -/
def vscaleLane (fmt : Word) (x k : Lane) : Lane := rnd32 fmt ((f32 x).scale (max (-1000) (min 1000 k.toInt)))
/-- `vscale` (R328); its immediate follows the `.i32` row (R322). -/
def execVscale (h : Hdr) (im : Option (BitVec 28)) (s : State) : Out :=
  execV (.vscale h im) (fun b x => map2 (fun _ => vscaleLane b.fmt0) x.va (x.vb .i32 im)) s
/-- The rounding mode of `vrint` (R328). -/
def vrintMode (fmt : Word) (m : Fin 6) : RM :=
  match m.val with
  | 0 => rndMode fmt
  | 1 => .rne
  | 2 => .rtz
  | 3 => .rup
  | 4 => .rdn
  | _ => .rna
/-- `vrint` on one lane (R328). -/
def vrintLane (mode : RM) (x : Lane) : Lane :=
  match f32 x with
  | .fin n m e => rne32 (.fin n (roundQ mode 0 n m e 0) 0)
  | y => rne32 y
/-- `vrint` (R328). -/
def execVrint (h : Hdr) (mode : Fin 6) (s : State) : Out :=
  execV (.vrint h mode) (fun b x => map1 (fun _ => vrintLane (vrintMode b.fmt0 mode)) x.va) s
/-- `vgetexp` on one lane (R328). -/
def vgetexpLane (x : Lane) : Lane :=
  match f32 x with
  | .fin _ m e => if m = 0 then 0x80000000 else BitVec.ofInt 32 (flog2 m e)
  | _ => 0x7FFFFFFF
/-- `vgetexp` (R328). -/
def execVgetexp (h : Hdr) (s : State) : Out := execV (.vgetexp h) (fun _ x => map1 (fun _ => vgetexpLane) x.va) s
/-- `vclass` on one lane (R328): exactly one bit. -/
def vclassLane (x : Lane) : Lane :=
  match f32 x with
  | .nan => 1
  | .inf n => if n then 2 else 0x100
  | .fin n m _ =>
    if m = 0 then (if n then 0x10 else 0x20)
    else if m < 2 ^ 23 then (if n then 8 else 0x40)
    else if n then 4 else 0x80
/-- `vclass` (R328). -/
def execVclass (h : Hdr) (s : State) : Out := execV (.vclass h) (fun _ x => map1 (fun _ => vclassLane) x.va) s

/-! Group 3. -/

/-- `vand` (R330). -/
def execVand (h : Hdr) (im : Option (BitVec 28)) (s : State) : Out :=
  execV (.vand h im) (fun _ x => map2 (fun _ p q => p &&& q) x.va (x.vb .b32 im)) s
/-- `vor` (R330). -/
def execVor (h : Hdr) (im : Option (BitVec 28)) (s : State) : Out :=
  execV (.vor h im) (fun _ x => map2 (fun _ p q => p ||| q) x.va (x.vb .b32 im)) s
/-- `vxor` (R330). -/
def execVxor (h : Hdr) (im : Option (BitVec 28)) (s : State) : Out :=
  execV (.vxor h im) (fun _ x => map2 (fun _ p q => p ^^^ q) x.va (x.vb .b32 im)) s
/-- `vnot` (R330). -/
def execVnot (h : Hdr) (s : State) : Out := execV (.vnot h) (fun _ x => map1 (fun _ p => ~~~p) x.va) s

/-- A shift of elements; the count is taken modulo the width (R330). -/
def shiftLane (ty : VTy) (f : BitVec (elemBits ty) → Nat → BitVec (elemBits ty)) : Lane → Lane → Lane :=
  zipElems ty fun _ x y => f x (y.toNat % elemBits ty)
/-- `vshl` (R330). -/
def execVshl (h : Hdr) (ty : VTy) (im : Option (BitVec 28)) (s : State) : Out :=
  execV (.vshl h ty im) (fun _ x => map2 (fun _ => shiftLane ty fun p n => p <<< n) x.va (x.vb ty im)) s
/-- `vshr` (R330). -/
def execVshr (h : Hdr) (ty : VTy) (im : Option (BitVec 28)) (s : State) : Out :=
  execV (.vshr h ty im) (fun _ x => map2 (fun _ => shiftLane ty fun p n => p >>> n) x.va (x.vb ty im)) s
/-- `vsra` (R330). -/
def execVsra (h : Hdr) (ty : VTy) (im : Option (BitVec 28)) (s : State) : Out :=
  execV (.vsra h ty im) (fun _ x => map2 (fun _ => shiftLane ty fun p n => p.sshiftRight n) x.va (x.vb ty im)) s
/-- `vrotl` (R330). -/
def execVrotl (h : Hdr) (im : Option (BitVec 28)) (s : State) : Out :=
  execV (.vrotl h im) (fun _ x => map2 (fun _ p q => p.rotateLeft (q.toNat % 32)) x.va (x.vb .b32 im)) s
/-- `vclz` on one lane. -/
def vclzLane (x : Lane) : Lane := if x = 0 then 32 else BitVec.ofNat 32 (31 - Nat.log2 x.toNat)
/-- `vclz` (R330). -/
def execVclz (h : Hdr) (s : State) : Out := execV (.vclz h) (fun _ x => map1 (fun _ => vclzLane) x.va) s
/-- `vpopc` on one lane. -/
def vpopcLane (x : Lane) : Lane := BitVec.ofNat 32 ((List.range 32).countP fun i => x.getLsbD i)
/-- `vpopc` (R330). -/
def execVpopc (h : Hdr) (s : State) : Out := execV (.vpopc h) (fun _ x => map1 (fun _ => vpopcLane) x.va) s
/-- `vbrev` (R330). -/
def execVbrev (h : Hdr) (s : State) : Out := execV (.vbrev h) (fun _ x => map1 (fun _ p => p.reverse) x.va) s

/-- The conditions of `vcmp` on one lane (Table 14-6). -/
def vcmpLane (ty : VTy) (c : VCond) (x y : Lane) : Bool :=
  if ty.isFloat then
    let p := f32 x
    let q := f32 y
    match c with
    | .eq => p.eq q
    | .ne => !p.eq q
    | .lt => p.lt q
    | .le => p.lt q || p.eq q
    | .gt => q.lt p
    | .ge => q.lt p || p.eq q
    | .un => p == .nan || q == .nan
  else
    let p := elemInt ty x
    let q := elemInt ty y
    match c with
    | .eq => p == q
    | .ne => p != q
    | .lt => decide (p < q)
    | .le => decide (p ≤ q)
    | .gt => decide (q < p)
    | .ge => decide (q ≤ p)
    | .un => false
/-- `vcmp` (R331): a mask of the live lanes in which the condition holds. -/
def execVcmp (h : Hdr) (ty : VTy) (cond : VCond) (s : State) : Out :=
  execValue (.vcmp h ty cond) 1 (fun b x =>
    let m := maskTab fun l => Word.bit b.live0 l && vcmpLane ty cond (x.va.lane l) ((x.vb ty none).lane l)
    (.k m, .k m)) s
/-- `vsel` (R332). -/
def execVsel (h : Hdr) (im : Option (BitVec 28)) (s : State) : Out :=
  execV (.vsel h im) (fun _ x => Vec.tab fun l => if Word.bit x.sa l then (x.vb .b32 im).lane l else x.vc.lane l) s
/-- `vsplat` (R332). -/
def execVsplat (h : Hdr) (hi : Bool) (s : State) : Out :=
  execV (.vsplat h hi) (fun _ x => Vec.tab fun _ => x.sa.extractLsb' (if hi then 32 else 0) 32) s
/-- `vshfl` (R332). -/
def execVshfl (h : Hdr) (im : Option (BitVec 28)) (s : State) : Out :=
  execV (.vshfl h im) (fun _ x => Vec.tab fun l => x.va.lane (((x.vb .b32 im).lane l).toNat % 64)) s
/-- `vbcast` (R332). -/
def execVbcast (h : Hdr) (im : Option (BitVec 28)) (s : State) : Out :=
  execV (.vbcast h im) (fun _ x => Vec.tab fun _ => x.va.lane (fld (x.sb im) 0 6)) s
/-- `vlrot` (R332). -/
def execVlrot (h : Hdr) (im : Option (BitVec 28)) (s : State) : Out :=
  execV (.vlrot h im) (fun _ x => Vec.tab fun l => x.va.lane ((l + fld (x.sb im) 0 6) % 64)) s
/-- `vcompress` (R332). -/
def execVcompress (h : Hdr) (s : State) : Out :=
  execV (.vcompress h) (fun b x =>
    let ls := (lanesOf (b.live0 &&& x.sb none)).map fun l => x.va.lane l
    Vec.tab fun l => ls.getD l 0) s
/-- `vexpand` (R332). -/
def execVexpand (h : Hdr) (s : State) : Out :=
  execV (.vexpand h) (fun b x =>
    let m := b.live0 &&& x.sb none
    Vec.tab fun l => if Word.bit m l then x.va.lane (popcount (m &&& (1#64 <<< l - 1))) else 0) s

end Sys2Proof.Machine
end

