-- ==== Sys2Proof/Machine/Convert.lean ====
section
/-! DEFINITION. Group 4: conversion, block encoding, transcendental functions, reductions and scans (chapter 14). -/

namespace Sys2Proof.Machine

/-- The exact value of an element of a type. -/
def elemExt (ty : VTy) (x : BitVec n) : Ext := if ty.isFloat then elemF ty x else Ext.ofInt (elemInt ty x)

/-- `conv` of `vcvt` (Table 14-8) of one element to an element of the destination type. -/
def convElem (fmt : Word) (dst src : VTy) (md : Bool) (l idx : Nat) (x : BitVec n) : BitVec (elemBits dst) :=
  if dst.isFloat then BitVec.ofNat _ (cvtn fmt (floatFF dst) l idx (elemExt src x))
  else if src.isFloat then
    BitVec.ofInt _ (toint (if md then .rtz else nrwMode fmt) (srHash (seedOf fmt) l idx) (elemLo dst) (elemHi dst) (elemF src x))
  else
    let v := elemInt src x
    BitVec.ofInt _ (if md then clamp dst v else v)

/-- One lane of `vcvt` (R333). -/
def vcvtLane (fmt : Word) (dst src : VTy) (md : Bool) (part l : Nat) (x : Lane) : Lane :=
  let e (j : Nat) : BitVec (elemBits src) := x.extractLsb' (elemBits src * j) (elemBits src)
  let nd := dst.lanesPer
  let ns := src.lanesPer
  packElems (elemBits dst) ((List.range nd).map fun j =>
    if ns < nd then
      if part * ns ≤ j ∧ j < part * ns + ns then convElem fmt dst src md l j (e (j - part * ns)) else 0
    else convElem fmt dst src md l j (e (part * nd + j)))

/-- `vcvt` (R333). -/
def execVcvt (h : Hdr) (dst src : VTy) (md : Bool) (part : BitVec 2) (s : State) : Out :=
  execV (.vcvt h dst src md part) (fun b x => map1 (vcvtLane b.fmt0 dst src md part.toNat) x.va) s

/-- Bits of an element of a block format. -/
def BFmt.bits (f : BFmt) : Nat :=
  match f with
  | .mxfp4 | .bt4 => 4
  | _ => 8

/-- Pack a block's 32 codes into lanes, `32 / bits` to a lane (R334). -/
def packCodes (bits : Nat) (codes : List Nat) : List Lane :=
  let n := 32 / bits
  (List.range (32 / n)).map fun i =>
    BitVec.ofNat 32 (((codes.drop (i * n)).take n).foldr (fun c acc => c % 2 ^ bits + 2 ^ bits * acc) 0)

/-- The two blocks of `vencb` (R334): scale bytes and codes. -/
def vencbBlocks (fmt : Word) (f : BFmt) (t : BtType) (a : Vec) : List (Nat × List Nat) :=
  (List.range 2).map fun β => encb fmt f t (32 * β) ((List.range 32).map fun i => f32 (a.lane (32 * β + i)))

/-- `vencb` (R334, R335): codes to `T0`, scale bytes to `T1`. -/
def execVencb (h : Hdr) (f : BFmt) (bt : Option BtType) (s : State) : Out :=
  execV2 (.vencb h f bt) (fun b x =>
    let bl := vencbBlocks b.fmt0 f (bt.getD (fmtB4T b.fmt0)) x.va
    let codes := bl.flatMap fun p => packCodes (BFmt.bits f) p.2
    (Vec.tab fun l => codes.getD l 0, Vec.tab fun l => if l < 2 then BitVec.ofNat 32 (bl.getD l (0, [])).1 else 0)) s

/-- `vdecb` (R336). -/
def execVdecb (h : Hdr) (f : BFmt) (s : State) : Out :=
  execV (.vdecb h f) (fun _ x =>
    let n := 32 / BFmt.bits f
    Vec.tab fun l =>
      let β := l / 32
      let i := l % 32
      let code := (x.va.lane (32 / n * β + i / n)).toNat / 2 ^ (BFmt.bits f * (i % n)) % 2 ^ BFmt.bits f
      rne32 (decb f (((x.vb .b32 none).lane β).toNat % 256) code)) s

/-- `vexp2` (R338). -/
def execVexp2 (h : Hdr) (s : State) : Out := execV (.vexp2 h) (fun _ x => map1 (fun _ => vexp2) x.va) s
/-- `vlog2` (R338). -/
def execVlog2 (h : Hdr) (s : State) : Out := execV (.vlog2 h) (fun _ x => map1 (fun _ => vlog2) x.va) s
/-- `vrcp` (R339). -/
def execVrcp (h : Hdr) (s : State) : Out := execV (.vrcp h) (fun _ x => map1 (fun _ => vrcp) x.va) s
/-- `vrsqrt` (R339). -/
def execVrsqrt (h : Hdr) (s : State) : Out := execV (.vrsqrt h) (fun _ x => map1 (fun _ => vrsqrt) x.va) s

/-- Fire `vsin` or `vcos` (R340): a live lane out of range sets `WST.RANGE` at commit. -/
def fireTrig (i : Instr) (turns isSin : Bool) (s : State) : Out :=
  .next (s.issue i (fun _ => true) (fun s => s.deliverNull i) fun b x s =>
    let s := if (lanesOf b.live0).any fun l => trigRange (x.va.lane l) then
        s.modBlk s.cur fun b => { b with deferred := { b.deferred with range := true } } else s
    let v : Token := .v (map1 (fun _ => trig turns isSin) x.va)
    (s.countW s.cur 4 1).deliver2 s.cur s.curIdx (Instr.header i) v v)

/-- `vsin` (R340). -/
def execVsin (h : Hdr) (turns : Bool) (s : State) : Out := fireTrig (.vsin h turns) turns true s
/-- `vcos` (R340). -/
def execVcos (h : Hdr) (turns : Bool) (s : State) : Out := fireTrig (.vcos h turns) turns false s

/-- The combination of `vred` and `vscan` (R341). -/
def redCombine (ty : VTy) (op : RedOp) (fmt : Word) (x y : Lane) : Lane :=
  match op with
  | .add => vaddLane ty fmt x y
  | .min => minmaxLane ty false x y
  | .max => minmaxLane ty true x y
  | .and => x &&& y
  | .or => x ||| y
  | .xor => x ^^^ y

/-- The identity element (R341). -/
def redId (ty : VTy) (op : RedOp) : Lane :=
  match op with
  | .add => if ty.isFloat then 0x80000000 else 0
  | .min => match ty with
    | .i32 => 0x7FFFFFFF
    | .n32 => 0xFFFFFFFF
    | _ => 0x7F800000
  | .max => match ty with
    | .i32 => 0x80000000
    | .n32 => 0
    | _ => 0xFF800000
  | .and => 0xFFFFFFFF
  | _ => 0

/-- A lane as a result: a NaN is the canonical one, even where no operation has been made on an operand (R300, R323). -/
def canonLane (ty : VTy) (x : Lane) : Lane := if ty == .f32 && f32 x == .nan then 0x7FC00000 else x

/-- The result of `vred` over the live lanes (R342). -/
def vredVal (ty : VTy) (op : RedOp) (fmt live : Word) (a : Vec) : Word :=
  let r := canonLane ty ((tree64 (redCombine ty op fmt) ((List.range 64).map fun l =>
    if Word.bit live l then some (a.lane l) else none)).getD 0)
  if ty == .i32 then r.signExtend 64 else r.zeroExtend 64

/-- `vred` (R342). -/
def execVred (h : Hdr) (ty : VTy) (op : RedOp) (s : State) : Out :=
  execValue (.vred h ty op) 1 (fun b x =>
    let v : Token := .s (vredVal ty op b.fmt0 b.live0 x.va)
    (v, v)) s

/-- One step of the scan of R343 at distance d. -/
def scanStep (op : Lane → Lane → Lane) (d : Nat) (xh : List (Lane × Bool)) : List (Lane × Bool) :=
  xh.mapIdx fun l p =>
    if d ≤ l ∧ p.2 = false then
      let q := xh.getD (l - d) (0, false)
      (op q.1 p.1, q.2)
    else p

/-- The result of `vscan` (R343). -/
def vscanVal (ty : VTy) (ex : Bool) (op : RedOp) (fmt live : Word) (a : Vec) (heads : Word) : Vec :=
  let id := redId ty op
  let x0 := (List.range 64).map fun l => (if Word.bit live l then a.lane l else id, Word.bit heads l)
  let r := [1, 2, 4, 8, 16, 32].foldl (fun x d => scanStep (redCombine ty op fmt) d x) x0
  Vec.tab fun l => canonLane ty
    (if ex then (if l = 0 || Word.bit heads l then id else (r.getD (l - 1) (0, false)).1) else (r.getD l (0, false)).1)

/-- `vscan` (R343). -/
def execVscan (h : Hdr) (ty : VTy) (ex : Bool) (op : RedOp) (s : State) : Out :=
  execV (.vscan h ty ex op) (fun b x => vscanVal ty ex op b.fmt0 b.live0 x.va (x.sb none)) s

end Sys2Proof.Machine
end

