-- ==== Sys2Proof/Machine/Matrix.lean ====
section
/-! DEFINITION. Group 5: matrix mode (chapter 15; R346, R356, R357). A window instruction acts on the warp's registers when it issues (R360), an `mma`, `mmar` or `mld` step by step
(R355, R359). -/

namespace Sys2Proof.Machine

/-- Base register of a window (R344). -/
def winBase (m : Word) (win : Bool) : Nat := if win then mregAcc1 m else mregAcc0 m

/-- Vector register `r` of a warp. -/
def Warp.vreg (x : Warp) (r : Nat) : Vec := x.v.getD r []

/-- Replace registers from `b` on; what is written whole is no longer poisoned (R447). -/
def Warp.putRegs (x : Warp) (b : Nat) (l : List Vec) : Warp :=
  { x with
    v := x.v.mapIdx fun r v => if b ≤ r ∧ r < b + l.length then l.getD (r - b) v else v,
    poison := x.poison.filter fun p => match p with
      | .v r _ => decide (r < b ∨ b + l.length ≤ r)
      | _ => true }

/-- The tile of a window, row by row (Table 15-1). -/
def Warp.tile (x : Warp) (b : Nat) : List Vec := (List.range 64).map fun i => x.vreg (b + i)
/-- Running maxima of a window. -/
def Warp.maxima (x : Warp) (b : Nat) : Vec := x.vreg (b + 64)
/-- Running sums of a window. -/
def Warp.sums (x : Warp) (b : Nat) : Vec := x.vreg (b + 65)
/-- Latch of a window (R345). -/
def Warp.latch (x : Warp) (win : Bool) : Vec := if win then x.latch1 else x.latch0
/-- Replace the latch of a window; it is no longer poisoned (R447). -/
def Warp.putLatch (x : Warp) (win : Bool) (l : Vec) : Warp :=
  let x := { x with poison := x.poison.filter fun p => match p with
    | .l q _ => q != win
    | _ => true }
  if win then { x with latch1 := l } else { x with latch0 := l }

/-- Whether a latch is poisoned (R445, R447). -/
def Warp.latchPoison (x : Warp) (win : Bool) : Bool := x.poison.any fun p => match p with
  | .l q _ => q == win
  | _ => false

/-- The latches after a reset, `mmode.on` or `mzero`: minus infinity (R345). -/
def latchInit : Vec := Vec.tab fun _ => ninf32

/-- Whether a register of a window is poisoned (R447). -/
def Warp.winPoison (x : Warp) (b n : Nat) : Bool := x.poison.any fun p => match p with
  | .v r _ => decide (b ≤ r ∧ r < b + n)
  | _ => false

/-- The scratchpad as a step of a window instruction of warp `w` sees it (R252, R259, R359): with the warp's own stores; of what another agent has
written, where it may become visible now, each byte is the old or the new one, by a free value. -/
def State.stepSees (s : State) (w : Nat) : Team :=
  let t := (s.warp w).team
  let new (n o : Nat) : Bool := (Config.freeWord (s.fresh + o)).getLsbD (n % 64)
  (s.team t).pend.zipIdx.foldl (fun x q =>
    if q.1.warp == some w then x.put q.1
    else if s.spadMay t q.2 q.1 then
      x.put { q.1 with bytes := q.1.bytes.filter fun p => new q.2 p.1, poison := q.1.poison.filter (new q.2) }
    else x) (s.team t)

/-- A byte of the scratchpad as a window instruction of the block sees it (R359): the block's own earlier `mst` writes, then
the team's memory; bytes beyond the allocation are 0 (R351). -/
def spByte (t : Team) (b : Blk) (o : Nat) : BitVec 8 :=
  if t.alloc ≤ o then 0
  else match b.mst.find? fun p => p.1 == o with
    | some p => p.2
    | none => getByte t.spad o

/-- Whether the scratchpad word of a byte is poisoned, in the same view. -/
def spWordPoison (t : Team) (b : Blk) (o : Nat) : Bool :=
  decide (o < t.alloc) &&
    (if b.mst.any fun p => p.1 == o then b.mstP.contains (o / 4 * 4) else t.spPoison.contains (o / 4 * 4))

/-- Element width in bits of a matrix format code (Table 13-4). -/
def codeWidth (c : Nat) : Nat := if c = 1 ∨ c = 2 then 16 else if c = 5 ∨ c = 8 then 4 else 8
/-- k of a matrix format code (Table 13-4). -/
def codeK (c : Nat) : Nat := if c = 1 ∨ c = 2 then 2 else if c = 5 ∨ c = 8 then 16 else 4
/-- Whether a code is block-scaled. -/
def codeScaled (c : Nat) : Bool := decide (5 ≤ c ∧ c ≤ 8)
/-- Whether a code is an integer format. -/
def codeInt (c : Nat) : Bool := c == 9 || c == 10

/-- `ELOFS` of a panel descriptor (R349, Table 15-3). -/
def elOfs (d : Word) : Nat := fld d 6 13 * 64
/-- `SCOFS` of a panel descriptor (R349, Table 15-3). -/
def scOfs (d : Word) : Nat := fld d 38 13 * 64

/-- The code of element j in row t of an element plane (R305). -/
def planeCode (rd : Nat → BitVec 8) (w base t j : Nat) : Nat :=
  if w = 4 then (rd (base + t * 32 + j / 2)).toNat / 2 ^ (4 * (j % 2)) % 16
  else leNat ((List.range (w / 8)).map fun i => rd (base + t * 8 * w + j * (w / 8) + i))

/-- The exact value of a panel element (Table 15-4). -/
def panelVal (rd : Nat → BitVec 8) (c : Nat) (d : Word) (t j : Nat) : Ext :=
  let x := planeCode rd (codeWidth c) (elOfs d) t j
  let sc := (rd (scOfs d + 64 * (t / 32) + j)).toNat
  match c with
  | 1 => val .bf16 x
  | 2 => val .fp16 x
  | 3 => val .e4m3 x
  | 4 => val .e5m2 x
  | 5 => decb .mxfp4 sc x
  | 6 => decb .mxfp8e4 sc x
  | 7 => decb .mxfp8e5 sc x
  | 8 => decb .bt4 sc x
  | 9 => Ext.ofInt (BitVec.ofNat 8 x).toInt
  | _ => Ext.ofInt x

/-- An exact integer value as an integer. -/
def Ext.int : Ext → Int
  | .fin n m e => (if n then -1 else 1) * ((m * 2 ^ e.toNat : Nat) : Int)
  | _ => 0

/-- One cell of one step (R353): the old accumulator plus 2^pse times the products, rounded once; or modulo 2^32. -/
def stepCell (fc : Nat) (pse : Int) (c : Lane) (prods : List Ext) : Lane :=
  if fc = 1 then BitVec.ofInt 32 (prods.foldl (fun a p => a + Ext.int p) c.toInt)
  else rne32 (Ext.sum false (f32 c :: prods.map fun p => p.scale pse))

/-- One step over the tile: `A t i` and `B t j` give the values of the step's k rows (R353). -/
def gridStep (fc : Nat) (pse : Int) (k : Nat) (A B : Nat → Nat → Ext) (C : List Vec) : List Vec :=
  C.mapIdx fun i row => Vec.tab fun j =>
    stepCell fc pse (row.lane j) ((List.range k).map fun t => (A t i).mul (B t j))

/-- What a poisoned step leaves in every cell (R447). -/
def poisonTile (fc : Nat) : List Vec := List.replicate 64 (Vec.tab fun _ => if fc = 1 then 0x80000000 else nan32)

/-- Post the record of poison that a window instruction met; no warp parks (R447). -/
def State.postPoison (s : State) : State :=
  let f := { s.fillRec s.cur { code := 15, src := 1, index := s.curIdx } with lanes := (s.warp s.cur).live, wid := none }
  s.postRec (s.place s.cur).ctx f

/-- Bytes of a panel that step `st` reads: rows st·k to st·k + k − 1 of the element plane and their scales (R350). -/
def stepBytes (c : Nat) (d : Word) (k st : Nat) : List Nat :=
  let w := codeWidth c
  (List.range (k * 8 * w)).map (fun i => elOfs d + st * k * 8 * w + i) ++
    (if codeScaled c then (List.range 64).map fun j => scOfs d + 64 * (st * k / 32) + j else [])

/-- The operands that an instruction has fired with. -/
def Blk.args (b : Blk) (i : Nat) : Args := { a := (b.opnd? i .a).getD .null, b := (b.opnd? i .b).getD .null, c := (b.opnd? i .c).getD .null }

/-- A block in which the issued instruction has had lane-array tick `k` of its `n` (R355). -/
def State.ticked (s : State) (n k : Nat) (b : Blk) : Blk :=
  if k + 1 < n then { b with run := some (s.curIdx, k + 1) }
  else { b with run := none, when_ := (s.curIdx, s.localTick (s.place s.cur).die) :: b.when_ }

/-- Lane-array tick `k` of the `n` that the issued matrix instruction takes (R149, R355, R358), which does what `step` says. -/
def State.laneStep (s : State) (n k : Nat) (step : Nat → State → State) : State :=
  step k ((s.countW s.cur 4 1).modBlk s.cur (s.ticked n k))

/-- Issue a matrix instruction that takes `n` lane-array ticks, each with what `step` gives it (R355): the first when it fires, if `hazard` finds
none of umpire mode in the ranges that it reads or writes (R69, R183), each later one when it is issued again. -/
def execSteps (i : Instr) (n : Nat) (hazard : State → Blk → Args → Option (Nat × Nat)) (step : Blk → Args → Nat → State → State) (s : State) :
    Out :=
  .next (match s.issuing?.bind fun b => b.run.map fun q => (b, q) with
  | some (b, j, k) => if j = s.curIdx then s.laneStep n k (step b (b.args j)) else s
  | none => s.issue i (fun _ => true) id fun b x s => match hazard s b x with
    | some (c, o) => s.hazard s.cur s.curIdx c o
    | none => s.laneStep n 0 (step b x))

/-- Issue a matrix instruction without scratchpad accesses that does all its work in its first lane-array tick. -/
def execMatrix (i : Instr) (n : Nat) (onFire : Blk → Args → State → State) (s : State) : Out :=
  execSteps i n (fun _ _ _ => none) (fun b x k s => if k = 0 then onFire b x s else s) s

/-- The hazards of a matrix instruction that reads scratchpad ranges, or writes them. -/
def panelHazard (wr : Bool) (ranges : Blk → Args → List (Nat × Nat)) (s : State) (b : Blk) (x : Args) : Option (Nat × Nat) :=
  let l := s.ofTeam s.cur (ranges b x)
  s.spadHazard s.cur b (ranges b x) (if wr then [] else l) (if wr then l else [])

/-- The scratchpad ranges of `n` steps of a panel: its element rows and their scales (R350). -/
def panelRanges (c : Nat) (d : Word) (k n : Nat) : List (Nat × Nat) :=
  (elOfs d, n * k * 8 * codeWidth c) :: (if codeScaled c then [(scOfs d, 64 * ((n * k + 31) / 32))] else [])

/-- Change the issuing warp's registers. -/
def State.onWarp (s : State) (f : Warp → Warp) : State := s.modWarp s.cur f

/-- `mmode` (R363): `mreg` is written at commit; a second one raises the operand conflict fault. -/
def execMmode (h : Hdr) (on en1 : Bool) (acc0 acc1 : BitVec 8) (s : State) : Out :=
  execQuiet (.mmode h on en1 acc0 acc1) (fun b _ s =>
    if b.deferred.mmode.isSome then s.faultAt s.cur s.curIdx 2 0
    else s.defer fun d => { d with mmode := some (s.curIdx, on, en1, acc0.toNat, acc1.toNat) }) s

/-- `mzero` (R364). -/
def execMzero (h : Hdr) (win tile : Bool) (s : State) : Out :=
  execMatrix (.mzero h win tile) 1 (fun b _ s => s.onWarp fun x =>
    let z : Vec := Vec.tab fun _ => 0
    let x := x.putRegs (winBase b.mreg0 win) (List.replicate 64 z)
    if tile then x
    else (x.putRegs (winBase b.mreg0 win + 64) [Vec.tab fun _ => ninf32, z]).putLatch win latchInit) s

/-- The product exponent of a step: bits [7:0] as a signed number. -/
def pseOf (x : Word) : Int := (x.extractLsb' 0 8).toInt

/-- A step of an `mma` or `mmar` on the window at `base`: the tile takes the step's outcome, the step is counted, and counted again when one
of `bytes`, which it reads, lies beyond the allocation (R351). A step that reads poison, or whose window is poisoned as `bad` says, fills the tile
and posts its record (R447). -/
def State.gridAct (s : State) (t : Team) (b : Blk) (base : Nat) (bytes : List Nat) (bad : Bool) (C : List Vec) : State :=
  let s := (s.countW s.cur 5 1).countW s.cur 8 (if bytes.any fun o => decide (t.alloc ≤ o) then 1 else 0)
  let s := { s with fresh := s.fresh + t.alloc }
  if bad || bytes.any (fun o => spWordPoison t b o) then (s.onWarp fun x => x.putRegs base (poisonTile (fmtFC b.fmt0))).postPoison
  else s.onWarp fun x => x.putRegs base C

/-- Step `st` of an `mma` on its window's tile (R353, R365), `t` being the scratchpad that it sees. -/
def mmaStep (t : Team) (b : Blk) (a : Args) (st : Nat) (C : List Vec) : List Vec :=
  let k := codeK (fmtFA b.fmt0)
  gridStep (fmtFC b.fmt0) (pseOf a.sc) k (fun u i => panelVal (spByte t b) (fmtFA b.fmt0) a.sa (st * k + u) i)
    (fun u j => panelVal (spByte t b) (fmtFB b.fmt0) (a.sb none) (st * k + u) j) C

/-- The bytes that step `st` of an `mma` reads. -/
def mmaBytes (b : Blk) (a : Args) (st : Nat) : List Nat :=
  let k := codeK (fmtFA b.fmt0)
  stepBytes (fmtFA b.fmt0) a.sa k st ++ stepBytes (fmtFB b.fmt0) (a.sb none) k st

/-- `mma` (R365). -/
def execMma (h : Hdr) (win : Bool) (steps : BitVec 8) (s : State) : Out :=
  execSteps (.mma h win steps) (steps.toNat + 1) (panelHazard false fun b a =>
    panelRanges (fmtFA b.fmt0) a.sa (codeK (fmtFA b.fmt0)) (steps.toNat + 1) ++
      panelRanges (fmtFB b.fmt0) (a.sb none) (codeK (fmtFA b.fmt0)) (steps.toNat + 1)) (fun b a st s =>
    let x := s.warp s.cur
    let t := s.stepSees s.cur
    let base := winBase b.mreg0 win
    s.gridAct t b base (mmaBytes b a st) (x.winPoison base 64) (mmaStep t b a st (x.tile base))) s

/-- Step `st` of an `mmar` on the tile of acc1, with the tile `A` of acc0 rounded to BF16 (R353, R366). -/
def mmarStep (t : Team) (b : Blk) (a : Args) (s0 st : Nat) (A C : List Vec) : List Vec :=
  gridStep (fmtFC b.fmt0) (pseOf (a.sb none)) 2
    (fun u i => val .bf16 (rnebf16 (f32 ((A.getD i []).lane (2 * (s0 + st) + u)))))
    (fun u j => panelVal (spByte t b) (fmtFB b.fmt0) a.sa (st * 2 + u) j) C

/-- `mmar` (R366). -/
def execMmar (h : Hdr) (steps : BitVec 8) (s0 : BitVec 5) (s : State) : Out :=
  execSteps (.mmar h steps s0) (steps.toNat + 1) (panelHazard false fun b a => panelRanges (fmtFB b.fmt0) a.sa 2 (steps.toNat + 1))
    (fun b a st s =>
    let x := s.warp s.cur
    let t := s.stepSees s.cur
    let base := winBase b.mreg0 true
    let acc0 := winBase b.mreg0 false
    s.gridAct t b base (stepBytes (fmtFB b.fmt0) a.sa 2 st) (x.winPoison base 64 || x.winPoison acc0 64)
      (mmarStep t b a s0.toNat st (x.tile acc0) (x.tile base))) s

/-- The scale factor exponent e of R362: slot a bits [7:0], signed. -/
def scaled (e : Int) (c : Lane) : Lane := rne32 ((f32 c).scale e)

/-- `max` of Table 14-3 on FP32 codes. -/
def fmax32 (x y : Lane) : Lane := rne32 ((f32 x).max (f32 y))

/-- `mmax` (R367). -/
def execMmax (h : Hdr) (win : Bool) (s : State) : Out :=
  execMatrix (.mmax h win) 1 (fun b a s =>
    let x := s.warp s.cur
    let base := winBase b.mreg0 win
    let e := pseOf a.sa
    let m := Vec.tab fun i => (List.range 64).foldl (fun m j => fmax32 m (scaled e ((x.vreg (base + i)).lane j))) ((x.maxima base).lane i)
    if x.winPoison base 65 then
      (s.onWarp fun x => ((x.putRegs (base + 64) [Vec.tab fun _ => nan32]).putLatch win (x.maxima base))).postPoison
    else s.onWarp fun x => (x.putRegs (base + 64) [m]).putLatch win (x.maxima base)) s

/-- The factor between an old and a new maximum (R368, R369): 1 when they are equal as values. -/
def expFactor (o m : Lane) : Lane := if (f32 o).eq (f32 m) then one32 else vexp2 (sub32 o m)

/-- One row of `mexp` (R368): the exponentials. -/
def mexpRow (e : Int) (m : Lane) (row : Vec) : Vec :=
  Vec.tab fun j =>
    if f32 m == .inf true then 0
    else vexp2 (rne32 (((f32 (row.lane j)).scale e).add false (f32 m).neg))

/-- `mexp` (R368). -/
def execMexp (h : Hdr) (win : Bool) (s : State) : Out :=
  execMatrix (.mexp h win) 2 (fun b a s =>
    let x := s.warp s.cur
    let base := winBase b.mreg0 win
    let e := pseOf a.sa
    let p := (List.range 64).map fun i => mexpRow e ((x.maxima base).lane i) (x.vreg (base + i))
    let sm := Vec.tab fun i =>
      add32 (mul32 ((x.sums base).lane i) (expFactor ((x.latch win).lane i) ((x.maxima base).lane i))) (psum64 (p.getD i []))
    if x.winPoison base 66 || x.latchPoison win then
      (s.onWarp fun x => (x.putRegs base (poisonTile 0)).putRegs (base + 65) [Vec.tab fun _ => nan32]).postPoison
    else s.onWarp fun x => (x.putRegs base p).putRegs (base + 65) [sm]) s

/-- `mrescale` (R369). -/
def execMrescale (h : Hdr) (win : Bool) (s : State) : Out :=
  execMatrix (.mrescale h win) 1 (fun b _ s =>
    let x := s.warp s.cur
    let base := winBase b.mreg0 win
    let other := winBase b.mreg0 (!win)
    let r := (List.range 64).map fun i =>
      let f := expFactor ((x.latch (!win)).lane i) ((x.maxima other).lane i)
      Vec.tab fun j => mul32 ((x.vreg (base + i)).lane j) f
    if x.winPoison base 64 || x.winPoison (other + 64) 1 || x.latchPoison (!win) then (s.onWarp fun x => x.putRegs base (poisonTile 0)).postPoison
    else s.onWarp fun x => x.putRegs base r) s

/-- Scratchpad offset of `mld` and `mst`: bits [18:6] of slot a (R370). -/
def mOfs (a : Word) : Nat := fld a 6 13 * 64

/-- Whether a part moves the tile. -/
def movesTile (p : MPart) : Bool := p != .stat
/-- Whether a part moves the statistics. -/
def movesStats (p : MPart) : Bool := p != .tile

/-- The 256-byte groups from `o` on, up to `n` bytes, that reach beyond the allocation (R351). R370 counts the steps of `mld` and `mst` as R351
counts those of an `mma`, and does not say what a step of theirs is: the model takes a group of 256 bytes, one lane-array tick's (log 54). -/
def groupsOver (alloc o n : Nat) : Nat := (List.range (n / 256)).countP fun i => decide (alloc < o + 256 * i + 256)

/-- The lane-array ticks of an `mld` (Table 15-6). -/
def mldTicks : MPart → Nat
  | .tile => 64
  | .all => 66
  | .stat => 2

/-- The words that an `mld` moves from scratchpad offset `o` on into one register; a poisoned one becomes what a poisoned cell does (R447). -/
def mldRow (t : Team) (b : Blk) (o : Nat) : Vec := Vec.tab fun j =>
  if spWordPoison t b (o + 4 * j) then (if fmtFC b.fmt0 = 1 then 0x80000000 else nan32)
  else BitVec.ofNat 32 (leNat ((List.range 4).map fun i => spByte t b (o + 4 * j + i)))

/-- `mld` (R370): raw words from the scratchpad into the window, a register in each lane-array tick. -/
def execMld (h : Hdr) (win : Bool) (part : MPart) (s : State) : Out :=
  execSteps (.mld h win part) (mldTicks part) (panelHazard false fun _ a => [(mOfs a.sa, 256 * mldTicks part)]) (fun b a st s =>
    let t := s.stepSees s.cur
    let o := mOfs a.sa + 256 * st
    let s := s.onWarp fun x => x.putRegs (winBase b.mreg0 win + (if movesTile part then 0 else 64) + st) [mldRow t b o]
    let s := { s.countW s.cur 8 (groupsOver t.alloc o 256) with fresh := s.fresh + t.alloc }
    if (List.range 64).any fun i => spWordPoison t b (o + 4 * i) then s.postPoison else s) s

/-- Width in bytes of a stored format (Table 15-8). -/
def SFmt.bytes (f : SFmt) : Nat :=
  match f with
  | .b32 => 4
  | .bf16 | .f16 => 2
  | .e4m3 | .e5m2 => 1

/-- The stored code of a tile element (Table 15-8). -/
def storeCode (fmt : Word) (f : SFmt) (i j : Nat) (c : Lane) : Nat :=
  match f with
  | .b32 => c.toNat
  | .bf16 => cvtn fmt .bf16 j i (f32 c)
  | .f16 => cvtn fmt .fp16 j i (f32 c)
  | .e4m3 => cvtn fmt .e4m3 j i (f32 c)
  | .e5m2 => cvtn fmt .e5m2 j i (f32 c)

/-- Bytes that `mst` moves. -/
def mstBytes (part : MPart) (f : SFmt) : Nat :=
  (if movesTile part then 4096 * SFmt.bytes f else 0) + (if movesStats part then 512 else 0)

/-- `mst` (R370): the window into the block's buffer of scratchpad bytes, performed at commit (R359). -/
def execMst (h : Hdr) (win : Bool) (part : MPart) (sfmt : SFmt) (s : State) : Out :=
  execSteps (.mst h win part sfmt) (mstBytes part sfmt / 256) (panelHazard true fun _ a => [(mOfs a.sa, mstBytes part sfmt)]) (fun b a st s =>
    if st ≠ 0 then s else
    let x := s.warp s.cur
    let t := s.team x.team
    let base := winBase b.mreg0 win
    let o := mOfs a.sa
    let w := SFmt.bytes sfmt
    let tile : List (Nat × BitVec 8) := if movesTile part then
        (List.range 64).flatMap fun i => (List.range 64).flatMap fun j =>
          placeBytes (o + i * 64 * w + j * w) (leBytes w (storeCode b.fmt0 sfmt i j ((x.vreg (base + i)).lane j)))
      else []
    let so := if movesTile part then o + 4096 * w else o
    let stat (r o : Nat) : List (Nat × BitVec 8) :=
      (List.range 64).flatMap fun j => placeBytes (o + 4 * j) (leBytes 4 ((x.vreg r).lane j).toNat)
    let stats := if movesStats part then stat (base + 64) so ++ stat (base + 65) (so + 256) else []
    let bytes := (tile ++ stats).filter fun p => decide (p.1 < t.alloc)
    let pw := x.poison.flatMap fun p => match p with
      | .v r l =>
        if movesTile part && decide (base ≤ r ∧ r < base + 64) then [(o + (r - base) * 64 * w + l * w) / 4 * 4]
        else if movesStats part && decide (base + 64 ≤ r ∧ r < base + 66) then [so + (r - base - 64) * 256 + 4 * l]
        else []
      | _ => []
    let s := s.modBlk s.cur fun b =>
      { b with mst := bytes.reverse ++ b.mst,
               mstP := pw.filter (fun o => decide (o < t.alloc)) ++ b.mstP.filter fun o => !bytes.any fun p => p.1 == o }
    s.countW s.cur 8 (groupsOver t.alloc o (mstBytes part sfmt))) s

/-- A warp at its start (Table 2-2, Tables 2-3 to 2-5): team, place in it, vector allocation, argument pointer, entry block,
first tick, private slot, timed state. -/
def Warp.start (team idx n : Nat) (args : Word) (entry begin_ pslot : Nat) (timed : TimedW) : Warp :=
  { team := team, idx := idx, v := List.replicate n (Vec.tab fun _ => 0), s := 0 :: args :: List.replicate 62 0,
    k := allLanes :: List.replicate 15 0, fmt := fmtReset, mreg := 0, wst := 0, live := allLanes, retired := 0, cj := none,
    stack := [], spilled := 0, refill := .none, calls := 0, latch0 := latchInit, latch1 := latchInit, trap := {}, park := {},
    next := entry, begin_ := begin_, blk := none, timed := timed, seat := {}, pslot := pslot, poison := [], unchecked := false,
    done := false }

end Sys2Proof.Machine
end

