-- ==== Sys2Proof/Machine/Fetch.lean ====
section
/-! DEFINITION. BLOCK_FETCH: reading a block image, the checks of R420 in their order, and the start of a block (R36, R44, R56,
R77, R90, R178, R179, R181, R348, R394). -/

namespace Sys2Proof.Machine

/-- `n` words from an address of a context. -/
def State.peekWords (s : State) (ctx va n : Nat) : List Word := (List.range n).map fun i => s.peek64 ctx (va + 8 * i)

/-- The first page or protection fault in reading `n` words, with the page's home, space and address (R394). -/
def State.imageFault (s : State) (ctx va n : Nat) : Option (FRec × Option (Nat × Nat × Nat)) :=
  (List.range n).findSome? fun i =>
    let a := va + 8 * i
    let f : FRec := { code := 3, fetch := true, addr := BitVec.ofNat 64 a, aux := 2 }
    match s.transNow ctx true .ex a with
    | .ok _ _ _ => none
    | .page h sp => some (f, some (h, sp, a))
    | .nohome => some (f, none)
    | _ => some ({ f with code := 4, detail := 16 }, none)

/-- The first poisoned word among `n` 8-byte words. -/
def State.imagePoison (s : State) (ctx va n : Nat) : Option FRec :=
  (List.range (2 * n)).findSome? fun i =>
    if s.peekPoison (s.spaceOf ctx (va + 4 * i)) (va + 4 * i) then
      some { code := 15, fetch := true, addr := BitVec.ofNat 64 (va + 4 * i) }
    else none

/-- What reading a block image gives: a fault, or the image with its entry of the block table. -/
inductive ImgRead where
  | bad (f : FRec) (page : Option (Nat × Nat × Nat))
  | got (m : Img) (entry : Word)

/-- Read the image of block `b` for warp `w` (R76, R77): an absent block raises the fault of R53. -/
def State.readImage (s : State) (w b : Nat) : ImgRead :=
  let ctx := (s.place w).ctx
  match s.objOf w with
  | none => .bad { code := 1, detail := 34, fetch := true } none
  | some o => match o.offset? b with
    | none => .bad { code := 1, detail := 34, fetch := true } none
    | some ofs =>
      let va := o.code + ofs
      let e := o.btab.getD b 0
      match s.imageFault ctx va 2, s.imagePoison ctx va 2 with
      | some (f, p), _ => .bad f p
      | none, some f => .bad f none
      | none, none =>
        let m : Img := s.peekWords ctx va 2
        if fld m.h0 60 4 != 0xB || 16 < m.nrd || 16 < m.nwr then .got m e
        else match s.imageFault ctx va m.size, s.imagePoison ctx va m.size with
          | some (f, p), _ => .bad f p
          | none, some f => .bad f none
          | none, none => .got (s.peekWords ctx va m.size) e

/-- The checks of R178, R179 and R181 on one instruction at fetch. -/
def State.timedCheck (s : State) (w cls : Nat) (i : Instr) : Option (Nat × Nat) :=
  let l := s.launchOf w
  match i with
  | .tsend _ t =>
    let t := t.toNat
    if t % 64 != 0 || decide (t < l.strokeD) || decide (l.strokeS < t + 128) || (s.chEntry w (t / 64)).isNone then some (12, 0) else none
  | .trecv _ t => if l.strokeS ≤ t.toNat then some (1, 38) else none
  | .push _ _ (.copy t) => if cls = 2 ∧ l.strokeS ≤ t.toNat then some (1, 38) else none
  | _ => none

/-- The first failing check on an image at fetch, in the order of R420; a timed block that starts without all lanes live is refused (R52).
An untimed launch executes no timed block (R139); the spec states no `DETAIL` for one, which is a free value. A system block that context 0 fetches in
a timed launch is of neither class that R139 names, with no outcome listed; the model runs it as an ordinary block (log 19). -/
def State.imageCheck (s : State) (w : Nat) (m : Img) (e : Word) : Option FRec :=
  let x := s.warp w
  let l := s.launchOf w
  let ctx := (s.place w).ctx
  let fault (code detail : Nat) : FRec := { code := code, detail := detail, fetch := true }
  let pre := match s.objOf w with
    | some o => o.preloads.length
    | none => 0
  let row := m.fetchRow l.vregs l.bars l.coresident pre x.mreg
  let row := firstRow (entryRows e ++ row.toList)
  match row with
  | some r => some (fault 1 (if r = 27 then 39 else r))
  | none =>
    if m.cls = 3 ∧ x.trap.on = false ∧ ctx ≠ 0 then some (fault 4 16)
    else if l.timed && m.cls == 0 then some (fault 1 37)
    else if !l.timed && m.cls == 2 then some (fault 1 (fld (Config.freeWord s.fresh) 0 6))
    else if m.cls = 2 ∧ x.live ≠ allLanes then some (fault 1 43)
    else match m.matrixFault x.live x.mreg x.fmt l.vregs with
      | some (c, d) => some (fault c d)
      | none =>
        let flaw := if s.umpireOn w then m.windowFlaw (m.windowIns (winReg x.mreg)) else none
        match flaw with
        | some (c, p) => some { fault 16 8 with index := c, aux := BitVec.ofNat 64 (c + 256 * p) }
        | none =>
          (List.range m.nins).findSome? fun k => match m.instr? k with
            | some i => (s.timedCheck w m.cls i).map fun q => { fault q.1 q.2 with index := k }
            | none => none

/-- Whether a read slot or a push group reads a poisoned register (R447). -/
def readsPoison (x : Warp) (m : Img) (groups : List Nat) : Bool :=
  x.poison.any fun p => match p with
    | .v r _ => m.reads.any fun q => q.cls == 0 && q.reg == r
    | .s r => (m.reads.any fun q => q.cls == 1 && q.reg == r) || groups.contains (r / 8)
    | .k r => m.reads.any fun q => q.cls == 2 && q.reg == r
    | .l _ _ => false
    | .x r => m.reads.any fun q => q.cls == 3 && q.reg == r

/-- What a read slot delivers (R36). -/
def Warp.readSlot (x : Warp) (r : RSlot) : Token :=
  match r.cls with
  | 0 => .v (x.vreg r.reg)
  | 1 => .s (x.s.getD r.reg 0)
  | 2 => .k (x.k.getD r.reg 0)
  | _ => match r.reg with
    | 0 => .s x.fmt
    | 1 => .s x.mreg
    | _ => .v (Vec.tab fun l => BitVec.ofNat 32 l)

/-- The ticks of an image's timed-issue hints, by instruction; the core reads those of kind 0x02, whatever others say (R75, R172). -/
def Img.issueHints (m : Img) : List (Nat × Nat) := (m.hints.filter fun h => fld h 56 8 == 2).map fun h => (fld h 48 6, fld h 0 25)

/-- Start the block of an image that has passed the fetch checks: its read slots and push groups read their registers. A poisoned one raises its
fault before anything of the block is done (R447). -/
def State.startBlock (s : State) (w : Nat) (m : Img) : State :=
  let x := s.warp w
  let groups := (m.ins.filter fun i => wOpc i == 0x18E).map fun i => fld i 49 4
  let b : Blk :=
    { num := x.next, cls := m.cls, words := m.ins,
      wr := m.writes.map fun q => if q.val then some (q.cls, q.reg) else none, nst := m.nst,
      sprange := (256 * m.spbase, 256 * m.splen), live0 := x.live, fmt0 := x.fmt, mreg0 := x.mreg,
      start := s.localTick (s.place w).die, hints := m.issueHints,
      groups := groups.dedup.map fun g => (g, (List.range 8).map fun i => x.s.getD (8 * g + i) 0),
      win := m.windowIns (winReg x.mreg), flawed := m.stalls || (m.windowFlaw (m.windowIns (winReg x.mreg))).isSome }
  if readsPoison x m groups then (s.countW w 3 1).fault w { code := 15 }
  else
    let s := s.modWarp w fun x => { x with blk := some b }
    let one (s : State) (r : RSlot) : State := [r.t0, r.t1].foldl (fun (s : State) t => match decTarget t with
      | .ok t => s.deliver w 255 t (x.readSlot r)
      | .error _ => s) s
    m.reads.foldl one s

/-- Read spilled groups back before the next block (R55, R56), and let a path-end loop that waits for one go on, at most `n` times; a
fault comes before every check of the block. -/
def State.refill (s : State) (w : Nat) (go : State → State) (n : Nat) : State :=
  let bad (q : BackFault) : State := if q.1.code = 3 then s.pageFault w q.1 q.2 else s.fault w q.1
  match n with
  | 0 => s
  | n + 1 =>
    let x := s.warp w
    let resume (s : State) : State :=
      let s := s.finishPath w
      if (s.warp w).done then s else s.refill w go n
    match x.refill with
    | .none => go s
    | .seek => match s.spilledJoin w x.spilled with
      | .error q => bad q
      | .ok j => resume (s.modWarp w fun x => { x with cj := j, next := if x.live = 0 then j.getD x.next else x.next, refill := .none })
    | r => match s.readGroup w (x.spilled - 1) with
      | .error q => bad q
      | .ok l =>
        let s := (s.ownTake w (s.privBase w + 512 * (x.spilled - 1)) 512).modWarp w fun x => { x with stack := l, spilled := x.spilled - 1, refill := .none }
        if r = .group then go s else resume s

/-- Whether warp `w` may fetch its next block now (R45, R62, R222, R275, R449). -/
def State.mayFetch (s : State) (w : Nat) : Bool :=
  let x := s.warp w
  let d := s.die (s.place w).die
  s.canRun w && x.seat.seat.isSome && x.blk.isNone && decide (x.begin_ ≤ d.local_) && !d.stopped &&
    (d.wrapAt.isNone || (s.launchOf w).timed) && (match x.park.drain with
      | some q => s.drained w q.2
      | none => true)

/-- Whether a refresh of its home holds up the reading of spilled groups of a warp (R174, R196). -/
def State.refillHeld (s : State) (w : Nat) : Bool :=
  let x := s.warp w
  let p := s.place w
  let a := s.privBase w
  x.refill != .none && (List.range (4 * x.spilled)).any fun k => s.dramBusy p.die (s.spaceOf p.ctx a) (a / 128 + k)

/-- Whether a refresh of its home holds up the reading of the next block's image, or of what it needs of the stack; an untimed launch waits (R174). -/
def State.fetchHeld (s : State) (w : Nat) : Bool :=
  !(s.launchOf w).timed && (s.refillHeld w || (s.objOf w).any fun o => match s.homeOf (s.place w).ctx o.code with
    | .loc h _ => s.refreshing h
    | _ => false)

/-- The acquires that a warp owes before its next block (R222, R272): none, where one must wait for a wrap-around, which starts (R275). A warp of a timed
launch does not wait: its core drops every copy that could be older instead (log 50). -/
def State.acquires (s : State) (w : Nat) : Option State :=
  let p := s.place w
  let s := match (s.warp w).park.drain with
    | some (sc, _) =>
      let s := if Scope.quadUp sc then s.dropCopies p.die p.core else s
      (s.acquire w sc).modWarp w fun x => { x with park := { x.park with drain := none } }
    | none => s
  if (s.warp w).park.acq.isNone then some s
  else
    let s := s.ackCore p.die p.core
    if !s.acquireWraps w then some (s.payAcquire w)
    else if (s.launchOf w).timed then
      some (((s.dropCopies p.die p.core).modWarp w fun x => { x with park := { x.park with acq := none } }).startWrap p.die)
    else none

/-- BLOCK_FETCH (R420). -/
def execBlockFetch (w : Nat) (s : State) : Out :=
  .next (if !s.mayFetch w || s.fetchHeld w then s
  else match s.acquires w with
  | none => s.startWrap (s.place w).die
  | some s =>
    if (s.warp w).timed.owesMiss then
      (s.modWarp w fun x => { x with timed := { x.timed with owesMiss := false } }).fault w { code := 10, fetch := true }
    else
      let start (s : State) : State := match s.readImage w (s.warp w).next with
        | .bad f p => if f.code = 3 then s.pageFault w f p else s.fault w f
        | .got m e => match s.imageCheck w m e with
          | some f => ({ s with fresh := s.fresh + 1 }).fault w f
          | none => s.startBlock w m
      s.refill w start (maxDepth + 1))

end Sys2Proof.Machine
end

