-- ==== Sys2Proof/Machine/Retime.lean ====
section
/-! DEFINITION. The timed schedule of a block, as werad computes it (R149, R169, R171, R172, R416). -/

namespace Sys2Proof.Machine

/-- The issue class of an instruction word; a `hint` issues in none. -/
def issueClass (w : Word) : Option IssueClass :=
  let o := wOpc w
  if 0x1F0 ≤ o then none
  else if opVector o || opMatrix o || o == 0x20 || o == 0x18B || (o == 0x21 && fld w 16 13 == SysSel.laneid.code.toNat) then some .lane
  else if o < 0x40 then some .scalar
  else if opM o || o == 0x1C2 || o == 0x1C3 then some .memory
  else some .control

/-- The ticks from issue to delivery (Table 6-5). A `trecv` counts its shortest copy, since how much it copies is data; what the table does not
list delivers in the next tick (log 34). -/
def timedLatency (w : Word) : Nat :=
  let o := wOpc w
  if opMatrix o then matLatency w
  else if opVector o then vecLatency w
  else if o = 0x20 ∨ o = 0x18B ∨ (o = 0x21 ∧ fld w 16 13 = SysSel.laneid.code.toNat) then 2
  else if o = 0x184 then 6
  else if o = 0x186 then 10
  else if o = 0x1C3 then 7
  else 1

/-- The ticks for which an instruction occupies the lane array. -/
def laneTicks (w : Word) : Nat := if opMatrix (wOpc w) then matLane w else 1

/-- Whether a block's timed-issue hints are for this generation, as its hint of kind 0x03 says (R416). -/
def Img.ownHints (m : Img) : Bool := m.hints.any fun h => fld h 56 8 == 3 && fld h 0 8 == 9

/-- The tick before which an instruction does not issue: that of its hint of kind 0x02, where the block keeps its own (R172, R416). -/
def Img.hintTick (m : Img) (k : Nat) : Nat :=
  if m.ownHints then ((m.hints.find? fun h => fld h 56 8 == 2 && fld h 48 6 == k).map fun h => fld h 0 25).getD 0 else 0

/-- A schedule under way: the issue tick of each instruction issued so far, the last lane-array tick of each, and the matrix instruction that has
lane-array ticks to come, with their number. -/
structure Sched where
  at_ : List (Nat × Nat) := []
  last : List (Nat × Nat) := []
  run : Option (Nat × Nat) := none
deriving DecidableEq, Repr

/-- What a list of pairs holds for a number. -/
def lookTick (l : List (Nat × Nat)) (k : Nat) : Option Nat := (l.find? fun p => p.1 == k).map (·.2)

/-- Whether what an instruction of a block delivers has come by tick `t`. -/
def Sched.came (c : Sched) (m : Img) (t k : Nat) : Bool :=
  (lookTick c.at_ k).any fun q => decide (q + timedLatency (m.ins.getD k 0) ≤ t)

/-- Whether every operand of an instruction has come by tick `t`; one that several instructions may deliver, when all have. -/
def Sched.fed (c : Sched) (m : Img) (links : List Link) (t k : Nat) : Bool :=
  links.all fun l => match l.tgt with
    | .opnd i _ => i.toNat != k || l.src.all fun j => c.came m t j
    | _ => true

/-- Whether a load has every store of lower `MSEQ` before it (R46). -/
def Sched.settled (c : Sched) (m : Img) (k : Nat) : Bool :=
  let seq (j : Nat) : Nat := fld (m.ins.getD j 0) 24 5
  let o (j : Nat) : Nat := wOpc (m.ins.getD j 0)
  !opM (o k) || opStore (o k) || (List.range m.nins).all fun j => !opStore (o j) || decide (seq k ≤ seq j) || (lookTick c.at_ j).isSome

/-- Whether a matrix instruction follows another without waiting for its last step (R355): both are `mma` or `mmar`, and an `mmar` does not
take its A operand from the window that the other writes. -/
def chained (p w : Word) : Bool :=
  let mm (o : Nat) : Bool := o == 0x142 || o == 0x143
  mm (wOpc p) && mm (wOpc w) && !(wOpc w == 0x143 && wOpc p == 0x142 && !p.getLsbD 20)

/-- The ticks from the last lane-array tick of a window instruction `p` to the first of a later one `w` (R354, R355): 1, or the latency of `p` where
a matrix instruction waits for it to complete. -/
def windowGap (p w : Word) : Nat :=
  if !opMatrix (wOpc w) || chained p w then 1 else if opMatrix (wOpc p) then matLatency p else vecLatency p

/-- Whether the matrix instructions before `k` let it begin in tick `t` (R354). -/
def Sched.windowFree (c : Sched) (m : Img) (t k : Nat) : Bool :=
  let w := m.ins.getD k 0
  !opMatrix (wOpc w) || ((List.range k).filter fun j => opMatrix (wOpc (m.ins.getD j 0))).all fun j =>
    !(c.run.any fun q => q.1 == j) && (lookTick c.last j).any fun q => decide (q + windowGap (m.ins.getD j 0) w ≤ t)

/-- A schedule in which instruction `k` takes the lane array, or another class, in tick `t`: a matrix instruction one of its ticks (R355). -/
def Sched.take (c : Sched) (m : Img) (t k : Nat) : Sched :=
  let last := (k, t) :: c.last.filter fun p => p.1 != k
  let left (n : Nat) : Option (Nat × Nat) := if n = 0 then none else some (k, n)
  match c.run with
  | some (j, n) => if j = k then { c with last := last, run := left (n - 1) } else { c with at_ := (k, t) :: c.at_, last := last }
  | none => { at_ := (k, t) :: c.at_, last := last, run := left (laneTicks (m.ins.getD k 0) - 1) }

/-- One tick of the schedule: of each class the lowest-indexed instruction that is ready issues, a matrix instruction with lane-array ticks to come
counting as ready (R149, R358). -/
def Sched.tick (c : Sched) (m : Img) (links : List Link) (t : Nat) : Sched :=
  let ready (k : Nat) : Bool :=
    (c.run.any fun q => q.1 == k) || ((lookTick c.at_ k).isNone && decide (m.hintTick k ≤ t) && c.fed m links t k && c.settled m k && c.windowFree m t k)
  let pick (x : IssueClass) : Option Nat := (List.range m.nins).find? fun k => issueClass (m.ins.getD k 0) == some x && ready k
  ([IssueClass.lane, .scalar, .memory, .control].filterMap pick).foldl (fun d k => d.take m t k) c

/-- Whether every instruction of a block has issued, and no matrix instruction has lane-array ticks to come. -/
def Sched.over (c : Sched) (m : Img) : Bool := c.run.isNone && (List.range m.nins).all fun k => (lookTick c.at_ k).isSome

/-- A schedule from tick `t` on, for at most `n` ticks. -/
def Img.schedule (m : Img) (links : List Link) (c : Sched) (t : Nat) : Nat → Sched
  | 0 => c
  | n + 1 => if c.over m then c else m.schedule links (c.tick m links t) (t + 1) n

/-- Ticks in which every schedule ends: the longest matrix block with the latencies of 64 instructions. -/
def schedBound (m : Img) : Nat := if m.cls = 1 then 20000 else 1200

/-- The whole schedule of a block. -/
def Img.scheduled (m : Img) : Sched := m.schedule m.links {} 0 (schedBound m)

/-- The ticks in which each instruction of a block issues. -/
def Img.issueTicks (m : Img) : List (Nat × Nat) := m.scheduled.at_

/-- The tick of a block in which it commits (R43, R356): its instructions have issued (log 16), its outputs have come, its matrix instructions have
completed. -/
def Img.commitTick (m : Img) : Nat :=
  let outs := m.links.filterMap fun l => match l.tgt with
    | .out _ => l.src
    | _ => none
  let c := m.scheduled
  c.at_.foldl (fun n p =>
    let w := m.ins.getD p.1 0
    max n (if opMatrix (wOpc w) then (lookTick c.last p.1).getD 0 + matLatency w
      else if outs.contains p.1 then p.2 + timedLatency w
      else p.2)) 0

/-- An image with the ticks of its hints of kind 0x02 recomputed, where they are not its own (R416). -/
def Img.retimed (m : Img) : Img :=
  if m.ownHints || !(m.hints.any fun h => fld h 56 8 == 2) then m
  else
    let ticks := m.issueTicks
    let first := m.ibase + m.nins
    let new (h : Word) : Word :=
      if fld h 56 8 = 2 then setFld h 0 25 (((ticks.find? fun p => p.1 == fld h 48 6).map (·.2)).getD 0) else h
    m.mapIdx fun i w => if first ≤ i ∧ i < first + m.nhint then new w else w

end Sys2Proof.Machine
end

