-- ==== Sys2Proof/Machine/Issue.lean ====
section
/-! DEFINITION. Issue in a timed launch, which R171 and R172 fix tick by tick: what has come, what is ready, and the instruction that each class
of a core issues (R149, R154, R355, R358). Elsewhere the agenda says what issues (log 14). -/

namespace Sys2Proof.Machine

/-- What an instruction waits for beside its operands (R46, R49). -/
def Blk.gate (b : Blk) (j : Nat) (i : Instr) : Bool :=
  match i with
  | .ld _ m _ => b.mseqTurn m.mseq.toNat
  | .lds _ m _ => b.mseqTurn m.mseq.toNat
  | .spld _ m _ => b.mseqTurn m.mseq.toNat
  | .spldq _ m _ => b.mseqTurn m.mseq.toNat
  | .prefetch _ m _ => b.mseqTurn m.mseq.toNat
  | .atom h m _ => b.mseqTurn m.mseq.toNat && (!hdrReturns h || b.othersSettled j)
  | _ => true

/-- Whether the schedule of a timed launch fixes what a block of warp `w` does in each tick (R171). -/
def State.scheduled (s : State) (w : Nat) (b : Blk) : Bool := (s.launchOf w).timed && (b.cls == 1 || b.cls == 2)

/-- An instruction word of a block. -/
def Blk.word (b : Blk) (k : Nat) : Word := b.words.getD k 0

/-- Whether what instruction `j` delivers has come by local tick `now` (Table 6-5). -/
def Blk.came (b : Blk) (now j : Nat) : Bool := b.when_.any fun e => e.1 == j && decide (e.2 + timedLatency (b.word j) ≤ now)

/-- Whether all that has been delivered to instruction `k` has come. -/
def Blk.fed (b : Blk) (now k : Nat) : Bool :=
  b.fired.all fun j => b.came now j || !((wordTargets (b.word j)).any fun t => match t with
    | .opnd i _ => i.toNat == k
    | _ => false)

/-- Whether window instruction `j` has been over for `n` ticks, counted from its last lane-array tick; one that has not fired counts. -/
def Blk.over (b : Blk) (now j n : Nat) : Bool := (lookTick b.when_ j).all fun t => decide (t + n ≤ now)

/-- Whether the window instructions before `k` let it take its first lane-array tick now (R354, R355). -/
def Blk.windowFree (b : Blk) (now k : Nat) : Bool :=
  !b.win.contains k || b.win.all fun j => decide (k ≤ j) || b.over now j (windowGap (b.word j) (b.word k))

/-- Whether all that a block has delivered to its write slots has come, and its window instructions have completed (R43, R356). -/
def Blk.ended (b : Blk) (now : Nat) : Bool :=
  b.fired.all fun j => (b.came now j || !((wordTargets (b.word j)).any fun t => match t with
      | .out _ => true
      | _ => false)) &&
    (!b.win.contains j || b.over now j (if opMatrix (wOpc (b.word j)) then matLatency (b.word j) else vecLatency (b.word j)))

/-- Whether the ticks of a block allow its commit now; outside the schedule of a timed launch they do. -/
def State.ended (s : State) (w : Nat) (b : Blk) : Bool := !s.scheduled w b || b.ended (s.localTick (s.place w).die)

/-- Whether instruction `k` of a block is ready in local tick `now` of a timed launch: all it needs has come and its hinted tick is there, or it has
lane-array ticks to come (R39, R172, R355). -/
def Blk.ready (b : Blk) (now k : Nat) : Bool :=
  b.runs k || match decode (b.word k) with
  | .error _ => false
  | .ok i => match i.hdr? with
    | none => false
    | some h =>
      decide (((lookTick b.hints k).getD 0) + b.start ≤ now) && b.fed now k && match readiness b k h.pm i.sig with
        | .waits => false
        | .fires _ => b.windowTurn k && b.gate k i && b.windowFree now k
        | _ => true

/-- The local tick in which the stroke that a die is in began, for the timed launch of a warp (R172). -/
def State.beatOf (s : State) (w : Nat) : Nat := (s.region (s.place w).region).beat.2

/-- The instruction that a core issues of a class in this tick for its timed launch, with its warp: of the first seat that has one ready, in the
rotation that begins at the local tick less that of the stroke's beginning, the lowest-indexed (R149, R172); none when the class has issued. -/
def State.pick (s : State) (die core : Nat) (c : IssueClass) : Option (Nat × Nat) :=
  let now := s.localTick die
  let crew := s.coreWarps die core
  let at_ (k : Nat) : Option (Nat × Nat) :=
    (crew.find? fun w => (s.warp w).seat.seat == some ((k + now - s.beatOf w) % 8)).bind fun w => (s.blk? w).bind fun b =>
      if s.scheduled w b && decide ((s.warp w).begin_ ≤ now) then
        ((List.range b.words.length).find? fun i => issueClass (b.word i) == some c && b.ready now i).map fun i => (w, i)
      else none
  if (s.core die core).taken.contains (c, now) then none else (List.range 8).findSome? at_

/-- Whether warp `w` may issue instruction `k` now: in a timed launch when it is the one that its core picks. -/
def State.mayIssue (s : State) (w : Nat) (b : Blk) (k : Nat) : Bool :=
  !s.scheduled w b || (issueClass (b.word k)).any fun c => s.pick (s.place w).die (s.place w).core c == some (w, k)

/-- Make instruction `k` of warp `w` the one that issues; in a timed launch its class has issued in this tick. -/
def State.focus (s : State) (w : Nat) (b : Blk) (k : Nat) : State :=
  let now := s.localTick (s.place w).die
  let s := { s with cur := w, curIdx := k }
  if s.scheduled w b then
    s.modCore (s.place w).die (s.place w).core fun c => { c with
      taken := c.taken.filter (fun q => q.2 == now) ++ (issueClass (b.word k)).toList.map fun x => (x, now) }
  else s

end Sys2Proof.Machine
end

