-- ==== Sys2Proof/Machine/Place.lean ====
section
/-! DEFINITION. What placement needs: launch commands and records and their checks, room, and the placing of regions, gangs and teams
(R135 to R139, R143 to R146, R165, R166, R198). -/

namespace Sys2Proof.Machine

/-! Commands. -/

/-- A byte of a command image. -/
def cmdByte (cmd : List Word) (i : Nat) : Nat := fld (cmd.getD (i / 8) 0) (8 * (i % 8)) 8
/-- The code of a command (Table 8-8). -/
def cmdCode (cmd : List Word) : Nat := fld (cmd.getD 0 0) 0 16
/-- The size of a command in 16-byte units. -/
def cmdSize (cmd : List Word) : Nat := cmdByte cmd 3
/-- Whether every byte of a range is zero. -/
def cmdZero (cmd : List Word) (lo hi : Nat) : Bool := (List.range (hi - lo)).all fun i => cmdByte cmd (lo + i) == 0
/-- Whether a header and the bytes past its size are sound (R229): version, size at least `need` units. -/
def cmdHeader (cmd : List Word) (need : Nat) : Bool :=
  cmdByte cmd 2 != 0 && decide (1 ≤ cmdSize cmd ∧ cmdSize cmd ≤ 4) && decide (need ≤ cmdSize cmd) && cmdZero cmd (16 * cmdSize cmd) 64

/-- Whether a LAUNCH command's header and zero fields are sound (R135, R229). -/
def launchCmdOk (cmd : List Word) : Bool := cmdCode cmd == 1 && cmdHeader cmd 4 && cmdZero cmd 4 8 && cmdZero cmd 16 64

/-- A launch record from its sixteen words (Table 5-3). -/
def LaunchRec.ofWords (l : List Word) : LaunchRec :=
  let w (i : Nat) : Word := l.getD i 0
  { flags := (w 0).extractLsb' 32 32, kernel := w 1, shape := w 2, stroke := w 3, bars := (w 4).extractLsb' 0 32, args := w 5,
    waits := [w 6, w 7, w 8, w 9], doneVA := w 10,
    reloc := (List.range 64).map fun i => (w (12 + i / 16)).extractLsb' (4 * (i % 16)) 4 }

/-- Whether a record's header and zero fields are as in Table 5-3 (cause 1). -/
def recHeaderOk (l : List Word) : Bool :=
  let w (i : Nat) : Word := l.getD i 0
  fld (w 0) 0 16 == 2 && fld (w 0) 16 8 == 3 && fld (w 0) 24 8 == 8 && fld (w 0) 37 27 == 0 && fld (w 1) 56 8 == 0 &&
    fld (w 2) 56 8 == 0 && fld (w 3) 5 3 == 0 && fld (w 3) 29 3 == 0 && fld (w 3) 48 16 == 0 && fld (w 4) 32 32 == 0 && w 11 == 0 &&
    (List.range 4).all fun i => fld (w (6 + i)) 62 2 == 1 || fld (w (6 + i)) 56 6 == 0

/-- Whether a dependence wait's fields are in range (Table 5-4, cause 3). -/
def State.waitOk (s : State) (ctx : Nat) (w : Word) : Bool :=
  match fld w 62 2 with
  | 0 => true
  | 1 => fld (s.queue (fld w 56 6)).ctl 0 8 == ctx
  | 2 => true
  | _ => false

/-- Whether a record's fields are in range (cause 3 of Table 5-5). -/
def State.fieldsOk (s : State) (ctx : Nat) (l : LaunchRec) : Bool :=
  let bars (i : Nat) : Nat := l.bars.toNat / 2 ^ (8 * i) % 256
  let v := l.vregs / 8
  decide (1 ≤ l.nWarps ∧ l.nWarps ≤ 32) && decide (1 ≤ l.nTeams ∧ l.nTeams ≤ 4) && decide (1 ≤ l.nGangs ∧ l.nGangs ≤ 48) &&
    decide (1 ≤ l.nRegions ∧ l.nRegions ≤ 64) && decide (1 ≤ v ∧ v ≤ 32) && decide (l.spUnits ≤ 1536) &&
    decide (l.nWarps * l.vregs ≤ 1536) && decide (bars 0 ≤ 16) && decide (bars 1 ≤ 4) && decide (bars 2 ≤ 4) && decide (bars 3 ≤ 2) &&
    decide ((l.flags.extractLsb' 0 2).toNat ≤ 1) && l.waits.all (s.waitOk ctx) &&
    (l.stroke == 0 || (decide (12 ≤ fld l.stroke 0 5 ∧ fld l.stroke 0 5 ≤ 20) && decide (l.strokeD ≤ l.strokeS))) &&
    (if l.flags.getLsbD 3 then l.reloc.all (· == 0)
     else (l.reloc.take l.nRegions).all fun r => r.getLsbD 3 || r == 0) &&
    (!l.timed || decide (l.nWarps ≤ 8))

/-- Whether two `STROKE` values give the same configuration. -/
def sameStroke (a b : LaunchRec) : Bool := a.strokeS == b.strokeS && a.strokeD == b.strokeD && a.strokeG == b.strokeG

/-- Whether a record's kernel can be launched (cause 6 of Table 5-5, R416, R417). -/
def State.kernelOk (s : State) (ctx : Nat) (l : LaunchRec) : Bool :=
  match s.obj? ctx l.object with
  | none => false
  | some o =>
    !o.unloading && (o.offset? l.entry).isSome &&
      (!l.timed || o.kernels.any fun k => k.entry == l.entry && k.timed && k.strokes.any fun v => sameStroke { l with stroke := v } l)

/-! Room (R143, R166, R198). -/

/-- Whether a gang holds resources. -/
def GangSt.holds : GangSt → Bool
  | .saved => false
  | .done => false
  | _ => true

/-- Whether a team of a gang holds its resources on its core: where the gang is pre-empted, only a team whose state was kept there does (R439). -/
def Gang.has (g : Gang) (t : Team) : Bool := g.st.holds && (g.st != .reserve || t.kept)

/-- The teams of a core that, with their gangs, satisfy `p`. -/
def State.teamsAt (s : State) (die core : Nat) (p : Gang → Team → Bool) : List Nat :=
  (List.range s.teams.length).filter fun t =>
    let g := s.gang (s.team t).gang
    (s.team t).core == core && (s.region g.region).die == die && p g (s.team t)

/-- The teams that hold resources on a core. -/
def State.coreTeams (s : State) (die core : Nat) : List Nat := s.teamsAt die core Gang.has

/-- Whether a gang gave up resources on a die in this tick: they are free from the next (R156, R158). -/
def State.freeing (s : State) (die : Nat) (g : Gang) : Bool := g.freedAt == some (s.localTick die)

/-- The teams whose resources count as used on a core. -/
def State.roomTeams (s : State) (die core : Nat) : List Nat := s.teamsAt die core fun g t => g.has t || s.freeing die g

/-- The launch of a team. -/
def State.teamLaunch (s : State) (t : Nat) : LaunchRec := (s.grid (s.teamPlace t).grid).launch

/-- Sum of a list of numbers. -/
def total (l : List Nat) : Nat := l.foldl (· + ·) 0

/-- Whether a core has the registers, scratchpad, warp slots and barrier ids for a team (R143). -/
def State.fits (s : State) (l : LaunchRec) (die core : Nat) : Bool :=
  let ts := s.roomTeams die core
  let live (t : Nat) : Nat := ((s.warpsOf t).filter fun w => !(s.warp w).done).length
  let bars (t : Nat) : Nat := if (s.team t).done then 0 else (s.teamLaunch t).bars.toNat % 256
  decide (total (ts.map fun t => live t * (s.teamLaunch t).vregs) + l.nWarps * l.vregs ≤ 1536) &&
    decide (total (ts.map fun t => (s.team t).alloc) + 256 * l.spUnits ≤ 393216) &&
    decide (total (ts.map live) + l.nWarps ≤ 32) && decide (total (ts.map bars) + l.bars.toNat % 256 ≤ 16) &&
    !(ts.any fun t => (s.teamLaunch t).timed) && (!l.timed || ts.isEmpty)

/-- Whether a core has room for a team of a context (R143); a core that a stop has left free is placed on from the next tick (R156). -/
def State.coreRoom (s : State) (ctx : Nat) (l : LaunchRec) (die core : Nat) : Bool :=
  let c := s.core die core
  !c.fenced && c.freed != some (s.localTick die) && (c.primary.isNone || c.primary == some ctx) && s.fits l die core

/-- Whether a quad has room for a gang (R143). -/
def State.quadRoom (s : State) (ctx : Nat) (l : LaunchRec) (die quad : Nat) : Bool :=
  let gangs := (List.range s.gangs.length).filter fun g =>
    (s.gang g).quad == quad && (s.region (s.gang g).region).die == die && ((s.gang g).st.holds || s.freeing die (s.gang g))
  let bars (l : LaunchRec) : Nat := l.bars.toNat / 256 % 256
  decide (total (gangs.map fun g => bars (s.grid (s.region (s.gang g).region).grid).launch) + bars l ≤ 4) &&
    (List.range l.nTeams).all fun t => s.coreRoom ctx l die (4 * quad + t)

/-- Take `n` private slots of a context: returned ones first, then the next (R198). -/
def State.takeSlots (s : State) (ctx n : Nat) : Option (List Nat × State) :=
  let c := s.ctx ctx
  let size := fld (c.block.getD 2 0) 48 16 + 1
  let old := c.freeSlots.take n
  let new := (List.range (n - old.length)).map (c.nextSlot + ·)
  if c.nextSlot + new.length ≤ size then
    some (old ++ new, s.modCtx ctx fun c => { c with freeSlots := c.freeSlots.drop n, nextSlot := c.nextSlot + new.length })
  else none

/-! Placement (R144 to R146). -/

/-- Make a core's primary context. -/
def State.setPrimary (s : State) (die core ctx : Nat) : State := s.modCore die core fun c => { c with primary := some ctx }

/-- Add one team of a gang on its core, with its warps (R146, R154). Warp k of a timed launch takes seat k: the spec gives every one a seat
and does not say which (log 14). -/
def State.addTeam (s : State) (g i ctx die core : Nat) (l : LaunchRec) (slots : List Nat) : State :=
  let t := s.teams.length
  let now := s.localTick die
  let team : Team := { gang := g, idx := i, core := core, alloc := 256 * l.spUnits, spad := [], spPoison := [], tlc := {},
                       queue := [], reserved := 0, jobs := [], done := false }
  let warp (k : Nat) : Warp :=
    let x := Warp.start t k l.vregs l.args l.entry (if l.timed then 2 ^ 64 else now) (slots.getD k 0) { workStart := now }
    let seat : SeatW := if l.timed then { seat := some k, seatedAt := now } else { readyAt := some now }
    { x with seat := seat, park := { x.park with acq := some .pkg } }
  let t1 : State := { s with teams := s.teams ++ [team], warps := s.warps ++ (List.range l.nWarps).map warp }
  t1.setPrimary die core ctx

/-- Place one gang of a region on the lowest-numbered quad that has room. -/
def State.placeGang (s : State) (r i ctx die : Nat) (l : LaunchRec) : Option State :=
  match (List.range 48).find? fun q => s.quadRoom ctx l die q with
  | none => none
  | some q => match s.takeSlots ctx (l.nTeams * l.nWarps) with
    | none => none
    | some (slots, s) =>
      let g := s.gangs.length
      let new : Gang := { region := r, idx := i, quad := q, st := .resident, stoppedAt := 0 }
      let s := { s with gangs := s.gangs ++ [new] }
      some ((List.range l.nTeams).foldl
        (fun (s : State) t => s.addTeam g t ctx die (4 * q + t) l (slots.drop (t * l.nWarps))) s)

/-- Place a region on a die, all its gangs at once (R144). -/
def State.placeOn (s : State) (g i die : Nat) : Option State :=
  let gr := s.grid g
  let r := s.regions.length
  let new : Region := { grid := g, idx := i, die := die, done := false }
  let s := { s with regions := s.regions ++ [new] }
  let s := s.modGrid g fun x => { x with placed := i + 1 }
  (List.range gr.launch.nGangs).foldl (fun (o : Option State) k => o.bind fun s => s.placeGang r k gr.ctx die gr.launch) (some s)

/-- Whether a die may take a region of a grid (R163, R166, R448). -/
def State.dieOk (s : State) (g die : Nat) : Bool :=
  let d := s.die die
  let timed := (s.grid g).launch.timed
  !d.fenced && !d.stopped && (!timed || (d.lost.isNone && !(s.regions.any fun r => r.die == die && !r.done && (s.grid r.grid).launch.timed)))

/-- Place region `i` of a grid (R144). -/
def State.placeRegion (s : State) (g i : Nat) : Option State :=
  let l := (s.grid g).launch
  let n := l.reloc.getD i 0
  let dies := if !l.flags.getLsbD 3 && n.getLsbD 3 then [n.toNat % 8] else List.range 8
  (dies.filter (s.dieOk g)).findSome? fun d => s.placeOn g i d

/-- Place what R145 allows of a grid: its next region, or all of them when it is co-resident. -/
def State.placeNext (s : State) (g : Nat) : Option State :=
  let l := (s.grid g).launch
  if l.coresident then (List.range l.nRegions).foldl (fun (o : Option State) i => o.bind fun s => s.placeRegion g i) (some s)
  else s.placeRegion g (s.grid g).placed

/-- The state as it would be with some gangs absent; a core left without a team of its primary context has none. -/
def State.without (s : State) (gone : Nat → Bool) : State :=
  let drop (i : Nat) (g : Gang) : Gang := if gone i then { g with st := .done, freedAt := none } else g
  let s := { s with gangs := s.gangs.mapIdx drop }
  let free (c : Core) : Core :=
    if c.primary.any fun p => (s.coreTeams c.die c.core).any fun t => (s.teamPlace t).ctx == p then c else { c with primary := none }
  { s with cores := s.cores.map free }

/-- A new grid for a launch of a queue. -/
def State.newGrid (s : State) (q : Nat) (e : QEntry) (l : LaunchRec) : State :=
  { s with grids := s.grids ++ [{ queue := q, seq := e.seq, ctx := fld (s.queue q).ctl 0 8, launch := l, placed := 0,
                                  prio := (s.queue q).prio, placedAt := s.stake, started := !l.timed, children := 0, colls := [],
                                  done := false }] }

/-- Whether the regions of a grid that share nothing can each be placed on an otherwise idle package (cause 4). -/
def State.idleRoom (s : State) (q : Nat) (e : QEntry) (l : LaunchRec) : Bool :=
  let ctx := fld (s.queue q).ctl 0 8
  let s := (s.without fun _ => true).modCtx ctx fun c => { c with freeSlots := [], nextSlot := 0 }
  let ended (r : Region) : Region := { r with done := true }
  let s := { s with regions := s.regions.map ended }
  let t := s.newGrid q e l
  let g := s.grids.length
  if l.coresident then (t.placeNext g).isSome else (List.range l.nRegions).all fun i => (t.placeRegion g i).isSome

/-! Entry (R133, R137, R138). -/

/-- Whether a request publishes its warp's stores at package scope and has not been performed (R248). -/
def DReq.publishes (d : DReq) : Bool := d.ord == .rel && Scope.pkgUp d.scope && !d.performed

/-- Warps of a core with a package release that has not been performed. -/
def State.publishers (s : State) (die core : Nat) : List Nat :=
  ((s.cache.dreqs.filter fun d => d.die == die && d.core == core && d.publishes).filterMap (·.w)).dedup

/-- Whether the stores that a core has sent and request `k` is among are published at package scope: a release of its warp stands at it
or after it, or warp `x` published it by a fence (R223, R248, R261). -/
def State.published (s : State) (x : Option Nat) (k : Nat) (d : DReq) : Bool :=
  d.w.isSome && (x == d.w || (s.cache.dreqs.drop k).any fun e => e.w == d.w && e.publishes)

/-- The effect of a request that writes on the words of its line. -/
def DReq.onto (d : DReq) (words : List CWord) : List CWord :=
  match d.kind with
  | .store l => storeBytes words words d.line l false
  | .atomic _ op l => (atomRun op words l).1
  | _ => words

/-- The words of a launch record as they are read when its command enters (R137). The reading sees what is published at package scope. Of
the other stores that the pushing core has sent and that are not performed it sees each whole or not at all, which the spec
leaves open: a free value each. -/
def State.recordWords (s : State) (ctx va : Nat) (push : Option (Nat × Bool)) : List Word :=
  let sp := s.spaceOf ctx va
  let base := (List.range 32).map fun i => s.peekWord sp (va / 128) i
  let words := match push with
    | none => base
    | some (w, x) =>
      let p := s.place w
      let mine (d : DReq) : Bool := d.die == p.die && d.core == p.core && d.space == sp && d.line == va / 128 && !d.performed
      s.cache.dreqs.zipIdx.foldl (fun l q =>
        if mine q.1 && (s.published (if x then some w else none) q.2 q.1 || (Config.freeWord (s.fresh + q.2)).getLsbD 0) then q.1.onto l
        else l) base
  let lane (i : Nat) : Lane := ((wordAt? words i).map (·.v)).getD 0
  (List.range 16).map fun i => lane (2 * i + 1) ++ lane (2 * i)

/-- The words of a launch record that lies on another package, or none where its home refuses the read: what it answers is a free value (R186, R392;
log 7). -/
def State.farRecord (s : State) : Option (List Word) :=
  if (Config.freeWord s.fresh).getLsbD 0 then none else some ((List.range 16).map fun i => Config.freeWord (s.fresh + 1 + i))

/-- The cause for which an entering LAUNCH is rejected, 0 for none, with its record (R138). -/
def State.launchCheck (s : State) (q : Nat) (e : QEntry) (push : Option (Nat × Bool)) : Nat × LaunchRec :=
  let ctx := fld (s.queue q).ctl 0 8
  let va := (e.cmd.getD 1 0).toNat
  let none_ := LaunchRec.ofWords []
  if !launchCmdOk e.cmd then (1, none_)
  else if 2 ^ 48 ≤ va ∨ va % 128 ≠ 0 then (2, none_)
  else match (match s.transNow ctx true .rd va with
    | .ok _ _ _ => some (s.recordWords ctx va push)
    | .far _ _ => s.farRecord
    | _ => none) with
    | some ws =>
      let l := LaunchRec.ofWords ws
      if l.doneVA.toNat % 8 ≠ 0 then (2, l)
      else if !recHeaderOk ws then (1, l)
      else if !s.fieldsOk ctx l then (3, l)
      else if !s.kernelOk ctx l then (6, l)
      else if !s.idleRoom q e l then (4, l)
      else (0, l)
    | none => (2, none_)

/-- The next sequence number of a counter. -/
def Counter.next (c : Counter) : Counter := { c with issued := c.issued + 1 }

/-- A LAUNCH enters a queue (R133, R137, R138): it takes its number, its record is read and its checks are made. A push gives its warp, and
whether its block has a fence at package scope (R261). -/
def State.enterQueue (s : State) (q : Nat) (cmd : List Word) (parent : Option Nat) (push : Option (Nat × Bool)) : State :=
  let x := s.queue q
  let xs := match push with
    | none => []
    | some (w, x) => ((if x then [w] else []) ++ s.publishers (s.place w).die (s.place w).core).dedup
  let e : QEntry := { seq := x.tll.issued + 1, cmd := cmd, parent := parent, read := none, xwarps := xs }
  let e := { e with verdict := s.launchCheck q e push }
  let s := s.modQueue q fun x => { x with tll := x.tll.next, entries := x.entries ++ [e] }
  { s with fresh := s.fresh + s.cache.dreqs.length + 17 }

end Sys2Proof.Machine
end

