-- ==== Sys2Proof/Machine/Block.lean ====
section
/-! DEFINITION. The end of a block: completion, commit and quiescence (R43 to R51, R58, R125 to R131, R167, R228, R245, R430 to
R434). -/

namespace Sys2Proof.Machine

/-! Completion. -/

/-- Whether an instruction of the block can still fire or be nullified, or drop out of the window order in which others wait for it
(R354). -/
def Blk.canFire (b : Blk) : Bool :=
  b.instrs.any fun p => match p.2.hdr? with
    | none => false
    | some h => match readiness b p.1 h.pm p.2.sig with
      | .waits => false
      | .skips => b.win.contains p.1
      | .nulls => true
      | .fires _ => b.windowTurn p.1 && b.gate p.1 p.2

/-- Whether the block is complete (R43); one that breaks its window order, or has a cycle or an operand slot that nothing fills, never
is (R90, R354). -/
def Blk.complete (b : Blk) : Bool :=
  !b.flawed && ((List.range b.wr.length).all fun n => (b.wr.getD n none).isNone || (b.out? n).isSome) && b.storeCount == b.nst && b.branch.isSome

/-- Whether nothing of the block is under way. -/
def Blk.quiet (b : Blk) : Bool := !b.canFire && b.loads.isEmpty && b.recv.isEmpty && b.run.isNone

/-! Registers. -/

/-- Write one write slot at commit (R37, R30); what is written is no longer poisoned (R447). -/
def Warp.writeReg (x : Warp) (live : Word) (r : Nat × Nat) (t : Token) : Warp :=
  if t = .null then x
  else match r.1 with
  | 0 =>
    let put (old : Vec) : Vec := Vec.tab fun l => if live.getLsbD l then t.vec.lane l else old.lane l
    { x with
      v := x.v.modify r.2 put,
      poison := x.poison.filter fun p => match p with
        | .v n l => !(n == r.2 && live.getLsbD l)
        | _ => true }
  | 1 => if r.2 = 0 then x else { x with s := x.s.set r.2 t.word, poison := x.poison.filter (· != .s r.2) }
  | 2 => if r.2 = 0 then x else { x with k := x.k.set r.2 t.word, poison := x.poison.filter (· != .k r.2) }
  | _ => x

/-- Write every write slot of a block. -/
def Warp.writeSlots (x : Warp) (b : Blk) : Warp :=
  (List.range b.wr.length).foldl (fun (y : Warp) n => match b.wr.getD n none, b.out? n with
    | some r, some t => y.writeReg x.live r t
    | _, _ => y) x

/-- The registers, `fmt`, `mreg`, `WST` and `TRET` of a warp at commit (R32, R33, R35, R119, R345, R435). -/
def Warp.commitRegs (x : Warp) (b : Blk) : Warp :=
  let d := b.deferred
  let x := x.writeSlots b
  let fmt := match d.fmt with
    | some (_, form, a) => fmtWrite form x.fmt a
    | none => x.fmt
  let wst := if d.wstclr then 0 else x.wst
  let wst := if d.range then wstRange wst else wst
  let gone (p : PReg) : Bool := (p == .x 0 && d.fmt.any fun q => q.2.1 == .all) || (p == .x 1 && d.mmode.isSome)
  let x := { x with fmt := fmt, wst := wst, poison := x.poison.filter fun p => !gone p }
  let x := match d.mmode with
    | some (_, on, en1, a0, a1) =>
      let y := { x with mreg := mregPack on en1 a0 a1 }
      if on then { y with latch0 := latchInit, latch1 := latchInit } else y
    | none => x
  match d.tret with
  | some n => if x.trap.on then { x with trap := { x.trap with tret := setFld x.trap.tret 0 24 n } } else x
  | none => x

/-! Stores (R45, R212, R218, R245). -/

/-- The wider of two scopes that a release may have. -/
def widerRel (a b : Option Scope) : Option Scope := match a, b with
  | some x, some y => some (Scope.wider x y)
  | some x, none => some x
  | none, y => y

/-- Two writes of a warp to a scratchpad as one. -/
def SpPend.with_ (e q : SpPend) : SpPend :=
  { e with stamp := max e.stamp q.stamp, rel := widerRel e.rel q.rel, bytes := e.bytes ++ q.bytes, poison := e.poison ++ q.poison }

/-- A block's writes to a team's scratchpad, by line, each with the place of its first store: two that hold releases, each of which publishes a store
of the other, become visible as one (R245, R248; log 30). `l` is ordered by the place of the last release. -/
def knotSpad (l : List (Nat × SpPend)) : List SpPend :=
  let join (r : List (Nat × SpPend)) (p : Nat × SpPend) : List (Nat × SpPend) :=
    let tied (q : Nat × SpPend) : Bool := q.2.rel.isSome && p.2.rel.isSome && decide (p.1 < q.2.stamp)
    (r.filter fun q => !tied q) ++ [(r.filter tied).foldr (fun q y => (min q.1 y.1, q.2.with_ y.2)) p]
  (l.foldl join []).map (·.2)

/-- A block's writes to a team's scratchpad (R212, R245, R359): those to a 128-byte line as one, by `MSEQ`, then the `mst` bytes. One that holds a
release has the release's place among the warp's stores (R208). -/
def State.spadGroups (s : State) (w : Nat) (b : Blk) (team : Nat) : List SpPend :=
  let sps := (b.sps.filter fun x => x.team == team).mergeSort fun x y => decide (x.mseq ≤ y.mseq)
  let own := team == (s.warp w).team
  let mst := if own then b.mst.reverse else []
  let mstP := if own then b.mstP.dedup else []
  let lines : List Nat := ((sps.map fun (x : SpStore) => x.ofs / 128) ++ mst.map fun (p : Nat × BitVec 8) => p.1 / 128).dedup
  let group (n : Nat) : Nat × SpPend :=
    let here := sps.filter fun x => x.ofs / 128 == n
    let first := (here.headD { mseq := 33, idx := 0, team := 0, ofs := 0, val := 0 }).mseq
    let key := match (here.filter (·.rel.isSome)).getLast? with
      | some x => x.mseq
      | none => first
    (s.stampOf w first,
      { warp := some w, job := none, stamp := s.stampOf w key, rel := here.foldl (fun r x => widerRel r x.rel) none,
        bytes := (here.flatMap fun x => placeBytes x.ofs (leBytes 4 x.val.toNat)) ++ mst.filter fun p => p.1 / 128 == n,
        poison := mstP.filter fun o => o / 128 == n })
  knotSpad ((lines.map group).mergeSort fun x y => decide (x.2.stamp ≤ y.2.stamp))

/-- A block's writes to the scratchpads of its gang. Those of an `mst` are visible at its commit, after the block's stores (R212, R359), unless a
release among these waits. -/
def State.commitSpad (s : State) (w : Nat) (b : Blk) : State :=
  let teams := ((s.warp w).team :: b.sps.map (·.team)).dedup
  let now := !b.mst.isEmpty && !(b.sps.any fun x => x.rel.isSome)
  teams.foldl (fun (s : State) t => (s.spadGroups w b t).foldl (fun (s : State) e => if now then s.spadNow t w e else s.spadSend t e) s) s

/-- A part of a block's stores on one line, with the numbers that order it: those of its first and last stores and of its last release; `tie` orders those
whose releases publish each other, and `shut` are the lines of the others among these, once this is the last (R248). -/
structure StorePart where
  idx : Nat
  va : Nat
  space : Nat
  line : Nat
  first : Nat
  last : Nat
  key : Nat
  rqt : Rqt
  ord : Ord
  scope : Scope
  kind : DKind
  tie : Nat := 0
  shut : List (Nat × Nat × Scope) := []
deriving DecidableEq, Repr, Inhabited

/-- Whether a part holds a release. -/
def StorePart.rel (p : StorePart) : Bool := p.ord == .rel

/-- The parts of one buffered store, a part a line. -/
def State.storeParts (s : State) (ctx : Nat) (t : GStore) : List StorePart :=
  let part (a : Nat) (kind : DKind) : StorePart :=
    { idx := t.idx, va := (t.addrs.find? fun v => v / 128 == a).getD 0, space := s.spaceOf ctx (a * 128), line := a, first := t.mseq, last := t.mseq, key := t.mseq,
      rqt := t.rqt, ord := t.ord, scope := t.scope, kind := kind }
  match t.kind with
  | .bytes l => (l.map fun p => p.1 / 128).dedup.map fun a => part a (.store (l.filter fun p => p.1 / 128 == a))
  | .atomic op l => (l.map fun p => p.1 / 128).dedup.map fun a => part a (.atomic none op (l.filter fun p => p.1 / 128 == a))

/-- Join a part to the group before it on the same line when both are plain stores (R245). -/
def joinPart (l : List StorePart) (p : StorePart) : List StorePart :=
  match l with
  | [] => [p]
  | q :: r => match q.kind, p.kind with
    | .store x, .store y =>
      { q with kind := .store (x ++ y), last := p.last, rqt := p.rqt, ord := if p.rel then .rel else q.ord, key := if p.rel then p.key else q.key,
               scope := if q.rel && p.rel then Scope.wider q.scope p.scope else if p.rel then p.scope else q.scope } :: r
    | _, _ => p :: q :: r

/-- Parts whose releases publish stores of each other become visible together: they enter by scope, the widest last, and until that one is performed
the others' lines are shut to the agents that their releases reach (R245, R248; log 30). -/
def tieParts (l : List StorePart) : List StorePart :=
  let ps := l.mergeSort fun x y => decide (x.scope.code.toNat ≤ y.scope.code.toNat)
  let key := ps.foldl (fun m p => max m p.key) 0
  let lines := (ps.take (ps.length - 1)).map fun p => (p.space, p.line, p.scope)
  if ps.length ≤ 1 then ps
  else ps.mapIdx fun i p => { p with key := key, tie := i, shut := if i + 1 = ps.length then lines else [] }

/-- Parts with releases, by the place of the last release, gathered with those whose releases publish a store of theirs. -/
def knotParts (l : List StorePart) : List StorePart :=
  let join (r : List (List StorePart)) (p : StorePart) : List (List StorePart) :=
    let tied (q : List StorePart) : Bool := q.any fun x => decide (p.first < x.key)
    (r.filter fun q => !tied q) ++ [(r.filter tied).flatten ++ [p]]
  (l.foldl join []).flatMap tieParts

/-- Whether a part is a target-less acquire atomic (R218). -/
def StorePart.acq (p : StorePart) : Bool := (p.ord == .acq || p.ord == .racq) && (match p.kind with
  | .atomic _ _ _ => true
  | _ => false)

/-- A group with a store behind an acquire atomic comes after the atomic, whole (R218, R245). -/
def StorePart.behind (acqs : List Nat) (p : StorePart) : StorePart :=
  if !p.rel && acqs.any fun a => decide (p.key < a ∧ a < p.last) then { p with key := p.last } else p

/-- The groups that a block's stores form, on this package or, when `far`, on others, in the order in which they enter the memory system: a release
after every store of lower MSEQ (R208, R245). -/
def State.storeOrder (s : State) (w : Nat) (b : Blk) (far : Bool) : List StorePart :=
  let ctx := (s.place w).ctx
  let here (p : StorePart) : Bool := match s.homeOf ctx (p.line * 128) with
    | .loc _ _ => !far
    | .remote _ _ => far
    | .none => false
  let parts := ((b.stores.mergeSort fun x y => decide (x.mseq ≤ y.mseq)).flatMap fun t => s.storeParts ctx t).filter here
  let lines := (parts.map fun p => (p.space, p.line)).dedup
  let acqs := (parts.filter StorePart.acq).map (·.first)
  let groups := ((lines.flatMap fun ln => ((parts.filter fun p => (p.space, p.line) == ln).foldl joinPart []).reverse).map (StorePart.behind acqs)).mergeSort
    fun x y => decide (x.key ≤ y.key)
  (groups.filter (fun p => !p.rel) ++ knotParts (groups.filter StorePart.rel)).mergeSort fun x y => decide (64 * x.key + x.tie ≤ 64 * y.key + y.tie)

/-- The requests of a block's stores on this package; a store that is no release has the warp's own scope. -/
def State.storeGroups (s : State) (w : Nat) (b : Blk) : List DReq :=
  (s.storeOrder w b false).map fun p =>
    let r := s.newReq w p.space p.line p.rqt p.ord p.scope p.kind
    { r with stamp := s.stampOf w p.key + p.tie, scope := if p.rel || r.isAtomic then p.scope else .warp, shut := p.shut }

/-- Requests for the stores that leave the package, one a group (R245, R291). -/
def State.remoteStores (s : State) (w : Nat) (b : Blk) : State :=
  let req (p : StorePart) : RemoteReq :=
    { w := w, idx := p.idx, ctx := (s.place w).ctx, va := p.va, isLoad := false, at_ := s.stake, rel := if p.rel then some p.scope else none,
      stamp := s.stampOf w p.key + p.tie, block := b.num }
  { s with remote := s.remote ++ (s.storeOrder w b true).map req }

/-- A block's global stores enter the memory system (R45). Each group waits at its L1 until it is performed, in an owned line too: what other agents
see before that the spec leaves open (R246, R252). -/
def State.commitStores (s : State) (w : Nat) (b : Blk) : State := (s.remoteStores w b).addReqs (s.storeGroups w b)

/-! Commands (R45, R51, R133, R223, R228). -/

/-- Send the command of a push that holds a reservation; it takes its sequence number. `fence` is the block's fence: a cross-path one covers the copy
engine from `.core` on and the collective engine from `.pkg` on (R223), a launch comes after any fence at `.pkg` or wider (R261). -/
def State.sendPush (s : State) (w : Nat) (fence : Option (Scope × Bool)) (p : PushRes) : State :=
  let pl := s.place w
  let x := fence.bind fun q => if q.2 && q.1 != .warp then some w else none
  let far := fence.bind fun q => if q.2 && Scope.pkgUp q.1 then some w else none
  match p.dst with
  | .copy t => s.modTeam pl.team fun y => { y with
      tlc := y.tlc.next, reserved := y.reserved - 1,
      queue := y.queue ++ [{ seq := y.tlc.issued + 1, cmd := p.cmd, timed := if t = 0 then none else some t, warp := some w, xwarp := x,
                             after := (s.warp w).waited }] }
  | .coll =>
    let n := (s.ctx pl.ctx).tlk.issued + 1
    let s := s.modCtx pl.ctx fun c => { c with
      tlk := c.tlk.next, collRes := c.collRes - 1, coll := c.coll ++ [{ seq := n, cmd := p.cmd, team := pl.team, xwarp := far }] }
    s.modGrid pl.grid fun g => { g with colls := g.colls ++ [n] }
  | .launch q =>
    let s := (s.modQueue q fun y => { y with reserved := y.reserved - 1 }).enterQueue q p.cmd (some pl.grid) (some (w, fence.any fun z => Scope.pkgUp z.1))
    s.modGrid pl.grid fun g => { g with children := g.children + 1 }

/-- The scope of a block's cross-path fence. -/
def Blk.xpath (b : Blk) : Option Scope := b.deferred.fence.bind fun q => if q.2 then some q.1 else none

/-- Whether a refresh of its home holds up the hub in what a block asks of it at its commit: the reading of the record of a launch that it pushes
(R137, R174), or the writing of `FRS` for a fault resolution (R426). -/
def State.recordHeld (s : State) (b : Blk) : Bool :=
  (b.pushes.any fun p => match p.dst with
    | .launch q => s.homeBusy (fld (s.queue q).ctl 0 8) (p.cmd.getD 1 0).toNat 128
    | _ => false) ||
  b.deferred.syswr.any fun p => match p.1 with
    | .faultRes c => s.homeBusy c.toNat (s.fqCtl c.toNat + 16) 8
    | _ => false

/-- Send the commands of a block's pushes in instruction-index order. -/
def State.sendPushes (s : State) (w : Nat) (b : Blk) : State :=
  (b.pushes.mergeSort fun p q => decide (p.idx ≤ q.idx)).foldl (fun (s : State) p => s.sendPush w b.deferred.fence p) s

/-- Issue the preload of block `n`, entered as the uniform successor (R51): without a free entry it completes at once with
cause 11. It counts as pushed in the block that commits, so that a cross-path fence of scope `x` orders that block's stores before it
(R223, R258). The spec does not say what becomes of the preload of a block whose image cannot be read, or is refused, when its
predecessor commits: the model issues none, even where the block is fetched later (log 22). -/
def State.preload (s : State) (w n : Nat) (x : Option Scope) : State :=
  match s.readImage w n, s.objOf w with
  | .got m e, some o =>
    if m.preload = 0 ∨ o.preloads.length < m.preload ∨ (s.imageCheck w m e).isSome then s
    else
      let cmd := o.preloads.getD (m.preload - 1) []
      s.modTeam (s.warp w).team fun t =>
        let seq := t.tlc.issued + 1
        let after := (s.warp w).waited
        let from_ := x.bind fun sc => if sc == .warp then none else some w
        if t.queue.length + t.reserved < 32 then
          { t with tlc := t.tlc.next, queue := t.queue ++ [{ seq := seq, cmd := cmd, timed := none, warp := some w, xwarp := from_, after := after }] }
        else { t with tlc := t.tlc.next.finish seq 11 }
  | _, _ => s

/-! Faults at commit. -/

/-- The faults at commit that do not depend on the successor: a trap in trap mode (R433), a stroke overrun (R167, R178, R181),
and hazard 7 of Table 6-9. -/
def State.commitFaults (s : State) (w : Nat) (b : Blk) : List FRec :=
  let x := s.warp w
  let l := s.launchOf w
  let c := s.wRecon w
  let work := s.localTick (s.place w).die - x.timed.workStart
  (match b.deferred.trap with
    | some (i, _, _) => if x.trap.on then [{ code := 1, detail := 42, commit := true, index := i }] else []
    | none => []) ++
  (match b.deferred.stroke with
    | some (i, slip) =>
      (if l.timed && decide (x.timed.bt ≤ c) && !slip then [{ code := 11, commit := true, index := i }] else []) ++
      (if l.timed && s.umpireOn w && decide (l.strokeS - l.strokeG < work) then
        [{ code := 16, detail := 7, commit := true, index := i, aux := BitVec.ofNat 64 work }] else [])
    | none => []) ++
  ((s.tsends.filter fun t => t.w == w && !t.committed && decide (t.start ≤ c)).map fun t => { code := 11, index := t.idx }) ++
  b.pushes.filterMap fun p => match p.dst with
    | .copy t => if t ≠ 0 ∧ t ≤ c then some { code := 11, index := p.idx } else none
    | _ => none

/-- The fault of lowest instruction index (R420). -/
def lowestFault (l : List FRec) : Option FRec :=
  l.foldl (fun m f => match m with
    | none => some f
    | some g => if f.index < g.index then some f else some g) none

/-! Control effects. -/

/-- The `stroke` of a block at commit (R167, R170). -/
def strokeCommit (l : LaunchRec) (c now : Nat) (slip : Bool) (x : Warp) : Warp :=
  let len := l.strokeS
  let nb := len * (c / len + 1)
  let park (b : Nat) : Warp :=
    { x with park := { x.park with stroke := some b }, timed := { x.timed with parkedAt := now, strokes := x.timed.strokes + 1 } }
  if !l.timed then park nb
  else if c < x.timed.bt then
    let y := park x.timed.bt
    { y with timed := { y.timed with bt := x.timed.bt + len } }
  else if slip then
    let y := park nb
    { y with wst := wstSlip y.wst ((nb - x.timed.bt) / len), timed := { y.timed with bt := nb + len } }
  else x

/-- Park at barriers, at most two (R434), and wait on counters not yet reached; waits already met acquire at once (R126, R129). -/
def State.parkOn (s : State) (w : Nat) (bars : List (Scope × Nat)) (waits : List WaitOn) : State :=
  let s := if bars.isEmpty then s
    else s.modWarp w fun x => { x with park := { x.park with bar := bars[0]?, bar2 := bars[1]?, arr := none, arr2 := none } }
  if waits.isEmpty then s
  else if s.waitsMet waits then s.acquireWaits w waits
  else s.modWarp w fun x => { x with park := { x.park with waits := waits } }

/-- Whether a warp is parked on a barrier, a counter or a stroke. -/
def Park.waiting (p : Park) : Bool := p.bar.isSome || !p.waits.isEmpty || p.stroke.isSome || p.fault

/-- The seat of a warp after its commit (R151, R153, R127). -/
def State.seatAfter (s : State) (w : Nat) (yield : Bool) : State :=
  let x := s.warp w
  if x.done then s
  else if x.park.waiting then s.freeSeat w
  else if yield || decide (x.seat.seatedAt + 65536 ≤ s.localTick (s.place w).die) then s.leaveSeat w
  else s

/-- Park a warp at its successor for want of a trap handler (R431). -/
def State.noHandler (s : State) (w num idx : Nat) : State :=
  let f := { s.fillRec w { code := 1, detail := 40, commit := true, index := idx } with block := num, lanes := (s.warp w).live }
  let s := (s.freeSeat w).modWarp w fun x => { x with park := { x.park with fault := true } }
  s.postRec (s.place w).ctx f

/-- What a `perfctl` does to its counter at commit (Table 22-6, Table 22-4). -/
def PerfOp.apply (p : PerfOp) (e : EvCtr) : EvCtr :=
  match p with
  | .rd => e
  | .cfg x => { cfg := x &&& 0xFFC000000000FFFF, count := 0, ovf := false }
  | .clr => { e with count := 0, ovf := false }

/-- The scopes of the acquires that a block's atomics without a result make. -/
def Blk.atomAcqs (b : Blk) : List (Scope × List Nat) :=
  b.stores.filterMap fun t => if t.ord == .acq || t.ord == .racq then some (t.scope, t.addrs) else none

/-- What must be drained before the warp's next block, with whether stores must be acknowledged for it: a fence, or an `atom` with an
acquire and no result, which comes before every later block (R218, R222). -/
def Blk.drains (b : Blk) : Option (Scope × Bool) :=
  let atoms := b.atomAcqs.map fun _ => (Scope.warp, true)
  let fence := b.deferred.fence.toList.map fun q => (q.1, q.2 || Scope.quadUp q.1)
  (fence ++ atoms).foldl (fun m q => match m with
    | none => some q
    | some p => some (Scope.wider p.1 q.1, p.2 || q.2)) none

/-- What the acquire of an atomic without a result does before the warp's next block: its acknowledgement brings the clock of the line that it reads,
so that only the T lines are left to go, unless a word lies on another package (R218, R272, Table 10-4). -/
def State.atomScope (s : State) (w : Nat) (q : Scope × List Nat) : Scope :=
  if Scope.pkgUp q.1 && !(q.2.any fun a => s.isFar (s.place w).ctx a) then .die else q.1

/-- The effects of a block other than its registers and successor: stores, commands, `tsend` transfers, counters and system
registers, with the fence of R222. -/
def State.commitEffects (s : State) (w : Nat) (b : Blk) : State :=
  let d := b.deferred
  let s := ((s.commitSpad w b).commitStores w b).sendPushes w b
  let sent (t : TSend) : TSend := if t.w == w then { t with committed := true } else t
  let s := { s with tsends := s.tsends.map sent }
  let s := d.errclr.foldl (fun (s : State) c => s.modCounter c fun x => { x with status := 0 }) s
  let s := d.syswr.foldl (fun (s : State) p => s.sysWrite p.1 p.2) s
  let s := d.perf.foldl (fun (s : State) p => s.modPerf w p.1 p.2.apply) s
  let s := b.atomAcqs.foldl (fun (s : State) q => s.acquire w (s.atomScope w q)) s
  match b.drains with
  | some q => s.modWarp w fun y => { y with park := { y.park with drain := some q } }
  | none => s

/-- Commit the block of warp `w` whose checks have passed; `u` is the state with its registers written and its successor
chosen, `trap` the trap it takes and its handler. Where a handler is missing and the block's exit retires the warp, there is no
successor at which the warp could park (R431), and the spec does not say what happens: the model lets the exit stand and posts no
record (log 22). -/
def State.finishCommit (s u : State) (w : Nat) (b : Blk) (uniform : Bool) (trap : Option (Nat × Nat × Nat × Nat)) : State :=
  let old := s.warp w
  let d := b.deferred
  let p := s.place w
  let now := s.localTick p.die
  let u := (u.commitEffects w b).countW w 2 1
  let u := u.modWarp w fun x =>
    { x with blk := none, unchecked := false, commits := x.commits + 1, seat := { x.seat with ended := some now }, begin_ := now + if d.mmode.isSome then 24 else 2 }
  let isExit := b.branch.any fun q => q.2 == .exit
  let isEret := b.branch.any fun q => q.2 == .eret
  let bar := d.bar.map fun q => (q.2.1, q.2.2)
  let next := (u.warp w).next
  let u := if uniform && trap.isNone && !(u.warp w).done then u.preload w next b.xpath else u
  let u := if (u.warp w).done then u
    else match trap with
    | some (_, num, payload, handler) =>
      u.modWarp w fun x => trapEntry x num payload b.num (u.launchOf w).object
        (if isExit then fld (Config.freeWord u.fresh) 0 24 else next) handler isExit bar d.waits
    | none =>
      let bar := (if isEret then old.trap.pbar.toList else []) ++ bar.toList
      let waits := if isEret then old.trap.pwait ++ d.waits else d.waits
      u.parkOn w bar waits
  let u := if trap.isSome && isExit then { u with fresh := u.fresh + 1 } else u
  let u := match d.stroke with
    | some (_, slip) => if (u.warp w).done then u else u.modWarp w (strokeCommit (s.launchOf w) (s.wRecon w) now slip)
    | none => u
  let u := match d.trap, trap with
    | some (i, _, _), none => if (u.warp w).done then u else u.noHandler w b.num i
    | _, _ => u
  u.seatAfter w d.yield

/-- The trap that a block takes at commit, with its handler's block; none where the vector or the handler is missing (R430,
R431). -/
def State.takenTrap (s : State) (w : Nat) (b : Blk) : Option (Nat × Nat × Nat × Nat) :=
  let v := s.trapVector (s.place w).ctx
  b.deferred.trap.bind fun q =>
    let h := v.2 + q.2.1
    if v.1 && s.hasBlock w h then some (q.1, q.2.1, q.2.2, h) else none

/-- Commit the block of warp `w`, or raise its fault at commit. -/
def State.commit (s : State) (w : Nat) (b : Blk) : State :=
  let taken := s.takenTrap w b
  let s1 := s.modWarp w fun x => x.commitRegs b
  let succ : Except FRec Succ := match b.branch with
    | none => .ok { st := s1, uniform := false }
    | some (i, sel) =>
      if sel = .exit ∧ taken.isSome then .ok { st := s1, uniform := false } else s1.branch w i b.cls sel
  let flaws := s.commitFaults w b ++ (match succ with
    | .error f => [f]
    | .ok _ => [])
  match lowestFault flaws, succ with
  | some f, _ => s.fault w f
  | none, .ok u => s.finishCommit u.st w b u.uniform taken
  | none, .error f => s.fault w f

/-- Whether a refresh of its home holds up the reading of the frame of a `ret` (R174, R196). -/
def State.retHeld (s : State) (w : Nat) (b : Blk) : Bool :=
  let p := s.place w
  let a := s.frameAddr w ((s.warp w).calls - 1)
  (b.branch.any fun q => q.2 == .ret) && s.dramBusy p.die (s.spaceOf p.ctx a) (a / 128)

/-- BLOCK_COMMIT (R45): in a timed launch, once what the block delivers has come and its window instructions have completed (R171, R355, R356). -/
def execBlockCommit (w : Nat) (s : State) : Out :=
  .next (match s.blk? w with
  | none => s
  | some b => if (s.warp w).seat.seat.isSome && b.complete && b.quiet && s.ended w b && !s.retHeld w b && !s.recordHeld b then s.commit w b else s)

/-- BLOCK_QUIESCENT (R44): a block that can do nothing more and is not complete raises the invalid block fault. -/
def execBlockQuiescent (w : Nat) (s : State) : Out :=
  .next (match s.blk? w with
  | none => s
  | some b => if b.quiet && !b.complete then s.faultAt w 255 1 32 else s)

end Sys2Proof.Machine
end

