-- ==== Sys2Proof/Machine/Save.lean ====
section
/-! DEFINITION. The save area: the records of a pre-empted gang's warps and teams, and what is read back of them (R441, R442, R447). -/

namespace Sys2Proof.Machine

/-- Bytes of a list of 64-bit words. -/
def wordsBytes (l : List Word) : List (BitVec 8) := l.flatMap fun x => leBytes 8 x.toNat
/-- Bytes of a vector. -/
def vecBytes (v : Vec) : List (BitVec 8) := (List.range 64).flatMap fun l => leBytes 4 (v.lane l).toNat

/-- The counter code and queue of a wait as Table 4-9 numbers them. -/
def ctrCode (c : CtrRef) : Nat × Nat :=
  match c with
  | .tlc _ => (0, 0)
  | .tlk _ => (1, 0)
  | .tll q => (2, q)

/-- The park word of a warp record (Table 21-12); `free` is used where the table gives no code, a warp parked on a stroke. -/
def parkWord (x : Warp) (free : Nat) : Nat :=
  let p := x.park
  let kind := if p.bar.isSome then 1 else if !p.waits.isEmpty then 2 else if p.fault then 3 else if p.stroke.isSome then free % 16 else 0
  let bar := p.bar.getD (.warp, 0)
  let c := ctrCode ((p.waits.head?.map (·.ctr)).getD (.tlc 0))
  kind + bar.1.code.toNat % 8 * 2 ^ 4 + (if x.trap.on then 2 ^ 7 else 0) + bar.2 % 16 * 2 ^ 8 + c.1 * 2 ^ 12 + c.2 * 2 ^ 16

/-- The parts of a warp record, each with its offset (Table 21-12). -/
def State.warpRecord (s : State) (w : Nat) : List (Nat × List (BitVec 8)) :=
  let x := s.warp w
  let f := Config.freeWord s.fresh
  let seq := match (s.ctx (s.place w).ctx).posted.find? fun r => r.wid == some w with
    | some r => r.seq
    | none => 0
  let val := match x.park.waits with
    | a :: _ => a.n
    | [] => seq
  let t := x.trap
  let pend := if t.pbar.isSome || !t.pwait.isEmpty then f else 0
  [(0, x.v.flatMap vecBytes), (0x10000, wordsBytes x.s), (0x10200, wordsBytes x.k),
   (0x10280, wordsBytes [x.fmt, x.mreg, x.wst, x.live, x.retired,
     BitVec.ofNat 64 (x.next * 2 ^ 32 + (s.launchOf w).object),
     BitVec.ofNat 64 (match x.cj with
       | some b => 2 ^ 24 + b
       | none => 0),
     BitVec.ofNat 64 (x.stack.length + x.spilled * 2 ^ 8 + x.calls * 2 ^ 16),
     BitVec.ofNat 64 (parkWord x f.toNat), BitVec.ofNat 64 val,
     t.tr0, t.tr1, t.tret, t.tlive, BitVec.ofNat 64 t.tdepth, pend]),
   (0x10300, x.stack.reverse.flatMap REntry.bytes), (0x10700, vecBytes x.latch0 ++ vecBytes x.latch1)]

/-- The parts of a team record (Table 21-13). -/
def State.teamRecord (s : State) (t : Nat) : List (Nat × List (BitVec 8)) :=
  let x := s.team t
  let ws := s.warpsOf t
  let here (p : Park) (id : Nat) : Bool := p.bar == some (.core, id) || p.bar2 == some (.core, id)
  let at_ (id : Nat) : Nat := (ws.filter fun w => here (s.warp w).park id).foldl (fun n w => n + 2 ^ (s.warp w).idx) 0
  [(0, (List.range x.alloc).map fun i => getByte x.spad i),
   (0x60000, wordsBytes [BitVec.ofNat 64 x.tlc.val, x.tlc.status, BitVec.ofNat 64 x.tlc.issued]),
   (0x60018, (List.range 16).flatMap fun id => leBytes 4 (at_ id))]

/-- Where the words of a register lie in a warp record (Table 21-12). -/
def PReg.ofs (p : PReg) : List Nat :=
  match p with
  | .v r lane => [256 * r + 4 * lane]
  | .s r => [0x10000 + 8 * r, 0x10004 + 8 * r]
  | .k r => [0x10200 + 8 * r, 0x10204 + 8 * r]
  | .x r => [0x10280 + 8 * r, 0x10284 + 8 * r]
  | .l acc1 row => [0x10700 + (if acc1 then 256 else 0) + 4 * row]

/-- The registers of a warp that a record holds, as poison marks them. -/
def Warp.marks (x : Warp) : List PReg :=
  ((List.range x.v.length).flatMap fun r => (List.range 64).map fun l => .v r l) ++ (List.range 64).map .s ++ (List.range 16).map .k ++
    (List.range 2).map .x ++ (List.range 64).map (.l false) ++ (List.range 64).map (.l true)

/-- The first byte of a context's save area (R441, Table 21-4). -/
def State.saveBase (s : State) (ctx : Nat) : Nat := fld ((s.ctx ctx).block.getD 5 0) 16 32 * 65536
/-- Where the record of a warp lies (R441). -/
def State.warpRec (s : State) (w : Nat) : Nat := s.saveBase (s.place w).ctx + 131072 * (s.warp w).pslot
/-- Where the record of a team lies: by the private slot of its warp 0 (R441). -/
def State.teamRec (s : State) (t : Nat) : Nat :=
  s.saveBase (s.teamPlace t).ctx + 2 ^ 33 + 524288 * (((s.warpsOf t).map fun w => (s.warp w).pslot).head?).getD 0

/-- The warps of a team that have not retired: those that have a private slot, and so a record (R198, R441). -/
def State.slotted (s : State) (t : Nat) : List Nat := (s.warpsOf t).filter fun w => !(s.warp w).done

/-- What the saving of some teams writes: address and bytes. -/
def State.saveRecords (s : State) (ts : List Nat) : List (Nat × List (BitVec 8)) :=
  let place (a : Nat) (l : List (Nat × List (BitVec 8))) : List (Nat × List (BitVec 8)) := l.map fun p => (a + p.1, p.2)
  ts.flatMap fun t => ((s.slotted t).flatMap fun w => place (s.warpRec w) (s.warpRecord w)) ++ place (s.teamRec t) (s.teamRecord t)

/-- The words of those records that hold a poisoned word (R447). -/
def State.saveMarks (s : State) (ts : List Nat) : List Nat :=
  ts.flatMap fun t =>
    ((s.slotted t).flatMap fun w => ((s.warp w).poison.flatMap PReg.ofs).map (s.warpRec w + ·)) ++ (s.team t).spPoison.map (s.teamRec t + ·)

/-- The first 64 KiB page that a save cannot write. -/
def State.saveMiss (s : State) (ctx : Nat) (l : List (Nat × List (BitVec 8))) : Option Nat :=
  l.findSome? fun p =>
    ((List.range (p.2.length / 65536 + 2)).map fun i => min (p.1 + 65536 * i) (p.1 + p.2.length - 1)).find? fun a =>
      !p.2.isEmpty && !s.hubWrites ctx a

/-- Write the records of some teams with the poison of their words (R441, R447). -/
def State.writeRecords (s : State) (ctx : Nat) (ts : List Nat) : State :=
  let t := (s.saveRecords ts).foldl (fun (u : State) p => u.pokeCtx ctx p.1 p.2) s
  (s.saveMarks ts).foldl (fun (u : State) a =>
    let c := u.peekWord (u.spaceOf ctx a) (a / 128) (a / 4 % 32)
    u.pokeWord (u.spaceOf ctx a) (a / 128) (a / 4 % 32) c.v true) t

/-- Whether a word of a record is poisoned as it is read back; `old` where its page can no longer be read. -/
def State.recPoison (s : State) (ctx a : Nat) (old : Bool) : Bool :=
  match s.transNow ctx false .rd a with
  | .ok _ sp _ => s.peekPoison sp a
  | _ => old

/-- A warp is read back from its record: its registers hold what they held (R442), and a word of the record that is poisoned by then, or is no longer,
is so in the register too (R447). -/
def State.readMarks (s : State) (w : Nat) : State :=
  let a := s.warpRec w
  let bad (x : Warp) (p : PReg) : Bool := p.ofs.any fun o => s.recPoison (s.place w).ctx (a + o) (x.poison.contains p)
  if (s.warp w).done then s else s.modWarp w fun x => { x with poison := x.marks.filter (bad x) }

/-- A team's scratchpad is read back from its record (R442, R447). -/
def State.readSpadMarks (s : State) (t : Nat) : State :=
  let a := s.teamRec t
  let bad (o : Nat) : Bool := s.recPoison (s.teamPlace t).ctx (a + o) ((s.team t).spPoison.contains o)
  s.modTeam t fun x => { x with spPoison := ((List.range (x.alloc / 4)).map (4 * ·)).filter bad }

end Sys2Proof.Machine
end

