-- ==== Sys2Proof/Machine/Launch.lean ====
section
/-! DEFINITION. Launches: entry into a queue, the checks of R138, room and placement, priorities, the start of timed launches and
the completion of teams and grids (R132 to R148, R158, R159, R165, R166, R190, R198, R417). -/

namespace Sys2Proof.Machine

/-! Completion of a launch. -/

/-- Whether a launch holds a code object (R417). -/
def State.held (s : State) (ctx oid : Nat) : Bool :=
  (s.grids.any fun g => g.ctx == ctx && !g.done && g.launch.object == oid) ||
    s.queues.any fun q => fld q.ctl 0 8 == ctx && q.entries.any fun e => (e.verdict.1 == 0 && e.verdict.2.object == oid) || e.read.any fun r => r.object == oid

/-- Free the objects whose unload is pending and which nothing holds (R417). -/
def State.sweep (s : State) : State := { s with objs := s.objs.filter fun o => !(o.unloading && !s.held o.ctx o.oid) }

/-- A launch completes on its queue (R134, R225): the TLL advances, with `LQSTAT` on an error. -/
def State.endLaunch (s : State) (q seq cause : Nat) : State :=
  (s.modQueue q fun x =>
    let head := x.entries.head?.any fun e => e.seq == seq
    { x with
    tll := x.tll.finish seq cause, entries := x.entries.filter fun e => e.seq != seq,
    eligAt := if head then none else x.eligAt, urgent := x.urgent && !head,
    stat := if cause = 0 then x.stat else setFld (setFld x.stat 8 24 seq) 0 8 cause }).sweep

/-! Entry (R133, R137, R138). -/

/-- A LAUNCH that has entered counts as complete for its parent (R148). -/
def State.childEntered (s : State) (e : QEntry) : State :=
  match e.parent with
  | some g => s.modGrid g fun x => { x with children := x.children - 1 }
  | none => s

/-- Whether the package runs programs (R18). -/
def State.runs (s : State) : Bool := s.pkg.up == .ready || s.pkg.up == .degraded

/-- LAUNCH (R137, R138): the oldest command of a queue that has not been taken in is rejected, or goes on with the record as it was read
when it entered. -/
def execLaunch (q : Nat) (s : State) : Out :=
  .next (match (s.queue q).entries.find? fun e => e.read.isNone with
  | none => s
  | some e =>
    if !s.runs then s
    else
      let s := s.childEntered e
      if e.verdict.1 ≠ 0 then s.endLaunch q e.seq e.verdict.1
      else
        let put (x : QEntry) : QEntry := if x.seq == e.seq then { x with read := some e.verdict.2 } else x
        s.modQueue q fun x => { x with entries := x.entries.map put })

/-- SUBMISSION_WINDOW_WRITE (R133): the command enters, or it is dropped and counted in `LQSTAT` (R134); in a refresh of its record's home it waits
(R174). -/
def execSubmissionWindowWrite (q : Nat) (cmd : List (BitVec 64)) (s : State) : Out :=
  let x := s.queue q
  let why := if !x.ctl.getLsbD 10 then 2 else if 256 ≤ x.entries.length + x.reserved then 1 else 0
  .next (if !s.runs then s
  else if why ≠ 0 then
    s.modQueue q fun x => { x with stat := setFld (setFld x.stat 40 24 (min 16777215 (fld x.stat 40 24 + 1))) 32 2 why }
  else if s.homeBusy (fld x.ctl 0 8) (cmd.getD 1 0).toNat 128 then s
  else s.enterQueue q (cmd.take 8) none none)

/-! Heads (R140 to R142). -/

/-- The head of a queue, when its record has been read. -/
def State.head? (s : State) (q : Nat) : Option (QEntry × LaunchRec) :=
  match (s.queue q).entries with
  | e :: _ => e.read.map fun l => (e, l)
  | [] => none

/-- The counter of a dependence wait. -/
def State.waitCtr? (s : State) (ctx : Nat) (w : Word) : Option Counter :=
  match fld w 62 2 with
  | 1 => some (s.queue (fld w 56 6)).tll
  | 2 => some (s.ctx ctx).tlk
  | _ => none

/-- Whether the waits of a launch of a context are met (R141). -/
def State.waitsDone (s : State) (ctx : Nat) (l : LaunchRec) : Bool := l.waits.all fun w => match s.waitCtr? ctx w with
  | some c => decide (fld w 0 56 ≤ c.val)
  | none => true

/-- Whether a queue's head is eligible (R141): its waits are met, `HALT` is 0 and its context is active (R383). -/
def State.eligible (s : State) (q : Nat) : Bool :=
  let ctx := fld (s.queue q).ctl 0 8
  match s.head? q with
  | none => false
  | some (_, l) =>
    !(s.queue q).ctl.getLsbD 11 && (s.ctx ctx).st == .active && s.waitsDone ctx l

/-- The grid of a queue's head, when some of it is placed. -/
def State.headGrid? (s : State) (q : Nat) (e : QEntry) : Option Nat :=
  (List.range s.grids.length).find? fun g => (s.grid g).queue == q && (s.grid g).seq == e.seq && !(s.grid g).done

/-- The eligible heads in the order in which they are served (R141). -/
def State.heads (s : State) : List Nat :=
  let last (p : Nat) : Nat := assoc s.served p 63
  let key (q : Nat) : Nat := (3 - (s.queue q).prio) * 64 + (q + 63 - last (s.queue q).prio) % 64
  ((List.range 64).filter s.eligible).mergeSort fun a b => decide (key a ≤ key b)

/-- Place what can be placed of the head of a queue, once the stores published before its push are acknowledged (R261). -/
def State.placeHead (s : State) (q : Nat) : Option State :=
  match s.head? q with
  | none => none
  | some (e, l) =>
    if e.xwarps.any s.unacked then none else
    let s := match s.headGrid? q e with
      | some _ => s
      | none => (if s.ctxBusy (fld (s.queue q).ctl 0 8) then s else s.flashWeights (fld (s.queue q).ctl 0 8)).newGrid q e l
    let g := (s.headGrid? q e).getD 0
    (s.placeNext g).map fun t =>
      let prio := (t.queue q).prio
      let t := { t with served := assocSet t.served prio q }
      let t := t.modGrid g fun x => { x with prio := prio, placedAt := t.stake }
      if (t.grid g).placed < l.nRegions then t
      else t.modQueue q fun x => { x with entries := x.entries.drop 1, prio := fld x.ctl 8 2, eligAt := none, urgent := false }

/-- Effective priority of a grid: fixed once it is wholly placed (R142). -/
def State.gridPrio (s : State) (g : Nat) : Nat :=
  let x := s.grid g
  if x.placed < x.launch.nRegions then (s.queue x.queue).prio else x.prio

/-! Resumption (R157). -/

/-- Whether a core may switch now to a context that it keeps (R440): 64 ticks after the warps stopped there had reached a block boundary. Where
the other context's gangs have ended instead, the spec gives no wait and the model makes none (log 27). -/
def State.switched (s : State) (die core : Nat) : Bool :=
  (s.core die core).bound.all fun t => decide (t + 64 ≤ s.localTick die)

/-- Whether a team of a pre-empted gang can run again on the core that it left: its state is there, or there is room for it. -/
def State.backRoom (s : State) (ctx : Nat) (l : LaunchRec) (die t : Nat) : Bool :=
  let c := s.core die (s.team t).core
  if (s.team t).kept then !c.fenced && c.primary.all (· == ctx) && s.switched die c.core else s.coreRoom ctx l die (s.team t).core

/-- The quad on which a pre-empted gang resumes: its own while the state of a team is kept there, otherwise the lowest of its die with room
(R144, R157). -/
def State.resumeQuad (s : State) (g : Nat) : Option Nat :=
  let x := s.gang g
  let gr := s.grid (s.region x.region).grid
  let die := (s.region x.region).die
  match x.st with
  | .reserve => if (s.teamsOf g).all (s.backRoom gr.ctx gr.launch die) then some x.quad else none
  | .saved => (List.range 48).find? fun q => s.quadRoom gr.ctx gr.launch die q
  | _ => none

/-- A core takes back a team of a context: the context is its primary again (R440). -/
def Core.back (c : Core) (ctx : Nat) : Core :=
  { c with primary := some ctx, reserve := if c.reserve == some ctx then none else c.reserve }

/-- A warp of a resumed gang is ready from now on; RETIRE written while it was saved takes effect (R442). -/
def State.wake (s : State) (w : Nat) : State := if (s.warp w).retiring then s.retireWarp w else s.nowReady w

/-- Resume one pre-empted gang, with all its teams in the same tick (R157); a saved one is read back once its home's refresh is over (R174). -/
def State.resumeGang (s : State) (g : Nat) : Option State :=
  let die := (s.region (s.gang g).region).die
  let ctx := (s.grid (s.region (s.gang g).region).grid).ctx
  ((s.resumeQuad g).filter fun _ => !(s.gangWarps g).any fun w => !(s.team (s.warp w).team).kept && s.homeBusy ctx (s.warpRec w) 128).map fun q =>
    let s := (s.gangWarps g).foldl (fun (s : State) w => if (s.team (s.warp w).team).kept then s else s.readMarks w) s
    let s := (s.teamsOf g).foldl (fun (s : State) t =>
      let s := if (s.team t).kept then s else s.readSpadMarks t
      (s.modTeam t fun y => { y with core := 4 * q + y.idx, kept := false }).modCore die (4 * q + (s.team t).idx) fun c => c.back ctx) s
    let s := s.modGang g fun y => { y with st := .resident, quad := q }
    (s.gangWarps g).foldl (fun (s : State) w => s.wake w) s

/-- Resume a gang, with every pre-empted gang of its grid when that is co-resident. -/
def State.resume (s : State) (g : Nat) : Option State :=
  let gr := (s.region (s.gang g).region).grid
  if (s.grid gr).launch.coresident then
    let gs := (s.regionsOf gr).flatMap s.gangsOf
    if gs.all fun k => (s.gang k).st.out || (s.gang k).st == .done then
      (gs.filter fun k => (s.gang k).st.out).foldl (fun (o : Option State) k => o.bind fun s => s.resumeGang k) (some s)
    else none
  else s.resumeGang g

/-- The grid of a gang. -/
def State.gangGrid (s : State) (g : Nat) : Nat := (s.region (s.gang g).region).grid

/-- Pre-empted gangs that have room. -/
def State.waitingGangs (s : State) : List Nat :=
  (List.range s.gangs.length).filter fun g => (s.gang g).st.out && (s.resume g).isSome

/-! Pre-emption for a head (R155, R156). -/

/-- Gangs of untimed launches of lower effective priority, resident, in reserve or stopping: those that R155 takes as absent. -/
def State.lower (s : State) (prio g : Nat) : Bool :=
  let gr := s.gangGrid g
  !(s.grid gr).launch.timed && !(s.grid gr).done && (s.gang g).st.holds && decide (s.gridPrio gr < prio)

/-- Gangs that R155 pre-empts for the head of a queue that has no room: those on the cores that its placement without the gangs of
lower priority would use, with every other gang of a co-resident grid among them. -/
def State.plan (s : State) (q : Nat) : List Nat :=
  let lo := s.lower (s.queue q).prio
  if (s.placeHead q).isSome then []
  else match (s.without lo).placeHead q with
  | none => []
  | some t =>
    let new := (List.range (t.gangs.length - s.gangs.length)).map fun i => t.gang (s.gangs.length + i)
    let cores (n : Gang) : Nat := (t.grid (t.region n.region).grid).launch.nTeams
    let on (g : Nat) (n : Gang) : Bool := (t.region n.region).die == (s.region (s.gang g).region).die &&
      (s.teamsOf g).any fun u => (s.gang g).has (s.team u) && (s.team u).core / 4 == n.quad && decide ((s.team u).core % 4 < cores n)
    let hit (g : Nat) : Bool := lo g && new.any (on g)
    let gs := (List.range s.gangs.length).filter hit
    (List.range s.gangs.length).filter fun g => hit g || (lo g && (s.grid (s.gangGrid g)).launch.coresident &&
      gs.any fun k => s.gangGrid k == s.gangGrid g)

/-- Whether gangs have been pre-empted for the head of a queue, and it is still to take their cores (R156). -/
def State.urgent (s : State) (q : Nat) : Bool :=
  let for_ (g : Gang) : Bool := match g.st with
    | .stopping _ h => h == some q
    | _ => g.freedAt == some (s.localTick (s.region g.region).die)
  (s.queue q).urgent && s.eligible q && (s.gangs.any for_ || (s.placeHead q).isSome ||
    (s.cores.any fun c => c.switchAt.isSome || c.freed == some (s.localTick c.die)))

/-- Whether the head of a queue waits for cores that another head keeps (R156). -/
def State.heldBack (s : State) (q : Nat) : Bool :=
  s.heads.any fun r => r != q && s.urgent r &&
    (decide ((s.queue q).prio < (s.queue r).prio) || ((s.queue q).prio == (s.queue r).prio && !s.urgent q))

/-- The first of some heads, in the order in which they are served, that may be placed now (R141, R156, R157): it has room, no pre-empted
gang with room goes before it, and no head before it waits for gangs that are pre-empted for it. -/
def State.nextOf (s : State) (l : List Nat) : Option Nat :=
  match l with
  | [] => none
  | q :: r =>
    if (s.placeHead q).isSome then
      if s.heldBack q || s.waitingGangs.any fun g => decide ((s.queue q).prio ≤ s.gridPrio (s.gangGrid g)) then s.nextOf r else some q
    else if (s.plan q).isEmpty then s.nextOf r
    else none

/-- The head to be placed next. -/
def State.nextHead? (s : State) : Option Nat := s.nextOf s.heads

/-- Whether the head of a queue is to be skipped (R138, `FLAGS.ERRSKIP`). -/
def State.skips (s : State) (q : Nat) : Bool :=
  match s.head? q with
  | some (e, _) => e.skip == some true && (s.headGrid? q e).isNone
  | none => false

/-- Decide cause 5 for a launch whose waits are met (R138): a counter that it waits for carries the error bit. -/
def State.decideSkip (s : State) (ctx : Nat) (e : QEntry) : QEntry :=
  match e.read, e.skip with
  | some l, none =>
    if s.waitsDone ctx l then
      { e with skip := some (l.flags.getLsbD 4 && l.waits.any fun w => (s.waitCtr? ctx w).any fun c => c.status.getLsbD 63) }
    else e
  | _, _ => e

/-- Note what the units watch from tick to tick: which launches have their waits met (R138), and since when each head is eligible and
unplaced (R142). -/
def State.noteEligible (s : State) : State :=
  { s with queues := s.queues.mapIdx fun q (x : Queue) =>
      { x with entries := x.entries.map (s.decideSkip (fld x.ctl 0 8)),
               eligAt := if s.eligible q then some (x.eligAt.getD s.stake) else none } }

/-- LAUNCH_PLACEMENT (R141 to R145). -/
def execLaunchPlacement (s : State) : Out :=
  let s := s.noteEligible
  .next (if !s.runs then s
  else match s.heads.find? s.skips with
  | some q => match s.head? q with
    | some (e, _) => s.endLaunch q e.seq 5
    | none => s
  | none => match s.nextHead? with
    | some q => (s.placeHead q).getD s
    | none => s)

/-- EFFECTIVE_PRIORITY_RISE (R142). -/
def execEffectivePriorityRise (q : Nat) (s : State) : Out :=
  .next (match (s.queue q).eligAt with
  | some t =>
    if s.eligible q && decide (t + 14000000 ≤ s.stake) then
      s.modQueue q fun x => { x with prio := min 3 (x.prio + 1), eligAt := some (t + 14000000), risen := some s.stake }
    else s
  | none => s)

/-- B0 of a timed grid: the first stroke boundary at least 4,096 reconciled ticks after placement (R165). -/
def Grid.b0 (x : Grid) : Nat := (x.placedAt + 4096 + x.launch.strokeS - 1) / x.launch.strokeS * x.launch.strokeS

/-- Regions of a timed grid that are to start: the reconciled counter of their die has reached B0 (R165). -/
def State.starting (s : State) (g : Nat) : List Nat :=
  let x := s.grid g
  if !x.launch.timed || x.done || x.placed < x.launch.nRegions then []
  else (s.regionsOf g).filter fun r => !(s.region r).begun && decide (x.b0 ≤ s.reconTick (s.region r).die)

/-- Start one region of a timed grid: its die's landing buffer is empty, and its warps start now (R165, R177). -/
def State.startRegion (s : State) (b0 len r : Nat) : State :=
  let die := (s.region r).die
  let now := s.localTick die
  let s := (s.modDie die fun d => { d with full := [], landing := [], landPoison := [] }).modRegion r fun y =>
    { y with begun := true, beat := (s.reconTick die / len, now) }
  ((s.gangsOf r).flatMap s.gangWarps).foldl (fun (s : State) w =>
    s.modWarp w fun y => { y with begin_ := now, timed := { y.timed with b0 := b0, bt := b0 + len, workStart := now } }) s

/-- TIMED_LAUNCH_START (R165): the regions of a timed grid whose dies have reached B0 start. -/
def execTimedLaunchStart (g : Nat) (s : State) : Out :=
  let x := s.grid g
  .next (match s.starting g with
  | [] => s
  | l => (l.foldl (fun (s : State) r => s.startRegion x.b0 x.launch.strokeS r) s).modGrid g fun y => { y with started := true })

/-! Completion (R158, R159). -/

/-- A core keeps as primary and reserve only contexts that still hold resources there (R386, R439). -/
def State.tidyCore (s : State) (die core : Nat) : State :=
  let has (reserve : Bool) (ctx : Nat) : Bool := (s.coreTeams die core).any fun t =>
    (s.teamPlace t).ctx == ctx && ((s.gang (s.team t).gang).st == .reserve) == reserve
  s.modCore die core fun c => { c with
    primary := if c.switchAt.isSome then c.primary else c.primary.filter (has false), reserve := c.reserve.filter (has true) }

/-- TEAM_COMPLETE (R158, R190): its warps have retired, their scratchpad stores are visible and its TLC has caught up; the last team of a gang releases the gang's
scratchpads from the next tick on, and units complete upwards. A released scratchpad keeps its bytes for a transfer still to start (R178); a new team's is
zero. -/
def execTeamComplete (t : Nat) (s : State) : Out :=
  let x := s.team t
  let p := s.teamPlace t
  .next (if s.teams.length ≤ t || x.done || !((s.warpsOf t).all fun w => (s.warp w).done && !s.unseen w) || x.tlc.val != x.tlc.issued then s
  else
    let s := s.modTeam t fun y => { y with done := true }
    let s := if (s.teamsOf p.gang).all fun u => (s.team u).done then
        s.modGang p.gang fun y => { y with st := .done, freedAt := some (s.localTick p.die) } else s
    let s := if (s.gangsOf p.region).all fun g => (s.gang g).st == .done then s.modRegion p.region fun y => { y with done := true } else s
    (s.teamsOf p.gang).foldl (fun (s : State) u => s.tidyCore p.die (s.team u).core) s)

/-- Write a grid's `DONE` word (R159): 0, or cause 8 when it cannot be written. Whether the home on another package takes it is a free value (R186,
R392; log 7). -/
def State.writeDone (s : State) (g : Nat) : Nat × State :=
  let x := s.grid g
  let a := x.launch.doneVA.toNat
  if a = 0 then (0, s)
  else match s.transNow x.ctx true .wr a with
    | .ok _ _ _ => (0, s.pokeCtx x.ctx a (leBytes 8 x.seq))
    | .far _ _ => (if (Config.freeWord s.fresh).getLsbD 0 then 8 else 0, { s with fresh := s.fresh + 1 })
    | _ => (8, s)

/-- GRID_COMPLETE (R159). -/
def execGridComplete (g : Nat) (s : State) : Out :=
  let x := s.grid g
  let rs := s.regionsOf g
  .next (if s.grids.length ≤ g || x.done || x.placed < x.launch.nRegions || !(rs.all fun r => (s.region r).done) || x.children != 0 ||
      !(x.colls.all fun n => decide (n ≤ (s.ctx x.ctx).tlk.val)) || (s.gridWarps g).any s.unacked || s.homeBusy x.ctx x.launch.doneVA.toNat 8 then s
  else
    let s := s.modGrid g fun y => { y with done := true }
    let r := s.writeDone g
    r.2.endLaunch x.queue x.seq r.1)

end Sys2Proof.Machine
end

