-- ==== Sys2Proof/Machine/Preempt.lean ====
section
/-! DEFINITION. Pre-emption, the reserve context, stopping and resuming a gang (R155 to R157, R438 to R442). -/

namespace Sys2Proof.Machine

/-- The head for which a gang is pre-empted: the first that cannot be placed and whose plan names it (R155). -/
def State.causeOf (s : State) (g : Nat) : Option Nat := s.heads.find? fun q => (s.plan q).contains g

/-- A gang is marked stopping, for a head or for the driver (R439); with `all`, a gang in reserve gives up its cores too. -/
def Gang.stop (x : Gang) (now stake : Nat) (head : Option Nat) (all : Bool) : Gang :=
  if x.st = .resident then { x with st := .stopping now head, stoppedAt := stake, bound := none }
  else if x.st = .reserve ∧ all then { x with st := .stopping now head, bound := none }
  else x

/-- Gang `g` with every gang of its grid when that is co-resident: they stop together (R438). -/
def State.together (s : State) (g : Nat) : List Nat :=
  let gr := s.gangGrid g
  if (s.grid gr).launch.coresident then (s.regionsOf gr).flatMap s.gangsOf else [g]

/-- The gangs that stop with gang `g` (R155, R438): for a head, all that its plan names. -/
def State.stopSet (s : State) (g : Nat) : List Nat :=
  match s.causeOf g with
  | some q => s.plan q
  | none => s.together g

/-- Some gangs are marked stopping. -/
def State.stopGangs (s : State) (l : List Nat) (head : Option Nat) (all : Bool) : State :=
  l.foldl (fun (s : State) k => s.modGang k fun x => x.stop (s.localTick (s.region x.region).die) s.stake head all) s

/-- PREEMPT_GANG (R155, R438, R439): for priority, or at the driver's request. -/
def execPreemptGang (g : Nat) (s : State) : Out :=
  let head := s.causeOf g
  .next (if s.gangs.length ≤ g || (s.grid (s.gangGrid g)).launch.timed || ((s.gang g).st != .resident && head.isNone) then s
  else
    let s1 := match head with
      | some q => s.modQueue q fun x => { x with urgent := true }
      | none => s
    s1.stopGangs (s.stopSet g) head head.isSome)

/-- PREEMPT_BLOCK_TIMEOUT (R439): a general block that has not completed 16,384 ticks after the stop is aborted, unless its
returning atomic has been performed. -/
def execPreemptBlockTimeout (w : Nat) (s : State) : Out :=
  .next (match s.blk? w, (s.gang (s.place w).gang).st with
  | some b, .stopping t _ =>
    if b.cls == 0 && b.atomDone.isNone && decide (t + 16384 ≤ s.localTick (s.place w).die) then s.abortBlock w else s
  | _, _ => s)

/-- Whether a save of a gang waits for the driver's RETRY (R439). -/
def State.saveHeld (s : State) (g : Nat) : Bool :=
  s.ctxs.any fun c => (c.hubq ++ c.posted).any fun r => r.src == 3 && r.save == some g

/-- Whether the state of a team that stops may stay on its core as the reserve context (R386, R439): no core of its gang is fenced (R448), the core
holds no other context's state, not even one that waits for its switch, and the head that caused the stop still has room with the
gang's resources counted. -/
def State.mayKeep (s : State) (t : Nat) (head : Option Nat) : Bool :=
  let g := (s.team t).gang
  let die := (s.region (s.gang g).region).die
  let core := (s.team t).core
  let other (u : Nat) : Bool := (s.gang (s.team u).gang).st == .reserve && (s.teamPlace u).ctx != (s.teamPlace t).ctx
  !((s.teamsOf g).any fun u => (s.core die (s.team u).core).fenced) && (s.core die core).reserve.isNone &&
    !(s.coreTeams die core).any other && (match head.bind fun q => s.head? q with
      | some (_, l) => s.fits l die core
      | none => true)

/-- The teams of a gang whose state is to be saved (R439): decided for each core. -/
def State.savedTeams (s : State) (g : Nat) (head : Option Nat) : List Nat := (s.teamsOf g).filter fun t => !s.mayKeep t head

/-- A core whose team has stopped at a block boundary in tick `b`: where the state stays, the core switches 64 ticks after it (R440). -/
def Core.stopped (c : Core) (b now : Nat) (kept : Bool) : Core :=
  { c with bound := some b, switchAt := if kept && c.primary.isSome && c.switchAt.isNone then some (max now (b + 64)) else c.switchAt }

/-- The gang leaves its cores (R439): its seats are free, and so are the resources of the teams in `saved`, whose cores may be left without a
primary. -/
def State.leaveCores (s : State) (g : Nat) (saved : List Nat) : State :=
  let die := (s.region (s.gang g).region).die
  let now := s.localTick die
  let all := s.teamsOf g
  let b := (s.gang g).bound.getD now
  let s := (s.gangWarps g).foldl (fun (s : State) w => s.freeSeat w) s
  let s := s.modGang g fun x => { x with
    st := if saved.length = all.length then .saved else .reserve, freedAt := if saved.isEmpty then x.freedAt else some now }
  let s := all.foldl (fun (s : State) t =>
    (s.modTeam t fun x => { x with kept := !saved.contains t }).modCore die (s.team t).core fun c => c.stopped b now (!saved.contains t)) s
  saved.foldl (fun (s : State) t =>
    let c := (s.team t).core
    let s := s.tidyCore die c
    if (s.core die c).primary.isNone then s.modCore die c fun x => { x with freed := some now } else s) s

/-- PREEMPT_DRAINED (R439, R441): the gang's warps are at block boundaries and its copy commands have completed. What does not stay on its core is
written to the save area; an untranslated page there posts a record with `SRC` 3, and the gang stays stopped on its cores. -/
def execPreemptDrained (g : Nat) (s : State) : Out :=
  let ctx := (s.grid (s.gangGrid g)).ctx
  .next (match (s.gang g).st with
  | .stopping _ head =>
    let drained := (s.gangWarps g).all (fun w => (s.warp w).blk.isNone && !s.unsettled w) &&
      (s.teamsOf g).all fun t => (s.team t).tlc.val == (s.team t).tlc.issued
    let saved := s.savedTeams g head
    if !drained || s.saveHeld g || (s.saveRecords saved).any fun p => s.homeBusy ctx p.1 128 then s
    else match s.saveMiss ctx (s.saveRecords saved), s.teamsOf g with
    | some a, t :: _ => s.postRec ctx (s.fillTeam t { code := 3, src := 3, addr := BitVec.ofNat 64 a, aux := 1, save := some g })
    | some _, [] => s
    | none, _ =>
      let t := s.writeRecords ctx saved
      { t with fresh := t.fresh + 1 }.leaveCores g saved
  | _ => s)

/-- Whether every warp of a stopping gang is at a block boundary, which it has not been before (R440). -/
def State.atBound (s : State) (g : Nat) : Bool :=
  (s.gang g).st.stops && (s.gang g).bound.isNone && (s.gangWarps g).all fun w => (s.warp w).blk.isNone

/-- Note the tick in which the last warp of a stopping gang has reached a block boundary (R440). -/
def State.noteBound (s : State) (g : Nat) : State :=
  if s.atBound g then s.modGang g fun x => { x with bound := some (s.localTick (s.region x.region).die) } else s

/-- CONTEXT_SWITCH (R440): 64 ticks after the outgoing primary has stopped, the context whose state was kept there is the core's reserve, and
the core has no primary until a gang is placed, from the next tick on, or resumes there; a context that still runs there stays primary. -/
def execContextSwitch (die core : Nat) (s : State) : Out :=
  let c := s.core die core
  .next (match c.switchAt with
  | some t =>
    let stays := (s.coreTeams die core).any fun t =>
      some (s.teamPlace t).ctx == c.primary && (s.gang (s.team t).gang).st != .reserve
    let kept := ((s.coreTeams die core).find? fun t => (s.gang (s.team t).gang).st == .reserve).map fun t => (s.teamPlace t).ctx
    if t ≤ s.localTick die then s.modCore die core fun c =>
      { c with primary := if stays then c.primary else none, reserve := kept, switchAt := none,
               freed := if stays then c.freed else some (s.localTick die) }
    else s
  | none => s)

/-- GANG_RESUME (R157): a pre-empted gang that has room resumes, the highest effective priority and then the longest pre-empted
first, unless a head of higher effective priority can be placed, or waits for cores pre-empted for it (R156). -/
def execGangResume (g : Nat) (s : State) : Out :=
  let p := s.gridPrio (s.gangGrid g)
  let before (k : Nat) : Bool :=
    let r := s.gridPrio (s.gangGrid k)
    decide (p < r) || (r == p && decide ((s.gang k).stoppedAt < (s.gang g).stoppedAt))
  .next (if !(s.gang g).st.out || s.waitingGangs.any before ||
      (s.heads.any fun q => decide (p < (s.queue q).prio) && ((s.placeHead q).isSome || s.urgent q)) then s
  else (s.resume g).getD s)

/-- The heads are considered again after a rise of a priority (R142): a launch is skipped or placed while one may be, then gangs are pre-empted for the
first head for which R155 does so; then all is done. -/
def State.reconsider (s : State) (q : Nat) : State :=
  let victim := (s.heads.find? fun h => !(s.plan h).isEmpty).bind fun h =>
    (s.plan h).find? fun g => (s.gang g).st == .resident || (s.gang g).st == .reserve
  let o := if s.heads.any s.skips || s.nextHead?.isSome then execLaunchPlacement s else match victim with
    | some g => execPreemptGang g s
    | none => .next (s.modQueue q fun x => { x with risen := none })
  match o with
  | .next t => t
  | _ => s

end Sys2Proof.Machine
end

