-- ==== Sys2Proof/Machine/Copy.lean ====
section
/-! DEFINITION. The copy engine: issue and its checks, chunks, untimed copies and completion (R229 to R240, R378). -/

namespace Sys2Proof.Machine

/-! Commands (Table 8-11). -/

/-- Copy command codes (Table 8-9). -/
def copyCodes : List Nat := [0x101, 0x102, 0x103, 0x104, 0x105, 0x106]

/-- A 32-bit field of a command at a byte offset. -/
def cmdW (cmd : List Word) (i : Nat) : Nat := fld (cmd.getD (i / 8) 0) (8 * (i % 8)) 32
/-- A signed 32-bit field. -/
def cmdI (cmd : List Word) (i : Nat) : Int := (BitVec.ofNat 32 (cmdW cmd i)).toInt

/-- What a copy command asks for. -/
structure CopyArgs where
  code : Nat
  srcH : Nat
  srcO : Nat
  dstH : Nat
  dstO : Nat
  rb : Nat
  rows : Nat
  planes : Nat
  idxO : Nat
  ss : Int
  ds : Int
  sp : Int
  dp : Int
  pattern : Nat
deriving DecidableEq, Repr, Inhabited

/-- Read a command's fields. -/
def CopyArgs.of (cmd : List Word) : CopyArgs :=
  let c := cmdCode cmd
  let d3 := c == 0x102
  { code := c, srcH := cmdW cmd 4, srcO := (cmd.getD 1 0).toNat, dstH := cmdW cmd 16, dstO := (cmd.getD 3 0).toNat,
    rb := cmdW cmd 20, rows := cmdW cmd 32, planes := if d3 then cmdW cmd 48 else 1, idxO := cmdW cmd 36,
    ss := cmdI cmd 40, ds := cmdI cmd 44, sp := if d3 then cmdI cmd 56 else 0, dp := if d3 then cmdI cmd 60 else 0,
    pattern := cmdW cmd 8 }

/-- Whether the command reads memory. -/
def CopyArgs.hasSrc (a : CopyArgs) : Bool := a.code != 0x105
/-- Whether the command writes memory. -/
def CopyArgs.hasDst (a : CopyArgs) : Bool := a.code != 0x106

/-- Whether a copy command's header and zero fields are sound (cause 1, R229). -/
def copyHeaderOk (cmd : List Word) : Bool :=
  let c := cmdCode cmd
  let need := if c = 0x102 then 4 else if c = 0x106 then 2 else 3
  copyCodes.contains c && cmdHeader cmd need && (cmdByte cmd 2 ≤ 3 || cmdZero cmd (16 * need) 64) &&
    (match c with
    | 0x101 => cmdZero cmd 36 40
    | 0x102 => cmdZero cmd 36 40 && cmdZero cmd 52 56
    | 0x105 => cmdZero cmd 4 8 && cmdZero cmd 12 16 && cmdZero cmd 36 44
    | 0x106 => cmdZero cmd 16 20 && cmdZero cmd 24 32
    | _ => true)

/-- Whether a command keeps the limits and alignments of R234 and R237 (cause 2). -/
def CopyArgs.rangeOk (a : CopyArgs) : Bool :=
  if a.code = 0x106 then decide (a.srcO < 2 ^ 48 ∧ 1 ≤ a.rb)
  else
    (!a.hasSrc || decide (a.srcO < 2 ^ 48 ∧ a.srcO % 4 = 0)) && decide (a.dstO < 2 ^ 48 ∧ a.dstO % 4 = 0) &&
      decide (4 ≤ a.rb ∧ a.rb ≤ 16777216 ∧ a.rb % 4 = 0) && decide (1 ≤ a.rows ∧ a.rows ≤ 1048576) &&
      decide (1 ≤ a.planes ∧ a.planes ≤ 65536) && decide (a.ss % 4 = 0 ∧ a.ds % 4 = 0 ∧ a.sp % 4 = 0 ∧ a.dp % 4 = 0) &&
      (!(a.code == 0x103 || a.code == 0x104) || decide (a.idxO % 4 = 0))

/-! Handles (R230). -/

/-- A buffer that a handle names: the scratchpad, or memory from a base. -/
inductive Buf where
  | spad
  | mem (base len : Nat) (rd wr : Bool)
deriving DecidableEq, Repr, Inhabited

/-- Read a handle of the table that `w0` places (Table 8-10, R389): none where it is invalid. -/
def State.handle (s : State) (ctx : Nat) (w0 : Word) (h : Nat) : Option Buf :=
  let i := h / 4096
  let a := fld w0 0 44 * 16 + 16 * i
  if i = 0xFFFFF then (if h % 4096 = 0 then some .spad else none)
  else if fld w0 44 20 ≤ i then none
  else match s.transNow ctx false .rd a with
    | .ok _ _ leaf =>
      let e := s.peek64 ctx a
      if pteDrv leaf && e.getLsbD 63 && fld e 48 12 == h % 4096 then
        some (.mem (fld e 0 48) (fld (s.peek64 ctx (a + 8)) 0 48) (e.getLsbD 62) (e.getLsbD 61))
      else none
    | _ => none

/-- Length of a buffer. -/
def Buf.len (b : Buf) (alloc : Nat) : Nat :=
  match b with
  | .spad => alloc
  | .mem _ n _ _ => n

/-- Whether rows at strides lie in a buffer. -/
def extentOk (len o rb rows planes : Nat) (st ps : Int) : Bool :=
  let r : Int := (rows : Int) - 1
  let p : Int := (planes : Int) - 1
  let lo : Int := (o : Int) + min 0 (r * st) + min 0 (p * ps)
  let hi : Int := (o : Int) + max 0 (r * st) + max 0 (p * ps) + rb
  decide (0 ≤ lo) && decide (hi ≤ len)

/-- Where the handle table of a context lies now (Table 19-1). -/
def State.tabOf (s : State) (ctx : Nat) : Word := (s.ctx ctx).block.getD 0 0

/-- The cause for which a command is rejected at issue, 0 for none (R231, Table 8-12). -/
def State.copyCheck (s : State) (t : Nat) (cmd : List Word) (timed : Bool) : Nat :=
  let a := CopyArgs.of cmd
  let ctx := (s.teamPlace t).ctx
  let alloc := (s.team t).alloc
  let src := s.handle ctx (s.tabOf ctx) a.srcH
  let dst := s.handle ctx (s.tabOf ctx) a.dstH
  let right (b : Option Buf) (wr : Bool) : Bool := match b with
    | some (.mem _ _ r w) => if wr then w else r
    | _ => true
  let inside (b : Option Buf) (o rb rows planes : Nat) (st ps : Int) : Bool := match b with
    | some b => extentOk (b.len alloc) o rb rows planes st ps
    | none => true
  if !copyHeaderOk cmd then 1
  else if !a.rangeOk then 2
  else if (a.hasSrc && src.isNone) || (a.hasDst && dst.isNone) then 3
  else if (a.hasSrc && !right src false) || (a.hasDst && !right dst true) then 4
  else if a.code = 0x106 then (if inside src a.srcO a.rb 1 1 0 0 then (if timed then 10 else 0) else 5)
  else if (a.hasSrc && a.code != 0x103 && !inside src a.srcO a.rb a.rows a.planes a.ss a.sp) ||
      (a.code != 0x104 && !inside dst a.dstO a.rb a.rows a.planes a.ds a.dp) ||
      ((a.code == 0x103 || a.code == 0x104) && decide (alloc < a.idxO + 4 * a.rows)) then 5
  else if timed && !((a.code == 0x101 || a.code == 0x102) && (src == some .spad) != (dst == some .spad)) then 10
  else 0

/-- A warp owes the window miss fault at its next block fetch (R181). -/
def State.oweMiss (s : State) (w : Option Nat) : State := match w with
  | some w => s.modWarp w fun x => { x with timed := { x.timed with owesMiss := true } }
  | none => s

/-- The engine takes the command at the head of a team's copy queue and checks it (R231); a cross-path fence's stores come first (R223). A handle that a
timed copy no longer has at its start tick ends it with cause 9 and a window miss (R181). -/
def State.takeCopy (s : State) (t : Nat) : State :=
  match (s.team t).queue with
  | [] => s
  | c :: r =>
    if c.xwarp.any s.unsettled then s
    else
      let late := c.timed.any fun t0 => decide (t0 ≤ s.reconTick (s.teamPlace t).die)
      let found := s.copyCheck t c.cmd c.timed.isSome
      let cause := if late && found == 3 then 9 else found
      let job : CopyJob := { seq := c.seq, cmd := c.cmd, tab := s.tabOf (s.teamPlace t).ctx, pos := 0, after := c.after, paused := none, timed := c.timed,
                             warp := c.warp, finished := if cause = 0 then none else some cause }
      let s := s.modTeam t fun x => { x with queue := r, jobs := x.jobs ++ [job] }
      if cause = 9 then s.oweMiss c.warp else s

/-- Issue the command at the head of a team's copy queue when it has a code, or one that the engine does not implement: at most four are in
progress (R231, R240). -/
def State.issueCopy (s : State) (t code : Nat) : State :=
  let x := s.team t
  match x.queue with
  | [] => s
  | c :: _ =>
    let k := cmdCode c.cmd
    if 4 ≤ (x.jobs.filter fun j => j.finished.isNone).length || !(k == code || !copyCodes.contains k) then s else s.takeCopy t

/-- COPY2D (R234). -/
def execCopy2d (t : Nat) (s : State) : Out := .next (s.issueCopy t 0x101)
/-- COPY3D (R235). -/
def execCopy3d (t : Nat) (s : State) : Out := .next (s.issueCopy t 0x102)
/-- GATHER (R236). -/
def execGather (t : Nat) (s : State) : Out := .next (s.issueCopy t 0x103)
/-- SCATTER (R236). -/
def execScatter (t : Nat) (s : State) : Out := .next (s.issueCopy t 0x104)
/-- FILL (R237). -/
def execFill (t : Nat) (s : State) : Out := .next (s.issueCopy t 0x105)
/-- PRELOAD_L2 (R237). -/
def execPreloadL2 (t : Nat) (s : State) : Out := .next (s.issueCopy t 0x106)

/-! Chunks (R232, R233). -/

/-- A team's copy command in progress. -/
def State.job? (s : State) (t seq : Nat) : Option CopyJob := (s.team t).jobs.find? fun j => j.seq == seq

/-- The scratchpad ranges that a command writes: its rows. -/
def CopyArgs.spadRanges (a : CopyArgs) : List (Nat × Nat) :=
  if a.dstH / 4096 != 0xFFFFF then []
  else (List.range a.planes).flatMap fun p => (List.range a.rows).map fun r => (((a.dstO : Int) + r * a.ds + p * a.dp).toNat, a.rb)

/-- The reading of a chunk's source is given up. -/
def CopyJob.quiet (j : CopyJob) : CopyJob := { j with asked := false, need := [], got := [] }

/-- A command ends with a cause; a timed one that fails owes its warp a window miss (R181). -/
def State.endCopy (s : State) (t : Nat) (j : CopyJob) (cause : Nat) : State :=
  let s := s.modJob t j.seq fun x => { x.quiet with finished := some cause }
  let now := s.reconTick (s.teamPlace t).die
  let s := if j.timed.isSome && j.begun then
      s.modTeam t fun x => { x with
        landed := x.landed ++ (CopyArgs.of j.cmd).spadRanges.map fun q => (q.1, q.2, now),
        filling := x.filling.filter fun q => q.1 != j.seq }
    else s
  if j.timed.isSome && cause != 0 then s.oweMiss j.warp else s

/-- Post a copy command's page fault record and pause it at its chunk (R233, Table 21-2); with no pending entry free the access waits (R396). -/
def State.pauseCopy (s : State) (t : Nat) (j : CopyJob) (va : Nat) (wr : Bool) (page : Option (Nat × Nat)) : State :=
  if !s.pageRoom va page then s
  else
    let ctx := (s.teamPlace t).ctx
    let f := s.fillTeam t { code := 3, src := 2, addr := BitVec.ofNat 64 va, lanes := BitVec.ofNat 64 j.seq,
                            aux := if wr then 5 else 4, job := some (t, j.seq) }
    (s.postPage ctx va f page).modJob t j.seq fun x => { x.quiet with paused := some va }

/-- Where the next bytes of a command lie: offsets of source and destination, how many bytes, and whether a chunk begins there. -/
structure Chunk where
  src : Int
  dst : Int
  n : Nat
  start : Bool
deriving DecidableEq, Repr, Inhabited

/-- What is left of the chunk at a command's position: it stays in its row and its 4 KiB of destination (R232). -/
def chunkOf (a : CopyArgs) (j : CopyJob) : Chunk :=
  let i := j.pos / a.rb
  let col := j.pos % a.rb
  let row := i % a.rows
  let plane := i / a.rows
  let sr := if a.code = 0x103 then j.index else row
  let dr := if a.code = 0x104 then j.index else row
  let src : Int := a.srcO + sr * a.ss + plane * a.sp + col
  let dst : Int := a.dstO + dr * a.ds + plane * a.dp + col
  { src := src, dst := dst, n := min (a.rb - col) (4096 - dst.toNat % 4096), start := col == 0 || dst.toNat % 4096 == 0 }

/-- The address in memory of an offset in a buffer. -/
def Buf.va? (b : Option Buf) (o : Int) : Option Nat := match b with
  | some (.mem base _ _ _) => some (base + o.toNat)
  | _ => none

/-- The words of a range of a context's memory that an engine access cannot reach, or reach only when translated. -/
def State.engineMiss (s : State) (ctx : Nat) (acc : Acc) (va n : Nat) : Option (Nat × TRes) :=
  (List.range (n / 4)).findSome? fun i => match s.transNow ctx false acc (va + 4 * i) with
    | .ok _ _ _ => none
    | .far _ _ => none
    | r => some (va + 4 * i, r)

/-- Bytes of a context's memory as the device reads them at once: free values from another package (log 7). -/
def State.engineRead (s : State) (ctx va n : Nat) : List (BitVec 8) :=
  (List.range n).map fun i =>
    if s.isFar ctx (va + i) then (Config.freeWord (s.fresh + i)).extractLsb' 0 8 else s.peekByte (s.spaceOf ctx (va + i)) (va + i)

/-- Whether an engine read meets poison (R447). -/
def State.enginePoison (s : State) (ctx va n : Nat) : Bool :=
  (List.range (n / 4)).any fun i => !s.isFar ctx (va + 4 * i) && s.peekPoison (s.spaceOf ctx (va + 4 * i)) (va + 4 * i)

/-- Ticks before `t` in which bonded DRAM works (R174). -/
def workTicks (t : Nat) : Nat := t / 4096 * 3776 + min (t % 4096) 3776

/-- Post a record of a hazard that a copy command of a team meets, once (R444, log 51). -/
def State.copyRecord (s : State) (t seq detail aux : Nat) : State :=
  let p := s.teamPlace t
  let isIt (f : FRec) : Bool := f.code == 16 && f.detail == detail && f.job == some (t, seq)
  if s.umpire p.ctx && !((s.ctx p.ctx).hubq.any isIt) && !((s.ctx p.ctx).posted.any isIt) then
    s.postRec p.ctx (s.fillTeam t { code := 16, src := 4, detail := detail, aux := BitVec.ofNat 64 aux, job := some (t, seq) })
  else s

/-- Hazards 3 and 5 of Table 6-9 of a chunk: it writes a range that a `tsend` is still to read, or reads the destination of a timed copy too
early. -/
def State.chunkHazards (s : State) (t : Nat) (a : CopyArgs) (j : CopyJob) (k : Chunk) (src dst : Option Buf) : State :=
  let put := if dst == some .spad then s.tsendHazard [(t, k.dst.toNat, k.n)] else none
  let get := if a.hasSrc && src == some .spad then s.copyHazard (j.warp.getD ((s.warpsOf t).headD 0)) [(t, k.src.toNat, k.n)] else none
  let s := match put with
    | some o => s.copyRecord t j.seq 3 o
    | none => s
  match get with
  | some o => s.copyRecord t j.seq 5 o
  | none => s

/-- Check a chunk before it is moved (R232, R233): a state when the command stops or pauses. A handle read that meets an untranslated page, or one
without `DRV`, at a chunk's check ends the command with cause 6, as a revoked handle does: R389 names cause 3, which Table 8-12 gives to the issue
only, and does not say which holds here (log 28). What the home of another package answers to a
request is a free value here, the protection fault among the answers (R392, log 7). -/
def State.chunkStop (s : State) (t : Nat) (a : CopyArgs) (j : CopyJob) (k : Chunk) (src dst : Option Buf) : Option State :=
  let ctx := (s.teamPlace t).ctx
  let miss (b : Option Buf) (acc : Acc) (o : Int) : Option (Nat × TRes) := (Buf.va? b o).bind fun va => s.engineMiss ctx acc va k.n
  let far (b : Option Buf) (o : Int) : Bool := (Buf.va? b o).any fun va => (List.range (k.n / 4)).any fun i => s.isFar ctx (va + 4 * i)
  let stop (wr : Bool) (m : Nat × TRes) : State := match m.2 with
    | .page h sp => if j.timed.isSome then s.endCopy t j 9 else s.pauseCopy t j m.1 wr (some (h, sp))
    | .nohome => if j.timed.isSome then s.endCopy t j 9 else s.pauseCopy t j m.1 wr none
    | _ => s.endCopy t j 7
  let poison := a.hasSrc && src == some .spad && (List.range (k.n / 4)).any fun i => (s.team t).spPoison.contains (k.src.toNat + 4 * i)
  if (a.hasSrc && src.isNone) || dst.isNone then some (s.endCopy t j 6)
  else match (if a.hasSrc then miss src .rd k.src else none), miss dst .wr k.dst with
    | some m, _ => some (stop false m)
    | none, some m => some (stop true m)
    | none, none =>
      if poison then some (s.endCopy t j 8)
      else if ((a.hasSrc && far src k.src) || far dst k.dst) && (Config.freeWord s.fresh).getLsbD 63 then
        some ({ s with fresh := s.fresh + 1 }.endCopy t j 7)
      else none

/-- The row of GATHER and SCATTER at a row's start: its index is read, and the row is checked against its buffer (R236, R238). -/
def State.rowIndex (s : State) (t : Nat) (a : CopyArgs) (j : CopyJob) (src dst : Option Buf) : Except Nat CopyJob :=
  if (a.code = 0x103 ∨ a.code = 0x104) ∧ j.pos % a.rb = 0 then
    let x := s.team t
    let o := a.idxO + 4 * (j.pos / a.rb)
    let i := (getW32 x.spad o).toNat
    let len (b : Option Buf) : Nat := (b.map (·.len x.alloc)).getD 0
    let off : Int := if a.code = 0x103 then a.srcO + i * a.ss else a.dstO + i * a.ds
    let n := if a.code = 0x103 then len src else len dst
    if x.spPoison.contains o then .error 8
    else if off < 0 ∨ (n : Int) < off + a.rb then .error 5
    else .ok { j with index := i }
  else .ok j

/-- The command has moved `n` bytes more; after the last it ends. -/
def State.chunkDone (s : State) (t : Nat) (a : CopyArgs) (j : CopyJob) (n : Nat) : State :=
  let j2 := { j with pos := j.pos + n }
  let s := s.modJob t j.seq fun _ => j2
  if a.rb * a.rows * a.planes ≤ j2.pos then s.endCopy t j2 0 else s

/-- The pattern of FILL over a chunk (R237). -/
def CopyArgs.fill (a : CopyArgs) (n : Nat) : List (BitVec 8) := (List.range n).map fun i => byteOf (BitVec.ofNat 32 a.pattern) (i % 4)

/-! Untimed copies: the source is read line by line through the core's L1 and die cache, then the destination is written the same way
(R240). -/

/-- A request of a copy command at its die cache (R240). -/
def State.jobReq (s : State) (t seq space line : Nat) (rqt : Rqt) (kind : DKind) : DReq :=
  let p := s.teamPlace t
  { die := p.die, core := p.core, w := none, job := some (t, seq), space := space, line := line, rqt := rqt, ord := .plain, scope := .warp,
    kind := kind, pts := (s.core p.die p.core).pts, asked := false, performed := false, wts := 0 }

/-- Whether a team has an untimed copy command to go on with. -/
def State.copyReady (s : State) (t : Nat) : Bool :=
  (s.ctx (s.teamPlace t).ctx).st == .active &&
    (s.team t).jobs.any fun j => j.timed.isNone && j.finished.isNone && j.paused.isNone

/-- Whether the copy engine of a team's core turns to the team: it serves the teams round robin, one chunk at a time (R240). -/
def State.copyTurn (s : State) (t : Nat) : Bool :=
  let p := s.teamPlace t
  let ts := s.coreTeams p.die p.core
  let after (u : Nat) : Bool := match (s.core p.die p.core).served with
    | some v => decide (v < u)
    | none => true
  let ready := ts.filter s.copyReady
  !(ts.any fun u => (s.team u).jobs.any (·.asked)) && (((ready.find? after) <|> ready.head?) == some t)

/-- The engine has turned to a team. -/
def State.serveTeam (s : State) (t : Nat) : State :=
  let p := s.teamPlace t
  s.modCore p.die p.core fun c => { c with served := some t }

/-- The words of a range of a context's memory on this package, with their spaces. -/
def State.engineWords (s : State) (ctx va n : Nat) : List (Nat × Nat) :=
  ((List.range n).filterMap fun i => match s.homeOf ctx (va + i) with
    | .loc _ sp => some (sp, (va + i) / 4)
    | _ => none).dedup

/-- Words of a line reach a copy command. -/
def State.gotJob (s : State) (t seq line : Nat) (ws : List Nat) (words : List CWord) : State :=
  let vals := ws.filterMap fun i => (wordAt? words i).map fun c => (line * 32 + i, c.v, c.p)
  s.modJob t seq fun j => if j.asked then { j with got := j.got ++ vals } else j

/-- Whether a request is a store of the warp of a copy command that comes before the command's reads: one made before the last `tlwait` that the warp
passed before its push (R295, log 51). -/
def State.jobAfter (s : State) (j : Nat × Nat) (d : DReq) : Bool :=
  (s.job? j.1 j.2).any fun x => d.w.isSome && d.w == x.warp && d.stores && !d.performed && decide (d.stamp < x.after)

/-- Read one line of a chunk's source: from the L1 on a hit, unless a request of the engine, an atomic or an earlier store of its warp is on its way to
the line, otherwise by a request at the die cache (R240). -/
def State.askLine (s : State) (t seq : Nat) (q : Nat × Nat) (ws : List Nat) : State :=
  let p := s.teamPlace t
  match s.l1Load? p.die p.core none q.1 q.2 .wt false ws fun d => d.job.isSome || d.isAtomic || s.jobAfter (t, seq) d with
  | some x => (s.gotJob t seq q.2 ws x.words).l1Use p.die p.core x.line x.way
  | none => s.addReqs [s.jobReq t seq q.1 q.2 .wt (.load 0 ws)]

/-- Begin a chunk whose checks have passed: its source is asked for. -/
def State.askChunk (s : State) (t : Nat) (a : CopyArgs) (j : CopyJob) (k : Chunk) (src : Option Buf) : State :=
  let words := match (if a.hasSrc then Buf.va? src k.src else none) with
    | some va => s.engineWords (s.teamPlace t).ctx va k.n
    | none => []
  let s : State := { s with fresh := s.fresh + 1 }
  let s := (s.serveTeam t).modJob t j.seq fun _ => { j with asked := true, need := words.map (·.2), got := [], from_ := (Buf.va? src k.src).getD 0 }
  ((words.map fun p => (p.1, p.2 / 32)).dedup).foldl (fun (s : State) q =>
    s.askLine t j.seq q ((words.filter fun p => p.1 == q.1 && p.2 / 32 == q.2).map fun p => p.2 % 32)) s

/-- The bytes of a chunk once its source has come, from where it was read (R390): free values for what lies on another package (log 7). -/
def State.chunkBytes (s : State) (t : Nat) (a : CopyArgs) (j : CopyJob) (k : Chunk) (src : Option Buf) : List (BitVec 8) :=
  if !a.hasSrc then a.fill k.n
  else match Buf.va? src k.src with
    | none => getBytes (s.team t).spad k.src.toNat k.n
    | some _ => (List.range k.n).map fun i => match j.got.find? fun g => g.1 == (j.from_ + i) / 4 with
      | some g => byteOf g.2.1 ((j.from_ + i) % 4)
      | none => (Config.freeWord (s.fresh + i)).extractLsb' 0 8

/-- The writes of a chunk to memory: a `.wt` store for each line, in two parts by a free mask, since the words of an engine's write become
visible one by one (R243, R245, log 51). -/
def State.chunkStores (s : State) (t seq va : Nat) (bytes : List (BitVec 8)) : List DReq :=
  let ctx := (s.teamPlace t).ctx
  let all := (placeBytes va bytes).filterMap fun p => match s.homeOf ctx p.1 with
    | .loc _ sp => some (sp, p)
    | _ => none
  ((all.map fun q => (q.1, q.2.1 / 128)).dedup).flatMap fun ln =>
    let mine := (all.filter fun q => q.1 == ln.1 && q.2.1 / 128 == ln.2).map (·.2)
    let first (p : Nat × BitVec 8) : Bool := (Config.freeWord (s.fresh + 4096 + ln.2 % 64)).getLsbD (p.1 / 4 % 32)
    ([mine.filter first, mine.filter fun p => !first p].filter fun l => !l.isEmpty).map fun l => s.jobReq t seq ln.1 ln.2 .wt (.store l)

/-- A chunk whose source has come is written. -/
def State.putChunk (s : State) (t : Nat) (a : CopyArgs) (j : CopyJob) (k : Chunk) (src dst : Option Buf) : State :=
  if j.got.any (·.2.2) then s.endCopy t j 8
  else
    let bytes := s.chunkBytes t a j k src
    let s := (s.chunkHazards t a j k src dst)
    let s := match Buf.va? dst k.dst with
      | some va => s.addReqs (s.chunkStores t j.seq va bytes)
      | none => { s with fresh := s.fresh + 8192 }.spadSend t
          { warp := none, job := some (t, j.seq), stamp := j.pos, rel := none, bytes := placeBytes k.dst.toNat bytes, poison := [] }
    { s with fresh := s.fresh + 8192 }.chunkDone t a j.quiet k.n

/-- The next line of a PRELOAD-L2 (R237): already in the die cache, asked for, or skipped. For the scratchpad handle, which has no lines there, the spec
gives neither an effect nor a rejection; the model ends the command without an effect or an error (log 28). -/
def State.preloadLine (s : State) (t : Nat) (a : CopyArgs) (j : CopyJob) : State :=
  let p := s.teamPlace t
  match s.handle p.ctx j.tab a.srcH with
  | none => s.endCopy t j 6
  | some .spad => s.endCopy t j 0
  | some (.mem base _ _ _) =>
    let line := (base + a.srcO) / 128 + j.pos
    let j2 := { j with pos := j.pos + 1 }
    let s := (s.serveTeam t).modJob t j.seq fun _ => j2
    let s := match s.transNow p.ctx false .rd (line * 128) with
      | .ok _ sp _ => if (s.dc? p.die sp line).isSome then s else s.addReqs [s.jobReq t j.seq sp line .wt (.prefetch false)]
      | _ => s
    if (base + a.srcO + a.rb - 1) / 128 ≤ line then s.endCopy t j2 0 else s

/-- An untimed command goes on (R232, R240): its next chunk is checked and its source asked for; once that has come, the chunk is checked once
more and written, whole or not at all. -/
def State.copyStep (s : State) (t : Nat) (a : CopyArgs) (j : CopyJob) (src dst : Option Buf) : State :=
  let k := chunkOf a j
  if j.asked then
    if !(j.need.all fun w => j.got.any fun g => g.1 == w) then s
    else (s.chunkStop t a j k src dst).getD (s.putChunk t a j k src dst)
  else if s.copyTurn t then (s.chunkStop t a j k src dst).getD (s.askChunk t a j k src)
  else s

/-! Completion (R225). -/

/-- Whether every write and read of a copy command has been performed (R225). -/
def State.jobQuiet (s : State) (t seq : Nat) : Bool :=
  !(s.cache.dreqs.any fun d => d.job == some (t, seq)) && !((s.team t).pend.any fun e => e.job == some (t, seq))

/-- The records with `SRC` 2 of a command that has completed are not outstanding (R426); one still to be posted is posted so (R425). -/
def Ctx.settled (mine : FRec → Bool) (c : Ctx) : Ctx :=
  let it (r : FRec) : Bool := r.src == 2 && mine r
  { c with posted := c.posted.filter fun r => !it r, hubq := c.hubq.map fun r => if it r then { r with released := true } else r }

/-- COMMAND_COMPLETE (R225): a command that has ended, with all its writes performed, advances its counter. -/
def execCommandComplete (ctr : CtrRef) (seq : Nat) (s : State) : Out :=
  .next (match ctr with
  | .tlc t => match s.job? t seq with
    | none => s
    | some j => match (if s.jobQuiet t seq then j.finished else none) with
      | none => s
      | some c =>
        let ctx := (s.teamPlace t).ctx
        let s := s.modCtx ctx (Ctx.settled fun r => r.job == some (t, seq))
        s.modTeam t fun x => { x with tlc := x.tlc.finish seq c, jobs := x.jobs.filter fun q => q.seq != seq }
  | .tlk ctx => match (s.ctx ctx).jobs.find? fun j => j.seq == seq with
    | none => s
    | some j => match j.finished with
      | none => s
      | some c =>
        if s.teams.any fun t => t.pend.any fun e => e.coll == some (ctx, seq) then s else
        let wash (x : Nat × Nat × Nat) : Nat × Nat × Nat := if x.1 == j.gid && x.2.1 == j.gen then (x.1, x.2.1, s.stake) else x
        s.modCtx ctx fun x => { Ctx.settled (fun r => r.coll == some (ctx, seq)) x with
          tlk := x.tlk.finish seq c, jobs := x.jobs.filter (fun q => q.seq != seq), washing := x.washing.map wash }
  | .tll _ => s)

end Sys2Proof.Machine
end

