-- ==== Sys2Proof/Machine/Collective.lean ====
section
/-! DEFINITION. The collective engine: groups, commands, combining, aborts and washes (R280 to R290). -/

namespace Sys2Proof.Machine

/-! Groups (Table 11-1). -/

/-- A group table entry: its generation, radix, member count, this member's rank and the route. -/
structure GroupE where
  gen : Nat
  radix : Nat
  n : Nat
  rank : Nat
  route : Nat
deriving DecidableEq, Repr, Inhabited

/-- Where the group table of a context lies now (Table 19-1). -/
def State.gtabOf (s : State) (ctx : Nat) : Word := (s.ctx ctx).block.getD 1 0

/-- Address of an entry of the group table that `b` places; none where the table is absent, or its page untranslated or without `DRV`
(R280, R388, R389). -/
def State.groupAddr (s : State) (ctx : Nat) (b : Word) (gid : Nat) (acc : Acc) : Option Nat :=
  let a := fld b 0 48 + 16 * gid
  if !b.getLsbD 63 then none
  else match s.transNow ctx false acc a with
    | .ok _ _ leaf => if pteDrv leaf then some a else none
    | _ => none

/-- A valid entry of the group table that `b` places. -/
def State.groupE (s : State) (ctx : Nat) (b : Word) (gid : Nat) : Option GroupE :=
  (s.groupAddr ctx b gid .rd).bind fun a =>
    let w := s.peek64 ctx a
    if w.getLsbD 63 then
      some { gen := fld w 48 4, radix := fld w 44 4 + 2, n := fld w 16 16 + 1, rank := fld w 0 16, route := fld (s.peek64 ctx (a + 8)) 0 32 }
    else none

/-- A valid entry of a generation, in the table that `b` places. -/
def State.memberIn (s : State) (ctx : Nat) (b : Word) (gid gen : Nat) : Option GroupE :=
  if (s.ctx ctx).st == .active then (s.groupE ctx b gid).filter fun e => e.gen == gen else none

/-- A valid entry of a generation. -/
def State.member (s : State) (ctx gid gen : Nat) : Option GroupE := s.memberIn ctx (s.gtabOf ctx) gid gen

/-- The group entry of an issued command (R388). -/
def State.memberOf (s : State) (ctx : Nat) (j : CollJob) : Option GroupE := s.memberIn ctx j.gtab j.gid j.gen

/-- Contexts of this package that are members of a group. -/
def State.members (s : State) (gid gen : Nat) : List Nat :=
  (List.range s.ctxs.length).filter fun c => (s.member c gid gen).isSome

/-! Commands (Tables 11-3 to 11-5). -/

/-- Collective command codes. -/
def collCodes : List Nat := [0x201, 0x202, 0x203, 0x204, 0x205]

/-- What a collective command asks for. -/
structure CollArgs where
  code : Nat
  gen : Nat
  gid : Nat
  ety : Nat
  rop : Nat
  timeout : Nat
  root : Nat
  srcH : Nat
  dstH : Nat
  srcO : Nat
  dstO : Nat
  count : Nat
deriving DecidableEq, Repr, Inhabited

/-- Read a command's fields. -/
def CollArgs.of (cmd : List Word) : CollArgs :=
  { code := cmdCode cmd, gen := fld (cmd.getD 0 0) 44 4, gid := fld (cmd.getD 0 0) 32 12, ety := cmdByte cmd 6 / 16,
    rop := cmdByte cmd 6 % 16, timeout := cmdW cmd 8, root := cmdW cmd 12, srcH := cmdW cmd 16, dstH := cmdW cmd 20,
    srcO := (cmd.getD 3 0).toNat, dstO := (cmd.getD 4 0).toNat, count := cmdW cmd 40 }

/-- Bytes of an element. -/
def CollArgs.size (a : CollArgs) : Nat := if a.ety = 3 then 2 else 4
/-- Whether the command reduces. -/
def CollArgs.reduces (a : CollArgs) : Bool := a.code == 0x201 || a.code == 0x202
/-- Whether the engine implements the code, type and operation (Table 11-5). -/
def CollArgs.known (a : CollArgs) : Bool :=
  collCodes.contains a.code && decide (a.ety ≤ 4) &&
    (!a.reduces || (match a.ety with
      | 0 => decide (a.rop ≤ 5)
      | 1 => decide (a.rop ≤ 5)
      | 4 => decide (3 ≤ a.rop ∧ a.rop ≤ 5)
      | _ => decide (a.rop ≤ 2)))

/-- Elements that a member reads. -/
def CollArgs.reads (a : CollArgs) (e : GroupE) : Nat :=
  if a.code = 0x205 ∨ (a.code = 0x204 ∧ a.root ≠ e.rank) then 0 else if a.code = 0x202 then a.count * e.n else a.count
/-- Elements that a member writes. -/
def CollArgs.writes (a : CollArgs) (e : GroupE) : Nat :=
  if a.code = 0x205 then 0 else if a.code = 0x203 then a.count * e.n else a.count

/-- Whether the header and the zero fields are sound (cause 1); a member other than the root of a BROADCAST names no source. -/
def collHeaderOk (cmd : List Word) (e : GroupE) : Bool :=
  let a := CollArgs.of cmd
  let size := if a.code = 0x205 then 1 else 3
  cmdHeader cmd size && cmdZero cmd 7 8 && (cmdByte cmd 2 ≤ 3 || cmdZero cmd (16 * size) 64) &&
    (if a.code = 0x205 then cmdByte cmd 6 == 0 && cmdZero cmd 12 64
     else (a.reduces || a.rop == 0) && (a.code == 0x204 || a.root == 0) && cmdZero cmd 44 64 &&
       (a.code != 0x204 || a.root == e.rank || a.srcH == 0))

/-- Whether fields are in range and offsets aligned (cause 2). -/
def CollArgs.rangeOk (a : CollArgs) (e : GroupE) : Bool :=
  a.code == 0x205 || (decide (1 ≤ a.count ∧ a.count ≤ 268435456) && decide (a.srcO < 2 ^ 48 ∧ a.srcO % a.size = 0) &&
    decide (a.dstO < 2 ^ 48 ∧ a.dstO % a.size = 0) && (decide (a.root < e.n) || a.root == e.rank))

/-- The cause for which a command is rejected at issue, 0 for none (Table 11-7, causes 1 to 5). -/
def State.collCheck (s : State) (ctx team : Nat) (cmd : List Word) (e : GroupE) : Nat :=
  let a := CollArgs.of cmd
  let alloc := (s.team team).alloc
  let src := s.handle ctx (s.tabOf ctx) a.srcH
  let dst := s.handle ctx (s.tabOf ctx) a.dstH
  let right (b : Option Buf) (wr : Bool) : Bool := match b with
    | some (.mem _ _ r w) => if wr then w else r
    | _ => true
  let inside (b : Option Buf) (o n : Nat) : Bool := match b with
    | some b => decide (o + n * a.size ≤ b.len alloc)
    | none => true
  let rd := decide (0 < a.reads e)
  let wr := decide (0 < a.writes e)
  if !collHeaderOk cmd e then 1
  else if !a.rangeOk e then 2
  else if (rd && src.isNone) || (wr && dst.isNone) then 3
  else if (rd && !right src false) || (wr && !right dst true) then 4
  else if (rd && !inside src a.srcO (a.reads e)) || (wr && !inside dst a.dstO (a.writes e)) then 5
  else 0

/-! Combining (R284, R285). -/

/-- The comparison and logical operations of two integers: min, max, and, or, xor. -/
def combineBits (lt : Lane → Lane → Bool) (rop : Nat) (x y : Lane) : Lane :=
  match rop with
  | 1 => if lt y x then y else x
  | 2 => if lt x y then y else x
  | 3 => x &&& y
  | 4 => x ||| y
  | 5 => x ^^^ y
  | _ => x + y

/-- Sum, min and max of two exact values. -/
def combineExt (rop : Nat) (x y : Ext) : Ext :=
  match rop with
  | 1 => Ext.min x y
  | 2 => Ext.max x y
  | _ => Ext.add false x y

/-- Two elements combine (R284). -/
def combine (ety rop : Nat) (x y : Lane) : Lane :=
  match ety with
  | 0 => combineBits (fun a b => a.slt b) rop x y
  | 2 => rne32 (combineExt rop (f32 x) (f32 y))
  | 3 => BitVec.ofNat 32 (rnebf16 (combineExt rop (val .bf16 (x.toNat % 65536)) (val .bf16 (y.toNat % 65536))))
  | _ => combineBits (fun a b => a.ult b) rop x y

/-- Split a list into consecutive blocks. -/
def blocksOf {α : Type} (k fuel : Nat) (l : List α) : List (List α) :=
  match fuel with
  | 0 => []
  | fuel + 1 => if l.isEmpty then [] else l.take k :: blocksOf k fuel (l.drop k)

/-- `fold` of R285. -/
def foldBlock (op : Lane → Lane → Lane) (l : List Lane) : Lane :=
  match l with
  | [] => 0
  | x :: r => r.foldl op x

/-- `rtree` of R285; `fuel` bounds the depth. -/
def rtree (op : Lane → Lane → Lane) (radix fuel : Nat) (l : List Lane) : Lane :=
  match fuel with
  | 0 => foldBlock op l
  | fuel + 1 => match l with
    | [] => 0
    | [x] => x
    | l => rtree op radix fuel ((blocksOf radix l.length l).map (foldBlock op))

/-! Buffers. -/

/-- Bytes of elements. -/
def elemBytes (size : Nat) (l : List Lane) : List (BitVec 8) := l.flatMap fun x => leBytes size x.toNat

/-- Read elements from a buffer. -/
def State.readElems (s : State) (ctx team : Nat) (b : Buf) (o n size : Nat) : List Lane :=
  let bytes := match b with
    | .spad => getBytes (s.team team).spad o (n * size)
    | .mem base _ _ _ => s.engineRead ctx (base + o) (n * size)
  (List.range n).map fun i => BitVec.ofNat 32 (leNat ((bytes.drop (i * size)).take size))

/-- A command writes bytes to a buffer: to memory as the device does, to a scratchpad as an engine does (R212, R243); what lies on another package
leaves the device. -/
def State.writeBuf (s : State) (ctx : Nat) (j : CollJob) (b : Buf) (o : Nat) (l : List (BitVec 8)) : State :=
  match b with
  | .spad => s.spadSend j.team { warp := none, job := none, coll := some (ctx, j.seq), stamp := j.out, rel := none, bytes := placeBytes o l, poison := [] }
  | .mem base _ _ _ => s.pokeCtx ctx (base + o) l

/-- Free bytes (log 3). -/
def State.freeBytes (s : State) (n : Nat) : List (BitVec 8) × State :=
  ((List.range n).map fun i => (Config.freeWord (s.fresh + i)).extractLsb' 0 8, { s with fresh := s.fresh + n })

/-- Where an access of a buffer is stopped: the address and why. -/
def State.bufMiss (s : State) (ctx : Nat) (b : Buf) (acc : Acc) (o n : Nat) : Option (Nat × TRes) :=
  match b with
  | .spad => none
  | .mem base _ _ _ =>
    let a := (base + o) / 4 * 4
    s.engineMiss ctx acc a ((base + o + n + 3) / 4 * 4 - a)

/-- Whether an access of `n` bytes of a buffer waits: it reaches bonded DRAM in a refresh tick (R174), or a line that is shut to the hub (R248). -/
def State.bufHeld (s : State) (ctx : Nat) (b : Buf) (o n : Nat) : Bool :=
  match b with
  | .spad => false
  | .mem base _ _ _ =>
    let line := (base + o) / 128
    s.homeBusy ctx (base + o) n ||
      (List.range (((base + o) % 128 + n + 127) / 128)).any fun k => s.shutTo 8 0 none (s.spaceOf ctx ((line + k) * 128)) (line + k)

/-- Whether a source holds poison (R447). -/
def State.bufPoison (s : State) (ctx team : Nat) (b : Buf) (o n : Nat) : Bool :=
  match b with
  | .spad => (s.team team).spPoison.any fun a => decide (o / 4 * 4 ≤ a ∧ a < o + n)
  | .mem base _ _ _ =>
    let a := (base + o) / 4 * 4
    s.enginePoison ctx a ((base + o + n + 3) / 4 * 4 - a)

/-! Aborts (R290). -/

/-- The destination of an aborted command holds unspecified values in its extent. -/
def State.scramble (s : State) (ctx : Nat) (j : CollJob) : State :=
  let a := CollArgs.of j.cmd
  match s.memberOf ctx j, s.handle ctx j.tab a.dstH with
  | some e, some b =>
    let n := a.writes e * a.size
    let n := if a.dstO + n ≤ b.len (s.team j.team).alloc then n else 0
    let r := s.freeBytes n
    r.2.writeBuf ctx j b a.dstO r.1
  | _, _ => s

/-- A member's commands of a group end with a cause; later ones will too. -/
def State.abortMember (s : State) (ctx gid gen cause : Nat) : State :=
  let mine (j : CollJob) : Bool := j.gid == gid && j.gen == gen && j.finished.isNone
  let s := ((s.ctx ctx).jobs.filter mine).foldl (fun (s : State) j => s.scramble ctx j) s
  let fin (j : CollJob) : CollJob := if mine j then { j with finished := some cause, paused := none } else j
  s.modCtx ctx fun x => { x with
    jobs := x.jobs.map fin,
    aborted := if x.aborted.any fun q => q.1 == gid && q.2.1 == gen then x.aborted else x.aborted ++ [(gid, gen, cause)] }

/-- Members of a group on this package that a packet along a route reaches. -/
def State.membersOn (s : State) (gid gen route : Nat) : List Nat :=
  (s.members gid gen).filter fun c => (s.member c gid gen).any fun g => g.route == route

/-- A group aborts at the engine of a member: at every member of this package on its route; the abort also leaves along the route (R281, R290). -/
def State.abortGroup (s : State) (ctx gid gen cause : Nat) : State :=
  match s.member ctx gid gen with
  | none => s
  | some e => (s.membersOn gid gen e.route).foldl (fun (s : State) c => s.abortMember c gid gen cause) s

/-- A packet whose group no entry names is dropped and counted in `GSTALE`, which saturates (R281, log 35). -/
def State.strayPacket (s : State) : State :=
  let stale (c : Ctx) : Ctx :=
    if c.st == .active then { c with gstat := setFld c.gstat 32 32 (min (2 ^ 32 - 1) (fld c.gstat 32 32 + 1)) } else c
  { s with ctxs := s.ctxs.map stale }

/-- COLLECTIVE_ABORT_RECEIVED (R281, R290). -/
def execCollectiveAbortReceived (gid gen cause : Nat) (s : State) : Out :=
  .next (match s.members gid gen with
  | [] => s.strayPacket
  | l => l.foldl (fun (s : State) c => s.abortMember c gid gen cause) s)

/-- COLLECTIVE_TIMEOUT (R290): in units of 1,024 stakeboat ticks. The spec does not say from when they count; the model counts from the command's
issue (log 35). -/
def execCollectiveTimeout (ctx seq : Nat) (s : State) : Out :=
  .next (match (s.ctx ctx).jobs.find? fun j => j.seq == seq with
  | none => s
  | some j =>
    let t := (CollArgs.of j.cmd).timeout
    if j.finished.isNone && t != 0 && decide (j.issuedAt + 1024 * t ≤ s.stake) then s.abortGroup ctx j.gid j.gen 9 else s)

/-! Matching (R287). -/

/-- What matched commands must agree in: code, `ETYPE` and `ROP`, `COUNT` and `ROOT`. -/
def Contribution.agrees (x y : Contribution) : Bool :=
  fld x.hdr 0 16 == fld y.hdr 0 16 && fld x.hdr 48 8 == fld y.hdr 48 8 && x.count == y.count && x.root == y.root

/-- Whether two contributions are matched commands of one group. -/
def Contribution.matched (x y : Contribution) : Bool := x.gid == y.gid && x.gen == y.gen && x.k == y.k

/-- A member's command and contribution reach a member; a disagreement aborts the group. -/
def State.contribute (s : State) (ctx : Nat) (x : Contribution) : State :=
  if (s.ctx ctx).contrib.any fun y => x.matched y && !x.agrees y then s.abortGroup ctx x.gid x.gen 7
  else s.modCtx ctx fun c => { c with contrib := c.contrib.filter (fun y => !(x.matched y && y.rank == x.rank)) ++ [x] }

/-- COLLECTIVE_PACKET_RECEIVED (R281, R285). -/
def execCollectivePacketReceived (gid gen rank k : Nat) (hdr : BitVec 64) (count root : Nat) (data : List (BitVec 32)) (s : State) : Out :=
  let x : Contribution := { gid := gid, gen := gen, rank := rank, k := k, hdr := hdr, count := count, root := root, data := data }
  .next (match s.members gid gen with
  | [] => s.strayPacket
  | l => l.foldl (fun (s : State) c => s.contribute c x) s)

/-! Progress of a command. -/

/-- A command in progress ends with a cause. -/
def State.endColl (s : State) (ctx : Nat) (j : CollJob) (cause : Nat) : State :=
  s.modColl ctx j.seq fun x => { x with finished := some cause }

/-- An access of a command that meets an untranslated page pauses it (R233); another stop ends it with cause 10. -/
def State.collStop (s : State) (ctx : Nat) (j : CollJob) (wr : Bool) (m : Nat × TRes) : State :=
  let pause (page : Option (Nat × Nat)) : State :=
    if !s.pageRoom m.1 page then s else
    let f := s.fillTeam j.team { code := 3, src := 2, addr := BitVec.ofNat 64 m.1, lanes := BitVec.ofNat 64 j.seq,
                                 aux := if wr then 5 else 4, coll := some (ctx, j.seq) }
    (s.postPage ctx m.1 f page).modColl ctx j.seq fun x => { x with paused := some m.1 }
  match m.2 with
  | .page h sp => pause (some (h, sp))
  | .nohome => pause none
  | _ => s.endColl ctx j 10

/-- The next chunk of a stream of `total` bytes that lies from offset `o` of its buffer, `pos` bytes of it done: at most 4 KiB, in one 4 KiB of its
buffer, cut between 32-bit words of the buffer, which no access divides (R243); how much less it is, is a free value (R232, R287, log 35). -/
def State.collChunk (s : State) (o pos total : Nat) : Nat :=
  let most := min (total - pos) (4096 - (o + pos) % 4096)
  min most (4 - (o + pos) % 4 + 4 * ((Config.freeWord s.fresh).toNat / 2 ^ 33 % (most / 4 + 1)))

/-- Whether a handle that a command names has become invalid (R232, R287). -/
def State.collRevoked (s : State) (ctx : Nat) (j : CollJob) (e : GroupE) : Bool :=
  let a := CollArgs.of j.cmd
  (decide (0 < a.reads e) && (s.handle ctx j.tab a.srcH).isNone) || (decide (0 < a.writes e) && (s.handle ctx j.tab a.dstH).isNone)

/-- Whether a chunk of a command reaches another package whose home refuses it (R392, log 7). -/
def State.collRefused (s : State) (ctx : Nat) (b : Buf) (o n : Nat) : Bool :=
  match b with
  | .spad => false
  | .mem base _ _ _ => ((List.range n).any fun i => s.isFar ctx (base + o + i)) && (Config.freeWord s.fresh).getLsbD 32

/-- Send the contribution of a command whose source has been read to every member (R286). -/
def State.sendColl (s : State) (ctx : Nat) (j : CollJob) (e : GroupE) (l : List Lane) : State :=
  let a := CollArgs.of j.cmd
  let x : Contribution := { gid := j.gid, gen := j.gen, rank := e.rank, k := j.k, hdr := j.cmd.getD 0 0, count := a.count,
                            root := a.root, data := l }
  let s := s.modColl ctx j.seq fun y => { y with loaded := true, data := [] }
  (s.membersOn j.gid j.gen e.route).foldl (fun (s : State) c => s.contribute c x) s

/-- Read the next chunk of the source of an issued command; after the last the contribution goes to every member (R286, R287). -/
def State.loadColl (s : State) (ctx : Nat) (j : CollJob) : State :=
  let a := CollArgs.of j.cmd
  match s.memberOf ctx j with
  | none => s.endColl ctx j 6
  | some e =>
    let total := a.reads e * a.size
    if total ≤ j.pos then s.sendColl ctx j e j.data
    else if s.collRevoked ctx j e then s.endColl ctx j 3
    else match s.handle ctx j.tab a.srcH with
      | none => s.endColl ctx j 3
      | some b =>
        let n := s.collChunk a.srcO j.pos total
        let o := a.srcO + j.pos
        match s.bufMiss ctx b .rd o n with
        | some m => s.collStop ctx j false m
        | none =>
          if s.bufHeld ctx b o n then s
          else if s.bufPoison ctx j.team b o n || s.collRefused ctx b o n then { s with fresh := s.fresh + 1 }.endColl ctx j 10
          else
            let l := s.readElems ctx j.team b o (n / a.size) a.size
            { s with fresh := s.fresh + n + 1 }.modColl ctx j.seq fun y => { y with pos := j.pos + n, data := j.data ++ l }

/-- The contributions to a command, rank by rank; none while one is missing. -/
def State.gathered (s : State) (ctx : Nat) (j : CollJob) (e : GroupE) : Option (List Contribution) :=
  (List.range e.n).mapM fun r => (s.ctx ctx).contrib.find? fun x => x.gid == j.gid && x.gen == j.gen && x.k == j.k && x.rank == r

/-- The elements that a command writes at the member of a rank (Table 11-6). -/
def collResult (a : CollArgs) (e : GroupE) (l : List Contribution) : List Lane :=
  let el (r i : Nat) : Lane := ((l.getD r default).data).getD i 0
  let red (i : Nat) : Lane := rtree (combine a.ety a.rop) e.radix e.n ((List.range e.n).map fun r => el r i)
  match a.code with
  | 0x201 => (List.range a.count).map red
  | 0x202 => (List.range a.count).map fun j => red (e.rank * a.count + j)
  | 0x203 => (List.range e.n).flatMap fun q => (List.range a.count).map (el q)
  | 0x204 => (List.range a.count).map (el a.root)
  | _ => []

/-- Whether source and destination overlap in a way that leaves the destination unspecified (R286). -/
def collOverlap (a : CollArgs) (e : GroupE) (src dst : Option Buf) : Bool :=
  let at_ (b : Buf) (o : Nat) : Nat := match b with
    | .spad => o
    | .mem base _ _ _ => base + o
  match src, dst with
  | some x, some y =>
    let p := at_ x a.srcO
    let q := at_ y a.dstO
    let n := a.reads e * a.size
    let m := a.writes e * a.size
    (x == .spad) == (y == .spad) && decide (0 < n ∧ 0 < m ∧ p < q + m ∧ q < p + n) &&
      !((a.code == 0x201 || a.code == 0x204) && p == q)
  | _, _ => false

/-- A command is done: its contributions go (R289). -/
def State.collDone (s : State) (ctx : Nat) (j : CollJob) : State :=
  (s.endColl ctx j 0).modCtx ctx fun c => { c with contrib := c.contrib.filter fun x => !(x.gid == j.gid && x.gen == j.gen && x.k == j.k) }

/-- Write the next chunk of the destination of a command whose contributions are complete; after the last it is done (R286 to R288). -/
def State.performColl (s : State) (ctx : Nat) (j : CollJob) (e : GroupE) (l : List Contribution) : State :=
  let a := CollArgs.of j.cmd
  let total := a.writes e * a.size
  if total ≤ j.out then s.collDone ctx j
  else if s.collRevoked ctx j e then s.endColl ctx j 3
  else match s.handle ctx j.tab a.dstH with
    | none => s.endColl ctx j 3
    | some b =>
      let n := s.collChunk a.dstO j.out total
      let o := a.dstO + j.out
      match s.bufMiss ctx b .wr o n with
      | some m => s.collStop ctx j true m
      | none =>
        let src := if a.reads e = 0 then none else s.handle ctx j.tab a.srcH
        if s.bufHeld ctx b o n then s
        else if s.collRefused ctx b o n then { s with fresh := s.fresh + 1 }.endColl ctx j 10
        else
          let r := s.freeBytes n
          let bytes := if collOverlap a e src (some b) then r.1 else ((elemBytes a.size (collResult a e l)).drop j.out).take n
          ({ r.2 with fresh := r.2.fresh + 1 }.writeBuf ctx j b o bytes).modColl ctx j.seq fun y => { y with out := j.out + n }

/-- Whether two members of this package disagree on the group's size or radix (R281). -/
def State.groupSplit (s : State) (gid gen : Nat) (e : GroupE) : Bool :=
  (s.members gid gen).any fun c => (s.member c gid gen).any fun g => g.route == e.route && (g.n != e.n || g.radix != e.radix)

/-- Issue a queued command (R283, R287): its group entry is read first; each command of a group counts as the member's next. Without an entry no rank
says which handles it needs, so cause 6 comes before causes 3 to 5 (R389, log 35). -/
def State.issueColl (s : State) (ctx : Nat) (c : CollCmd) : State :=
  let a := CollArgs.of c.cmd
  let key := a.gid * 16 + a.gen
  let e? := s.member ctx a.gid a.gen
  let k := assoc (s.ctx ctx).kcount key 0
  let job : CollJob := { seq := c.seq, cmd := c.cmd, tab := s.tabOf ctx, gtab := s.gtabOf ctx, team := c.team, gid := a.gid, gen := a.gen, k := k, loaded := false,
                         paused := none, issuedAt := s.stake, finished := none }
  let s := s.modCtx ctx fun x => { x with
    coll := x.coll.filter (fun q => q.seq != c.seq), jobs := x.jobs ++ [job],
    kcount := if e?.isSome then assocSet x.kcount key (k + 1) else x.kcount }
  let broken := cmdByte c.cmd 2 == 0 || cmdSize c.cmd == 0 || decide (4 < cmdSize c.cmd)
  match e? with
  | none =>
    let any : GroupE := { (default : GroupE) with n := 1, rank := a.root }
    s.endColl ctx job (if !collCodes.contains a.code || !collHeaderOk c.cmd any then 1 else if !a.rangeOk any then 2 else 6)
  | some e => match (s.ctx ctx).aborted.find? fun q => q.1 == a.gid && q.2.1 == a.gen with
    | some q => (s.scramble ctx job).endColl ctx job q.2.2
    | none =>
      if broken then s.endColl ctx job 1
      else if !a.known || s.groupSplit a.gid a.gen e then s.abortGroup ctx a.gid a.gen 7
      else
        let cause := s.collCheck ctx c.team c.cmd e
        if cause = 0 then s.loadColl ctx job else s.endColl ctx job cause

/-- The next activity of the engine for a context's commands of a code: perform a command whose contributions are there, read a
source, or issue the first such command of its group (R287); a command of no implemented code issues with any. -/
def State.collStep (s : State) (ctx code : Nat) : State :=
  let x := s.ctx ctx
  let open_ (j : CollJob) : Bool := cmdCode j.cmd == code && j.finished.isNone && j.paused.isNone
  let ready (j : CollJob) : Option (CollJob × GroupE × List Contribution) :=
    if open_ j && j.loaded then (s.memberOf ctx j).bind fun e => (s.gathered ctx j e).map fun l => (j, e, l) else none
  let first (c : CollCmd) : Bool :=
    let a := CollArgs.of c.cmd
    (a.code == code || !collCodes.contains a.code) && !c.xwarp.any s.unsettled &&
      !(x.coll.any fun d => decide (d.seq < c.seq) && (CollArgs.of d.cmd).gid == a.gid)
  if x.st != .active then s
  else match x.jobs.findSome? ready with
    | some r => s.performColl ctx r.1 r.2.1 r.2.2
    | none => match x.jobs.find? fun j => open_ j && !j.loaded with
      | some j => s.loadColl ctx j
      | none => if 64 ≤ x.jobs.length then s else match x.coll.find? first with
        | some c => s.issueColl ctx c
        | none => s

/-- ALLREDUCE (R286). -/
def execAllreduce (ctx : Nat) (s : State) : Out := .next (s.collStep ctx 0x201)
/-- REDUCESCATTER (R286). -/
def execReducescatter (ctx : Nat) (s : State) : Out := .next (s.collStep ctx 0x202)
/-- ALLGATHER (R286). -/
def execAllgather (ctx : Nat) (s : State) : Out := .next (s.collStep ctx 0x203)
/-- BROADCAST (R286). -/
def execBroadcast (ctx : Nat) (s : State) : Out := .next (s.collStep ctx 0x204)
/-- BARRIER (R288). -/
def execBarrier (ctx : Nat) (s : State) : Out := .next (s.collStep ctx 0x205)

/-! The life of a group (R282). -/

/-- Keep `WASHING` of a context's `GSTAT`: the number of identifiers that are washing (Table 11-2). -/
def Ctx.washed (c : Ctx) : Ctx := { c with gstat := setFld c.gstat 0 12 (c.washing.map (·.1)).dedup.length }

/-- GROUP_DEFINE: the driver's write that sets `VALID`; a generation still active or washing is refused. -/
def execGroupDefine (ctx gid : Nat) (w0 w1 : BitVec 64) (s : State) : Out :=
  let x := s.ctx ctx
  let gen := fld w0 48 4
  let key := gid * 16 + gen
  .next (match s.groupAddr ctx (s.gtabOf ctx) gid .wr with
  | none => s
  | some a =>
    if x.st != .active || !w0.getLsbD 63 || decide (4096 ≤ gid) then s
    else if x.active.contains (gid, gen) || x.washing.any fun q => q.1 == gid && q.2.1 == gen then
      s.modCtx ctx fun c => { c with gstat := setFld c.gstat 16 1 1 }
    else if x.active.any fun q => q.1 == gid then s
    else
      let s := s.pokeCtx ctx a (leBytes 8 w0.toNat ++ leBytes 8 w1.toNat)
      s.modCtx ctx fun c => { c with
        active := c.active ++ [(gid, gen)], kcount := assocSet c.kcount key 0,
        contrib := c.contrib.filter (fun y => !(y.gid == gid && y.gen == gen)),
        aborted := c.aborted.filter fun q => !(q.1 == gid && q.2.1 == gen) })

/-- GROUP_END: the driver clears `VALID`; outstanding commands complete with cause 11 and the identifier washes. -/
def execGroupEnd (ctx gid : Nat) (s : State) : Out :=
  .next (match s.groupE ctx (s.gtabOf ctx) gid, s.groupAddr ctx (s.gtabOf ctx) gid .wr with
  | some e, some a =>
    let w := s.peek64 ctx a
    let s := s.pokeCtx ctx a (leBytes 8 (setFld w 63 1 0).toNat)
    let fin (j : CollJob) : CollJob :=
      if j.gid == gid && j.gen == e.gen && j.finished.isNone then { j with finished := some 11, paused := none } else j
    s.modCtx ctx fun c => ({ c with
      active := c.active.filter (· != (gid, e.gen)), washing := c.washing ++ [(gid, e.gen, s.stake)], jobs := c.jobs.map fin,
      contrib := c.contrib.filter fun y => !(y.gid == gid && y.gen == e.gen) } : Ctx).washed
  | _, _ => s)

/-- GROUP_WASH_COMPLETE: when the group's commands here have completed, its switches have reported, and 70,000 ticks have
passed since. -/
def execGroupWashComplete (ctx gid : Nat) (s : State) : Out :=
  let x := s.ctx ctx
  let ripe (q : Nat × Nat × Nat) : Bool :=
    q.1 == gid && decide (q.2.2 + 70000 ≤ s.stake) && !(x.jobs.any fun j => j.gid == gid && j.gen == q.2.1) &&
      !(x.coll.any fun c => (CollArgs.of c.cmd).gid == gid && (CollArgs.of c.cmd).gen == q.2.1)
  .next (match x.washing.find? ripe with
  | none => s
  | some q => s.modCtx ctx fun c => ({ c with washing := c.washing.filter (· != q) } : Ctx).washed)

end Sys2Proof.Machine
end

