-- ==== Sys2Proof/Machine/Cache.lean ====
section
/-! DEFINITION. The L1s and the die cache: requests by type and owner, fills, acknowledgements, logical clocks, wrap-around and
promotion (R193, R194, R197, R266 to R275, R216, R447). -/

namespace Sys2Proof.Machine

/-! What a request needs. -/

/-- Whether a request needs the line in M or E (R274, R213). -/
def DReq.wantsM (d : DReq) : Bool :=
  match d.kind with
  | .store _ => true
  | .atomic _ _ _ => true
  | _ => d.rqt == .own

/-- Whether a GetM of the request asks for data: only a store of whole words that leaves no owned line needs none (R274). -/
def DReq.needData (d : DReq) : Bool :=
  match d.kind with
  | .store l => d.rqt == .own || !(l.all fun p => (List.range 4).all fun j => l.any fun q => q.1 == p.1 / 4 * 4 + j)
  | _ => true

/-- Whether the request is an atomic that its home performs (R216). -/
def DReq.atHome (d : DReq) : Bool := match d.kind with
  | .atomic _ _ _ => Scope.pkgUp d.scope
  | _ => false

/-- Change a request. -/
def State.modReq (s : State) (d : DReq) (f : DReq → DReq) : State :=
  s.modCache fun c => { c with dreqs := c.dreqs.modify (c.dreqs.idxOf d) f }
/-- Remove a request. -/
def State.dropReq (s : State) (d : DReq) : State := s.modCache fun c => { c with dreqs := c.dreqs.erase d }

/-- The context of a request. -/
def State.reqCtx (s : State) (d : DReq) : Nat := match d.w, d.job with
  | some w, _ => (s.place w).ctx
  | none, some j => (s.teamPlace j.1).ctx
  | none, none => 256

/-- Whether a fill for a request's set is outstanding: the set is blocked (R194). -/
def State.setBlocked (s : State) (d : DReq) : Bool :=
  s.cache.dreqs.any fun e => e.die == d.die && e.asked && !e.performed && sliceSet e.space e.line == sliceSet d.space d.line

/-- Whether the bypass queue of a request's slice is full before request `n` has come: 32 requests have passed one that waits for a blocked set,
and are still to be served (R194). -/
def State.bypassFull (s : State) (n : Nat) (d : DReq) : Bool :=
  let before := (s.cache.dreqs.take n).filter fun e =>
    e.die == d.die && !e.performed && !s.relHeld e && (sliceSet e.space e.line).1 == (sliceSet d.space d.line).1
  let past := before.dropWhile fun e => !(s.setBlocked e && !e.asked)
  decide (32 ≤ (past.filter fun e => !s.setBlocked e).length)

/-- Whether an earlier request for a line comes before `d`: one of its core or its engine, but for what has not entered the memory system (R194,
R208), and for a copy command a store of its warp that it must read (R295). -/
def State.comesFirst (s : State) (d : DReq) (p : DReq × Nat) : Bool :=
  let e := p.1
  e.die == d.die && e.core == d.core && e.space == d.space && e.line == d.line && !e.performed &&
    ((e.job.isSome == d.job.isSome && (e.w == d.w || !s.stuck p.2 e)) || d.job.any fun j => s.jobAfter j e)

/-- Whether an acquire atomic of a request's block without a target, of lower `MSEQ`, is still to be performed (R218). -/
def State.behindAtom (s : State) (d : DReq) : Bool :=
  d.w.isSome && s.cache.dreqs.any fun e => e.w == d.w && !e.performed && e.stores && e.isAtomic && (e.ord == .acq || e.ord == .racq) &&
    stampBlock e.stamp == stampBlock d.stamp && decide (e.stamp < d.stamp)

/-- Whether a request reads a line that is shut to its core (R248). -/
def State.shutOff (s : State) (d : DReq) : Bool := (match d.kind with
  | .store _ => false
  | _ => true) && s.shutTo d.die d.core d.w d.space d.line

/-- Whether request `n` must wait: it has not entered the memory system (R272), an earlier request for its line comes first, or an acquire
atomic, its line is shut, its set is blocked, or the bypass queue of its slice is full (R194). -/
def State.reqWaits (s : State) (n : Nat) (d : DReq) : Bool :=
  d.performed || s.stuck n d || (s.cache.dreqs.take n).zipIdx.any (s.comesFirst d) || s.behindAtom d || s.shutOff d || s.setBlocked d || s.bypassFull n d

/-- Merge the dirty words of the owning core's copy into the die cache; the copy stays and is clean. -/
def State.capture (s : State) (x : DieLine) : State :=
  match s.l1? x.die x.ownc x.space x.line with
  | none => s
  | some l =>
    let clean (y : L1Line) : L1Line := if y == l then { y with words := cleanWords y.words } else y
    (s.dcSet { x with words := mergeWords x.words (dirtyWords l.words) }).modCache fun c => { c with l1 := c.l1.map clean }

/-- Change a core's copy of a line. -/
def State.modL1 (s : State) (die core space line : Nat) (f : L1Line → L1Line) : State :=
  let g (y : L1Line) : L1Line := if y.die == die && y.core == core && y.space == space && y.line == line then f y else y
  s.modCache fun c => { c with l1 := c.l1.map g }

/-! Timestamps (R270). -/

/-- The timestamps that a request gives its line; a store into the line that its core owns is the L1's own, and changes none (R266). -/
def DReq.stamps (d : DReq) (lease : Nat) (x : DieLine) : Nat × Nat :=
  let grant := max x.wts (max (x.rts + 1) d.pts)
  let store := max d.pts (x.rts + 1)
  match d.kind with
  | .store _ => if d.rqt != .own then (store, store) else if x.ownc = d.core then (x.wts, x.rts) else (grant, grant)
  | .atomic _ _ _ => (store, store)
  | .load _ _ =>
    if d.rqt == .own then (grant, grant)
    else if d.rqt == .si then (x.wts, max x.rts (max (x.wts + lease) (d.pts + lease))) else (x.wts, x.rts)
  | .prefetch l1 =>
    if d.rqt == .own then (grant, grant)
    else if d.rqt == .si && l1 then (x.wts, max x.rts (max (x.wts + lease) (d.pts + lease))) else (x.wts, x.rts)

/-- Whether a request makes its core the owner (R213, R274). -/
def DReq.owns (d : DReq) : Bool := d.rqt == .own && (match d.kind with
  | .atomic _ _ _ => false
  | _ => true)

/-- The line with a request's timestamps, owner and release mark (R268, R270). -/
def DReq.stamped (d : DReq) (lease : Nat) (x : DieLine) : DieLine :=
  let t := d.stamps lease x
  { x with
    wts := t.1, rts := t.2, ownc := if d.owns then d.core else x.ownc,
    hst := if d.owns || (match d.kind with
      | .store _ => true
      | .atomic _ _ _ => true
      | _ => false) then .M else x.hst,
    rlsc := if d.ord == .rel && d.scope == .core then d.core else x.rlsc }

/-- Enter a line into the requesting L1, by request type (Table 7-2); a line that the core owns stays owned. -/
def State.l1Fill (s : State) (d : DReq) (x : DieLine) : State :=
  let words := match s.l1? d.die d.core d.space d.line with
    | some y => if y.st == .owned then mergeWords (cleanWords x.words) y.words else cleanWords x.words
    | none => cleanWords x.words
  let st : Option L1St :=
    if d.rqt == .nc then none else if x.row then some .weights else if x.ownc = d.core then some .owned
    else if d.rqt == .si then some (.leased x.rts) else some (.through (s.localTick d.die))
  match st with
  | none => s
  | some st => s.l1Put { die := d.die, core := d.core, space := d.space, line := d.line, st := st, words := words }

/-! Atomics. -/

/-- The lanes of an outstanding atomic of a block that its poisoned words concern. -/
def State.atomPoison (s : State) (w idx : Nat) (bad : List Nat) : Option (Nat × Word) :=
  (s.blk? w).bind fun b => (b.loads.find? fun l => l.idx == idx).bind fun l =>
    let hit := l.lanes.filter fun p => bad.contains (p.2 / 4)
    match hit with
    | [] => none
    | q :: _ => some (q.2, hit.foldl (fun m p => m ||| (1#64 <<< p.1)) 0)

/-- A returning atomic has performed a line: its old values reach the block, and the block notes the atomic (R49). -/
def State.atomGot (s : State) (w idx : Nat) (old : List (Nat × Lane × Bool)) : State :=
  let put (l : PLoad) : PLoad := if l.idx == idx then { l with got := l.got ++ old } else l
  let mask (b : Blk) : Option Word := (b.loads.find? fun l => l.idx == idx).map fun l => l.lanes.foldl (fun m p => m ||| (1#64 <<< p.1)) 0
  s.modBlk w fun b => { b with loads := b.loads.map put, atomDone := (mask b).orElse fun _ => b.atomDone }

/-- The poison fault of a returning atomic (R447): before it is performed. -/
def State.atomFault (s : State) (w idx : Nat) (q : Nat × Word) : State :=
  s.fault w { code := 15, index := idx, addr := BitVec.ofNat 64 q.1, lanes := q.2 }

/-- The requesting core's L1 copy after an atomic (R216): the word of an `atom` is replaced, that of a `red` marked invalid. -/
def State.atomL1 (s : State) (d : DReq) (returns : Bool) (l : List (Nat × Lane × Lane)) (words : List CWord) : State :=
  let touched := l.map fun q => q.1 / 4 % 32
  let new := (words.filter fun c => touched.contains c.i).map fun c => { c with d := false }
  s.modL1 d.die d.core d.space d.line fun y => { y with
    words := if returns then mergeWords y.words new else y.words.filter fun c => !touched.contains c.i }

/-! Serving a request. -/

/-- A load's line reaches the warp or the copy command that asked for it. -/
def State.reply (s : State) (d : DReq) (idx : Nat) (ws : List Nat) (words : List CWord) : State :=
  match d.w, d.job with
  | some w, _ =>
    let acq := (d.ord == .acq || d.ord == .racq) && Scope.quadUp d.scope
    s.gotWords w idx d.space d.line ws (if acq then words else s.coreView w d.space d.line words)
  | none, some j => s.gotJob j.1 j.2 d.line ws words
  | none, none => s

/-- The releases at `.core` that a die holds, with that of a request, its core's latest of the line (R273). -/
def DReq.release (d : DReq) (l : List (Nat × Nat × Nat × Nat)) : List (Nat × Nat × Nat × Nat) :=
  (l.filter fun r => !(r.1 == d.space && r.2.1 == d.line && r.2.2.1 == d.core)) ++ [(d.space, d.line, d.core, d.num)]

/-- The bytes of a store that its core's copy of a line takes: those of the words that are valid there, and of words written whole (R267, R274). -/
def L1Line.takes (z : L1Line) (bytes : List (Nat × BitVec 8)) : List (Nat × BitVec 8) :=
  bytes.filter fun p => (wordAt? z.words (p.1 / 4 % 32)).isSome || (List.range 4).all fun j => bytes.any fun q => q.1 == p.1 / 4 * 4 + j

/-- Serve a request at a die-cache line that has what it needs (Table 10-5); its timestamps fit. -/
def State.serveAt (s : State) (d : DReq) (x : DieLine) : State :=
  let y := d.stamped (s.die d.die).lease x
  let s := s.modDie d.die fun q => { q with
    tsmax := max q.tsmax (max y.wts y.rts),
    rels := if d.ord == .rel && d.scope == .core then d.release q.rels else q.rels }
  match d.kind with
  | .load idx ws =>
    let s := (((s.ackCore d.die d.core).dcSet y).l1Fill d y).ptsUp d.die d.core y.wts
    let words := match s.l1? d.die d.core d.space d.line with
      | some l => if l.st == .owned then l.words else y.words
      | none => y.words
    (s.reply d idx ws words).dropReq d
  | .prefetch l1 =>
    let s := (s.ackCore d.die d.core).dcSet y
    (if l1 then (s.l1Fill d y).ptsUp d.die d.core y.wts else s).dropReq d
  | .store bytes =>
    let s := if d.rqt == .own then
        ((s.dcSet y).l1Fill d y).modL1 d.die d.core d.space d.line fun z => { z with words := storeBytes z.words y.words d.line bytes true }
      else
        let put (z : L1Line) : L1Line := { z with words := storeBytes z.words z.words d.line (z.takes bytes) false }
        (s.dcSet { y with words := storeBytes y.words y.words d.line bytes true }).modL1 d.die d.core d.space d.line put
    s.modReq d fun e => { e with performed := true, wts := y.wts }
  | .atomic idx op l =>
    let r := atomRun op y.words l
    match idx with
    | some i => match s.atomPoison (d.w.getD 0) i ((r.2.filter (·.2.2)).map (·.1)) with
      | some q => s.atomFault (d.w.getD 0) i q
      | none =>
        let s := (((s.ackCore d.die d.core).dcSet { y with words := r.1 }).atomL1 d true l r.1).ptsUp d.die d.core y.wts
        (s.atomGot (d.w.getD 0) i (r.2.map fun o => (o.1, o.2.1, false))).dropReq d
    | none =>
      let s := (s.dcSet { y with words := r.1 }).atomL1 d false l r.1
      s.modReq d fun e => { e with performed := true, wts := y.wts }

/-- A line goes to its home for an atomic there (R216, Table 10-5): its dirty words are written back and every copy that could be written leaves its cache, but
the requesting core's own under `.wt`, which stays with its die's line, clean. Copies in L and T stay (R266). -/
def State.toHome (s : State) (d : DReq) (words : List Nat) : State :=
  let is (a b : Nat) : Bool := a == d.space && b == d.line
  let mine (y : L1Line) : Bool := y.die == d.die && y.core == d.core
  let s := s.cleanLine d.space d.line
  let line := (s.dc? d.die d.space d.line).filter fun x => x.ownc == d.core
  let l1 := s.cache.l1.filter fun y => is y.space y.line && (y.st != .owned || (mine y && line.isSome))
  let s := (s.flushLine d.space d.line).modCache fun c => { c with
    l1 := c.l1 ++ l1,
    dc := c.dc ++ (line.map fun x => { x with words := x.words.filter fun w => !words.contains w.i }).toList }
  if line.isSome then
    s.dirSet (s.lineHome d.space d.line) d.space d.line
      (some { home := 0, space := d.space, line := d.line, st := .M, owner := d.die, sharers := [] })
  else s

/-- Perform an atomic at its home (R216). The value comes from outside the die, so the reply or the acknowledgement carries the time of a fill
(R268, log 50). -/
def State.serveHome (s : State) (d : DReq) : State :=
  let t := (s.die d.die).tsmax + 1
  match d.kind with
  | .atomic idx op l =>
    if (s.die d.die).tsTop < t then s.startWrap d.die
    else
      let h := (s.toHome d (l.map fun q => q.1 / 4 % 32)).homeRead d.space d.line false
      let s := h.2
      let r := atomRun op h.1 l
      let write (s : State) : State :=
        ((s.writeHome d.space d.line (r.1.filter (·.d))).atomL1 d idx.isSome l r.1).modDie d.die fun q => { q with tsmax := t }
      match idx with
      | some i => match s.atomPoison (d.w.getD 0) i ((r.2.filter (·.2.2)).map (·.1)) with
        | some q => s.atomFault (d.w.getD 0) i q
        | none => (((write (s.ackCore d.die d.core)).ptsUp d.die d.core t).atomGot (d.w.getD 0) i (r.2.map fun o => (o.1, o.2.1, false))).dropReq d
      | none => (write s).modReq d fun e => { e with performed := true, wts := t }
  | _ => s

/-- Ask the home for a line (R274). -/
def State.askHome (s : State) (d : DReq) (hasS : Bool) : State :=
  let home := s.lineHome d.space d.line
  let m : Msg := if d.wantsM then
      { kind := .getM, node := d.die, home := home, space := d.space, line := d.line, hasS := hasS, needData := d.needData }
    else { kind := .getS, node := d.die, home := home, space := d.space, line := d.line }
  (s.send m).modReq d fun e => { e with asked := true }

/-- The words that a request reads of its line. -/
def DReq.readsWords (d : DReq) : List Nat :=
  match d.kind with
  | .load _ _ => List.range 32
  | .prefetch _ => List.range 32
  | .atomic _ _ l => l.map fun q => q.1 / 4 % 32
  | .store l =>
    let part (i : Nat) : Bool := !((List.range 4).all fun j => l.any fun q => q.1 == d.line * 128 + 4 * i + j)
    ((l.map fun q => q.1 / 4 % 32).dedup).filter part

/-- A request as it reaches the die cache: a release carries the clock of its core once it need not wait any more, an access to read-only weights has
no owner and no lease (R197, R272). -/
def State.sent (s : State) (d : DReq) (row : Bool) : DReq :=
  let d := if d.ord == .rel then { d with pts := max d.pts (s.core d.die d.core).pts } else d
  if row && d.rqt != .nc then { d with rqt := .wt } else d

/-- A die-cache line once another core's copy has been recalled for a request (R270). -/
def State.recalled (s : State) (d : DReq) (x : DieLine) : DieLine :=
  if x.ownc ≠ 255 ∧ x.ownc ≠ d.core then
    let w := max x.wts (s.core d.die x.ownc).pts
    { x with wts := w, rts := w, ownc := 255 }
  else x

/-- The release at `.core` of a line by a core other than the requester that is still to be promoted: space, line, core and number (R254, R273,
log 52). -/
def State.promotes (s : State) (d : DReq) : Option (Nat × Nat × Nat × Nat) :=
  if d.ord != .racq then none
  else (s.die d.die).rels.find? fun r => r.1 == d.space && r.2.1 == d.line && r.2.2.1 != d.core

/-- A core's stores before its release `r` that are not yet acknowledged (R273). -/
def State.beforeRel (s : State) (die : Nat) (r : Nat × Nat × Nat × Nat) : List DReq :=
  s.cache.dreqs.filter fun e => e.die == die && e.core == r.2.2.1 && e.stores && decide (e.num < r.2.2.2)

/-- Count a request's hit or miss at the die cache, once; an atomic that its home performs has none (R452). -/
def State.countReq (s : State) (d : DReq) (row : Bool) : State :=
  let hit := (s.dc? d.die d.space d.line).any fun x => row || !d.wantsM || x.hst == .M || x.hst == .E
  if d.counted || (d.atHome && !row) then s else s.countDie d.die (if hit then 32 else 33) (s.reqCtx d) 1

/-- Serve a request whose turn it is, or ask its home (R274). -/
def State.serve (s : State) (d : DReq) : State :=
  let home := s.lineHome d.space d.line
  let row := (s.lineLeaf? d.space d.line).any pteRow
  let e := { s.sent d row with counted := true }
  let s := (s.countReq d row).modReq d fun _ => e
  let d := e
  let go (s : State) (x : DieLine) : State :=
    let t := d.stamps (s.die d.die).lease x
    if (s.die d.die).tsTop < max t.1 t.2 then s.startWrap d.die else s.serveAt d x
  let s := if d.rqt == .nc then
      (match s.dc? d.die d.space d.line with
      | some x => if x.ownc = d.core then s.recall d.die d.space d.line else s
      | none => s).l1Drop d.die d.core d.space d.line
    else s
  if row then
    match s.dc? d.die d.space d.line with
    | some x => s.serveAt d x
    | none =>
      if s.refreshing home then s
      else
        let h := s.homeRead d.space d.line true
        let x : DieLine := { die := d.die, space := d.space, line := d.line, row := true, hst := .S, words := h.1, wts := 0, rts := 0,
                             ownc := 255, rlsc := 255 }
        (h.2.dcPut x).serveAt d x
  else if d.atHome then
    if s.lineBusy d.space d.line || s.refreshing home then s else s.serveHome d
  else
    match s.dc? d.die d.space d.line with
      | none => s.askHome d false
      | some x =>
        let s := if x.ownc ≠ 255 ∧ x.ownc ≠ d.core then s.recall d.die d.space d.line else s.capture x
        let x := (s.dc? d.die d.space d.line).getD x
        if d.wantsM && !(x.hst == .M || x.hst == .E) then s.askHome d true
        else if (s.promotes d).isSome then s
        else
          if d.readsWords.all fun i => (wordAt? x.words i).isSome then go s x
          else if s.refreshing home then s
          else
            let h := s.homeRead d.space d.line false
            let x := { x with words := mergeBeneath x.words h.1 }
            go (h.2.dcSet x) x

/-- DIE_CACHE_REQUEST (R274): request `n` is served when its turn has come. -/
def execDieCacheRequest (n : Nat) (s : State) : Out :=
  .next (match s.cache.dreqs[n]? with
  | none => s
  | some d => if s.reqWaits n d then s else s.serve d)

/-! Fills (R194). -/

/-- Serve, in order, requests that have waited for a fill. -/
def State.serveWaiting (s : State) (l : List DReq) : State :=
  match l with
  | [] => s
  | d :: r =>
    let s := match s.cache.dreqs.findIdx? (· == d) with
      | some n => if s.reqWaits n d then s else s.serve d
      | none => s
    s.serveWaiting r

/-- The requests for a line that are served from its fill: the one that asked for it, then those that have come to the slice meanwhile. Which of the
others have is a free value: a request that has not is still at its L1 (R194, R294; log 6). -/
def State.fillServes (s : State) (die space line : Nat) : List DReq :=
  let l := (s.cache.dreqs.filter fun d => d.die == die && d.space == space && d.line == line && !d.performed).zipIdx
  (l.filter fun p => p.1.asked).map (·.1) ++ (l.filter fun p => !p.1.asked && (Config.freeWord s.fresh).getLsbD (p.2 % 64)).map (·.1)

/-- DIE_CACHE_FILL_ARRIVAL (R194, R268): Data that has reached the die enters the die cache at `TSMAX` + 1, unblocks its set, and
the requests that wait for the line are served. -/
def execDieCacheFillArrival (n : Nat) (s : State) : Out :=
  .next (match s.cache.msgs[n]? with
  | none => s
  | some m =>
    let top := (s.die m.node).tsTop
    let t := (s.die m.node).tsmax + 1
    if m.kind != .data || !m.inFlight || decide (8 ≤ m.node) then s
    else if top < t then s.startWrap m.node
    else
      let s := s.modCache fun c => { c with msgs := c.msgs.eraseIdx n }
      let words := m.words.map fun c => { c with d := m.dirty && c.d }
      let s := match s.dc? m.node m.space m.line with
        | some x => s.dcSet { x with hst := m.grant, words := mergeWords x.words words }
        | none =>
          let x : DieLine := { die := m.node, space := m.space, line := m.line, hst := m.grant, words := words, wts := t, rts := t,
                               ownc := 255, rlsc := 255 }
          (s.dcPut x).modDie m.node fun q => { q with tsmax := max q.tsmax t }
      let free (d : DReq) : DReq := if d.die == m.node && d.space == m.space && d.line == m.line then { d with asked := false } else d
      let l := (s.fillServes m.node m.space m.line).map free
      { s.modCache (fun c => { c with dreqs := c.dreqs.map free }) with fresh := s.fresh + 1 }.serveWaiting l)

/-! Acknowledgements, clocks and wrap-around. -/

/-- STORE_ACKNOWLEDGE (R267, R270): the acknowledgement of performed store `n` reaches its core, after those of the core's earlier stores to the line.
A number past the requests names a store to another package; a release there comes after the warp's earlier stores (R265). -/
def execStoreAcknowledge (n : Nat) (s : State) : Out :=
  .next (match s.cache.dreqs[n]? with
  | some d =>
    let first (e : DReq) : Bool := e.die == d.die && e.core == d.core && e.space == d.space && e.line == d.line && e.performed
    if d.performed && !((s.cache.dreqs.take n).any first) then s.ackReq d else s
  | none =>
    let k := n - s.cache.dreqs.length
    match s.remote[k]? with
    | some r => if r.isLoad || r.rel.any (s.relWaits r.w r.stamp) then s else { s with remote := s.remote.eraseIdx k }
    | none => s)

/-- L1_CLOCK_ADVANCE (R271): the advance that a core's 256th hit on leased lines could not make before a wrap-around. -/
def execL1ClockAdvance (die core : Nat) (s : State) : Out :=
  let c := s.core die core
  .next (if c.hits < 256 then s
  else if (s.die die).tsTop < c.pts + 1 then s.startWrap die
  else (s.modCore die core fun c => { c with hits := c.hits - 256 }).setPts die core (c.pts + 1))

/-- THROUGH_LINE_EXPIRY (R266): 1,024 local ticks after its fill. -/
def execThroughLineExpiry (die core space line : Nat) (s : State) : Out :=
  .next (match s.l1? die core space line with
  | some x => match x.st with
    | .through fill => if fill + 1024 ≤ s.localTick die then s.l1Drop die core space line else s
    | _ => s
  | none => s)

/-- Whether a request that nothing holds up needs a timestamp that does not fit, so that a wrap-around comes before it, or a promotion that a store
waits for the wrap-around to complete (R273, R275). -/
def State.needsWrap (s : State) (d : DReq) : Bool :=
  let q := s.die d.die
  let d := s.sent d false
  let fill := decide (q.tsTop < q.tsmax + 1)
  if d.asked then fill && s.cache.msgs.any fun m => m.kind == .data && m.inFlight && m.node == d.die && m.space == d.space && m.line == d.line
  else if (s.lineLeaf? d.space d.line).any pteRow then false
  else if d.atHome then fill
  else match s.dc? d.die d.space d.line with
    | none => false
    | some x =>
      let x := s.recalled d x
      let t := d.stamps q.lease x
      if d.wantsM && !(x.hst == .M || x.hst == .E) then false
      else (s.promotes d).any (fun r => (s.beforeRel d.die r).any fun e => !e.performed) || decide (q.tsTop < max t.1 t.2)

/-- Whether every request between the L1s and the die cache of a die is complete, but for those that wait for the wrap-around itself (R275). -/
def State.wrapReady (s : State) (die : Nat) : Bool :=
  (List.range s.cache.dreqs.length).all fun n => match s.cache.dreqs[n]? with
    | some d => d.die != die || (!d.performed && (s.needsWrap d || (s.reqWaits n d && !d.asked)))
    | none => true

/-- LEASE_WRAP_AROUND (R275): a wrap-around that a request, a fill or a clock has started is carried out once the requests between
L1s and die cache are complete; those that started it are carried out with clock 0 after it. -/
def execLeaseWrapAround (die : Nat) (s : State) : Out :=
  .next (if (s.die die).wrapAt.isNone || !s.wrapReady die then s
  else s.wrapDie die)

/-- PROMOTE_REQUEST (R273): a core that released the line at `.core` has completed its stores before the release; it writes back its owned lines'
dirty words and returns its clock. -/
def execPromoteRequest (n : Nat) (s : State) : Out :=
  .next (match s.cache.dreqs[n]? with
  | none => s
  | some d => match s.dc? d.die d.space d.line, s.promotes d with
    | some _, some r =>
      let core := r.2.2.1
      if d.performed || !(s.beforeRel d.die r).isEmpty then s
      else
        let s := (s.cache.dc.filter fun y => y.die == d.die && y.ownc == core).foldl (fun (s : State) y => s.capture y) s
        match s.dc? d.die d.space d.line with
        | none => s
        | some y =>
          let t := max y.wts (s.core d.die core).pts
          (s.dcSet { y with wts := t, rlsc := 255 }).modDie d.die fun q => { q with
            tsmax := max q.tsmax t, rels := q.rels.erase r }
    | _, _ => s)

end Sys2Proof.Machine
end

