-- ==== Sys2Proof/Machine/Directory.lean ====
section
/-! DEFINITION. The home directory: requests, writebacks, snoops, responses, data and acknowledgements (R276 to R279). -/

namespace Sys2Proof.Machine

/-! Messages and transactions. -/

/-- Remove message `n`. -/
def State.dropMsg (s : State) (n : Nat) : State := s.modCache fun c => { c with msgs := c.msgs.eraseIdx n }

/-- The transaction in progress for a line. -/
def State.tx? (s : State) (space line : Nat) : Option HomeTx := s.cache.txs.find? fun t => t.space == space && t.line == line

/-- Set or end a line's transaction. -/
def State.txSet (s : State) (space line : Nat) (t : Option HomeTx) : State :=
  s.modCache fun c => { c with txs := (c.txs.filter fun x => !(x.space == space && x.line == line)) ++ t.toList }

/-- Whether a message kind goes to the home as a request or an eviction notice. -/
def MsgKind.asks : MsgKind → Bool
  | .getS => true
  | .getM => true
  | .putM => true
  | .putS => true
  | _ => false

/-- Whether message `n` is the earliest request or notice for its line (R277). -/
def State.firstAsk (s : State) (n : Nat) (m : Msg) : Bool :=
  !((s.cache.msgs.take n).any fun x => x.space == m.space && x.line == m.line && MsgKind.asks x.kind)

/-- Whether a message of the home to the same node about the same line comes before message `n`. -/
def State.behind (s : State) (n : Nat) (m : Msg) : Bool :=
  (s.cache.msgs.take n).any fun x => x.node == m.node && x.space == m.space && x.line == m.line && (x.kind == .data || x.kind == .wbAck)

/-- The holders that an entry names. -/
def DirEntry.holders (e : DirEntry) : List Nat := if e.st == .S then e.sharers else e.owner :: e.sharers.filter (· != e.owner)

/-- A message about the line of another. -/
def Msg.about (m : Msg) (kind : MsgKind) (node : Nat) : Msg := { kind := kind, node := node, home := m.home, space := m.space, line := m.line }

/-- The Data that grants a line. -/
def State.grant (s : State) (m : Msg) (g : HSt) (words : List CWord) : State :=
  s.send { m.about .data m.node with grant := g, words := words, dirty := words.any (·.d) }

/-- An entry with one owner in M. -/
def Msg.owned (m : Msg) : DirEntry := { home := m.home, space := m.space, line := m.line, st := .M, owner := m.node, sharers := [] }

/-- Add a sharer. -/
def DirEntry.share (e : DirEntry) (n : Nat) : DirEntry := { e with sharers := if e.sharers.contains n then e.sharers else e.sharers ++ [n] }

/-- The Data that grants a line from the home's side: memory, or the hub cache (R195, R196). -/
def State.grantHome (s : State) (m : Msg) (g : HSt) : State :=
  let h := s.homeRead m.space m.line false
  h.2.grant m g h.1

/-! Ends of transactions. -/

/-- A transaction whose responses have all arrived ends (Table 10-7). -/
def State.finishTx (s : State) (t : HomeTx) : State :=
  let s := s.txSet t.space t.line none
  match t.req with
  | none => (s.writeHome t.space t.line (dirtyWords t.words)).dirSet t.home t.space t.line none
  | some node =>
    let m : Msg := { kind := .data, node := node, home := t.home, space := t.space, line := t.line }
    let e := (s.dir? t.space t.line).getD { m.owned with st := .S, sharers := [] }
    if t.getM then
      (if e.st != .S then s.grant m .M t.words
        else if t.needData && !(t.hasS && e.sharers.contains node) then s.grantHome m .M
        else s.grant m .M []).dirSet t.home t.space t.line (some m.owned)
    else if e.st == .S then (s.grantHome m .S).dirSet t.home t.space t.line (some (e.share node))
    else
      let e := if t.words.isEmpty && e.st == .M then { e with st := .S, sharers := [e.owner] } else { e with st := .O }
      let h := s.homeRead t.space t.line false
      (h.2.grant m .S (cleanWords (mergeWords h.1 t.words))).dirSet t.home t.space t.line (some (e.share node))

/-- Note a change of a transaction; it ends when nothing is awaited. -/
def State.stepTx (s : State) (t : HomeTx) : State :=
  if t.awaitResp.isNone && t.awaitPut.isNone && t.awaitAcks.isEmpty then s.finishTx t else s.txSet t.space t.line (some t)

/-- Start a transaction: snoops go to the owner and Inv to the others. -/
def State.startTx (s : State) (m : Msg) (req : Option Nat) (getM : Bool) (owner : Option Nat) (invs : List Nat) : State :=
  let t : HomeTx := { home := m.home, space := m.space, line := m.line, req := req, getM := getM, hasS := m.hasS, needData := m.needData,
                      awaitResp := owner, awaitAcks := invs, awaitPut := none, words := [], dirty := false }
  let s := match owner with
    | some o => s.send (m.about (if getM then .fwdGetM else .fwdGetS) o)
    | none => s
  (invs.foldl (fun (s : State) n => s.send (m.about .inv n)) s).stepTx t

/-! The snoop filter (R276, R278). -/

/-- Sets of the filter. -/
def filterSet (line : Nat) : Nat := line % 131072

/-- The victim of a full set: fewest holders, then least recently used. -/
def victim? (l : List DirEntry) : Option DirEntry :=
  l.foldl (fun v e => match v with
    | none => some e
    | some x => if e.holders.length < x.holders.length then some e else some x) none

/-- Go on when the filter has an entry for a line or room for one; otherwise invalidate a victim back first (R278). -/
def State.withEntry (s : State) (m : Msg) (go : State → State) : State :=
  let set := s.cache.dir.filter fun e => e.home == m.home && filterSet e.line == filterSet m.line
  if (s.dir? m.space m.line).isSome || set.length < 16 then go s
  else if s.cache.txs.any fun t => t.req.isNone && t.home == m.home && filterSet t.line == filterSet m.line then s
  else match victim? (set.filter fun e => (s.tx? e.space e.line).isNone) with
    | none => s
    | some e =>
      let v : Msg := { kind := .inv, node := 0, home := e.home, space := e.space, line := e.line }
      (s.startTx v none true none e.holders).countDie m.home 35 e.space 1

/-! Requests. -/

/-- The message of a number, of a kind. -/
def State.msg? (s : State) (n : Nat) (k : MsgKind) : Option Msg := (s.cache.msgs[n]?).filter fun m => m.kind == k

/-- Whether a request may start its transaction now (R277); one that memory serves waits for the end of a refresh (R174). -/
def State.mayAsk (s : State) (n : Nat) (m : Msg) : Bool :=
  s.firstAsk n m && (s.tx? m.space m.line).isNone && !s.refreshing m.home

/-- GETS (Table 10-7). -/
def execGets (n : Nat) (s : State) : Out :=
  .next (match s.msg? n .getS with
  | none => s
  | some m =>
    if !s.mayAsk n m then s
    else s.withEntry m fun s =>
      let s := s.dropMsg n
      match s.dir? m.space m.line with
      | none => (s.grantHome m .E).dirSet m.home m.space m.line (some m.owned)
      | some e =>
        if e.st == .S then (s.grantHome m .S).dirSet m.home m.space m.line (some (e.share m.node))
        else s.startTx m (some m.node) false (some e.owner) [])

/-- GETM (Table 10-7). -/
def execGetm (n : Nat) (s : State) : Out :=
  .next (match s.msg? n .getM with
  | none => s
  | some m =>
    if !s.mayAsk n m then s
    else s.withEntry m fun s =>
      let s := s.dropMsg n
      match s.dir? m.space m.line with
      | none => (if m.needData then s.grantHome m .M else s.grant m .M []).dirSet m.home m.space m.line (some m.owned)
      | some e =>
        let others := e.sharers.filter fun x => x != m.node && (e.st == .S || x != e.owner)
        s.startTx m (some m.node) true (if e.st == .S || e.owner == m.node then none else some e.owner) others)

/-- PUTM (R279): written to memory and acknowledged, or used as the data of a Resp that announced it; a holder that kept its line in O while the
directory had none left in O leaves as by PutS. It waits for the end of a refresh (R174). -/
def execPutm (n : Nat) (s : State) : Out :=
  .next (match s.msg? n .putM with
  | none => s
  | some m =>
    let ack (s : State) : State := s.send (m.about .wbAck m.node)
    if s.refreshing m.home then s
    else match s.tx? m.space m.line with
    | some t =>
      if t.awaitPut != some m.node then s
      else
        let s := s.dropMsg n
        let t := { t with awaitPut := none }
        if t.getM then ack (s.stepTx { t with words := mergeWords t.words m.words, dirty := true })
        else
          let e := (s.dir? m.space m.line).getD { m.owned with sharers := [] }
          let s := s.writeHome m.space m.line m.words
          let s := s.dirSet m.home m.space m.line (some { e with st := .S, sharers := e.sharers.filter (· != m.node) })
          ack (s.stepTx t)
    | none =>
      if !s.firstAsk n m then s
      else
        let s := s.dropMsg n
        match s.dir? m.space m.line with
        | some e =>
          let rest := e.sharers.filter (· != m.node)
          if e.st == .S then ack (s.dirSet m.home m.space m.line (if rest.isEmpty then none else some { e with sharers := rest }))
          else if e.owner == m.node then
            ack ((s.writeHome m.space m.line m.words).dirSet m.home m.space m.line
              (if rest.isEmpty then none else some { e with st := .S, sharers := rest }))
          else ack s
        | none => ack s)

/-- PUTS (Table 10-7): PutS or PutE removes the holder. -/
def execPuts (n : Nat) (s : State) : Out :=
  .next (match s.msg? n .putS with
  | none => s
  | some m =>
    if !s.firstAsk n m || (s.tx? m.space m.line).isSome then s
    else
      let s := s.dropMsg n
      match s.dir? m.space m.line with
      | none => s
      | some e =>
        let rest := e.sharers.filter (· != m.node)
        if e.st == .S && rest.isEmpty then s.dirSet m.home m.space m.line none
        else if e.st != .S && e.owner == m.node then
          s.dirSet m.home m.space m.line (if rest.isEmpty then none else some { e with st := .S, sharers := rest })
        else s.dirSet m.home m.space m.line (some { e with sharers := rest }))

/-! Snoops at a die cache or a bridge. -/

/-- A line of a bridge. -/
def State.bridge? (s : State) (io space line : Nat) : Option BridgeLine :=
  s.cache.bridge.find? fun b => b.io == io && b.space == space && b.line == line

/-- Set or remove a bridge line. -/
def State.bridgeSet (s : State) (io space line : Nat) (b : Option BridgeLine) : State :=
  s.modCache fun c => { c with bridge := (c.bridge.filter fun x => !(x.io == io && x.space == space && x.line == line)) ++ b.toList }

/-- What a bridge supplies: the whole line, if it was modified here (Table 7-5). -/
def BridgeLine.supply (b : BridgeLine) : List CWord :=
  if b.modified || !b.dirty.isEmpty then b.words.map fun w => { w with d := true } else []

/-- A node's words for a snoop, and the state without the line, or with it kept when `keep`: in O at a die, shared at a bridge (R277, Table 7-5). -/
def State.surrender (s : State) (m : Msg) (keep : Bool) : List CWord × State :=
  if m.node < 8 then
    let s := s.recall m.node m.space m.line
    match s.dc? m.node m.space m.line with
    | none => ([], s)
    | some x =>
      let w := dirtyWords x.words
      (w, if keep then s.dcSet { x with hst := .O } else s.dcDrop m.node m.space m.line)
  else match s.bridge? m.node m.space m.line with
    | none => ([], s)
    | some b =>
      (b.supply, s.bridgeSet m.node m.space m.line
        (if keep then some { b with permM := false, dirty := [], modified := b.modified || !b.dirty.isEmpty } else none))

/-- Whether a node keeps a pending-writeback record for a line (R279). -/
def State.writingBack (s : State) (m : Msg) : Bool := s.cache.pwb.contains (m.node, m.space, m.line)

/-- A snoop that asks for words: answered with them, or with "no copy, writeback in flight" (R279). -/
def State.snoop (s : State) (n : Nat) (m : Msg) (keep : Bool) : State :=
  if s.behind n m then s
  else
    let s := s.dropMsg n
    if s.writingBack m then s.send { m.about .resp m.node with inFlight := true }
    else
      let r := s.surrender m keep
      r.2.send { m.about .resp m.node with words := r.1, dirty := !r.1.isEmpty }

/-- FWDGETS (R277). -/
def execFwdgets (n : Nat) (s : State) : Out :=
  .next (match s.msg? n .fwdGetS with
  | none => s
  | some m => s.snoop n m true)

/-- FWDGETM (R277). -/
def execFwdgetm (n : Nat) (s : State) : Out :=
  .next (match s.msg? n .fwdGetM with
  | none => s
  | some m => s.snoop n m false)

/-- INV (R277, R278, R279): dirty words go in a Resp ahead of the acknowledgement. -/
def execInv (n : Nat) (s : State) : Out :=
  .next (match s.msg? n .inv with
  | none => s
  | some m =>
    if s.behind n m then s
    else
      let s := s.dropMsg n
      let s := if s.writingBack m then s.send { m.about .resp m.node with inFlight := true }
        else
          let r := s.surrender m false
          if r.1.isEmpty then r.2 else r.2.send { m.about .resp m.node with words := r.1, dirty := true }
      s.send (m.about .invAck m.node))

/-! Responses, data and acknowledgements. -/

/-- RESP (R277, R279): what may end a transaction at the home's memory waits for the end of a refresh (R174). -/
def execResp (n : Nat) (s : State) : Out :=
  .next (match s.msg? n .resp with
  | none => s
  | some m =>
    if s.refreshing m.home then s else
    let s := s.dropMsg n
    match s.tx? m.space m.line with
    | none => s
    | some t =>
      let t := { t with awaitResp := if t.awaitResp == some m.node then none else t.awaitResp }
      if m.inFlight then s.stepTx { t with awaitPut := some m.node }
      else s.stepTx { t with words := mergeWords t.words m.words, dirty := t.dirty || m.dirty })

/-- INVACK (R277, R174). -/
def execInvack (n : Nat) (s : State) : Out :=
  .next (match s.msg? n .invAck with
  | none => s
  | some m =>
    if s.refreshing m.home || (s.cache.msgs.take n).any fun x => x.kind == .resp && x.node == m.node && x.space == m.space && x.line == m.line then s
    else
      let s := s.dropMsg n
      match s.tx? m.space m.line with
      | none => s
      | some t => s.stepTx { t with awaitAcks := t.awaitAcks.erase m.node })

/-- DATA (R277, R200): the home's data and grant reach a die, where the fill enters the die cache next, or a bridge, whose missing words come from the
home's memory, not in a refresh (R174). -/
def execData (n : Nat) (s : State) : Out :=
  .next (match s.msg? n .data with
  | none => s
  | some m =>
    let old := s.bridge? m.node m.space m.line
    let have_ := mergeWords ((old.map (·.words)).getD []) m.words
    if m.inFlight || s.behind n m then s
    else if m.node < 8 then s.modCache fun c => { c with msgs := c.msgs.modify n fun x => { x with inFlight := true } }
    else if s.refreshing m.home && !((List.range 32).all fun i => (wordAt? have_ i).isSome) then s
    else
      let s := s.dropMsg n
      let words := mergeBeneath have_ (s.memWords m.space m.line)
      let b : BridgeLine := { io := m.node, space := m.space, line := m.line, permM := m.grant == .M, held := (old.map (·.held)).getD [],
                              dirty := (old.map (·.dirty)).getD [], words := words,
                              modified := m.dirty || (old.map (·.modified)).getD false }
      s.bridgeSet m.node m.space m.line (some b))

/-- WBACK (R279): clears the pending-writeback record. -/
def execWback (n : Nat) (s : State) : Out :=
  .next (match s.msg? n .wbAck with
  | none => s
  | some m => (s.dropMsg n).modCache fun c => { c with pwb := c.pwb.erase (m.node, m.space, m.line) })

end Sys2Proof.Machine
end

