-- ==== Sys2Proof/Machine/Bridge.lean ====
section
/-! DEFINITION. Cox accesses through the bridges (R200, R201, R403). -/

namespace Sys2Proof.Machine

/-- The bridge that serves a line: I/O die B when `VA[8]` is 1 (R195). -/
def bridgeOf (va : Nat) : Nat := 8 + va / 256 % 2
/-- The half of a line: L or H. -/
def halfOf (va : Nat) : Nat := va / 64 % 2

/-- Ask the home for a line, unless a request of this bridge for it is on its way. -/
def State.bridgeAsk (s : State) (io space line : Nat) (m : Bool) : State :=
  let mine (x : Msg) : Bool := x.node == io && x.space == space && x.line == line
  if s.cache.msgs.any mine || s.cache.txs.any fun t => t.space == space && t.line == line && t.req == some io then s
  else s.send { kind := if m then .getM else .getS, node := io, home := s.lineHome space line, space := space, line := line,
                hasS := (s.bridge? io space line).isSome }

/-- What the bridge answers a cox read of the half at an address with (R200, R264). -/
def State.coxAnswer (s : State) (ctx va : Nat) (l : List (BitVec 8)) : State := s.modCache fun c => { c with cox := some (ctx, va / 64 * 64, l) }

/-- The bytes of a half of a line. -/
def halfBytes (words : List CWord) (h : Nat) : List (BitVec 8) :=
  (List.range 64).map fun i => byteOf (((wordAt? words (16 * h + i / 4)).map (·.v)).getD 0) (i % 4)

/-- COX_READ (R200, R264): the half is supplied from the bridge's copy; a line not held is obtained shared first. A page that the cox
cannot read changes nothing; read-only weights have no directory entry, and their half comes from the home (R197), not in a refresh (R174). A line shut
at package scope is not read (R248). -/
def execCoxRead (ctx va : Nat) (s : State) : Out :=
  let io := bridgeOf va
  .next (match s.transNow ctx false .rd va with
  | .ok _ sp leaf =>
    if s.shutTo 8 0 none sp (va / 128) || (pteRow leaf && s.homeBusy ctx va 1) then s
    else if pteRow leaf then
      let h := s.homeRead sp (va / 128) true
      h.2.coxAnswer ctx va (halfBytes h.1 (halfOf va))
    else match s.bridge? io sp (va / 128) with
      | some b => (s.bridgeSet io sp (va / 128)
          (some { b with held := if b.held.contains (halfOf va) then b.held else b.held ++ [halfOf va] })).coxAnswer ctx va (halfBytes b.words (halfOf va))
      | none => s.bridgeAsk io sp (va / 128) false
  | _ => s)

/-- COX_WRITE (R200, R201): bytes of one half; the line is obtained with ownership first. -/
def execCoxWrite (ctx va : Nat) (data : List (BitVec 8)) (s : State) : Out :=
  let io := bridgeOf va
  let h := halfOf va
  let line := va / 128
  let bytes := (placeBytes va data).filter fun p => p.1 / 64 == va / 64
  .next (match s.transNow ctx false .wr va with
  | .ok _ sp leaf =>
    if pteRow leaf then (if s.homeBusy ctx va 1 then s else s.pokeBytes sp bytes)
    else match s.bridge? io sp line with
      | some b =>
        if b.permM then
          s.bridgeSet io sp line (some { b with
            held := if b.held.contains h then b.held else b.held ++ [h],
            dirty := if b.dirty.contains h then b.dirty else b.dirty ++ [h],
            words := storeBytes b.words b.words line bytes false })
        else s.bridgeAsk io sp line true
      | none => s.bridgeAsk io sp line true
  | _ => s)

/-- COX_EVICTION (R200): a dirty half goes into the bridge's copy; a clean eviction that leaves no half held drops the line, and
writes a modified one back. -/
def execCoxEviction (ctx va : Nat) (s : State) : Out :=
  let io := bridgeOf va
  let h := halfOf va
  let line := va / 128
  let sp := s.spaceOf ctx va
  .next (match s.bridge? io sp line with
  | none => s
  | some b =>
    let held := b.held.filter (· != h)
    if b.dirty.contains h then
      s.bridgeSet io sp line (some { b with held := held, dirty := b.dirty.filter (· != h), modified := true })
    else if !held.isEmpty then s.bridgeSet io sp line (some { b with held := held })
    else
      let s := s.bridgeSet io sp line none
      let m : Msg := { kind := if b.modified then .putM else .putS, node := io, home := s.lineHome sp line, space := sp, line := line,
                       words := if b.modified then b.words.map fun w => { w with d := true } else [] }
      if b.modified then (s.send m).modCache fun c => { c with pwb := c.pwb ++ [(io, sp, line)] } else s.send m)

end Sys2Proof.Machine
end

