-- ==== Sys2Proof/Machine/Package.lean ====
section
/-! DEFINITION. Power, bring-up, thermal trip and the management interface (R8, R15, R17 to R22, R404, R406, R436). -/

namespace Sys2Proof.Machine

/-- The machine without power: only what persists is kept (R17, R22, R406, R448). -/
def State.powerOff (s : State) (p : Package) : State :=
  { State.reset with
    pkg := { trip := p.trip, tripLog := p.tripLog, staged := p.staged <|> p.booting, firmware := p.firmware, debugArmed := p.debugArmed,
             retiredFrames := p.retiredFrames },
    agenda := s.agenda, cur := s.cur, curIdx := s.curIdx, fresh := s.fresh }

/-- THERMAL_TRIP (R17): power leaves every passenger and the trip is logged. -/
def execThermalTrip (s : State) : Out :=
  .next (if s.pkg.up == .off then s else s.powerOff { s.pkg with trip := true, tripLog := s.pkg.tripLog + 1 })

/-- CLEAR_THERMAL_TRIP (R17). -/
def execClearThermalTrip (s : State) : Out := .next (s.modPkg fun p => { p with trip := false })

/-- POWER_ON (R18, R20, R22): a package that is off, with no trip standing, enters STANDBY and reads its strap; the update staged by
then is the one that this bring-up takes. -/
def execPowerOn (rootPort : Bool) (s : State) : Out :=
  .next (if s.pkg.up == .off && !s.pkg.trip then
    let t := s.powerOff s.pkg
    t.modPkg fun p => { p with up := .standby, rootPort := rootPort, booting := p.staged, staged := none }
  else s)

/-- Whether the Bexa root takes an image (R22, R404): its signatures are verified and neither security version is below the
fused one. -/
def imageOk (i : Nat) : Bool :=
  Config.imageSigned i && decide (Config.svnFused ≤ Config.svnt i) && decide (Config.svnFused ≤ Config.svnr i)

/-- Whether the image that this bring-up takes is refused: the staged one, or else the firmware in effect, which every bring-up verifies too
(R404). -/
def Package.bootRefused (p : Package) : Bool := !imageOk (p.booting.getD p.firmware)

/-- SECURE BOOT (R18, R22, R404, R406): the update of this bring-up becomes the firmware; an armed debug unlock extends MR0 first; the
trusted firmware is measured into MR0 and the runtime firmware into MR1. -/
def Package.secureBoot (p : Package) : Package :=
  let fw := p.booting.getD p.firmware
  let m0 : BitVec 512 := match p.debugArmed with
    | some t => measExtend 0 (BitVec.ofNat 512 (leNat (sha512 (measBytes t))))
    | none => 0
  { p with
    firmware := fw, booting := none, debugOn := p.debugArmed.isSome, debugArmed := none,
    mr := [measExtend m0 (Config.trustedDigest fw), measExtend 0 (Config.runtimeDigest fw), 0, 0, 0, 0, 0, 0] }

/-- A context at its creation (R385, R388, R404). -/
def Ctx.created : Ctx := { st := .active }

/-- BRING_UP_STAGE_COMPLETE (R18): the work of a state is done, or it fails with a cause; a refused image fails SECURE BOOT, with
a cause that the spec does not give, and is dropped (R404; log 12). -/
def execBringUpStageComplete (failure : Option (BitVec 8)) (s : State) : Out :=
  let goto (s : State) (u : BringUp) : State := s.modPkg fun p => { p with up := u }
  let stage (f : State → State) : State := match failure with
    | some c => s.modPkg fun p => { p with up := .failed, cause := c }
    | none => f s
  .next (match s.pkg.up with
  | .standby => stage fun s => goto s .secureBoot
  | .secureBoot => stage fun s =>
      if s.pkg.bootRefused then
        { s with pkg := { s.pkg with up := .failed, cause := (Config.freeWord s.fresh).extractLsb' 0 8, booting := none }, fresh := s.fresh + 1 }
      else goto (s.modPkg Package.secureBoot) .runtimeLoad
  | .runtimeLoad => stage fun s => goto (s.modCtx 0 fun _ => Ctx.created) .memoryInit
  | .memoryInit => stage fun s => goto { s with mem := [], memPoison := [] } .linkInit
  | .linkInit => stage fun s =>
      let s := { s with dies := s.dies.map fun (d : Die) => { d with recon := s.stake } }
      let s := s.modPkg fun p => { p with up := .ready, pcieUp := true }
      s.degrade
  | _ => s)

/-- SET_POWER_CAP (R15): 3.0 kW to 4.5 kW in steps of 50 W. -/
def execSetPowerCap (watts : Nat) (s : State) : Out :=
  .next (if 3000 ≤ watts ∧ watts ≤ 4500 ∧ watts % 50 = 0 then s.modPkg fun p => { p with capW := watts } else s)

/-- STAGE_FIRMWARE_UPDATE (R22): for the next bring-up. -/
def execStageFirmwareUpdate (image : Nat) (s : State) : Out := .next (s.modPkg fun p => { p with staged := some image })

/-- MISROUTED_PACKET (R8): sockets 11 to 15 name no passenger. -/
def execMisroutedPacket (socket : Nat) (s : State) : Out :=
  .next (if 11 ≤ socket ∧ socket ≤ 15 then s.modPkg fun p => { p with misroute := p.misroute + 1 } else s)

end Sys2Proof.Machine
end

