-- ==== Sys2Proof/Machine/TimedCopy.lean ====
section
/-! DEFINITION. Copies in progress, and timed copies: bytes move between a die's DRAM and the scratchpad at fixed ticks (R181, R240). -/

namespace Sys2Proof.Machine

/-! A request of a timed copy is served in its own tick: what the caches and the home do for it takes none (log 28). -/

/-- What a directory message does when its turn has come. -/
def State.runMsg (s : State) (n : Nat) (m : Msg) : Out :=
  match m.kind with
  | .getS => execGets n s
  | .getM => execGetm n s
  | .putM => execPutm n s
  | .putS => execPuts n s
  | .fwdGetS => execFwdgets n s
  | .fwdGetM => execFwdgetm n s
  | .inv => execInv n s
  | .resp => execResp n s
  | .invAck => execInvack n s
  | .data => if m.inFlight then execDieCacheFillArrival n s else execData n s
  | .wbAck => execWback n s

/-- Carry out the messages about a line, at most `fuel` of them. -/
def State.runLine (fuel : Nat) (s : State) (space line : Nat) : State :=
  match fuel with
  | 0 => s
  | fuel + 1 =>
    let about := s.cache.msgs.zipIdx.filter fun p => p.1.space == space && p.1.line == line
    match about.findSome? fun p => s.acted fun s => s.runMsg p.2 p.1 with
    | some t => State.runLine fuel t space line
    | none => s

/-- The request of a number. -/
def State.reqOf (s : State) (num : Nat) : Option DReq := s.cache.dreqs.find? fun d => d.num == num

/-- Serve request `num` of a copy command through the die cache, with its home where it must, and acknowledge it (R240, R270, R274). -/
def State.hurry (fuel : Nat) (s : State) (num : Nat) : State :=
  match fuel with
  | 0 => s
  | fuel + 1 => match s.reqOf num with
    | none => s
    | some d =>
      if d.performed then s.ackReq d
      else State.hurry fuel (if d.asked then State.runLine 64 s d.space d.line else s.serve d) num

/-- A request that the caches could not serve in its tick is carried out at the coherent value of its line (log 28). -/
def State.force (s : State) (num : Nat) : State :=
  match s.reqOf num with
  | none => s
  | some d =>
    let s := s.dropReq d
    match d.kind, d.job with
    | .load _ ws, some j => s.gotJob j.1 j.2 d.line ws (ws.map (s.peekWord d.space d.line))
    | .store l, _ => s.pokeBytes d.space l
    | _, _ => s

/-- Carry out the requests from number `n` on. -/
def State.hurryFrom (s : State) (n : Nat) : State :=
  (List.range (s.cache.sent - n)).foldl (fun (s : State) i => (State.hurry 8 s (n + i)).force (n + i)) s

/-! Pieces of a timed copy. -/

/-- A side of a timed copy within a chunk: the scratchpad, or memory where the buffer was when the chunk began (R232). -/
def CopyJob.side (j : CopyJob) (h : Nat) : Option Buf :=
  if h / 4096 = 0xFFFFF then some .spad else some (.mem j.from_ (2 ^ 48) true true)

/-- Where the memory buffer of a timed copy begins. -/
def memBase (src dst : Option Buf) : Nat :=
  match src, dst with
  | some (.mem b _ _ _), _ => b
  | _, some (.mem b _ _ _) => b
  | _, _ => 0

/-- Read a line of the source once within its chunk (R293): through the core's L1 and die cache, or from the scratchpad. -/
def State.timedLine (s : State) (t : Nat) (j : CopyJob) (k : Chunk) (src : Option Buf) : State :=
  let at_ := (Buf.va? src k.src).getD k.src.toNat
  let line := at_ / 128
  if j.got.any fun g => g.1 / 32 == line then s
  else match Buf.va? src k.src with
    | none =>
      let x := s.team t
      let word (i : Nat) : Nat × Lane × Bool := (line * 32 + i, getW32 x.spad (line * 128 + 4 * i), x.spPoison.contains (line * 128 + 4 * i))
      s.modJob t j.seq fun y => { y with got := (List.range 32).map word }
    | some va =>
      let ws := (List.range 32).filter fun i => decide (va ≤ line * 128 + 4 * i ∧ line * 128 + 4 * i < va + k.n)
      let n := s.cache.sent
      let s := (s.modJob t j.seq fun y => { y with asked := true, got := [] }).askLine t j.seq (s.spaceOf (s.teamPlace t).ctx va, line) ws
      (s.hurryFrom n).modJob t j.seq fun y => { y with asked := false }

/-- Move the next bytes of a timed copy, at most `room`: those of one line of the source and one of the destination. -/
def State.timedMove (s : State) (t : Nat) (a : CopyArgs) (j : CopyJob) (k : Chunk) (src dst : Option Buf) (room : Nat) : State :=
  let at_ := (Buf.va? src k.src).getD k.src.toNat
  let to_ := (Buf.va? dst k.dst).getD k.dst.toNat
  let n := min (min k.n room) (min (128 - at_ % 128) (128 - to_ % 128))
  let s := s.timedLine t j k src
  let j := (s.job? t j.seq).getD j
  let mine := j.got.filter fun g => decide (at_ / 4 ≤ g.1 ∧ g.1 < (at_ + n + 3) / 4)
  if mine.any (·.2.2) then s.endCopy t j 8
  else
    let byte (i : Nat) : BitVec 8 := match mine.find? fun g => g.1 == (at_ + i) / 4 with
      | some g => byteOf g.2.1 ((at_ + i) % 4)
      | none => (Config.freeWord (s.fresh + i)).extractLsb' 0 8
    let bytes := (List.range n).map byte
    let s := s.chunkHazards t a j { k with n := n } src dst
    let s := match Buf.va? dst k.dst with
      | some va => (s.addReqs (s.chunkStores t j.seq va bytes)).hurryFrom s.cache.sent
      | none => s.spadPut t { warp := none, job := some (t, j.seq), stamp := j.pos, rel := none, bytes := placeBytes k.dst.toNat bytes, poison := [] }
    { s with fresh := s.fresh + 8192 }.chunkDone t a j n

/-- A timed copy goes on: 128 bytes in each tick that is not a refresh tick, each chunk checked as a whole before it begins (R181). -/
def State.timedStep (s : State) (t : Nat) (a : CopyArgs) (j : CopyJob) (t0 : Nat) : State :=
  let ctx := (s.teamPlace t).ctx
  let k := chunkOf a j
  let side (h : Nat) : Option Buf := if k.start then s.handle ctx j.tab h else j.side h
  let src := side a.srcH
  let dst := side a.dstH
  let room := 128 * (workTicks (s.reconTick (s.teamPlace t).die + 1) - workTicks t0) - j.pos
  if room = 0 then s
  else match (if k.start then s.chunkStop t a j k src dst else none) with
    | some s => s
    | none =>
      if k.start && (Buf.va? src k.src).any fun va => s.enginePoison ctx va k.n then s.endCopy t j 8
      else
        let j := if k.start then { j with from_ := memBase src dst, got := [] } else j
        (s.modJob t j.seq fun _ => j).timedMove t a j k src dst room

/-! A command goes on. -/

/-- COPY_CHUNK (R232, R233, R238, R240): a command in progress goes on. -/
def execCopyChunk (t : Nat) (seq : Nat) (s : State) : Out :=
  let ctx := (s.teamPlace t).ctx
  .next (match s.job? t seq with
  | none => s
  | some j =>
    let a := CopyArgs.of j.cmd
    if j.finished.isSome || j.paused.isSome || (j.timed.isSome && !j.begun) || (s.ctx ctx).st != .active then s
    else if a.code = 0x106 then (if s.copyTurn t then s.preloadLine t a j else s)
    else match j.timed with
      | some t0 => s.timedStep t a j t0
      | none =>
        let src := if a.hasSrc then s.handle ctx j.tab a.srcH else none
        let dst := s.handle ctx j.tab a.dstH
        if j.asked then s.copyStep t a j src dst
        else if !s.copyTurn t then s
        else match s.rowIndex t a j src dst with
          | .error c => s.endCopy t j (if (a.hasSrc && src.isNone) || dst.isNone then 6 else c)
          | .ok j => s.copyStep t a j src dst)

/-- Whether every row of one side of a timed copy is translated at its home and homed on a die (R181). -/
def State.timedSide (s : State) (t : Nat) (a : CopyArgs) (b : Option Buf) (o : Nat) (st ps : Int) : Bool :=
  let p := s.teamPlace t
  match b with
  | some .spad => true
  | none => false
  | some (.mem base _ _ _) =>
    (List.range a.planes).all fun pl => (List.range a.rows).all fun r =>
      let v := base + ((o : Int) + r * st + pl * ps).toNat
      (List.range (a.rb / 65536 + 2)).all fun i =>
        let x := min (v + 65536 * i) (v + a.rb - 1)
        match s.homeOf p.ctx x with
        | .loc h sp => h == p.die && (s.walk h sp x).isSome
        | _ => false

/-- TIMED_COPY_START (R181): at its start tick the copy begins, or completes with cause 9 and owes a window miss. -/
def execTimedCopyStart (t : Nat) (seq : Nat) (s : State) : Out :=
  let ctx := (s.teamPlace t).ctx
  .next (match s.job? t seq with
  | none => s
  | some j => match j.timed with
    | none => s
    | some t0 =>
      let a := CopyArgs.of j.cmd
      if j.begun || j.finished.isSome || decide (s.reconTick (s.teamPlace t).die < t0) then s
      else if s.timedSide t a (s.handle ctx j.tab a.srcH) a.srcO a.ss a.sp && s.timedSide t a (s.handle ctx j.tab a.dstH) a.dstO a.ds a.dp then
        (s.modJob t seq fun x => { x with begun := true }).modTeam t fun x =>
          { x with filling := x.filling ++ a.spadRanges.map fun q => (seq, q) }
      else s.endCopy t j 9)

/-- Whether an access of a copy command's chunk under way reaches a range of a space: its chunk has begun, and its source and destination have been
translated (R232, R400). -/
def State.jobBusy (s : State) (t : Nat) (j : CopyJob) (reaches : Nat → Nat → Bool) : Bool :=
  let a := CopyArgs.of j.cmd
  let k := chunkOf a j
  let ctx := (s.teamPlace t).ctx
  let hit (va : Option Nat) : Bool := va.any fun v => [v, v + k.n - 1].any fun x => reaches (s.spaceOf ctx x) x
  if j.finished.isSome then false
  else if j.timed.isSome then j.begun && !k.start && (hit (Buf.va? (j.side a.srcH) k.src) || hit (Buf.va? (j.side a.dstH) k.dst))
  else j.asked && ((a.hasSrc && a.srcH / 4096 != 0xFFFFF && hit (some j.from_)) || hit (Buf.va? (s.handle ctx j.tab a.dstH) k.dst))

end Sys2Proof.Machine
end

