-- ==== Sys2Proof/Machine/Mmu.lean ====
section
/-! DEFINITION. The translation unit of a home: map requests and walks (R391 to R400, R427). -/

namespace Sys2Proof.Machine

/-! Requests (Table 19-5). -/

/-- A map request. -/
structure MapReq where
  op : Nat
  size : Nat
  perm : Nat
  space : Nat
  va : Nat
  frame : Nat
  count : Nat
  zeros : Bool
deriving DecidableEq, Repr, Inhabited

/-- Read a request's 32 bytes. -/
def MapReq.of (l : List Word) : MapReq :=
  let w (i : Nat) : Word := l.getD i 0
  { op := fld (w 0) 0 8, size := fld (w 0) 8 8, perm := fld (w 0) 16 8, space := fld (w 0) 32 16, va := (w 1).toNat,
    frame := (w 2).toNat, count := fld (w 3) 0 32, zeros := fld (w 0) 24 8 == 0 && fld (w 0) 48 16 == 0 && fld (w 3) 32 32 == 0 }

/-- Logarithm of a request's page size. -/
def MapReq.bits (r : MapReq) : Nat := if r.size = 0 then 16 else if r.size = 1 then 21 else 30
/-- Its pages' addresses. -/
def MapReq.pages (r : MapReq) : List Nat := (List.range r.count).map fun i => r.va + i * 2 ^ r.bits
/-- First address beyond its pages. -/
def MapReq.stop (r : MapReq) : Nat := r.va + r.count * 2 ^ r.bits
/-- Whether an address is in its pages. -/
def MapReq.covers (r : MapReq) (a : Nat) : Bool := decide (r.va ≤ a ∧ a < r.stop)
/-- The 64 KiB frames of a MAP. -/
def MapReq.frames (r : MapReq) : List Nat := (List.range (r.count * 2 ^ (r.bits - 16))).map fun i => r.frame / 65536 + i

/-- A leaf with a request's permissions. -/
def MapReq.leaf (r : MapReq) (addr : Nat) : Word :=
  BitVec.ofNat 64 (2 ^ 63 + 2 ^ 62 + (r.perm % 2) * 2 ^ 61 + (r.perm / 2 % 2) * 2 ^ 60 + (r.perm / 4 % 2) * 2 ^ 59 +
    (r.perm / 8 % 2) * 2 ^ 58 + (r.perm / 16 % 2) * 2 ^ 57 + addr / 256 % 2 ^ 44 * 256)

/-- Whether a request is well formed for a home (status 1). -/
def MapReq.ok (r : MapReq) (home op : Nat) : Bool :=
  r.op == op && decide (r.size ≤ 2) && (op == 2 || decide (r.perm < 32)) && r.zeros && decide (r.space ≤ 256) &&
    decide (r.va < 2 ^ 48) && decide (r.va % 2 ^ r.bits = 0) && decide (1 ≤ r.count ∧ r.count ≤ 65536) && decide (r.stop ≤ 2 ^ 48) &&
    (if op = 1 then decide (r.frame % 2 ^ r.bits = 0) && decide (r.frame + r.count * 2 ^ r.bits ≤ Config.homeBytes home)
     else r.frame == 0)

/-! Frames (Table 19-6). -/

/-- A frame's ownership entry. -/
def State.frame (s : State) (home f : Nat) : BitVec 32 := assoc s.xl.frames (home * 2 ^ 32 + f) 0
/-- Set a frame's entry. -/
def State.setFrame (s : State) (home f : Nat) (v : BitVec 32) : State :=
  s.modXl fun x => { x with frames := assocSet x.frames (home * 2 ^ 32 + f) v }
/-- `USED`. -/
def frUsed (e : BitVec 32) : Bool := e.getLsbD 31
/-- `MAPPED`. -/
def frMapped (e : BitVec 32) : Bool := e.getLsbD 30
/-- `OWNER`. -/
def frOwner (e : BitVec 32) : Nat := e.toNat / 65536 % 512
/-- Set `MAPPED`. -/
def frMap (e : BitVec 32) (on : Bool) : BitVec 32 := if on then e ||| (1#32 <<< 30) else e &&& ~~~(1#32 <<< 30)

/-! Page tables (R391, R393). -/

/-- The next place for a table at or above an address: the lowest aligned one that overlaps no table (log 9). -/
def State.freeTable (s : State) (home size : Nat) : Option Nat :=
  let lo := Config.tableBase home
  let hi := lo + Config.pteBytes home
  let mine := s.xl.tables.filter fun t => t.home == home
  let cands := lo :: mine.map fun t => (t.addr + t.size + size - 1) / size * size
  let good := cands.filter fun a => decide (a + size ≤ hi) && mine.all fun t => decide (a + size ≤ t.addr ∨ t.addr + t.size ≤ a)
  good.foldl (fun m a => match m with
    | none => some a
    | some b => some (min a b)) none

/-- Write a page table entry; an entry of zero is not listed. -/
def State.setPte (s : State) (home a : Nat) (v : Word) : State :=
  let k := home * 2 ^ 48 + a
  s.modXl fun x => { x with pte := if v = 0 then x.pte.filter (fun p => p.1 != k) else assocSet x.pte k v }

/-- Take a table from the region. -/
def State.newTable (s : State) (home space size : Nat) : Option (Nat × State) :=
  (s.freeTable home size).map fun a =>
    (a, s.modXl fun x => { x with tables := x.tables ++ [{ home := home, space := space, addr := a, size := size }] })

/-- The root table of a space at a home, made when it has none: the Bexa root's act (R393, R401). -/
def State.needRoot (s : State) (home space : Nat) : Option State :=
  match s.root? home space with
  | some _ => some s
  | none => (s.newTable home space 4096).map fun r => r.2.modXl fun x => { x with roots := x.roots ++ [(home, space, r.1)] }

/-- Index of an address at a level (Table 19-3). -/
def ptIndex (level va : Nat) : Nat :=
  match level with
  | 0 => va / 2 ^ 39 % 512
  | 1 => va / 2 ^ 30 % 512
  | 2 => va / 2 ^ 21 % 512
  | _ => va / 2 ^ 16 % 32

/-- Level of the leaf of a page size. -/
def leafLevel (bits : Nat) : Nat := if bits = 30 then 1 else if bits = 21 then 2 else 3

/-- Put a leaf at `n` levels below a table, taking the tables that are missing; none when the region is exhausted. -/
def State.putLeaf (s : State) (home space level n table va : Nat) (leaf : Word) : Option State :=
  let a := table + 8 * ptIndex level va
  match n with
  | 0 => some (s.setPte home a leaf)
  | n + 1 =>
    let e := s.pte home a
    if pteV e then s.putLeaf home space (level + 1) n (pteAddr e) va leaf
    else match s.newTable home space (if level = 2 then 256 else 4096) with
      | none => none
      | some r => (r.2.setPte home a (BitVec.ofNat 64 (2 ^ 63 + r.1))).putLeaf home space (level + 1) n r.1 va leaf

/-- Map one page. -/
def State.mapPage (s : State) (home space bits va : Nat) (leaf : Word) : Option State :=
  match s.root? home space with
  | none => none
  | some r => s.putLeaf home space 0 (leafLevel bits) r va leaf

/-- Whether a table holds no valid entry. -/
def State.tableEmpty (s : State) (home addr size : Nat) : Bool :=
  (List.range (size / 8)).all fun i => !pteV (s.pte home (addr + 8 * i))

/-- Clear a leaf `n` levels below a table; tables that this empties return to the region (R391). -/
def State.dropLeaf (s : State) (home level n table va : Nat) : State :=
  let a := table + 8 * ptIndex level va
  match n with
  | 0 => s.setPte home a 0
  | n + 1 =>
    let sub := pteAddr (s.pte home a)
    let s := s.dropLeaf home (level + 1) n sub va
    if s.tableEmpty home sub (if level = 2 then 256 else 4096) then
      (s.setPte home a 0).modXl fun x => { x with tables := x.tables.filter fun t => !(t.home == home && t.addr == sub) }
    else s

/-! Checks (Table 19-7). -/

/-- The leaves of a space at a home: base, size, entry, found through its tables. -/
def State.mappedAt (s : State) (home space va bits : Nat) : Bool := (s.walk home space va).any fun p => p.2 == bits

/-- Whether any page overlaps a range of a space at a home. -/
def State.anyMapped (s : State) (home space va bits : Nat) : Bool :=
  match s.root? home space with
  | none => false
  | some r =>
    let e0 := s.pte home (r + 8 * ptIndex 0 va)
    let e1 := s.pte home (pteAddr e0 + 8 * ptIndex 1 va)
    let e2 := s.pte home (pteAddr e1 + 8 * ptIndex 2 va)
    let e3 := s.pte home (pteAddr e2 + 8 * ptIndex 3 va)
    pteV e0 && pteV e1 && (pteLeaf e1 || bits == 30 || (pteV e2 && (pteLeaf e2 || bits == 21 || pteV e3)))

/-- Whether a page's granule is homed at a home in a space (status 5). -/
def State.homedHere (s : State) (home space va : Nat) : Bool :=
  if space < 256 then s.homeOf space va == .loc home space
  else (List.range 256).any fun c => s.homeOf c va == .loc home 256

/-- The first failing status of a request, 0 when all checks hold but that of the table region. -/
def State.mapCheck (s : State) (home op : Nat) (r : MapReq) : Nat :=
  let wr := r.perm / 2 % 2 = 1
  let ex := r.perm / 4 % 2 = 1
  let row := r.perm / 8 % 2 = 1
  let drv := r.perm / 16 % 2 = 1
  if !r.ok home op then 1
  else if op = 1 ∧ r.frames.any (fun f => !(frUsed (s.frame home f) && frOwner (s.frame home f) == r.space)) then 2
  else if op = 1 ∧ r.frames.any (fun f => frMapped (s.frame home f)) then 3
  else if op = 1 ∧ r.pages.any (fun v => s.anyMapped home r.space v r.bits) then 4
  else if op ≠ 1 ∧ !(r.pages.all fun v => s.mappedAt home r.space v r.bits) then 4
  else if !(r.pages.all fun v => s.homedHere home r.space v) then 5
  else if op ≠ 2 ∧ ((wr ∧ ex) ∨ (drv ∧ (ex ∨ row))) then 6
  else 0

/-- Return a status at a home's mailbox. -/
def State.mapDone (s : State) (home code : Nat) : State := s.modXl fun x => { x with mapStatus := assocSet x.mapStatus home code }

/-- Map the pages of a request one after another; none when the table region is exhausted. -/
def State.mapPages (s : State) (home : Nat) (r : MapReq) (l : List Nat) : Option State :=
  match l with
  | [] => some s
  | v :: rest => match s.mapPage home r.space r.bits v (r.leaf (r.frame + (v - r.va))) with
    | none => none
    | some s => s.mapPages home r rest

/-- MAP (R398, R399): the pages are mapped and their frames marked; what waited for them is released (R396, R427). -/
def execMap (home : Nat) (req : List (BitVec 64)) (s : State) : Out :=
  let r := MapReq.of req
  let c := s.mapCheck home 1 r
  .next (if 9 ≤ home then s
  else if c ≠ 0 then s.mapDone home c
  else match s.mapPages home r r.pages with
    | none => s.mapDone home 7
    | some t =>
      let t := r.frames.foldl (fun (s : State) f => s.setFrame home f (frMap (s.frame home f) true)) t
      let woken := t.xl.pfaults.filter fun p => p.home == home && p.space == r.space && r.covers p.va
      (woken.foldl (fun (s : State) p => s.releaseEntry p) t).mapDone home 0)

/-- Whether an access to a request's pages is under way (R400): on its way through the caches, a chunk of a copy command that has begun (R232), or a
store that a block has made and holds until its commit, whose translation was made when it fired (R205). -/
def State.pagesBusy (s : State) (r : MapReq) : Bool :=
  let at_ (sp line : Nat) : Bool := sp == r.space && r.covers (line * 128)
  let holds (w : Nat) : Bool := ((s.blk? w).toList.flatMap (·.stores)).any fun t => t.addrs.any fun a =>
    r.covers a && s.spaceOf (s.place w).ctx a == r.space
  let copies (t : Nat) : Bool := (s.team t).jobs.any fun j => s.jobBusy t j fun sp a => sp == r.space && r.covers a
  ((List.range s.warps.length).any holds) || (List.range s.teams.length).any copies || s.cache.dreqs.any (fun d => at_ d.space d.line) || s.cache.msgs.any (fun m => at_ m.space m.line) ||
    s.cache.txs.any (fun t => at_ t.space t.line) || s.cache.pwb.any fun p => at_ p.2.1 p.2.2

/-- Remove a request's pages from the home's entries and their lines from every cache, dirty words written back (R400). -/
def State.purgePages (s : State) (home : Nat) (r : MapReq) : State :=
  let s := (s.linesOf r.space).foldl (fun (s : State) n => if r.covers (n * 128) then s.flushLine r.space n else s) s
  s.modXl fun x => { x with tlb := x.tlb.filter fun e => !(e.home == home && e.space == r.space && r.covers e.base) }

/-- UNMAP (R400): served once no access to the pages is under way. -/
def execUnmap (home : Nat) (req : List (BitVec 64)) (s : State) : Out :=
  let r := MapReq.of req
  let c := s.mapCheck home 2 r
  let one (s : State) (v : Nat) : State :=
    match s.walk home r.space v, s.root? home r.space with
    | some (leaf, _), some root =>
      let fs := (List.range (2 ^ (r.bits - 16))).map fun i => pteAddr leaf / 65536 + i
      let s := fs.foldl (fun (s : State) f => s.setFrame home f (frMap (s.frame home f) false)) s
      s.dropLeaf home 0 (leafLevel r.bits) root v
    | _, _ => s
  .next (if 9 ≤ home then s
  else if c ≠ 0 then s.mapDone home c
  else if s.pagesBusy r then s
  else (r.pages.foldl one (s.purgePages home r)).mapDone home 0)

/-- PROTECT (R400): new permissions; one that removes a permission is served as UNMAP is. -/
def execProtect (home : Nat) (req : List (BitVec 64)) (s : State) : Out :=
  let r := MapReq.of req
  let c := s.mapCheck home 3 r
  let one (s : State) (v : Nat) : State :=
    match s.walk home r.space v, s.root? home r.space with
    | some (leaf, _), some root => (s.putLeaf home r.space 0 (leafLevel r.bits) root v (r.leaf (pteAddr leaf))).getD s
    | _, _ => s
  .next (if 9 ≤ home then s
  else if c ≠ 0 then s.mapDone home c
  else if s.pagesBusy r then s
  else (r.pages.foldl one (s.purgePages home r)).mapDone home 0)

/-- A walk's answer to those that asked for a 64 KiB page (R395, R396): the translation of the page, or where there is none a pending fault, whose
record the first access that meets it posts; none where no entry is free. -/
def State.walked (s : State) (home space page : Nat) : Option State :=
  match s.walk home space page with
  | some (leaf, bits) => some (s.tlbAdd { home := home, space := space, base := page / 2 ^ bits * 2 ^ bits, size := bits, leaf := leaf })
  | none =>
    if s.xl.pfaults.any fun p => p.home == home && p.space == space && p.va == page then some s
    else if s.pfaultsFull home then none
    else
      let new : PFault := { home := home, space := space, va := page, warps := [], recs := [], posted := false }
      some (s.modXl fun x => { x with pfaults := x.pfaults ++ [new] })

/-- PAGE_WALK (R394 to R396): walk `n` of a home ends, one of the 512 that run at once, for every page that was asked of it, but for those whose
pending fault finds no entry free. The tables lie in the home's memory, so it waits for the end of a refresh (R174). -/
def execPageWalk (home : Nat) (n : Nat) (s : State) : Out :=
  .next (match s.xl.walks[n]? with
  | none => s
  | some w =>
    let before := ((s.xl.walks.take n).filter fun x => x.home == home).length
    if w.home != home || decide (512 ≤ before) || s.refreshing home then s
    else
      let answer (r : State × List Nat) (page : Nat) : State × List Nat := match r.1.walked home w.space page with
        | some t => (t, r.2)
        | none => (r.1, r.2 ++ [page])
      let r := w.asks.foldl answer (s, [])
      r.1.modXl fun x => { x with
        walks := if r.2.isEmpty then x.walks.eraseIdx n else x.walks.modify n fun y => { y with asks := r.2 } })

end Sys2Proof.Machine
end

