-- ==== Sys2Proof/Machine/Bexa.lean ====
section
/-! DEFINITION. The services of the Bexa root (Table 19-9): contexts, frames, home maps, windows, export lists, measurement,
attestation and debug unlock (R383 to R385, R391, R392, R397 to R406, R443). -/

namespace Sys2Proof.Machine

/-- Answer a service: refused, or done. -/
def State.answer (s : State) (no : Bool) : State := s.modPkg fun p => { p with refused := no }

/-! Contexts. -/

/-- CTX_CREATE (R401, R388): a FREE context becomes ACTIVE, with an empty home map and a zeroed block. -/
def execCtxCreate (ctx : Nat) (s : State) : Out :=
  .next (if !(s.ctxs.any fun c => c.st == .free) then s.answer true
  else if (s.ctx ctx).st == .free && decide (ctx < s.ctxs.length) then
    let s := s.modXl fun x => { x with homeMap := x.homeMap.filter fun e => e.1 / 262144 != ctx }
    (s.modCtx ctx fun _ => Ctx.created).answer false
  else s)

/-- End a grid without its completion (R443): its warps stop and commit nothing, its copy commands stop, and its launch advances
its queue with cause 7. -/
def State.stopGrid (s : State) (g : Nat) : State :=
  let ws := s.gridWarps g
  let gangs := (s.regionsOf g).flatMap s.gangsOf
  let teams := gangs.flatMap s.teamsOf
  let s := ws.foldl (fun (s : State) w => (s.abortBlock w).modWarp w fun x => { x with done := true, park := {}, seat := {} }) s
  let s := teams.foldl (fun (s : State) t => s.modTeam t fun x => { x with
    done := true, queue := [], jobs := [], reserved := 0, spad := [], spPoison := [], pend := [], filling := [], landed := [] }) s
  let s := gangs.foldl (fun (s : State) q => s.modGang q fun x => { x with st := .done }) s
  let s := (s.regionsOf g).foldl (fun (s : State) r => s.modRegion r fun x => { x with done := true }) s
  let s := { s with tsends := s.tsends.filter fun t => !(teams.contains t.team), remote := s.remote.filter fun r => !(ws.contains r.w) }
  let s := s.modGrid g fun x => { x with done := true }
  let s := teams.foldl (fun (s : State) t => s.tidyCore (s.teamPlace t).die (s.team t).core) s
  s.endLaunch (s.grid g).queue (s.grid g).seq 7

/-- The grids of a context that have not completed. -/
def State.openGrids (s : State) (ctx : Nat) : List Nat :=
  (List.range s.grids.length).filter fun g => (s.grid g).ctx == ctx && !(s.grid g).done

/-- End every launch of a context that has entered a queue (R443). -/
def State.stopContext (s : State) (ctx : Nat) : State :=
  let s := (s.openGrids ctx).foldl (fun (s : State) g => s.stopGrid g) s
  let qs := (List.range 64).filter fun q => fld (s.queue q).ctl 0 8 == ctx
  qs.foldl (fun (s : State) q => (s.queue q).entries.foldl (fun (s : State) e => s.endLaunch q e.seq 7) s) s

/-- Drop the cells of a physical range from a memory; they then read zero. -/
def dropRange (m : Memory) (lo n : Nat) : Memory := m.filter fun c => !(decide (lo ≤ c.1 ∧ c.1 < lo + n))

/-- Zero a frame and clear its entry (R402); one marked for retirement is retired (R448). -/
def State.reclaimFrame (s : State) (home f : Nat) : State :=
  let lo := home * 2 ^ 48 + f * 65536
  let s := { s with mem := dropRange s.mem lo 65536, memPoison := s.memPoison.filter fun a => !(decide (lo ≤ a ∧ a < lo + 65536)) }
  let s := s.modXl fun x => { x with frames := x.frames.filter fun e => e.1 != home * 2 ^ 32 + f }
  if s.pkg.marked.contains (home, f) then
    (s.modPkg fun p => { p with marked := p.marked.filter (· != (home, f)), retiredFrames := p.retiredFrames ++ [(home, f)] }).health 3 home (f * 65536)
  else s

/-- Carry out R385: nothing of a space is left in caches, translation, tables or frames. -/
def State.clearSpace (s : State) (ctx : Nat) : State :=
  let s := s.purgeSpace ctx
  let gone (t : PTab) : Bool := t.space == ctx
  let inTab (k : Nat) : Bool := s.xl.tables.any fun t => gone t && decide (t.home * 2 ^ 48 + t.addr ≤ k ∧ k < t.home * 2 ^ 48 + t.addr + t.size)
  let owned := s.xl.frames.filter fun e => frUsed e.2 && frOwner e.2 == ctx
  let s := s.modXl fun x => { x with
    pte := x.pte.filter fun p => !inTab p.1,
    tables := x.tables.filter fun t => !gone t,
    roots := x.roots.filter fun r => r.2.1 != ctx,
    homeMap := x.homeMap.filter fun e => e.1 / 262144 != ctx,
    tlb := x.tlb.filter fun e => e.space != ctx,
    walks := x.walks.filter fun w => w.space != ctx,
    pfaults := x.pfaults.filter fun p => p.space != ctx,
    windows := x.windows.map fun w => { w with members := w.members.filter (· != ctx) } }
  let s := owned.foldl (fun (s : State) e => s.reclaimFrame (e.1 / 2 ^ 32) (e.1 % 2 ^ 32)) s
  { s with objs := s.objs.filter fun o => o.ctx != ctx }

/-- Whether a launch queue bound to a context is enabled. -/
def State.queueOn (s : State) (ctx : Nat) : Bool := (List.range 64).any fun q => fld (s.queue q).ctl 0 8 == ctx && (s.queue q).ctl.getLsbD 10

/-- A DYING context becomes FREE once its queues are disabled: what has entered them since ends too, and nothing of the context is left (R385,
R443). -/
def State.finishDying (s : State) (ctx : Nat) : State :=
  if (s.ctx ctx).st == .dying && !s.queueOn ctx then ((s.stopContext ctx).clearSpace ctx).modCtx ctx fun _ => {} else s

/-- CTX_DESTROY (R443, R385): an ACTIVE context is DYING, its warps, copies, groups and launches end; it is FREE at once when its queues
are disabled, and otherwise when the driver has disabled them. -/
def execCtxDestroy (ctx : Nat) (s : State) : Out :=
  .next (if (s.ctx ctx).st != .active then s.answer true
  else
    let others (g : Nat × Nat) : List Nat := match s.member ctx g.1 g.2 with
      | some e => (s.membersOn g.1 g.2 e.route).filter (· != ctx)
      | none => []
    let s := (s.ctx ctx).active.foldl (fun (s : State) g => (others g).foldl (fun (s : State) c => s.abortMember c g.1 g.2 8) s) s
    let s := s.modCtx ctx fun c => { c with st := .dying, hubq := [], posted := [], jobs := [], coll := [], collRes := 0 }
    ((s.stopContext ctx).finishDying ctx).answer false)

/-! Frames. -/

/-- The frames of a service call. -/
def frameRange (frame count : Nat) : List Nat := (List.range count).map (frame + ·)

/-- Whether a frame lies in the table region or beyond a home's memory. -/
def frameKept (home f : Nat) : Bool :=
  decide (Config.homeBytes home < (f + 1) * 65536) ||
    decide (Config.tableBase home ≤ f * 65536 ∧ f * 65536 < Config.tableBase home + Config.tableBytes home)

/-- FRAME_ASSIGN (R397, R401, R448): refused for a frame that is USED, in the table region, marked or retired. -/
def execFrameAssign (home frame count space win : Nat) (s : State) : Out :=
  let fs := frameRange frame count
  let no := 8 < home || 256 < space || 255 < win || fs.any fun f => frameKept home f || frUsed (s.frame home f) ||
    s.pkg.marked.contains (home, f) || s.pkg.retiredFrames.contains (home, f)
  let e : BitVec 32 := BitVec.ofNat 32 (2 ^ 31 + space * 2 ^ 16 + (if space = 256 then win * 256 else 0))
  .next (if no then s.answer true else (fs.foldl (fun (s : State) f => s.setFrame home f e) s).answer false)

/-- FRAME_RECLAIM (R402): refused while a frame is MAPPED. -/
def execFrameReclaim (home frame count : Nat) (s : State) : Out :=
  let fs := (frameRange frame count).filter fun f => frUsed (s.frame home f)
  .next (if fs.any fun f => frMapped (s.frame home f) then s.answer true
  else (fs.foldl (fun (s : State) f => s.reclaimFrame home f) s).answer false)

/-! Home maps and windows. -/

/-- The bits of a home map entry that hold a field (Table 19-2). -/
def homeBits : Word := 0xFFFFFFC000000000

/-- Whether a granule of a context still has a mapped page where its entry puts it. -/
def State.granuleMapped (s : State) (ctx granule : Nat) : Bool :=
  match s.homeOf ctx (granule * 2 ^ 30) with
  | .loc h sp => s.anyMapped h sp (granule * 2 ^ 30) 30
  | _ => false

/-- Write a home map entry; a home without a table for the space gets its root (R393). -/
def State.setHome (s : State) (ctx granule : Nat) (v : Word) : State :=
  let s := s.modXl fun x => { x with homeMap := assocSet x.homeMap (ctx * 262144 + granule) v }
  match homeOfEntry ctx v with
  | .loc h sp => (s.needRoot h sp).getD s
  | _ => s

/-- HOME_SET (R391, R401): `GLB` = 0; refused for a change of an entry whose granule still has a mapped page. -/
def execHomeSet (ctx granule : Nat) (v : BitVec 64) (s : State) : Out :=
  let v := v &&& homeBits
  .next (if (s.granuleMapped ctx granule && v != s.homeEntry ctx granule) || v.getLsbD 56 || decide (262144 ≤ granule) || (s.ctx ctx).st == .free then s.answer true
  else (s.setHome ctx granule v).answer false)

/-- WINDOW_CREATE (R399): each granule has its own home; refused when its granules overlap another window. -/
def execWindowCreate (win : Nat) (granules : List Nat) (entries : List (BitVec 64)) (s : State) : Out :=
  let l : List (Nat × Word) := (granules.zip entries).map fun p => (p.1, (p.2 &&& homeBits) ||| (1#64 <<< 56))
  let no := 255 < win || s.xl.windows.any fun w => w.win == win || w.granules.any granules.contains
  .next (if no then s.answer true
  else
    let new : Window := { win := win, entries := l, members := [] }
    let s := s.modXl fun x => { x with windows := x.windows ++ [new] }
    let root (s : State) (p : Nat × Word) : State := match homeOfEntry 256 p.2 with
      | .loc h _ => (s.needRoot h 256).getD s
      | _ => s
    (l.foldl root s).answer false)

/-- WINDOW_JOIN (R399): refused when a granule is homed elsewhere in the member's map. Whether a granule that the member holds privately at the same
home is homed elsewhere, the spec leaves open; the model refuses it (log 40). -/
def execWindowJoin (win ctx : Nat) (s : State) : Out :=
  .next (match s.xl.windows.find? fun w => w.win == win with
  | none => s.answer true
  | some w =>
    let no := (s.ctx ctx).st != .active || w.granules.any fun g => (s.homeEntry ctx g).getLsbD 63 && s.homeEntry ctx g != w.entry g
    if no then s.answer true
    else
      let s := w.granules.foldl (fun (s : State) g => s.setHome ctx g (w.entry g)) s
      let add (x : Window) : Window := if x.win == win && !x.members.contains ctx then { x with members := x.members ++ [ctx] } else x
      (s.modXl fun x => { x with windows := x.windows.map add }).answer false)

/-- WINDOW_LEAVE (R399). -/
def execWindowLeave (win ctx : Nat) (s : State) : Out :=
  .next (match s.xl.windows.find? fun w => w.win == win && w.members.contains ctx with
  | none => s.answer true
  | some w =>
    let s := w.granules.foldl (fun (s : State) g => s.setHome ctx g 0) s
    let del (x : Window) : Window := if x.win == win then { x with members := x.members.filter (· != ctx) } else x
    (s.modXl fun x => { x with windows := x.windows.map del }).answer false)

/-- EXPORT_SET (R392): refused above 64 pairs. -/
def execExportSet (ctx : Nat) (pairs : List (Nat × Nat)) (s : State) : Out :=
  .next (if 64 < pairs.length then s.answer true else (s.modCtx ctx fun c => { c with exports := pairs }).answer false)

/-! Measurement and attestation. -/

/-- MEASURE_EXTEND (R404): MR2 to MR7 or a context's `CTXM`; MR0 and MR1 are refused. -/
def execMeasureExtend (reg : MeasReg) (digest : BitVec 512) (s : State) : Out :=
  .next (match reg with
  | .mr n =>
    if 2 ≤ n ∧ n ≤ 7 then (s.modPkg fun p => { p with mr := p.mr.modify n fun m => measExtend m digest }).answer false
    else s.answer true
  | .ctxm c => (s.modCtx c fun x => { x with ctxm := measExtend x.ctxm digest }).answer false)

/-- Bytes 0 to 687 of a report (Table 19-10). -/
def State.reportBody (s : State) (nonce : BitVec 512) (ctx : Option Nat) : List (BitVec 8) :=
  let flags := (if s.pkg.debugOn then 1 else 0) + (if s.pkg.up == .degraded then 2 else 0)
  leBytes 2 0x0B01 ++ leBytes 1 1 ++ leBytes 1 0 ++ leBytes 4 1200 ++ measBytes nonce ++ leBytes 16 Config.serial.toNat ++
    leBytes 4 0x00090A01 ++ leBytes 4 flags ++ leBytes 4 (Config.svnt s.pkg.firmware).toNat ++
    leBytes 4 (Config.svnr s.pkg.firmware).toNat ++ (s.pkg.mr.flatMap measBytes) ++
    leBytes 4 (ctx.getD 0xFFFFFFFF) ++ leBytes 4 0 ++ measBytes ((ctx.map fun c => (s.ctx c).ctxm).getD 0)

/-- ATTEST (R405). -/
def execAttest (nonce : BitVec 512) (ctx : Option Nat) (s : State) : Out :=
  let body := s.reportBody nonce ctx
  let r : Report := { body := body, signature := Config.signReport s.fresh body, chain := Config.certChain }
  .next ({ s with pkg := { s.pkg with report := some r, refused := false }, fresh := s.fresh + 1 })

/-- DEBUG_UNLOCK (R406): a verified token arms the unlock for the next bring-up. -/
def execDebugUnlock (token : BitVec 512) (s : State) : Out :=
  let ok := Config.tokenVerified s.fresh token
  .next ({ s with
    pkg := { s.pkg with debugArmed := if ok then some token else s.pkg.debugArmed, refused := !ok }, fresh := s.fresh + 1 })

end Sys2Proof.Machine
end

