-- ==== Sys2Proof/Machine/Health.lean ====
section
/-! DEFINITION. Errors, poison and health: checks and their counts, fencing, marking, links, requests of other packages, and the
umpire's late hazards (R183, R291, R392, R444 to R451). -/

namespace Sys2Proof.Machine

/-! Errors (R445, R447). -/

/-- Ticks in which errors of a part add up (Table 22-3). -/
def errWindow : Nat := 2 ^ 40

/-- The core whose array a place belongs to. -/
def State.errCore (s : State) (p : ErrPlace) : Option (Nat × Nat) :=
  let ofWarp (w : Nat) : Nat × Nat := ((s.place w).die, (s.place w).core)
  match p with
  | .vreg w _ _ => some (ofWarp w)
  | .sreg w _ => some (ofWarp w)
  | .kreg w _ => some (ofWarp w)
  | .special w _ => some (ofWarp w)
  | .latch w _ _ => some (ofWarp w)
  | .spad t _ => some ((s.teamPlace t).die, (s.teamPlace t).core)
  | .l1 d c _ _ _ => some (d, c)
  | _ => none

/-- The I/O die on which a cell of LPDDR lies: each has 1 TiB of it (R195). -/
def ioOf (addr : Nat) : Nat := if addr < 2 ^ 40 then 9 else 10

/-- The socket that counts a place's errors, with its source for corrected ones (Table 22-1). -/
def errDie (p : ErrPlace) : Option (Nat × Nat) :=
  match p with
  | .landing d _ => some (d, 37)
  | .dieCache d _ _ _ => some (d, 37)
  | .hubCache _ _ _ => some (8, 37)
  | .dieArray d _ => some (d, 37)
  | .tagOrDirectory d => some (d, 37)
  | .dram h a => some (if h < 8 then h else ioOf a, 39)
  | _ => none

/-- Mark a frame for retirement (R448): refused to FRAME_ASSIGN from then on; retired at once when nothing uses it. -/
def State.markFrame (s : State) (home f : Nat) : State :=
  if s.pkg.marked.contains (home, f) || s.pkg.retiredFrames.contains (home, f) then s
  else
    let s := (s.modPkg fun p => { p with marked := p.marked ++ [(home, f)] }).health 2 home (f * 65536)
    if frUsed (s.frame home f) || frMapped (s.frame home f) then s else s.reclaimFrame home f

/-- CORRECTED_ERROR (R445, R448): counted; the sixteenth of a frame in the window marks it. -/
def execCorrectedError (place : ErrPlace) (s : State) : Out :=
  let s := match s.errCore place with
    | some q => s.countCore q.1 q.2 10 ((s.core q.1 q.2).primary.getD 256) 1
    | none => s
  let s := match errDie place with
    | some q => s.countDie q.1 q.2 256 1
    | none => s
  .next (match place with
  | .dram h a =>
    let f := a / 65536
    let s := s.modPkg fun p => { p with frameErrs := p.frameErrs ++ [(h, f, s.stake)] }
    let n : Nat := (s.pkg.frameErrs.filter fun e => e.1 == h && e.2.1 == f && decide (s.stake < e.2.2 + errWindow)).length
    if 16 ≤ n then s.markFrame h f else s
  | _ => s)

/-- Mark a word of a line's words as poisoned. -/
def poisonIn (l : List CWord) (ws : List Nat) : List CWord := l.map fun c => if ws.contains c.i then { c with p := true } else c

/-- Fence a core (R448): out of placement. -/
def State.fenceCore (s : State) (die core : Nat) : State :=
  if (s.core die core).fenced then s
  else (s.modCore die core fun c => { c with fenced := true }).health 1 die core

/-- Whether a core has had 3 uncorrectable errors in the window. -/
def Core.worn (c : Core) (now : Nat) : Bool := decide (3 ≤ (c.errs.filter fun t => decide (now < t + errWindow)).length)

/-- A die is fenced whole (R448): its cores take no placement and the grids of its contexts end. -/
def State.fenceDie (s : State) (die : Nat) : State :=
  if (s.die die).fenced then s
  else
    let s := (s.modDie die fun d => { d with fenced := true, stopped := true }).health 5 die 0
    let gs := (List.range s.grids.length).filter fun g => !(s.grid g).done && (s.regionsOf g).any fun r => (s.region r).die == die
    let ctxs := (gs.map fun g => (s.grid g).ctx).dedup
    ctxs.foldl (fun (s : State) c => (s.openGrids c).foldl (fun (s : State) g => s.stopGrid g) s) s

/-- The hub is lost (R448): its event is posted, and the package is in FAILED, with a cause that the spec does not number (R18); before power
there is no hub to lose. -/
def State.failHub (s : State) : State :=
  if s.pkg.up == .off || s.pkg.up == .failed then s
  else
    let s := s.health 5 8 0
    { s with pkg := { s.pkg with up := .failed, cause := (Config.freeWord s.fresh).extractLsb' 0 8 }, fresh := s.fresh + 1 }

/-- An I/O die is fenced (R448): no grid is placed on it, so that none ends. -/
def State.fenceIo (s : State) (die : Nat) : State :=
  if s.pkg.fencedIo.contains die then s else (s.modPkg fun p => { p with fencedIo := p.fencedIo ++ [die] }).health 5 die 0

/-- A die stops (R448): it is fenced whole. -/
def State.loseDie (s : State) (die : Nat) : State :=
  if die < 8 then s.fenceDie die else if die = 8 then s.failHub else if die ≤ 10 then s.fenceIo die else s

/-- UNCORRECTABLE_ERROR (R445, R447, R448): the words are poisoned; a tag or directory error stops the die. -/
def execUncorrectableError (place : ErrPlace) (s : State) : Out :=
  let s := match s.errCore place with
    | some q => s.modCore q.1 q.2 fun c => { c with errs := c.errs ++ [s.stake] }
    | none => s
  let s := match errDie place with
    | some q => s.countDie q.1 41 256 1
    | none => match s.errCore place with
      | some q => s.countDie q.1 41 256 1
      | none => s
  let reg (w : Nat) (p : PReg) : State := s.modWarp w fun x => { x with poison := if x.poison.contains p then x.poison else p :: x.poison }
  let pair (i : Nat) : List Nat := [i / 2 * 2, i / 2 * 2 + 1]
  .next (match place with
  | .vreg w r l => reg w (.v r l)
  | .sreg w r => reg w (.s r)
  | .kreg w r => reg w (.k r)
  | .special w r => reg w (.x r)
  | .latch w acc1 r => reg w (.l acc1 r)
  | .spad t o => s.modTeam t fun x => { x with spPoison := (o / 4 * 4) :: x.spPoison }
  | .l1 d c sp ln i => s.modL1 d c sp ln fun y => { y with words := poisonIn y.words [i] }
  | .landing d o => s.modDie d fun x => { x with landPoison := (o / 4 * 4) :: x.landPoison }
  | .dieCache d sp ln i =>
    let f (y : DieLine) : DieLine := if y.die == d && y.space == sp && y.line == ln then { y with words := poisonIn y.words (pair i) } else y
    s.modCache fun c => { c with dc := c.dc.map f }
  | .hubCache sp ln i =>
    let f (y : HubLine) : HubLine := if y.space == sp && y.line == ln then { y with words := poisonIn y.words (pair i) } else y
    s.modCache fun c => { c with hub := c.hub.map f }
  | .dieArray d o =>
    let l := [o / 8 * 8, o / 8 * 8 + 4]
    if d < 8 then s.modDie d fun x => { x with arrPoison := l ++ x.arrPoison.filter fun a => !l.contains a }
    else
      let m := l.map fun a => (d, a)
      s.modPkg fun p => { p with arrPoison := m ++ p.arrPoison.filter fun a => !m.contains a }
  | .tagOrDirectory d => s.loseDie d
  | .dram h a =>
    let base := h * 2 ^ 48 + a / 32 * 32
    let ws := (List.range 8).map fun i => base + 4 * i
    ({ s with memPoison := ws ++ s.memPoison.filter fun x => !ws.contains x }).markFrame h (a / 65536))

/-- LINK_CRC_ERROR (R445, R448): a flit or packet is resent; an interposer hop whose retries are exhausted stops its die, a Zorlis
lane that fails drops its link to half width. -/
def execLinkCrcError (link : LinkPlace) (exhausted : Bool) (s : State) : Out :=
  .next (match link with
  | .interposer d =>
    let s := s.countDie d 38 256 1
    if exhausted then s.loseDie d else s
  | .zorlis p =>
    let s := (s.countDie (9 + p / 9) 38 256 1).modPkg fun k => { k with linkErrs := assocSet k.linkErrs p (assoc k.linkErrs p 0 + 1) }
    if exhausted && !s.pkg.halfLinks.contains p then (s.modPkg fun k => { k with halfLinks := k.halfLinks ++ [p] }).health 4 (9 + p / 9) p else s)

/-- CORE_FENCED (R448): a core with 3 uncorrectable errors in the window; its untimed teams are pre-empted, and a die with 24
fenced cores is fenced whole. -/
def execCoreFenced (die core : Nat) (s : State) : Out :=
  .next (if !((s.core die core).worn s.stake) || (s.core die core).fenced then s
  else
    let s := s.fenceCore die core
    let gangs := ((s.coreTeams die core).map fun t => (s.team t).gang).dedup
    let s := s.stopGangs ((gangs.filter fun g => !(s.grid (s.gangGrid g)).launch.timed).flatMap s.together) none true
    if 24 ≤ (s.cores.filter fun c => c.die == die && c.fenced).length then s.fenceDie die else s)

/-- FRAME_MARKED (R448): a frame whose errors meet the condition. -/
def execFrameMarked (home frame : Nat) (s : State) : Out :=
  let n : Nat := (s.pkg.frameErrs.filter fun e => e.1 == home && e.2.1 == frame && decide (s.stake < e.2.2 + errWindow)).length
  .next (if 16 ≤ n then s.markFrame home frame else s)

/-- LINK_HALF_WIDTH (R448): a lane of a Zorlis port fails training or retries too often. -/
def execLinkHalfWidth (port : Nat) (s : State) : Out :=
  .next (if 18 ≤ port || s.pkg.halfLinks.contains port then s
  else (s.modPkg fun k => { k with halfLinks := k.halfLinks ++ [port] }).health 4 (9 + port / 9) port)

/-- DIE_FENCED (R448): with 24 fenced cores. -/
def execDieFenced (die : Nat) (s : State) : Out :=
  .next (if die < 8 && decide (24 ≤ (s.cores.filter fun c => c.die == die && c.fenced).length) then s.fenceDie die else s)

/-- PCIE_LINK_DOWN (R445): reported to the driver. -/
def execPcieLinkDown (s : State) : Out := .next (s.modPkg fun p => { p with pcieUp := false })

/-! Other packages (R291, R392). -/

/-- REMOTE_REQUEST_TIMEOUT (R291): after 1,000,000 stakeboat ticks a load raises the poison fault in its block, and a store is
dropped with a record, which names the store's own block (R422). -/
def execRemoteRequestTimeout (n : Nat) (s : State) : Out :=
  .next (match s.remote[n]? with
  | none => s
  | some r =>
    if s.stake < r.at_ + 1000000 then s
    else
      let s := { s with remote := s.remote.eraseIdx n }
      let lanes (b : Blk) : Word := ((b.loads.find? fun l => l.idx == r.idx).map fun l => match l.kind with
        | .lds _ => (0 : Word)
        | _ => l.lanes.foldl (fun m p => if s.isFar r.ctx p.2 then m ||| (1#64 <<< p.1) else m) 0).getD 0
      let f : FRec := { code := 15, index := r.idx, addr := BitVec.ofNat 64 r.va }
      if r.isLoad then match s.blk? r.w with
        | some b => s.fault r.w { f with lanes := lanes b }
        | none => s
      else s.postRec r.ctx { s.fillRec r.w { f with src := 1 } with wid := none, block := r.block })

/-- REMOTE_REQUEST_RECEIVED (R392, R216): the pair must be on the context's export list and the granule homed here; it is then
translated and performed at this home, not in a refresh (R174), or answered with the protection fault, which changes nothing here; an untranslated page
makes a pending fault, when an entry is free, and one page fault request, whose record names no warp of this package (R396, log 7). -/
def execRemoteRequestReceived (pkg rctx ctx va : Nat) (req : RemoteOp) (s : State) : Out :=
  let acc : Acc := match req with
    | .load => .rd
    | .store _ => .wr
    | .atomic _ _ _ ret => atomAcc !ret
  let listed := (s.ctx ctx).exports.contains (pkg, rctx)
  .next (if !listed || va % 4 != 0 then s
  else match s.transNow ctx true acc va with
    | .ok _ sp _ =>
      if s.lineBusy sp (va / 128) || s.homeBusy ctx va 4 then s
      else match req with
        | .load => s
        | .store v => s.pokeBytes sp (placeBytes va (leBytes 4 v.toNat))
        | .atomic op c b _ =>
          let old := (s.peekWord sp (va / 128) (va / 4 % 32)).v
          s.pokeWord sp (va / 128) (va / 4 % 32) (atomVal op old c b) false
    | .page h spc =>
      let base := va / 65536 * 65536
      let f : FRec := { code := 3, src := 1, addr := BitVec.ofNat 64 va }
      if (s.xl.pfaults.any fun p => p.home == h && p.space == spc && p.va == base) || s.pfaultsFull h then s
      else (s.postRec ctx f).modXl fun x => { x with pfaults := x.pfaults ++ [{ home := h, space := spc, va := base, warps := [], recs := [f], posted := true }] }
    | _ => s)

/-! The umpire (R183, R444). -/

/-- Post a record of hazard 4 for a team's copy once. -/
def State.refreshHazard (s : State) (t seq : Nat) : State :=
  let p := s.teamPlace t
  match s.job? t seq with
  | none => s
  | some j =>
    if j.begun && j.timed.isSome && j.finished.isNone && s.refreshing p.die then
      s.copyRecord t seq 4 (s.reconTick p.die % (s.grid p.grid).launch.strokeS)
    else s

/-- The bytes that a fired store, `mst` or `trecv` of a block of warp `w` writes to scratchpads, each in its team's. -/
def State.spadWrites (s : State) (w idx : Nat) (b : Blk) : List (Nat × Nat × Nat) :=
  let mst := match decode (b.words.getD idx 0) with
    | .ok (.mst _ _ _ _) => if b.fired.contains idx then b.mst.map fun p => (p.1, 1) else []
    | _ => []
  ((b.sps.filter fun x => x.idx == idx).map fun x => (x.team, x.ofs, 4)) ++
    s.ofTeam w (((b.recv.filter fun r => r.idx == idx).map fun r => (r.ofs, r.len)) ++ mst)

/-- UMPIRE_HAZARD (R183, R444): hazards 1, 2 and 5 to 8, and 3 at the firing of a write, are raised where they are found; this is
hazard 3 of a write that fired before the `tsend`, and hazard 4 of copy command `idx` of warp `w`'s team. -/
def execUmpireHazard (w idx code aux : Nat) (s : State) : Out :=
  .next (if code = 4 then s.refreshHazard (s.warp w).team idx
  else if code != 3 || !s.umpireOn w then s
  else match s.blk? w with
    | none => s
    | some b => if s.tsendHazard (s.spadWrites w idx b) == some aux then s.hazard w idx code aux else s)

end Sys2Proof.Machine
end

