-- ==== Sys2Proof/Machine/Scalar.lean ====
section
/-! DEFINITION. Group 0: moving and building values, scalar integer and mask instructions, `vote` and `sysrd` (chapter 4). -/

namespace Sys2Proof.Machine

/-- `nop` (R102): no effect. -/
def execNop (h : Hdr) (s : State) : Out := execQuiet (.nop h) (fun _ _ s => s) s

/-- `mov` (R103): a to `T0` and `T1`. -/
def execMov (h : Hdr) (sh : Shape) (s : State) : Out := execValue (.mov h sh) 0 (fun _ x => (x.a, x.a)) s

/-- `fan` (R83, R103): a to four targets. -/
def execFan (h : Hdr) (sh : Shape) (t2 t3 : Target) (s : State) : Out :=
  let go (v : Token) (s : State) : State :=
    ((s.deliver2 s.cur s.curIdx h v v).deliver s.cur s.curIdx t2 v).deliver s.cur s.curIdx t3 v
  .next (s.issue (.fan h sh t2 t3) (fun _ => true) (go .null) fun _ x s => go x.a s)

/-- `const` (R104): `IMM` sign-extended. -/
def execConst (h : Hdr) (imm : BitVec 28) (s : State) : Out := execS (.const h imm) (fun _ => immS imm) s

/-- `consth` (R105): a with bits [55:28] or [63:56] replaced. -/
def consthVal (top : Bool) (imm : BitVec 28) (a : Word) : Word :=
  if top then imm.extractLsb' 0 8 ++ a.extractLsb' 0 56 else a.extractLsb' 56 8 ++ imm ++ a.extractLsb' 0 28

/-- `consth` (R105). -/
def execConsth (h : Hdr) (top : Bool) (imm : BitVec 28) (s : State) : Out :=
  execS (.consth h top imm) (fun x => consthVal top imm x.sa) s

/-- `null` (R106): a null token to both targets. -/
def execNull (h : Hdr) (s : State) : Out := execValue (.null h) 0 (fun _ _ => (.null, .null)) s

/-- `sadd` (Table 4-2). -/
def execSadd (h : Hdr) (im : Option (BitVec 28)) (s : State) : Out := execS (.sadd h im) (fun x => x.sa + x.sb im) s
/-- `ssub` (Table 4-2). -/
def execSsub (h : Hdr) (im : Option (BitVec 28)) (s : State) : Out := execS (.ssub h im) (fun x => x.sa - x.sb im) s
/-- `smul` (Table 4-2). -/
def execSmul (h : Hdr) (im : Option (BitVec 28)) (s : State) : Out := execS (.smul h im) (fun x => x.sa * x.sb im) s
/-- `smulh` (Table 4-2): bits [127:64] of the exact product. -/
def execSmulh (h : Hdr) (sg : Sgn) (im : Option (BitVec 28)) (s : State) : Out :=
  execS (.smulh h sg im) (fun x => BitVec.ofInt 64 ((sgnNum sg x.sa * sgnNum sg (x.sb im)) / 2 ^ 64)) s

/-- Quotient and remainder of the division rule (R108). -/
def divRule (sg : Sgn) (a b : Word) : Word × Word :=
  if b = 0 then (BitVec.allOnes 64, a)
  else if sg = .i64 ∧ a = 0x8000000000000000#64 ∧ b = BitVec.allOnes 64 then (a, 0)
  else (BitVec.ofInt 64 ((sgnNum sg a).tdiv (sgnNum sg b)), BitVec.ofInt 64 ((sgnNum sg a).tmod (sgnNum sg b)))

/-- `sdiv` (R108). -/
def execSdiv (h : Hdr) (sg : Sgn) (im : Option (BitVec 28)) (s : State) : Out :=
  execS (.sdiv h sg im) (fun x => (divRule sg x.sa (x.sb im)).1) s
/-- `srem` (R108). -/
def execSrem (h : Hdr) (sg : Sgn) (im : Option (BitVec 28)) (s : State) : Out :=
  execS (.srem h sg im) (fun x => (divRule sg x.sa (x.sb im)).2) s
/-- `sand` (Table 4-2). -/
def execSand (h : Hdr) (im : Option (BitVec 28)) (s : State) : Out := execS (.sand h im) (fun x => x.sa &&& x.sb im) s
/-- `sor` (Table 4-2). -/
def execSor (h : Hdr) (im : Option (BitVec 28)) (s : State) : Out := execS (.sor h im) (fun x => x.sa ||| x.sb im) s
/-- `sxor` (Table 4-2). -/
def execSxor (h : Hdr) (im : Option (BitVec 28)) (s : State) : Out := execS (.sxor h im) (fun x => x.sa ^^^ x.sb im) s
/-- Shift count b[5:0] (R107). -/
def shCount (b : Word) : Nat := fld b 0 6
/-- `sshl` (Table 4-2). -/
def execSshl (h : Hdr) (im : Option (BitVec 28)) (s : State) : Out :=
  execS (.sshl h im) (fun x => x.sa <<< shCount (x.sb im)) s
/-- `sshr` (Table 4-2). -/
def execSshr (h : Hdr) (im : Option (BitVec 28)) (s : State) : Out :=
  execS (.sshr h im) (fun x => x.sa >>> shCount (x.sb im)) s
/-- `ssra` (Table 4-2). -/
def execSsra (h : Hdr) (im : Option (BitVec 28)) (s : State) : Out :=
  execS (.ssra h im) (fun x => x.sa.sshiftRight (shCount (x.sb im))) s
/-- `smin` (Table 4-2). -/
def execSmin (h : Hdr) (sg : Sgn) (im : Option (BitVec 28)) (s : State) : Out :=
  execS (.smin h sg im) (fun x => if sgnNum sg x.sa ≤ sgnNum sg (x.sb im) then x.sa else x.sb im) s
/-- `smax` (Table 4-2). -/
def execSmax (h : Hdr) (sg : Sgn) (im : Option (BitVec 28)) (s : State) : Out :=
  execS (.smax h sg im) (fun x => if sgnNum sg x.sa ≤ sgnNum sg (x.sb im) then x.sb im else x.sa) s
/-- `lea` (R109). -/
def execLea (h : Hdr) (sc : Fin 5) (im : Option (BitVec 28)) (s : State) : Out :=
  execS (.lea h sc im) (fun x => x.sa + (x.sb im <<< sc.val)) s
/-- `scmp` (R110). -/
def execScmp (h : Hdr) (cond : SCond) (im : Option (BitVec 28)) (s : State) : Out :=
  execS (.scmp h cond im) (fun x => if scondHolds cond x.sa (x.sb im) then 1 else 0) s
/-- `ssel` (R111). -/
def execSsel (h : Hdr) (s : State) : Out :=
  execS (.ssel h) (fun x => if x.sa = 0 then x.sc else x.sb none) s
/-- Leading zero bits of a 64-bit value. -/
def clz64 (x : Word) : Nat := if x = 0 then 64 else 63 - Nat.log2 x.toNat
/-- `sclz` (R112). -/
def execSclz (h : Hdr) (s : State) : Out := execS (.sclz h) (fun x => BitVec.ofNat 64 (clz64 x.sa)) s
/-- `spopc` (R112). -/
def execSpopc (h : Hdr) (s : State) : Out := execS (.spopc h) (fun x => BitVec.ofNat 64 (popcount x.sa)) s
/-- `kand` (R113, Table 4-5). -/
def execKand (h : Hdr) (im : Option (BitVec 28)) (s : State) : Out := execK (.kand h im) (fun x => x.sa &&& x.sb im) s
/-- `kor` (R113, Table 4-5). -/
def execKor (h : Hdr) (im : Option (BitVec 28)) (s : State) : Out := execK (.kor h im) (fun x => x.sa ||| x.sb im) s
/-- `kxor` (R113, Table 4-5). -/
def execKxor (h : Hdr) (im : Option (BitVec 28)) (s : State) : Out := execK (.kxor h im) (fun x => x.sa ^^^ x.sb im) s
/-- `kandn` (R113, Table 4-5). -/
def execKandn (h : Hdr) (im : Option (BitVec 28)) (s : State) : Out := execK (.kandn h im) (fun x => x.sa &&& ~~~x.sb im) s
/-- `kcnt` (R113, Table 4-5). -/
def execKcnt (h : Hdr) (s : State) : Out := execS (.kcnt h) (fun x => BitVec.ofNat 64 (popcount x.sa)) s
/-- Index of the lowest set bit, or 64. -/
def firstSet (x : Word) : Nat := (lanesOf x).headD 64
/-- `kff` (R113, Table 4-5). -/
def execKff (h : Hdr) (s : State) : Out := execS (.kff h) (fun x => BitVec.ofNat 64 (firstSet x.sa)) s
/-- `kmov` (R114): the same 64 bits in the other shape. -/
def execKmov (h : Hdr) (toMask : Bool) (s : State) : Out :=
  execValue (.kmov h toMask) 0 (fun _ x => if toMask then (.k x.sa, .k x.sa) else (.s x.sa, .s x.sa)) s

/-- The value of `vote` over the live lanes (Table 4-6). -/
def voteVal (form : VoteForm) (live : Word) (a : Vec) : Token :=
  let ls := lanesOf live
  let bool (b : Bool) : Token := .s (if b then 1 else 0)
  match form with
  | .any => bool (ls.any fun l => a.lane l != 0)
  | .all => bool (ls.all fun l => a.lane l != 0)
  | .uni => bool (ls.all fun l => a.lane l == a.lane (ls.headD 0))
  | .ballot => .k (maskTab fun l => Word.bit live l && a.lane l != 0)

/-- `vote` (R115). -/
def execVote (h : Hdr) (form : VoteForm) (s : State) : Out :=
  execValue (.vote h form) 1 (fun b x => (voteVal form b.live0 x.va, voteVal form b.live0 x.va)) s

/-- `FEAT0` to `FEAT3` on the G9 (R410). -/
def feat (n : Nat) : Word :=
  match n with
  | 0 => 0x0000030301090103
  | 1 => 0x00000000000001FF
  | 2 => 0x00000000000F07FE
  | _ => 0x0014400600200820

/-- `strokecfg` (Table 4-7, R117): the record's value, or the defaults. -/
def strokeCfg (l : LaunchRec) : Word :=
  if l.stroke == 0 then BitVec.ofNat 64 (16 + 49152 * 2 ^ 8 + 256 * 2 ^ 32)
  else l.stroke &&& 0x0000FFFF1FFFFF1F

/-- The die of region `j` of a grid, when the region is placed. -/
def State.regionDie? (s : State) (g j : Nat) : Option Nat :=
  ((s.regionsOf g).find? fun r => (s.region r).idx == j).map fun r => (s.region r).die

/-- `linklat` (R117): the fixed latency between two regions' dies, or 0. -/
def linkLatVal (s : State) (g : Nat) (imm : BitVec 16) : Word :=
  match s.regionDie? g (imm.toNat / 256), s.regionDie? g (imm.toNat % 256) with
  | some a, some b => BitVec.ofNat 64 (Config.linkLat a b)
  | _, _ => 0

/-- The value of a `sysrd` selector (Table 4-7) for the issuing warp. -/
def sysrdVal (s : State) (sel : SysSel) (imm : BitVec 16) : Token :=
  let p := s.place s.cur
  let x := s.warp s.cur
  let l := s.launchOf s.cur
  let n (k : Nat) : Token := .s (BitVec.ofNat 64 k)
  match sel with
  | .laneid => .v (Vec.tab fun l => BitVec.ofNat 32 l)
  | .warpid => n x.idx
  | .teamid => n (s.team p.team).idx
  | .gangid => n (s.gang p.gang).idx
  | .regionid => n (s.region p.region).idx
  | .gridid => n ((s.grid p.grid).queue * 2 ^ 32 + (s.grid p.grid).seq % 2 ^ 32)
  | .shape => .s (l.shape &&& 0x00FFFFFFFFFFFFFF)
  | .live => .k x.live
  | .tickl => n (s.localTick p.die)
  | .tickr => n (s.reconTick p.die)
  | .feat0 => .s (feat 0)
  | .feat1 => .s (feat 1)
  | .feat2 => .s (feat 2)
  | .feat3 => .s (feat 3)
  | .refresh => n (4096 + 3776 * 2 ^ 16 + 320 * 2 ^ 32)
  | .strokecfg => .s (strokeCfg l)
  | .wst => .s x.wst
  | .wstclr => .s x.wst
  | .linklat => .s (linkLatVal s p.grid imm)
  | .ctxid => n p.ctx

/-- `sysrd` (R116): delivers the selected value; `wstclr` also clears `WST` at commit (R118). -/
def execSysrd (h : Hdr) (sel : SysSel) (imm : BitVec 16) (s : State) : Out :=
  .next (s.issue (.sysrd h sel imm) (fun _ => true) (fun s => s.deliverNull (.sysrd h sel imm)) fun _ _ s =>
    let v := sysrdVal s sel imm
    let s := if sel = .wstclr then s.modBlk s.cur fun b => { b with deferred := { b.deferred with wstclr := true } } else s
    (s.countW s.cur 4 (if sel = .laneid then 1 else 0)).deliver2 s.cur s.curIdx h v v)

/-- `fmtset` (R119): `fmt` is written at commit; a second one raises the operand conflict fault. -/
def execFmtset (h : Hdr) (form : FmtForm) (s : State) : Out :=
  execQuiet (.fmtset h form) (fun b x s =>
    if b.deferred.fmt.isSome then s.faultAt s.cur s.curIdx 2 0
    else s.modBlk s.cur fun b => { b with deferred := { b.deferred with fmt := some (s.curIdx, form, x.sa) } }) s

/-- `fmtrd` (R120): `fmt` at block start. -/
def execFmtrd (h : Hdr) (s : State) : Out :=
  execValue (.fmtrd h) 0 (fun b _ => (.s b.fmt0, .s b.fmt0)) s

end Sys2Proof.Machine
end

