-- ==== Sys2Proof/Machine/Code.lean ====
section
/-! DEFINITION. werad: loading, unloading and replacing code objects (R76, R90, R91, R175, R354, R411 to R418). -/

namespace Sys2Proof.Machine

/-- A number of `n` bytes at an offset of an object. -/
def objN (l : List (BitVec 8)) (o n : Nat) : Nat := leNat ((l.drop o).take n)

/-! Header and sections (R414). -/

/-- A section: its type and its bytes. -/
structure Section where
  ty : Nat
  bytes : List (BitVec 8)
deriving DecidableEq, Repr, Inhabited

/-- Read section entry `i`; an error where the entry is unsound, its section lies before the end of the entries or beyond that of the file, or an
unknown section is not optional; none where it is ignored. -/
def readSection (l : List (BitVec 8)) (i : Nat) : Except Unit (Option Section) :=
  let o := 64 + 24 * i
  let ty := objN l o 2
  let flags := objN l (o + 2) 1
  let ofs := objN l (o + 8) 8
  let len := objN l (o + 16) 8
  if 1 < flags ∨ objN l (o + 3) 5 ≠ 0 ∨ ofs % 64 ≠ 0 ∨ ofs < 64 + 24 * objN l 6 2 ∨ l.length < ofs + len then .error ()
  else if 1 ≤ ty ∧ ty ≤ 7 then .ok (some { ty := ty, bytes := (l.drop ofs).take len })
  else if flags % 2 = 1 then .ok none else .error ()

/-- The bytes of a section. -/
def secBytes (l : List Section) (ty : Nat) : List (BitVec 8) := ((l.find? fun s => s.ty == ty).map (·.bytes)).getD []

/-- A kernel entry (Table 20-8). -/
def readKernel (b : List (BitVec 8)) : Kernel :=
  let w := BitVec.ofNat 64 (objN b 4 4)
  { entry := fld w 0 24, timed := w.getLsbD 24, strokes := (List.range (fld w 25 3)).map fun i => BitVec.ofNat 64 (objN b (16 + 8 * i) 8),
    chFirst := objN b 8 4, chCount := objN b 12 4 }

/-- Whether a kernel entry is sound. -/
def kernelOk (b : List (BitVec 8)) (chmap : Nat) : Bool :=
  let w := BitVec.ofNat 64 (objN b 4 4)
  let k := readKernel b
  fld w 28 4 == 0 && decide (fld w 25 3 ≤ 4) && (!k.timed || decide (1 ≤ fld w 25 3)) && (k.timed || k.chFirst == 0) &&
    decide (k.chFirst + k.chCount ≤ chmap)

/-- An object as its sections give it. -/
structure ObjFile where
  hver : Nat
  req1 : Nat
  req2 : Nat
  code : List (BitVec 8)
  btab : List Word
  preloads : List (List Word)
  kernels : List Kernel
  chmap : List (Word × Word)
deriving DecidableEq, Repr, Inhabited

/-- Step 1 of R415: the header and the sections. A PRELOAD entry that is all zero is one that no line of the source defines (R97). The spec says
nothing of two sections of one type; that such an object is refused is the model's choice (log 53). -/
def ObjFile.read (l : List (BitVec 8)) : Option ObjFile :=
  let nsec := objN l 6 2
  let secs : Except Unit (List (Option Section)) := (List.range nsec).mapM (readSection l)
  match secs with
  | .error _ => none
  | .ok r =>
    let secs := r.filterMap id
    let code := secBytes secs 1
    let bt := secBytes secs 2
    let pre := secBytes secs 3
    let ker := secBytes secs 4
    let ch := secBytes secs 5
    let chmap := (List.range (ch.length / 16)).map fun i => (BitVec.ofNat 64 (objN ch (16 * i) 8), BitVec.ofNat 64 (objN ch (16 * i + 8) 8))
    let preloads := (List.range (pre.length / 64)).map fun i => words64 8 ((pre.drop (64 * i)).take 64)
    let kers := (List.range (ker.length / 48)).map fun i => (ker.drop (48 * i)).take 48
    let has (t : Nat) : Bool := secs.any fun s => s.ty == t
    let copies (c : List Word) : Bool := c.all (· == 0) || cmdCode c == 0x101 || cmdCode c == 0x102 || cmdCode c == 0x106
    let ok := decide (64 + 24 * nsec ≤ l.length) && objN l 0 4 == 0x4E4D4331 && objN l 4 1 == 1 && decide (2 ≤ nsec ∧ nsec ≤ 16) && objN l 24 40 == 0 &&
      has 1 && has 2 && has 4 && (secs.map (·.ty)).dedup.length == secs.length && bt.length % 8 == 0 && decide (bt.length ≤ 2 ^ 27) &&
      pre.length % 64 == 0 && ker.length % 48 == 0 && ch.length % 16 == 0 && kers.all (fun k => kernelOk k chmap.length) &&
      preloads.all copies
    if ok then
      some { hver := objN l 5 1, req1 := objN l 8 8, req2 := objN l 16 8, code := code, btab := words64 (bt.length / 8) bt,
             preloads := preloads, kernels := kers.map readKernel, chmap := chmap }
    else none

/-- Step 2 of R415: versions and required features (Tables 20-1 to 20-3). -/
def ObjFile.featuresOk (o : ObjFile) : Bool :=
  decide (1 ≤ o.hver ∧ o.hver ≤ 3) && (BitVec.ofNat 64 o.req1 &&& ~~~0x1FF) == 0 && (BitVec.ofNat 64 o.req2 &&& ~~~0xF07FE) == 0

/-! Blocks (R90, R412). -/

/-- The version that defines an instruction (Table 20-5). -/
def Instr.version (i : Instr) : Nat :=
  let acq (m : MFields) : Nat := if m.ord == .racq then 2 else 1
  match i with
  | .mmar _ _ _ => 3
  | .stroke _ _ => 3
  | .tkrd _ _ => 3
  | .tsend _ _ => 3
  | .trecv _ _ => 3
  | .vencb _ f _ => if f == .bt4 then 3 else 2
  | .vdecb _ f => if f == .bt4 then 3 else 2
  | .spldq _ _ _ => 2
  | .spstq _ _ _ => 2
  | .vmatch _ => 2
  | .mmax _ _ => 2
  | .mexp _ _ => 2
  | .mrescale _ _ => 2
  | .push _ _ q => match q with
    | .launch _ => 2
    | _ => 1
  | .ld _ m _ => acq m
  | .lds _ m _ => acq m
  | _ => 1

/-- The block numbers that an instruction names (R416). -/
def Instr.named : Instr → Option (BitVec 24)
  | .bro _ b => some b
  | .brv _ b => some b
  | .call _ b => some b
  | _ => none

/-- The image with header version 3 (R91). -/
def Img.translated (m : Img) : Img := match m with
  | [] => []
  | h :: r => setFld h 56 4 3 :: r

/-- Whether a table names a block. -/
def present (btab : List Word) (b : Nat) : Bool := (btab.getD b 0).getLsbD 63

/-- The image of a block of an object, as far as its code section goes. -/
def ObjFile.image (o : ObjFile) (b : Nat) : Img :=
  let bytes := o.code.drop (fld (o.btab.getD b 0) 0 40)
  let head : Img := words64 2 bytes
  words64 (min head.size (bytes.length / 8)) bytes

/-- The value that an instruction of group 0 has from its operands alone, whatever the state (R103 to R114). -/
def Instr.constVal (i : Instr) (x : Args) : Option Word :=
  match i with
  | .mov _ _ => some x.sa
  | .fan _ _ _ _ => some x.sa
  | .const _ imm => some (immS imm)
  | .consth _ top imm => some (consthVal top imm x.sa)
  | .sadd _ im => some (x.sa + x.sb im)
  | .ssub _ im => some (x.sa - x.sb im)
  | .smul _ im => some (x.sa * x.sb im)
  | .smulh _ sg im => some (BitVec.ofInt 64 ((sgnNum sg x.sa * sgnNum sg (x.sb im)) / 2 ^ 64))
  | .sdiv _ sg im => some (divRule sg x.sa (x.sb im)).1
  | .srem _ sg im => some (divRule sg x.sa (x.sb im)).2
  | .sand _ im => some (x.sa &&& x.sb im)
  | .sor _ im => some (x.sa ||| x.sb im)
  | .sxor _ im => some (x.sa ^^^ x.sb im)
  | .sshl _ im => some (x.sa <<< shCount (x.sb im))
  | .sshr _ im => some (x.sa >>> shCount (x.sb im))
  | .ssra _ im => some (x.sa.sshiftRight (shCount (x.sb im)))
  | .smin _ sg im => some (if sgnNum sg x.sa ≤ sgnNum sg (x.sb im) then x.sa else x.sb im)
  | .smax _ sg im => some (if sgnNum sg x.sa ≤ sgnNum sg (x.sb im) then x.sb im else x.sa)
  | .lea _ sc im => some (x.sa + (x.sb im <<< sc.val))
  | .scmp _ c im => some (if scondHolds c x.sa (x.sb im) then 1 else 0)
  | .ssel _ => some (if x.sa = 0 then x.sc else x.sb none)
  | .sclz _ => some (BitVec.ofNat 64 (clz64 x.sa))
  | .spopc _ => some (BitVec.ofNat 64 (popcount x.sa))
  | .kand _ im => some (x.sa &&& x.sb im)
  | .kor _ im => some (x.sa ||| x.sb im)
  | .kxor _ im => some (x.sa ^^^ x.sb im)
  | .kandn _ im => some (x.sa &&& ~~~x.sb im)
  | .kcnt _ => some (BitVec.ofNat 64 (popcount x.sa))
  | .kff _ => some (BitVec.ofNat 64 (firstSet x.sa))
  | .kmov _ _ => some x.sa
  | _ => none

/-- What may be delivered to an operand slot of instruction `k` and is known at load, where `t` holds what each instruction may deliver: the
values of its producers, those of predicated ones among them, and 0 from a read slot of `s0`. -/
def Img.slotKnown (m : Img) (t : List (List Word)) (k : Nat) (sl : Slot) : List Word :=
  let tgt : Target := .opnd (BitVec.ofNat 6 k) sl
  let zero := m.reads.any fun r => r.cls == 1 && r.reg == 0 && [r.t0, r.t1].any fun q => match decTarget q with
    | .ok x => x == tgt
    | .error _ => false
  (if zero then [0] else []) ++ (m.links.filter fun l => l.tgt == tgt).flatMap fun l => match l.src with
    | some j => t.getD j []
    | none => []

/-- The values that each instruction of a block may deliver and that are known at load, after `n` rounds. -/
def Img.known (m : Img) : Nat → List (List Word)
  | 0 => []
  | n + 1 =>
    let t := m.known n
    (List.range m.nins).map fun k => match m.instr? k with
      | none => []
      | some i =>
        let vals (sl : Slot) : List Word := if (slotShape i sl).isSome then m.slotKnown t k sl else [0]
        ((vals .a).flatMap fun a => (vals .b).flatMap fun b => (vals .c).filterMap fun c =>
          Instr.constVal i { a := .s a, b := .s b, c := .s c }).dedup

/-- The version that defines a value of `fmt` (Tables 2-3 and 20-5): stochastic rounding and the MX formats 5 to 7 are of version 2, BT4
of version 3. -/
def fmtVersion (form : FmtForm) (x : Word) : Nat :=
  if form = .seed then 1
  else if fmtFA x == 8 || fmtFB x == 8 || fld x 6 2 != 0 then 3
  else if fld x 2 2 == 2 || (decide (5 ≤ fmtFA x ∧ fmtFA x ≤ 7)) || (decide (5 ≤ fmtFB x ∧ fmtFB x ≤ 7)) then 2
  else 1

/-- The version that a block needs (R412): of its class, of its instructions, of its timed copies, and of the values that its `fmtset`s are
known at load to write, whichever way they reach them. What a `fmtset` takes from a register no loader can know (log 53). -/
def Img.version (m : Img) : Nat :=
  let t := m.known m.nins
  let one (k : Nat) : Nat := match m.instr? k with
    | some (.push _ _ (.copy t)) => if t = 0 then 1 else 3
    | some (.fmtset _ form) => (m.slotKnown t k .a).foldl (fun n x => max n (fmtVersion form x)) 1
    | some i => Instr.version i
    | none => 1
  (List.range m.nins).foldl (fun n k => max n (one k)) (if m.cls = 2 then 3 else 1)

/-- The first failing row of Table 3-15 for a block at load. The header version is that of the object (Table 20-6). An image that runs past
the end of the code section has no row there: row 1 is the model's choice (log 53). -/
def ObjFile.blockRow (o : ObjFile) (b : Nat) : Option Nat :=
  let e := o.btab.getD b 0
  if !e.getLsbD 63 then (if e = 0 then none else some 2)
  else
    let raw := o.image b
    let m := raw.translated
    let ver := fld raw.h0 56 4
    if fld m.h0 60 4 ≠ 0xB ∨ ver < 1 ∨ 3 < ver ∨ ver ≠ o.hver ∨ List.length raw < 2 then some 1
    else if 16 < m.nrd ∨ 16 < m.nwr then
      some (if fld m.h0 0 24 != 0 || fld m.h1 0 34 != 0 || (entryRows e).contains 2 then 2 else 3)
    else if List.length raw < m.size then some 1
    else
      let is := (List.range m.nins).filterMap m.instr?
      let absent := is.any fun i => match i with
        | .call _ t => b == 0xFFFFFF || !present o.btab t.toNat
        | i => (Instr.named i).any fun t => !present o.btab t.toNat
      firstRow (m.slotRows o.preloads.length ++ m.insRows ++
        (if m.stalls || m.unwritten then [22] else []) ++ entryRows e ++ (if ver < m.version then [25] else []) ++ (if absent then [26] else []) ++
        (if m.cls == 1 && decide (16384 < m.length fun _ => false) then [27] else []) ++
        (if (m.windowFlaw m.wideIns).isSome then [28] else []))

/-- Step 3 of R415: every invalid block with its row. -/
def ObjFile.badBlocks (o : ObjFile) : List (Nat × Nat) :=
  (List.range o.btab.length).filterMap fun b => (o.blockRow b).map fun r => (b, r)

/-! Timed kernels (R175, R416). -/

/-- Blocks reached from a set through named blocks, in at most `n` rounds. -/
def ObjFile.reachable (o : ObjFile) (n : Nat) (l : List Nat) : List Nat :=
  match n with
  | 0 => l
  | n + 1 =>
    let next := l.flatMap fun b => ((List.range (o.image b).nins).filterMap (o.image b).instr?).filterMap fun i => (Instr.named i).map (·.toNat)
    let all := (l ++ next).dedup
    if all.length = l.length then l else o.reachable n all

/-- Whether a channel slot's tick lies in the drive phase of a stroke configuration (R175). -/
def slotIn (cfg : Word) (tick : Nat) : Bool :=
  let l : LaunchRec := { (default : LaunchRec) with stroke := cfg }
  decide (l.strokeD ≤ tick ∧ tick + 128 ≤ l.strokeS)

/-- Whether a kernel's channel map keeps R175. -/
def chmapOk (k : Kernel) (l : List (Word × Word)) : Bool :=
  let slot (e : Word × Word) : Nat := fld e.1 0 14
  let regions (e : Word × Word) : List Nat := lanesOf e.2
  l.all (fun e => fld e.1 34 30 == 0 && k.strokes.all fun c => slotIn c (64 * slot e)) &&
    (l.map fun e => (slot e, fld e.1 14 6)).dedup.length == l.length &&
    (let d := l.flatMap fun e => (regions e).map fun r => (slot e, r)
     d.dedup.length == d.length)

/-- The blocks that werad can reach from a kernel's entry (R416). -/
def ObjFile.kernelBlocks (o : ObjFile) (k : Kernel) : List Nat := o.reachable o.btab.length [k.entry]

/-- A kernel's entries of the channel map. -/
def ObjFile.mapOf (o : ObjFile) (k : Kernel) : List (Word × Word) := (o.chmap.drop k.chFirst).take k.chCount

/-- Whether the `tsend`s of a block keep R175 for a kernel. -/
def ObjFile.sendsOk (o : ObjFile) (k : Kernel) (b : Nat) : Bool :=
  let m := o.image b
  (List.range m.nins).all fun j => match m.instr? j with
    | some (.tsend _ t) =>
      t.toNat % 64 == 0 && (k.strokes.all fun c => slotIn c t.toNat) && (o.mapOf k).any fun e => fld e.1 0 14 == t.toNat / 64
    | _ => true

/-- Whether a block holds an instruction of some opcode. -/
def Img.has (m : Img) (o : Nat) : Bool := m.ins.any fun w => wOpc w == o

/-- The block to which the one branch of an image goes, where that is fixed: a `bro` without a predicate. -/
def Img.fixedNext (m : Img) : Option Nat :=
  match (List.range m.nins).filter fun k => opBranch (wOpc (m.ins.getD k 0)) with
  | [k] => match m.instr? k with
    | some (.bro h b) => if h.pm = .always then some b.toNat else none
    | _ => none
  | _ => none

/-- The length of the stroke segment that begins with block `b` at tick `t`, where its path is fixed (R169): up to the commit of the next block
with a `stroke`, over at most `n` blocks. -/
def ObjFile.segment (o : ObjFile) (n b t : Nat) : Option Nat :=
  match n with
  | 0 => none
  | n + 1 =>
    let m := o.image b
    let c := t + m.commitTick
    if m.has 0x1C0 then some c else m.fixedNext.bind fun d => o.segment n d (c + if m.has 0x140 then 24 else 2)

/-- Whether the fixed stroke segments of a kernel, from its entry and from each exit of a `stroke`, fit its stroke configurations (R169, R416):
after an exit the next block starts 2 ticks later (R167). -/
def ObjFile.segmentsOk (o : ObjFile) (k : Kernel) : Bool :=
  let bl := o.kernelBlocks k
  let n := o.btab.length
  let after := (bl.filter fun b => (o.image b).has 0x1C0).filterMap fun b => (o.image b).fixedNext
  let segs := (o.segment n k.entry 0).toList ++ after.dedup.filterMap fun b => o.segment n b 2
  k.strokes.all fun c =>
    let l : LaunchRec := { (default : LaunchRec) with stroke := c }
    segs.all fun x => decide (x + l.strokeG ≤ l.strokeS)

/-- Whether a timed kernel's blocks, stroke segments and channel map can be accepted (R169, R173, R175, R416). -/
def ObjFile.timedOk (o : ObjFile) (k : Kernel) : Bool :=
  !k.timed || (chmapOk k (o.mapOf k) && ((o.kernelBlocks k).all fun b =>
    let m := o.image b
    (m.cls == 1 || m.cls == 2) && o.sendsOk k b) && o.segmentsOk k)

/-- Whether the `tsend`s of the blocks that werad reaches from no kernel are such as some timed kernel may have: such a block runs, if at all,
as the successor of a `brx` or a `brv` (R175, R382, log 34). -/
def ObjFile.strayOk (o : ObjFile) : Bool :=
  let known := o.kernels.flatMap o.kernelBlocks
  let timed := o.kernels.filter (·.timed)
  timed.isEmpty || (List.range o.btab.length).all fun b =>
    !present o.btab b || known.contains b || timed.any fun k => o.sendsOk k b

/-! Loading. -/

/-- Bytes of a section with some replaced from an offset on. -/
def overlay (l : List (BitVec 8)) (o : Nat) (x : List (BitVec 8)) : List (BitVec 8) := l.take o ++ x ++ l.drop (o + x.length)

/-- The padding after a block image (R66). -/
def padBytes (n : Nat) : List (BitVec 8) := List.replicate ((64 - n % 64) % 64) 0

/-- The native image: every block with its header at version 3 (R91), the timed-issue hints of the blocks that werad reaches from timed
kernels recomputed (R416), and zero padding after each image (R66). -/
def ObjFile.native (o : ObjFile) : List (BitVec 8) :=
  let timed := (o.kernels.filter (·.timed)).flatMap o.kernelBlocks
  let img (b : Nat) : List (BitVec 8) :=
    let m := (o.image b).translated
    wordsBytes (if timed.contains b then m.retimed else m)
  let bl := ((List.range o.btab.length).filter (present o.btab)).map fun b => (fld (o.btab.getD b 0) 0 40, img b)
  let base := bl.foldl (fun l q => overlay l (q.1 + q.2.length) (padBytes q.2.length)) (o.code ++ padBytes o.code.length)
  bl.foldl (fun l q => overlay l q.1 q.2) base

/-- Whether a range of a context lies in pages with `EX` and without `WR` (R77, R415). -/
def State.nativePages (s : State) (ctx va n : Nat) : Bool :=
  (List.range (n / 65536 + 2)).all fun i =>
    match s.transNow ctx false .ex (min (va + 65536 * i) (va + n - 1)) with
    | .ok _ _ leaf => !pteWr leaf
    | _ => false

/-- Report a load. -/
def State.loaded (s : State) (step : Nat) (bad : List (Nat × Nat)) : State := s.modPkg fun p => { p with loadStep := step, loadBad := bad }

/-- CODE_OBJECT_LOAD (R415): werad's steps in order, stopping at the first failure; the native image goes to `va`, and `oid` is the
identifier that it assigns. -/
def execCodeObjectLoad (ctx home va : Nat) (bytes : List (BitVec 8)) (oid : Nat) (s : State) : Out :=
  .next (if (s.ctx ctx).st != .active then s
  else match ObjFile.read bytes with
  | none => s.loaded 1 []
  | some o =>
    if !o.featuresOk then s.loaded 2 []
    else match o.badBlocks with
    | q :: r => s.loaded 3 (q :: r)
    | [] =>
      if va % 64 != 0 || s.homeOf ctx va != .loc home ctx || !s.nativePages ctx va o.native.length then s.loaded 5 []
      else if !(o.kernels.all o.timedOk && o.strayOk) then s.loaded 6 []
      else if (s.obj? ctx oid).isSome || decide (2 ^ 32 ≤ oid) then s.loaded 7 []
      else
        let new : CodeObj := { ctx := ctx, oid := oid, code := va, btab := o.btab, kernels := o.kernels, preloads := o.preloads,
                               chmap := o.chmap, unloading := false }
        ({ s.pokeCtx ctx va o.native with objs := s.objs ++ [new] }).loaded 0 [])

/-- CODE_OBJECT_UNLOAD (R417): at once, or pending while a launch holds the object. -/
def execCodeObjectUnload (ctx oid : Nat) (s : State) : Out :=
  let mark (o : CodeObj) : CodeObj := if o.ctx == ctx && o.oid == oid then { o with unloading := true } else o
  .next ({ s with objs := s.objs.map mark }).sweep

/-- The native image of a block that a table names, as it stands in memory. -/
def State.nativeImage (s : State) (ctx code : Nat) (e : Word) : Img :=
  let va := code + fld e 0 40
  s.peekWords ctx va (Img.size (s.peekWords ctx va 2))

/-- Whether two images differ in the hint layer only (R75, R88, R408): in hint words and their count, and in what `hint` opcodes carry. -/
def Img.alike (a b : Img) : Bool :=
  let strip (m : Img) : List Word := (List.zipIdx (m.take (m.ibase + m.nins))).map fun p =>
    if p.2 = 0 then setFld p.1 28 4 0 else if m.ibase ≤ p.2 ∧ 0x1F0 ≤ wOpc p.1 then 0x1F0#9 ++ 0#55 else p.1
  strip a == strip b

/-- Whether the image that a new table at `code` gives a block may stand for that of an object (R77, R418): its entry is sound, it lies in pages with
`EX` and without `WR`, and it differs in the hint layer only. -/
def State.mayStandFor (s : State) (o : CodeObj) (code : Nat) (new : List Word) (b : Nat) : Bool :=
  let e := new.getD b 0
  let m := s.nativeImage o.ctx code e
  entryRows e == [] && s.nativePages o.ctx (code + fld e 0 40) (8 * m.size) && (s.nativeImage o.ctx o.code (o.btab.getD b 0)).alike m

/-- BLOCK_TABLE_SWAP (R418): the table at `table` and the images at `code` replace an object's; it names the same blocks with the same meaning, and
no timed launch of the object is placed. -/
def execBlockTableSwap (ctx oid table code : Nat) (s : State) : Out :=
  .next (match s.obj? ctx oid with
  | none => s
  | some o =>
    let new := (List.range o.btab.length).map fun i => s.peek64 ctx (table + 8 * i)
    let same := (List.range o.btab.length).all fun i =>
      present new i == present o.btab i && (!present new i || s.mayStandFor o code new i)
    let timed := s.grids.any fun g => g.ctx == ctx && !g.done && g.launch.object == oid && g.launch.timed
    let put (x : CodeObj) : CodeObj := if x.ctx == ctx && x.oid == oid then { x with btab := new, code := code } else x
    if same && !timed then { s with objs := s.objs.map put } else s)

end Sys2Proof.Machine
end

