-- ==== Sys2Proof/Machine/Dispatch.lean ====
section
/-! DEFINITION. One arm per constructor of `Instr`: the direct call of its meaning. -/

namespace Sys2Proof.Machine

/-- The meaning of an operation or event. -/
def exec (i : Instr) (s : State) : Host.Outcome State Fault Refusal :=
  match i with
  | .nop h => Sys2Proof.Machine.execNop h s
  | .mov h sh => Sys2Proof.Machine.execMov h sh s
  | .fan h sh t2 t3 => Sys2Proof.Machine.execFan h sh t2 t3 s
  | .const h imm => Sys2Proof.Machine.execConst h imm s
  | .consth h top imm => Sys2Proof.Machine.execConsth h top imm s
  | .null h => Sys2Proof.Machine.execNull h s
  | .sadd h im => Sys2Proof.Machine.execSadd h im s
  | .ssub h im => Sys2Proof.Machine.execSsub h im s
  | .smul h im => Sys2Proof.Machine.execSmul h im s
  | .smulh h sg im => Sys2Proof.Machine.execSmulh h sg im s
  | .sdiv h sg im => Sys2Proof.Machine.execSdiv h sg im s
  | .srem h sg im => Sys2Proof.Machine.execSrem h sg im s
  | .sand h im => Sys2Proof.Machine.execSand h im s
  | .sor h im => Sys2Proof.Machine.execSor h im s
  | .sxor h im => Sys2Proof.Machine.execSxor h im s
  | .sshl h im => Sys2Proof.Machine.execSshl h im s
  | .sshr h im => Sys2Proof.Machine.execSshr h im s
  | .ssra h im => Sys2Proof.Machine.execSsra h im s
  | .smin h sg im => Sys2Proof.Machine.execSmin h sg im s
  | .smax h sg im => Sys2Proof.Machine.execSmax h sg im s
  | .lea h sc im => Sys2Proof.Machine.execLea h sc im s
  | .scmp h cond im => Sys2Proof.Machine.execScmp h cond im s
  | .ssel h => Sys2Proof.Machine.execSsel h s
  | .sclz h => Sys2Proof.Machine.execSclz h s
  | .spopc h => Sys2Proof.Machine.execSpopc h s
  | .kand h im => Sys2Proof.Machine.execKand h im s
  | .kor h im => Sys2Proof.Machine.execKor h im s
  | .kxor h im => Sys2Proof.Machine.execKxor h im s
  | .kandn h im => Sys2Proof.Machine.execKandn h im s
  | .kcnt h => Sys2Proof.Machine.execKcnt h s
  | .kff h => Sys2Proof.Machine.execKff h s
  | .kmov h toMask => Sys2Proof.Machine.execKmov h toMask s
  | .vote h form => Sys2Proof.Machine.execVote h form s
  | .sysrd h sel imm => Sys2Proof.Machine.execSysrd h sel imm s
  | .fmtset h form => Sys2Proof.Machine.execFmtset h form s
  | .fmtrd h => Sys2Proof.Machine.execFmtrd h s
  | .bro h block => Sys2Proof.Machine.execBro h block s
  | .brx h => Sys2Proof.Machine.execBrx h s
  | .brv h join => Sys2Proof.Machine.execBrv h join s
  | .call h block => Sys2Proof.Machine.execCall h block s
  | .ret h => Sys2Proof.Machine.execRet h s
  | .exit h => Sys2Proof.Machine.execExit h s
  | .bar h scope id => Sys2Proof.Machine.execBar h scope id s
  | .yield h => Sys2Proof.Machine.execYield h s
  | .trap h num payload => Sys2Proof.Machine.execTrap h num payload s
  | .brk h payload => Sys2Proof.Machine.execBrk h payload s
  | .tlwait h ctr => Sys2Proof.Machine.execTlwait h ctr s
  | .vadd h ty im => Sys2Proof.Machine.execVadd h ty im s
  | .vsub h ty im => Sys2Proof.Machine.execVsub h ty im s
  | .vaddc h im => Sys2Proof.Machine.execVaddc h im s
  | .vsubb h im => Sys2Proof.Machine.execVsubb h im s
  | .vmul h ty im => Sys2Proof.Machine.execVmul h ty im s
  | .vmulh h ty im => Sys2Proof.Machine.execVmulh h ty im s
  | .vmulw h ty im => Sys2Proof.Machine.execVmulw h ty im s
  | .vmad h ty im => Sys2Proof.Machine.execVmad h ty im s
  | .vdiv h ty im => Sys2Proof.Machine.execVdiv h ty im s
  | .vrem h ty im => Sys2Proof.Machine.execVrem h ty im s
  | .vsqrt h => Sys2Proof.Machine.execVsqrt h s
  | .vabs h ty => Sys2Proof.Machine.execVabs h ty s
  | .vneg h ty => Sys2Proof.Machine.execVneg h ty s
  | .vmin h ty im => Sys2Proof.Machine.execVmin h ty im s
  | .vmax h ty im => Sys2Proof.Machine.execVmax h ty im s
  | .vaddsat h ty im => Sys2Proof.Machine.execVaddsat h ty im s
  | .vsubsat h ty im => Sys2Proof.Machine.execVsubsat h ty im s
  | .vavg h ty im => Sys2Proof.Machine.execVavg h ty im s
  | .vabsd h ty im => Sys2Proof.Machine.execVabsd h ty im s
  | .vdot4 h ty im => Sys2Proof.Machine.execVdot4 h ty im s
  | .vscale h im => Sys2Proof.Machine.execVscale h im s
  | .vrint h mode => Sys2Proof.Machine.execVrint h mode s
  | .vgetexp h => Sys2Proof.Machine.execVgetexp h s
  | .vclass h => Sys2Proof.Machine.execVclass h s
  | .vand h im => Sys2Proof.Machine.execVand h im s
  | .vor h im => Sys2Proof.Machine.execVor h im s
  | .vxor h im => Sys2Proof.Machine.execVxor h im s
  | .vnot h => Sys2Proof.Machine.execVnot h s
  | .vshl h ty im => Sys2Proof.Machine.execVshl h ty im s
  | .vshr h ty im => Sys2Proof.Machine.execVshr h ty im s
  | .vsra h ty im => Sys2Proof.Machine.execVsra h ty im s
  | .vrotl h im => Sys2Proof.Machine.execVrotl h im s
  | .vclz h => Sys2Proof.Machine.execVclz h s
  | .vpopc h => Sys2Proof.Machine.execVpopc h s
  | .vbrev h => Sys2Proof.Machine.execVbrev h s
  | .vcmp h ty cond => Sys2Proof.Machine.execVcmp h ty cond s
  | .vsel h im => Sys2Proof.Machine.execVsel h im s
  | .vsplat h hi => Sys2Proof.Machine.execVsplat h hi s
  | .vshfl h im => Sys2Proof.Machine.execVshfl h im s
  | .vbcast h im => Sys2Proof.Machine.execVbcast h im s
  | .vlrot h im => Sys2Proof.Machine.execVlrot h im s
  | .vcompress h => Sys2Proof.Machine.execVcompress h s
  | .vexpand h => Sys2Proof.Machine.execVexpand h s
  | .vcvt h dst src md part => Sys2Proof.Machine.execVcvt h dst src md part s
  | .vencb h f bt => Sys2Proof.Machine.execVencb h f bt s
  | .vdecb h f => Sys2Proof.Machine.execVdecb h f s
  | .vexp2 h => Sys2Proof.Machine.execVexp2 h s
  | .vlog2 h => Sys2Proof.Machine.execVlog2 h s
  | .vrcp h => Sys2Proof.Machine.execVrcp h s
  | .vrsqrt h => Sys2Proof.Machine.execVrsqrt h s
  | .vsin h turns => Sys2Proof.Machine.execVsin h turns s
  | .vcos h turns => Sys2Proof.Machine.execVcos h turns s
  | .vred h ty op => Sys2Proof.Machine.execVred h ty op s
  | .vscan h ty ex op => Sys2Proof.Machine.execVscan h ty ex op s
  | .mmode h on en1 acc0 acc1 => Sys2Proof.Machine.execMmode h on en1 acc0 acc1 s
  | .mzero h win tile => Sys2Proof.Machine.execMzero h win tile s
  | .mma h win steps => Sys2Proof.Machine.execMma h win steps s
  | .mmar h steps s0 => Sys2Proof.Machine.execMmar h steps s0 s
  | .mmax h win => Sys2Proof.Machine.execMmax h win s
  | .mexp h win => Sys2Proof.Machine.execMexp h win s
  | .mrescale h win => Sys2Proof.Machine.execMrescale h win s
  | .mld h win part => Sys2Proof.Machine.execMld h win part s
  | .mst h win part sfmt => Sys2Proof.Machine.execMst h win part sfmt s
  | .ld h m ty => Sys2Proof.Machine.execLd h m ty s
  | .st h m ty => Sys2Proof.Machine.execSt h m ty s
  | .lds h m w => Sys2Proof.Machine.execLds h m w s
  | .sts h m w => Sys2Proof.Machine.execSts h m w s
  | .spld h m ty => Sys2Proof.Machine.execSpld h m ty s
  | .spst h m ty => Sys2Proof.Machine.execSpst h m ty s
  | .spldq h m ty => Sys2Proof.Machine.execSpldq h m ty s
  | .spstq h m ty => Sys2Proof.Machine.execSpstq h m ty s
  | .prefetch h m die => Sys2Proof.Machine.execPrefetch h m die s
  | .atom h m op => Sys2Proof.Machine.execAtom h m op s
  | .red h m op => Sys2Proof.Machine.execRed h m op s
  | .vmatch h => Sys2Proof.Machine.execVmatch h s
  | .fence h scope xpath => Sys2Proof.Machine.execFence h scope xpath s
  | .tlrd h form ctr => Sys2Proof.Machine.execTlrd h form ctr s
  | .push h grp q => Sys2Proof.Machine.execPush h grp q s
  | .stroke h slip => Sys2Proof.Machine.execStroke h slip s
  | .tkrd h sel => Sys2Proof.Machine.execTkrd h sel s
  | .tsend h tick => Sys2Proof.Machine.execTsend h tick s
  | .trecv h tick => Sys2Proof.Machine.execTrecv h tick s
  | .syswr h reg => Sys2Proof.Machine.execSyswr h reg s
  | .cachectlWb h => Sys2Proof.Machine.execCachectlWb h s
  | .cachectlWbinv h => Sys2Proof.Machine.execCachectlWbinv h s
  | .cachectlL1inv h => Sys2Proof.Machine.execCachectlL1inv h s
  | .perfctlRd h n => Sys2Proof.Machine.execPerfctlRd h n s
  | .perfctlCfg h n => Sys2Proof.Machine.execPerfctlCfg h n s
  | .perfctlClr h n => Sys2Proof.Machine.execPerfctlClr h n s
  | .ctxctlTrrd h => Sys2Proof.Machine.execCtxctlTrrd h s
  | .ctxctlTret h => Sys2Proof.Machine.execCtxctlTret h s
  | .eret h => Sys2Proof.Machine.execEret h s
  | .hint low t p => Sys2Proof.Machine.execHint low t p s
  | .blockFetch w => Sys2Proof.Machine.execBlockFetch w s
  | .blockCommit w => Sys2Proof.Machine.execBlockCommit w s
  | .blockQuiescent w => Sys2Proof.Machine.execBlockQuiescent w s
  | .barrierComplete scope unit id => Sys2Proof.Machine.execBarrierComplete scope unit id s
  | .tlwaitResume w => Sys2Proof.Machine.execTlwaitResume w s
  | .strokeBoundaryExit w => Sys2Proof.Machine.execStrokeBoundaryExit w s
  | .seatHandover die core seat => Sys2Proof.Machine.execSeatHandover die core seat s
  | .accessHeldTimeout w => Sys2Proof.Machine.execAccessHeldTimeout w s
  | .seatTenureExpiry w => Sys2Proof.Machine.execSeatTenureExpiry w s
  | .warpAccessComplete w => Sys2Proof.Machine.execWarpAccessComplete w s
  | .launch q => Sys2Proof.Machine.execLaunch q s
  | .submissionWindowWrite q cmd => Sys2Proof.Machine.execSubmissionWindowWrite q cmd s
  | .launchPlacement => Sys2Proof.Machine.execLaunchPlacement s
  | .effectivePriorityRise q => Sys2Proof.Machine.execEffectivePriorityRise q s
  | .timedLaunchStart g => Sys2Proof.Machine.execTimedLaunchStart g s
  | .preemptGang g => Sys2Proof.Machine.execPreemptGang g s
  | .preemptBlockTimeout w => Sys2Proof.Machine.execPreemptBlockTimeout w s
  | .preemptDrained g => Sys2Proof.Machine.execPreemptDrained g s
  | .contextSwitch die core => Sys2Proof.Machine.execContextSwitch die core s
  | .gangResume g => Sys2Proof.Machine.execGangResume g s
  | .teamComplete t => Sys2Proof.Machine.execTeamComplete t s
  | .gridComplete g => Sys2Proof.Machine.execGridComplete g s
  | .copy2d t => Sys2Proof.Machine.execCopy2d t s
  | .copy3d t => Sys2Proof.Machine.execCopy3d t s
  | .gather t => Sys2Proof.Machine.execGather t s
  | .scatter t => Sys2Proof.Machine.execScatter t s
  | .fill t => Sys2Proof.Machine.execFill t s
  | .preloadL2 t => Sys2Proof.Machine.execPreloadL2 t s
  | .copyChunk t seq => Sys2Proof.Machine.execCopyChunk t seq s
  | .commandComplete ctr seq => Sys2Proof.Machine.execCommandComplete ctr seq s
  | .timedCopyStart t seq => Sys2Proof.Machine.execTimedCopyStart t seq s
  | .allreduce ctx => Sys2Proof.Machine.execAllreduce ctx s
  | .reducescatter ctx => Sys2Proof.Machine.execReducescatter ctx s
  | .allgather ctx => Sys2Proof.Machine.execAllgather ctx s
  | .broadcast ctx => Sys2Proof.Machine.execBroadcast ctx s
  | .barrier ctx => Sys2Proof.Machine.execBarrier ctx s
  | .collectiveTimeout ctx seq => Sys2Proof.Machine.execCollectiveTimeout ctx seq s
  | .collectiveAbortReceived gid gen cause => Sys2Proof.Machine.execCollectiveAbortReceived gid gen cause s
  | .collectivePacketReceived gid gen rank k hdr count root data => Sys2Proof.Machine.execCollectivePacketReceived gid gen rank k hdr count root data s
  | .groupEnd ctx gid => Sys2Proof.Machine.execGroupEnd ctx gid s
  | .groupWashComplete ctx gid => Sys2Proof.Machine.execGroupWashComplete ctx gid s
  | .groupDefine ctx gid w0 w1 => Sys2Proof.Machine.execGroupDefine ctx gid w0 w1 s
  | .remoteRequestTimeout n => Sys2Proof.Machine.execRemoteRequestTimeout n s
  | .tsendTransferStart n => Sys2Proof.Machine.execTsendTransferStart n s
  | .transferLanded n => Sys2Proof.Machine.execTransferLanded n s
  | .trecvWindowMiss w idx => Sys2Proof.Machine.execTrecvWindowMiss w idx s
  | .trecvCopyDone w idx => Sys2Proof.Machine.execTrecvCopyDone w idx s
  | .loadDataReturn w idx => Sys2Proof.Machine.execLoadDataReturn w idx s
  | .dieCacheRequest n => Sys2Proof.Machine.execDieCacheRequest n s
  | .dieCacheFillArrival n => Sys2Proof.Machine.execDieCacheFillArrival n s
  | .storeAcknowledge n => Sys2Proof.Machine.execStoreAcknowledge n s
  | .l1ClockAdvance die core => Sys2Proof.Machine.execL1ClockAdvance die core s
  | .throughLineExpiry die core space line => Sys2Proof.Machine.execThroughLineExpiry die core space line s
  | .leaseWrapAround die => Sys2Proof.Machine.execLeaseWrapAround die s
  | .promoteRequest n => Sys2Proof.Machine.execPromoteRequest n s
  | .gets n => Sys2Proof.Machine.execGets n s
  | .getm n => Sys2Proof.Machine.execGetm n s
  | .putm n => Sys2Proof.Machine.execPutm n s
  | .puts n => Sys2Proof.Machine.execPuts n s
  | .fwdgets n => Sys2Proof.Machine.execFwdgets n s
  | .fwdgetm n => Sys2Proof.Machine.execFwdgetm n s
  | .inv n => Sys2Proof.Machine.execInv n s
  | .resp n => Sys2Proof.Machine.execResp n s
  | .invack n => Sys2Proof.Machine.execInvack n s
  | .data n => Sys2Proof.Machine.execData n s
  | .wback n => Sys2Proof.Machine.execWback n s
  | .coxRead ctx va => Sys2Proof.Machine.execCoxRead ctx va s
  | .coxEviction ctx va => Sys2Proof.Machine.execCoxEviction ctx va s
  | .coxWrite ctx va data => Sys2Proof.Machine.execCoxWrite ctx va data s
  | .refresh die => Sys2Proof.Machine.execRefresh die s
  | .tickExchangeSend die => Sys2Proof.Machine.execTickExchangeSend die s
  | .tickExchangeReceive n => Sys2Proof.Machine.execTickExchangeReceive n s
  | .timelineLost die => Sys2Proof.Machine.execTimelineLost die s
  | .clockStepChange => Sys2Proof.Machine.execClockStepChange s
  | .droopTickStretch die => Sys2Proof.Machine.execDroopTickStretch die s
  | .junctionHot => Sys2Proof.Machine.execJunctionHot s
  | .junctionCool => Sys2Proof.Machine.execJunctionCool s
  | .thermalTrip => Sys2Proof.Machine.execThermalTrip s
  | .powerOn rootPort => Sys2Proof.Machine.execPowerOn rootPort s
  | .bringUpStageComplete failure => Sys2Proof.Machine.execBringUpStageComplete failure s
  | .setPowerCap watts => Sys2Proof.Machine.execSetPowerCap watts s
  | .clearThermalTrip => Sys2Proof.Machine.execClearThermalTrip s
  | .stageFirmwareUpdate image => Sys2Proof.Machine.execStageFirmwareUpdate image s
  | .misroutedPacket socket => Sys2Proof.Machine.execMisroutedPacket socket s
  | .lqctlWrite q v => Sys2Proof.Machine.execLqctlWrite q v s
  | .lqstatWrite q v => Sys2Proof.Machine.execLqstatWrite q v s
  | .lscfgWrite die v => Sys2Proof.Machine.execLscfgWrite die v s
  | .contextBlockWrite word v => Sys2Proof.Machine.execContextBlockWrite word v s
  | .blockTableSwap ctx oid table code => Sys2Proof.Machine.execBlockTableSwap ctx oid table code s
  | .systemRegisterWrite reg v => Sys2Proof.Machine.execSystemRegisterWrite reg v s
  | .map home req => Sys2Proof.Machine.execMap home req s
  | .unmap home req => Sys2Proof.Machine.execUnmap home req s
  | .protect home req => Sys2Proof.Machine.execProtect home req s
  | .pageWalk home n => Sys2Proof.Machine.execPageWalk home n s
  | .ctxCreate ctx => Sys2Proof.Machine.execCtxCreate ctx s
  | .ctxDestroy ctx => Sys2Proof.Machine.execCtxDestroy ctx s
  | .frameAssign home frame count space win => Sys2Proof.Machine.execFrameAssign home frame count space win s
  | .frameReclaim home frame count => Sys2Proof.Machine.execFrameReclaim home frame count s
  | .homeSet ctx granule v => Sys2Proof.Machine.execHomeSet ctx granule v s
  | .windowCreate win granules entries => Sys2Proof.Machine.execWindowCreate win granules entries s
  | .windowJoin win ctx => Sys2Proof.Machine.execWindowJoin win ctx s
  | .windowLeave win ctx => Sys2Proof.Machine.execWindowLeave win ctx s
  | .exportSet ctx pairs => Sys2Proof.Machine.execExportSet ctx pairs s
  | .measureExtend reg digest => Sys2Proof.Machine.execMeasureExtend reg digest s
  | .attest nonce ctx => Sys2Proof.Machine.execAttest nonce ctx s
  | .debugUnlock token => Sys2Proof.Machine.execDebugUnlock token s
  | .faultRecordPost => Sys2Proof.Machine.execFaultRecordPost s
  | .faultQueueRecheck ctx => Sys2Proof.Machine.execFaultQueueRecheck ctx s
  | .retry ctx seq => Sys2Proof.Machine.execRetry ctx seq s
  | .resumeAt ctx seq block => Sys2Proof.Machine.execResumeAt ctx seq block s
  | .retire ctx seq => Sys2Proof.Machine.execRetire ctx seq s
  | .retryUnchecked ctx seq => Sys2Proof.Machine.execRetryUnchecked ctx seq s
  | .stop ctx seq => Sys2Proof.Machine.execStop ctx seq s
  | .umpireHazard w idx code aux => Sys2Proof.Machine.execUmpireHazard w idx code aux s
  | .correctedError place => Sys2Proof.Machine.execCorrectedError place s
  | .uncorrectableError place => Sys2Proof.Machine.execUncorrectableError place s
  | .linkCrcError link exhausted => Sys2Proof.Machine.execLinkCrcError link exhausted s
  | .coreFenced die core => Sys2Proof.Machine.execCoreFenced die core s
  | .frameMarked home frame => Sys2Proof.Machine.execFrameMarked home frame s
  | .linkHalfWidth port => Sys2Proof.Machine.execLinkHalfWidth port s
  | .dieFenced die => Sys2Proof.Machine.execDieFenced die s
  | .pcieLinkDown => Sys2Proof.Machine.execPcieLinkDown s
  | .packagePowerAtCap above => Sys2Proof.Machine.execPackagePowerAtCap above s
  | .remoteRequestReceived pkg rctx ctx va req => Sys2Proof.Machine.execRemoteRequestReceived pkg rctx ctx va req s
  | .timelineLostPersists die => Sys2Proof.Machine.execTimelineLostPersists die s
  | .codeObjectLoad ctx home va bytes oid => Sys2Proof.Machine.execCodeObjectLoad ctx home va bytes oid s
  | .codeObjectUnload ctx oid => Sys2Proof.Machine.execCodeObjectUnload ctx oid s

end Sys2Proof.Machine
end

