-- ==== Sys2Proof/Machine/Due.lean ====
section
/-! DEFINITION. Firing an instruction, and what a tick must do before the next one: the activities that the spec ties to a tick. Time does not pass while one of them is
due (log 14). -/

namespace Sys2Proof.Machine

/-- Fire instruction `idx` of the block in execution in warp `w`; in a timed launch the core must pick it (R149, R172). -/
def State.fire (s : State) (w idx : Nat) : Out :=
  match s.blk? w with
  | none => .next s
  | some b => match b.words[idx]? with
    | none => .next s
    | some x =>
      if !s.mayIssue w b idx then .next s
      else match decode x with
        | .ok i => exec i (s.focus w b idx)
        | .error e => .fault (.undecodable e.row)

/-- The activity `f`, where the condition of its tick holds. -/
def dueIf (c : Bool) (f : State → Out) : List (State → Out) := if c then [f] else []

/-- Clocks: a step of the clock at its boundary (R16), the tick exchange and a die's lost timeline (R162, R163, R451). Whether a change that is asked
for in the very tick of a boundary waits for the one after it, R16 does not say; in the model it takes effect in that tick (log 14). -/
def State.dueClock (s : State) : List (State → Out) :=
  dueIf (s.pkg.clockPend.isSome && s.stake % s.stepBoundary == 0) execClockStepChange ++
  (List.range 9).flatMap fun d =>
    dueIf (s.localOf d % 1024 == 0 && s.localOf d != 0) (execTickExchangeSend d) ++
    dueIf (decide (d < 8 ∧ 8 ≤ (s.die d).missed) && (s.die d).lost.isNone) (execTimelineLost d) ++
    dueIf ((s.die d).lost.any fun t => decide (t + 2 ^ 30 ≤ s.stake)) (execTimelineLostPersists d)

/-- Timed channels: landings, and the transfers that start (R177, R178). -/
def State.dueChannel (s : State) : List (State → Out) :=
  (s.landings.zipIdx.flatMap fun p => dueIf (decide (p.1.at_ ≤ s.reconTick p.1.die)) (execTransferLanded p.2)) ++
  s.tsends.zipIdx.flatMap fun p => dueIf (!p.1.sent && decide (p.1.start ≤ s.reconTick p.1.die)) (execTsendTransferStart p.2)

/-- Timed copies: the overrun of a push whose block is late, the issue and the start of a command whose tick has come, those before it in its queue with
it, and the piece of the tick (R181). -/
def State.dueCopy (s : State) : List (State → Out) :=
  let late (w : Nat) (p : PushRes) : List (State → Out) := match p.dst with
    | .copy t => dueIf (decide (t ≠ 0 ∧ t ≤ s.wRecon w)) (fun s => .next (s.faultAt w p.idx 11 0))
    | _ => []
  ((List.range s.warps.length).flatMap fun w => match s.blk? w with
    | some b => b.pushes.flatMap (late w)
    | none => []) ++
  (List.range s.teams.length).flatMap fun t =>
    let now := s.reconTick (s.teamPlace t).die
    dueIf ((s.team t).queue.any fun c => c.timed.any fun t0 => decide (t0 ≤ now)) (fun s => .next (s.takeCopy t)) ++
    (s.team t).jobs.flatMap fun j => match j.timed with
      | some t0 => if j.begun then dueIf j.finished.isNone (execCopyChunk t j.seq) else dueIf (decide (t0 ≤ now)) (execTimedCopyStart t j.seq)
      | none => []

/-- Strokes and seats: the start of timed launches (R165), the exit from a stroke's boundary (R167), a missed window (R179), an arrival at a barrier (R126), the fetch of a
timed launch's block (R45), a free seat (R152), a warp held too long (R151) and a general block that does not end (R439). -/
def State.dueWarps (s : State) : List (State → Out) :=
  ((List.range s.grids.length).flatMap fun g => dueIf (!(s.starting g).isEmpty) (execTimedLaunchStart g)) ++
  (List.range s.warps.length).flatMap fun w =>
    let x := s.warp w
    let p := s.place w
    let timed := (s.launchOf w).timed
    let recv := match x.blk with
      | some b => b.recv.flatMap fun r => dueIf (!r.copying && decide (r.until_ < s.wRecon w)) (execTrecvWindowMiss w r.idx)
      | none => []
    let seat := if s.waiting w then
        ((List.range 8).find? fun k => !(s.coreWarps p.die p.core).any fun v => (s.warp v).seat.seat == some k).toList.map fun k =>
          execSeatHandover p.die p.core k
      else []
    dueIf (x.park.stroke.any fun b => decide (b ≤ s.reconTick p.die)) (execStrokeBoundaryExit w) ++ recv ++
      [fun (s : State) => .next (s.arrive w)] ++
      dueIf (timed && s.mayFetch w) (execBlockFetch w) ++ seat ++
      dueIf (x.blk.isSome && x.seat.seat.isSome && !timed) (execAccessHeldTimeout w) ++
      dueIf (x.blk.isSome && (s.gang p.gang).st.stops) (execPreemptBlockTimeout w)

/-- Umpire mode: hazard 3 of a write that fired before the `tsend` did, and hazard 4 of a timed copy (R183). -/
def State.dueUmpire (s : State) : List (State → Out) :=
  ((List.range s.warps.length).flatMap fun w => match s.blk? w with
    | some b =>
      if s.umpireOn w then b.fired.flatMap fun i => match s.tsendHazard (s.spadWrites w i b) with
        | some aux => [execUmpireHazard w i 3 aux]
        | none => []
      else []
    | none => []) ++
  (List.range s.teams.length).flatMap fun t => (s.team t).jobs.flatMap fun j => dueIf j.timed.isSome (fun s => .next (s.refreshHazard t j.seq))

/-- Timed launches: the beginning of a stroke on a die, from which its cores count their rotation (R172), what each core issues (R149, R171), the end
of a `trecv`'s copy (R179), and the commit of a block in the tick in which it completes (R43, R45). -/
def State.dueTimed (s : State) : List (State → Out) :=
  let strokeOf (r : Region) : Nat := s.reconTick r.die / (s.grid r.grid).launch.strokeS
  ((List.range s.regions.length).flatMap fun r =>
    let x := s.region r
    dueIf (x.begun && !x.done && x.beat.1 != strokeOf x) fun (s : State) =>
      .next (s.modRegion r fun y => { y with beat := (strokeOf x, s.localTick x.die) })) ++
  ((List.range s.warps.length).flatMap fun w => match s.blk? w with
    | some b => b.recv.flatMap fun r => dueIf (r.copying && decide (r.endsAt ≤ s.localTick (s.place w).die)) (execTrecvCopyDone w r.idx)
    | none => []) ++
  (s.cores.flatMap fun k => [IssueClass.lane, .scalar, .memory, .control].flatMap fun c => match s.pick k.die k.core c with
    | some q => [fun (s : State) => s.fire q.1 q.2]
    | none => []) ++
  (List.range s.warps.length).flatMap fun w => match s.blk? w with
    | some b => dueIf (s.scheduled w b) (execBlockCommit w) ++ dueIf (s.scheduled w b) (execBlockQuiescent w)
    | none => []

/-- Launch units and cores: a command's taking in (R137), the rise of a priority and, in the next tick, what follows from it (R142), the placement of a
head for which cores are free (R156), the boundary and the end of a stop (R439), and the switch of a core's contexts (R440). -/
def State.dueUnits (s : State) : List (State → Out) :=
  ((List.range s.queues.length).flatMap fun q =>
    dueIf ((s.queue q).entries.any fun e => e.read.isNone) (execLaunch q) ++
    dueIf ((s.queue q).eligAt.any fun t => decide (t + 14000000 ≤ s.stake)) (execEffectivePriorityRise q) ++
    dueIf ((s.queue q).risen.any fun t => decide (t < s.stake)) (fun s => .next (s.reconsider q))) ++
  ((List.range s.gangs.length).flatMap fun g =>
    dueIf (s.atBound g) (fun s => .next (s.noteBound g)) ++ dueIf (s.gang g).st.stops (execPreemptDrained g)) ++
  dueIf (s.queues.any (·.urgent) && s.nextHead?.any s.urgent) execLaunchPlacement ++
  s.cores.flatMap fun c => dueIf (c.switchAt.any fun t => decide (t ≤ s.localTick c.die)) (execContextSwitch c.die c.core)

/-- Time limits: a request to another package (R291), a collective command (R290), a held record (R425), and a context that waits for its
queues (R385). -/
def State.dueLimits (s : State) : List (State → Out) :=
  (s.remote.zipIdx.flatMap fun p => dueIf (decide (p.1.at_ + 1000000 ≤ s.stake)) (execRemoteRequestTimeout p.2)) ++
  (List.range s.ctxs.length).flatMap fun c =>
    let x := s.ctx c
    (x.jobs.flatMap fun j => dueIf j.finished.isNone (execCollectiveTimeout c j.seq)) ++
      dueIf (x.hubq.head?.any (·.held) && decide (x.lastCheck + 4096 ≤ s.stake)) (execFaultQueueRecheck c) ++
      dueIf (x.st == .dying) (fun s => .next (s.finishDying c))

/-- The state after the first activity that is due, if any; landings come before the exits from a boundary (R180). Before the clocks run,
nothing is due. -/
def State.due? (s : State) : Option State :=
  if s.pkg.up.clocked then
    (s.dueClock ++ s.dueChannel ++ s.dueUmpire ++ s.dueCopy ++ s.dueWarps ++ s.dueTimed ++ s.dueUnits ++ s.dueLimits).findSome? s.acted
  else none

end Sys2Proof.Machine
end

