-- ==== Sys2Proof/Machine/Step.lean ====
section
/-! DEFINITION. One step of the machine: the next activity of the agenda (log 1), or one tick of every clock. A clock ticks only when nothing
is due; until then what is due happens, and the agenda waits (log 14). -/

namespace Sys2Proof.Machine

/-- Let the clocks go on as `f` says, with the agenda `r` left; what is due comes first. -/
def State.pass (s : State) (r : List Activity) (f : State → State) : Host.Outcome State Fault Refusal :=
  match s.due? with
  | some t => .next t
  | none => .next (f { s.noteEligible with agenda := r })

/-- One step. -/
def step (s : State) : Host.Outcome State Fault Refusal :=
  match s.agenda with
  | [] => s.pass [] State.tick
  | .tick :: r => s.pass r State.tick
  | .clock c :: r => s.pass r fun s => s.clock c
  | .steer c up :: r => s.pass r fun s => s.steer c up
  | .smear w x :: r => .next (State.smear { s with agenda := r } w x)
  | .spad t n part :: r => .next (State.spadDrain { s with agenda := r } t n part)
  | .fire w idx :: r => State.fire { s with agenda := r } w idx
  | .event i :: r => if i.isWord then .next { s with agenda := r } else exec i { s with agenda := r }

/-- A block of one instruction word, its operands delivered. -/
def Blk.ofWord (w : BitVec 64) : Blk :=
  let val (sh : Shape) : Token := match sh with
    | .scalar => .s 0
    | .mask => .k 0
    | .vector => .v []
  let ops := match decode w with
    | .error _ => []
    | .ok i =>
      let one (sl : Slot) (o : Option Shape) : List (Nat × Slot × Token) := match o with
        | some sh => [(0, sl, val sh)]
        | none => []
      let p := match i.hdr?.map (·.pm) with
        | some .onTrue => [(0, Slot.p, Token.s 1)]
        | some .onFalse => [(0, Slot.p, Token.s 0)]
        | _ => []
      one .a i.sig.a ++ one .b i.sig.b ++ one .c i.sig.c ++ p
  { num := 0, cls := 0, words := [w], wr := [], nst := 1, sprange := (0, 0), live0 := allLanes, fmt0 := fmtReset, mreg0 := 0,
    start := 0, ops := ops }

/-- The state in which the next step fires the word `w` as the only instruction of a block: a new grid, region, gang, team and
seated warp of context 0 are added for it. -/
def State.withFetchWord (s : State) (nbits w : Nat) : State :=
  let x := BitVec.ofNat 64 (w % 2 ^ nbits)
  let l : LaunchRec := { flags := 0, kernel := 0, shape := 0, stroke := 0, bars := 0, args := 0, waits := [], doneVA := 0, reloc := [] }
  let g : Grid := { queue := 0, seq := 1, ctx := 0, launch := l, placed := 1, prio := 0, placedAt := 0, started := true, children := 0,
                    colls := [], done := false }
  let t : Team := { gang := s.gangs.length, idx := 0, core := 0, alloc := 0, spad := [], spPoison := [], tlc := {}, queue := [],
                    reserved := 0, jobs := [], done := false }
  let p := Warp.start s.teams.length 0 8 0 0 0 0 {}
  { s with
    grids := s.grids ++ [g],
    regions := s.regions ++ [{ grid := s.grids.length, idx := 0, die := 0, done := false }],
    gangs := s.gangs ++ [{ region := s.regions.length, idx := 0, quad := 0, st := .resident, stoppedAt := 0 }],
    teams := s.teams ++ [t],
    warps := s.warps ++ [{ p with seat := { seat := some 0 }, blk := some (Blk.ofWord x) }],
    agenda := .fire s.warps.length 0 :: s.agenda }

end Sys2Proof.Machine
end

