-- ==== Sys2Proof/Safety.lean ====
section
/-! DEFINITION. What counts as a safe run, and the terms in which claims about steps are made: when an instruction fires, what it
leaves in its block, and what a step leaves unchanged. -/

namespace Sys2Proof

/-- Every memory of the machine has its canonical form. -/
abbrev Machine.State.memOk (s : Machine.State) : Prop :=
  Machine.Memory.wf s.mem = true ∧ (∀ t ∈ s.teams, Machine.Memory.wf t.spad = true) ∧
    ∀ d ∈ s.dies, Machine.Memory.wf d.landing = true

/-- The first `n` steps from `s` each answer a next state. -/
def SafeRun (n : Nat) (s : Machine.State) : Prop := ∀ k ≤ n, ∃ t, Host.Core.run core k s = .next t

end Sys2Proof

namespace Sys2Proof.Machine

/-! Firing. -/

/-- Instruction `i`, which the step issues, is ready in block `b` of its warp with the operands `x`, and it is its turn (R39). -/
abbrev State.Fires (s : State) (i : Instr) (b : Blk) (x : Args) : Prop :=
  s.issuing? = some b ∧ readiness b s.curIdx (Instr.header i).pm i.sig = .fires x ∧ b.windowTurn s.curIdx = true

/-- Lane-array tick `k` of the issued instruction `i`, with the operands `x`, is there in block `b` (R355): the first when it fires, each later
one when it is issued again; `c` is the block with the firing noted. -/
abbrev State.Ticks (s : State) (i : Instr) (b : Blk) (x : Args) (k : Nat) (c : Blk) : Prop :=
  (s.Fires i b x ∧ b.run = none ∧ k = 0 ∧ c = s.marked b) ∨
    (s.issuing? = some b ∧ b.run = some (s.curIdx, k) ∧ x = b.args s.curIdx ∧ c = b)

/-- Whether a word takes its lane-array ticks one by one (R355). -/
def Instr.stepped : Instr → Bool
  | .mzero _ _ _ | .mma _ _ _ | .mmar _ _ _ | .mmax _ _ | .mexp _ _ | .mrescale _ _ | .mld _ _ _ | .mst _ _ _ _ => true
  | _ => false

/-- The issued instruction is not a matrix instruction, or its block has no other one under way. -/
abbrev Blk.idle (b : Blk) (i : Instr) : Prop := Instr.stepped i = true → b.run = none

/-- Nothing has been delivered to a target. -/
def Blk.open (b : Blk) (t : Target) : Bool :=
  match t with
  | .none => true
  | .opnd i sl => (b.opnd? i.toNat sl).isNone
  | .out n => (b.out? n.toNat).isNone

/-- The targets of a header are two and nothing has been delivered to them (R42). -/
abbrev Blk.Takes (b : Blk) (h : Hdr) : Prop := b.open h.t0 = true ∧ b.open h.t1 = true ∧ (h.t0 = h.t1 → h.t0 = .none)

/-- A block whose target has received a value. -/
def Blk.give (b : Blk) (t : Target) (v : Token) : Blk :=
  match t with
  | .none => b
  | .opnd i sl => { b with ops := (i.toNat, sl, v) :: b.ops }
  | .out n => { b with outs := (n.toNat, v) :: b.outs }

/-- A block whose targets `T0` and `T1` have received values (R82). -/
def Blk.give2 (b : Blk) (h : Hdr) (v0 v1 : Token) : Blk := (b.give h.t0 v0).give h.t1 v1

/-- A block in which a null token has reached the issued instruction (R41): a store-class one counts, and every target takes a null token. -/
def State.nulled (s : State) (i : Instr) (b : Blk) : Blk :=
  let c := s.marked b
  (Instr.targets i).foldl (fun d t => d.give t .null) (if Instr.storeClass i then { c with storeCount := b.storeCount + 1 } else c)

/-- A block in which the issued instruction has fired and left an effect for the commit (R101). -/
def State.deferTo (s : State) (b : Blk) (f : Deferred → Deferred) : Blk := { s.marked b with deferred := f b.deferred }

/-! What a step changes. -/

/-- A core without its event counters, which count and change nothing else (R452). -/
def Core.plain (c : Core) : Core := { c with ctrs := [] }

/-- `t` is `s` with warp `w` changed by `f`; beside it, only event counters of cores may differ. -/
def State.OnlyWarp (s : State) (w : Nat) (f : Warp → Warp) (t : State) : Prop :=
  t = { s with warps := s.warps.modify w f, cores := t.cores } ∧ t.cores.map Core.plain = s.cores.map Core.plain

/-- `t` is `s` with the block of the issuing warp replaced by `b`; beside it, only event counters of cores may differ. -/
def State.OnlyBlk (s : State) (b : Blk) (t : State) : Prop := s.OnlyWarp s.cur (fun x => { x with blk := some b }) t

/-- `t` is `s` with the issuing warp changed by `f`; beside it, only event counters of cores and the count of free values taken may differ. -/
def State.OnlyStep (s : State) (f : Warp → Warp) (t : State) : Prop :=
  t = { s with warps := s.warps.modify s.cur f, cores := t.cores, fresh := t.fresh } ∧ t.cores.map Core.plain = s.cores.map Core.plain

/-- `t` is `s` with the block of the issuing warp replaced by `b` after an access; beside it, only event counters of cores, the order in which
the translation entries were last used (R395) and the count of free values taken may differ. -/
def State.OnlyAccess (s : State) (b : Blk) (t : State) : Prop :=
  t = { s with
    warps := s.warps.modify s.cur fun x => { x with blk := some b },
    cores := t.cores, xl := { s.xl with tlb := t.xl.tlb }, fresh := t.fresh } ∧
    t.cores.map Core.plain = s.cores.map Core.plain ∧ ∀ e, e ∈ t.xl.tlb ↔ e ∈ s.xl.tlb

/-- Every lane of an access of the issuing warp passes the checks of Table 8-1a and is translated: its address is below 2^48, a multiple
of the width, and on a page that permits the access (R205), or on another package, which does not refuse it (R392; what that package answers
is a free value, log 7). -/
def State.Reaches (s : State) (acc : Acc) (rqt : Rqt) (width : Nat) (lanes : List (Nat × Nat)) : Prop :=
  ∀ p ∈ lanes, p.2 < 2 ^ 48 ∧ p.2 % width = 0 ∧
    ((∃ ph sp leaf, s.transWarp (s.place s.cur).ctx acc rqt p.2 = .ok ph sp leaf) ∨
      (∃ pk rc, s.transWarp (s.place s.cur).ctx acc rqt p.2 = .far pk rc) ∧ (Config.freeWord s.fresh).getLsbD p.1 = false)

/-- `t` keeps everything of `s` that a block may not change before it commits: memory, the teams' scratchpads, every other warp, and the
registers of the issuing warp; its block becomes `b`. -/
def State.Keeps (s : State) (b : Blk) (t : State) : Prop :=
  t.mem = s.mem ∧ t.teams.map Team.spad = s.teams.map Team.spad ∧
    t.warps = s.warps.modify s.cur fun x => { x with blk := some b }

/-- Whenever `i` fires and its targets are open, it completes: its targets receive the values of `f`, and no register, no memory and
nothing else of the machine changes. -/
def Delivers (i : Instr) (f : State → Blk → Args → Token × Token) : Prop :=
  ∀ s b x, s.Fires i b x → b.Takes (Instr.header i) →
    ∃ t, exec i s = .next t ∧ s.OnlyBlk ((s.marked b).give2 (Instr.header i) (f s b x).1 (f s b x).2) t

/-- Whenever `i` fires in a state that meets `ok`, it completes: its block is as `f` gives it, and nothing else of the machine
changes. -/
def Leaves (i : Instr) (ok : State → Blk → Args → Prop) (f : State → Blk → Args → Blk) : Prop :=
  ∀ s b x, s.Fires i b x → ok s b x → ∃ t, exec i s = .next t ∧ s.OnlyBlk (f s b x) t

/-- Whenever `i` fires in a state that meets `ok`, it completes: its accesses are checked and its block is as `f` gives it; nothing else of the
machine changes but what the translation notes. -/
def Accesses (i : Instr) (ok : State → Blk → Args → Prop) (f : State → Blk → Args → Blk) : Prop :=
  ∀ s b x, s.Fires i b x → ok s b x → ∃ t, exec i s = .next t ∧ s.OnlyAccess (f s b x) t

/-- The machine has its eight compute dies, 64 launch queues and 256 contexts, and every grid belongs to one of those contexts. -/
abbrev State.shapeOk (s : State) : Prop :=
  s.dies.length = 8 ∧ s.queues.length = 64 ∧ s.ctxs.length = 256 ∧ ∀ g ∈ s.grids, g.ctx < 256

/-- Whenever `i` fires in a state that meets `no`, it raises a fault of the given code, detail and index: its warp is parked, its block has
aborted, and no register and no memory has changed (R419, R421). -/
def FaultsAt (i : Instr) (no : State → Blk → Args → Prop) (code detail : Nat) (index : State → Blk → Nat) : Prop :=
  ∀ s b x, s.shapeOk → s.Fires i b x → no s b x → ∃ t, exec i s = .next t ∧
    t.mem = s.mem ∧ t.blk? s.cur = none ∧ (t.warp s.cur).park.fault = true ∧
    (t.warp s.cur).v = (s.warp s.cur).v ∧ (t.warp s.cur).s = (s.warp s.cur).s ∧ (t.warp s.cur).k = (s.warp s.cur).k ∧
    ∃ f, (t.ctx (s.place s.cur).ctx).hubq.getLast? = some f ∧ f.code = code ∧ f.detail = detail ∧ f.index = index s b ∧
      f.wid = some s.cur

/-- A fault whose `INDEX` names the instruction itself. -/
def Faults (i : Instr) (no : State → Blk → Args → Prop) (code detail : Nat) : Prop :=
  FaultsAt i no code detail fun s _ => s.curIdx

/-- One value for both targets. -/
def twice (v : Token) : Token × Token := (v, v)

/-- The registers of a warp that a commit writes: vector, scalar, mask, `fmt`, `mreg` and `WST` (Table 2-2). -/
def Warp.regs (x : Warp) : List Vec × List Word × List Word × Word × Word × Word := (x.v, x.s, x.k, x.fmt, x.mreg, x.wst)

/-- Every warp has 64 scalar and 16 mask registers, and `s0` and `k0` hold their fixed values (Table 2-2). -/
abbrev State.fixedOk (s : State) : Prop :=
  ∀ x ∈ s.warps, x.s.length = 64 ∧ x.s.getD 0 0 = 0 ∧ x.k.length = 16 ∧ x.k.getD 0 0 = allLanes

/-- The block of warp `w` commits: it is complete, nothing of it is under way, in a timed launch its tick is there, no `ret` and no read of a
fault record waits, and its warp holds a seat (R43, R45, R171). -/
abbrev State.Commits (s : State) (w : Nat) (b : Blk) : Prop :=
  s.blk? w = some b ∧ (s.warp w).seat.seat.isSome = true ∧ b.complete = true ∧ b.quiet = true ∧ s.ended w b = true ∧
    s.retHeld w b = false ∧ s.recordHeld b = false

/-- The block's branch names a block that is present, the warp has live lanes, and that block is not where its paths join: the warp goes on
there, with its lanes and its stack as they are (R54). -/
abbrev State.GoesTo (s : State) (w : Nat) (b : Blk) (n : Nat) : Prop :=
  b.branch.map (·.2) = some (.goto n) ∧ s.hasBlock w n = true ∧ (s.warp w).live ≠ 0 ∧ (s.warp w).cj ≠ some n

/-! Floating-point values, as rational numbers. -/

/-- A code of FP32 that is no infinity and no NaN (Table 13-2). -/
def fpFinite (x : Lane) : Bool := x.extractLsb' 23 8 != 255#8

/-- A code of FP32 that is a NaN (Table 13-2). -/
def fpNan (x : Lane) : Bool := x.extractLsb' 23 8 == 255#8 && x.extractLsb' 0 23 != 0#23

/-- The exact value of a finite code of FP32, from its fields (R299). -/
def fpVal (x : Lane) : ℚ :=
  let e : ℕ := (x.extractLsb' 23 8).toNat
  let m : ℚ := ((x.extractLsb' 0 23).toNat : ℚ) / 2 ^ 23
  (if x.getLsbD 31 then -1 else 1) * (if e = 0 then m * 2 ^ (-126 : ℤ) else (1 + m) * 2 ^ ((e : ℤ) - 127))

/-- The largest finite value of FP32. -/
def fpMax : ℚ := (2 - 2 ^ (-23 : ℤ)) * 2 ^ (127 : ℤ)

/-- `r` is what a non-zero value `v` within the range of FP32 rounds to in a mode of `fmt.RND`, said of all finite codes (R307): the sign is kept, the
directed modes take the next code on their side, and the nearest mode takes the nearest code, of two the one whose code is even. -/
def Rounds (mode : RM) (v : ℚ) (r : Lane) : Prop :=
  fpFinite r = true ∧ r.getLsbD 31 = decide (v < 0) ∧
  match mode with
  | .rtz => |fpVal r| ≤ |v| ∧ ∀ c, fpFinite c = true → |fpVal c| ≤ |v| → |fpVal c| ≤ |fpVal r|
  | .rup => v ≤ fpVal r ∧ ∀ c, fpFinite c = true → v ≤ fpVal c → fpVal r ≤ fpVal c
  | .rdn => fpVal r ≤ v ∧ ∀ c, fpFinite c = true → fpVal c ≤ v → fpVal c ≤ fpVal r
  | _ => ∀ c, fpFinite c = true → |fpVal r - v| ≤ |fpVal c - v| ∧
      (|fpVal r - v| = |fpVal c - v| → fpVal c ≠ fpVal r → r.getLsbD 0 = false)

/-- The code of an overflow with the sign `neg` in a mode of `fmt.RND` (Table 13-7). -/
def fpOver (mode : RM) (neg : Bool) : Lane :=
  match mode with
  | .rtz => if neg then 0xFF7FFFFF else 0x7F7FFFFF
  | .rup => if neg then 0xFF7FFFFF else 0x7F800000
  | .rdn => if neg then 0xFF800000 else 0x7F7FFFFF
  | _ => if neg then 0xFF800000 else 0x7F800000

/-- A value is rounded once into FP32: `r` is its rounding within the range, and the outcome of an overflow from 2^128 on (R306 to R308). -/
def RoundsOnce (mode : RM) (v : ℚ) (r : Lane) : Prop :=
  (v ≠ 0 → |v| ≤ fpMax → Rounds mode v r) ∧ (2 ^ (128 : ℤ) ≤ |v| → r = fpOver mode (decide (v < 0)))

/-- Warp `w` is parked on a fault that `t` has raised since `s`: its block has aborted, its registers, its trap state and memory are as
they were, and the last record at the hub has the given code, detail and index (R419, R421). -/
def State.ParkedOn (s t : State) (w code detail index : Nat) : Prop :=
  t.mem = s.mem ∧ t.blk? w = none ∧ (t.warp w).park.fault = true ∧ (t.warp w).regs = (s.warp w).regs ∧
    (t.warp w).trap = (s.warp w).trap ∧
    ∃ f, (t.ctx (s.place w).ctx).hubq.getLast? = some f ∧ f.code = code ∧ f.detail = detail ∧ f.index = index ∧ f.wid = some w

/-- The addresses of the entries that a walk to a 64 KiB page reads (Table 19-3), when the space has a root. -/
def State.walkPath (s : State) (home space va : Nat) : List Nat :=
  match s.root? home space with
  | none => []
  | some r =>
    let a0 := r + 8 * (va / 2 ^ 39 % 512)
    let a1 := pteAddr (s.pte home a0) + 8 * (va / 2 ^ 30 % 512)
    let a2 := pteAddr (s.pte home a1) + 8 * (va / 2 ^ 21 % 512)
    [a0, a1, a2, pteAddr (s.pte home a2) + 8 * (va / 2 ^ 16 % 32)]

/-- Every table on the way to a 64 KiB page is there, and the entries are different places. -/
abbrev State.hasPath (s : State) (home space va : Nat) : Prop :=
  (s.walkPath home space va).Nodup ∧ (s.walkPath home space va).length = 4 ∧
    ∀ a ∈ (s.walkPath home space va).take 3, pteV (s.pte home a) = true ∧ (a = (s.walkPath home space va).getD 0 0 ∨ pteLeaf (s.pte home a) = false)

end Sys2Proof.Machine
end

