-- ==== Sys2Proof/Laws/Firing.lean ====
section
/-! SUPPORT. What firing an instruction does: counting changes only counters, delivery fills targets, and the meanings of one shape
share one law each. -/

namespace Sys2Proof.Machine

theorem EvCtr.plain_map (c : Core) (l : List EvCtr) : Core.plain { c with ctrs := l } = Core.plain c := rfl

/-- Counting on a core changes event counters only (R452). -/
theorem State.countCore_only (s : State) (d c src ctx n : Nat) :
    ∃ l, s.countCore d c src ctx n = { s with cores := l } ∧ l.map Core.plain = s.cores.map Core.plain := by
  unfold State.countCore
  by_cases h : (s.core d c).ctrs.isEmpty = true
  · exact ⟨s.cores, by simp [h], rfl⟩
  · have hany : (s.cores.any fun x => x.die == d && x.core == c) = true := by
      by_contra hn
      apply h
      have : s.cores.find? (fun x => x.die == d && x.core == c) = none := by
        rw [List.find?_eq_none]
        intro x hx hp
        exact hn (List.any_eq_true.mpr ⟨x, hx, hp⟩)
      simp [State.core, this]
    refine ⟨s.cores.map fun x => if x.die == d && x.core == c then
      { x with ctrs := x.ctrs.map fun e => e.add src ctx n } else x, ?_, ?_⟩
    · simp [h, State.modCore, hany]
    · rw [List.map_map]
      apply List.map_congr_left
      intro x _
      simp only [Function.comp]
      split <;> rfl

/-- Counting an event of a warp's core changes event counters only (R452). -/
theorem State.countW_only (s : State) (w src n : Nat) :
    ∃ l, s.countW w src n = { s with cores := l } ∧ l.map Core.plain = s.cores.map Core.plain := by
  unfold State.countW
  by_cases h : n = 0
  · exact ⟨s.cores, by simp [h], rfl⟩
  · simp only [h, if_false]
    exact s.countCore_only _ _ _ _ _

/-- A warp with a block is one of the machine's. -/
theorem State.blk?_modWarp (s : State) (w : Nat) (f : Warp → Warp) (b : Blk) (h : s.blk? w = some b) :
    (s.modWarp w f).blk? w = (s.warps[w]?).bind fun x => (f x).blk := by
  unfold State.blk? at h ⊢
  unfold State.modWarp
  cases hw : s.warps[w]? with
  | none => simp [hw] at h
  | some x => simp [hw]

/-- Changing a block changes what the warp holds. -/
theorem State.blk?_modBlk (s : State) (w : Nat) (f : Blk → Blk) (b : Blk) (h : s.blk? w = some b) :
    (s.modBlk w f).blk? w = some (f b) := by
  unfold State.modBlk
  rw [s.blk?_modWarp w _ b h]
  unfold State.blk? at h
  cases hw : s.warps[w]? with
  | none => simp [hw] at h
  | some x => simp only [hw, Option.bind_some] at h ⊢; simp [h]

/-- Two changes of a block act one after the other. -/
theorem State.modBlk_modBlk (s : State) (w : Nat) (f g : Blk → Blk) :
    (s.modBlk w f).modBlk w g = s.modBlk w fun b => g (f b) := by
  unfold State.modBlk State.modWarp
  simp only [List.modify_modify_eq, Function.comp_def, Option.map_map]

/-- A change of a block that is known replaces it. -/
theorem State.modBlk_eq (s : State) (w : Nat) (f : Blk → Blk) (b : Blk) (h : s.blk? w = some b) :
    s.modBlk w f = { s with warps := s.warps.modify w fun x => { x with blk := some (f b) } } := by
  unfold State.modBlk State.modWarp
  unfold State.blk? at h
  cases hw : s.warps[w]? with
  | none => simp [hw] at h
  | some x =>
    simp only [hw, Option.bind_some] at h
    congr 1
    apply List.ext_getElem?
    intro i
    simp only [List.getElem?_modify]
    by_cases hi : w = i
    · subst hi; simp [hw, h]
    · simp [hi]

/-- Delivery to an open target fills it and changes nothing else (R42). -/
theorem State.deliver_open (s : State) (w p : Nat) (t : Target) (v : Token) (b : Blk) (h : s.blk? w = some b)
    (ho : b.open t = true) : s.deliver w p t v = s.modBlk w fun b => b.give t v := by
  unfold State.deliver
  rw [h]
  cases t with
  | none =>
    rw [s.modBlk_eq w _ b h]
    unfold State.blk? at h
    cases hw : s.warps[w]? with
    | none => simp [hw] at h
    | some x =>
      simp only [hw, Option.bind_some] at h
      have : s.warps.modify w (fun x => { x with blk := some (b.give .none v) }) = s.warps := by
        apply List.ext_getElem?
        intro i
        simp only [List.getElem?_modify]
        by_cases hi : w = i
        · subst hi; simp [hw, Blk.give, ← h]
        · simp [hi]
      rw [this]
  | opnd i sl =>
    simp only [Blk.open, Option.isNone_iff_eq_none] at ho
    simp [ho, Blk.give]
  | out n =>
    simp only [Blk.open, Option.isNone_iff_eq_none] at ho
    simp [ho, Blk.give]

/-- A target stays open when another one is filled. -/
theorem Blk.open_give (b : Blk) (t u : Target) (v : Token) (hu : b.open u = true) (hne : t = u → t = .none) :
    (b.give t v).open u = true := by
  cases t with
  | none => exact hu
  | opnd i sl =>
    cases u with
    | none => rfl
    | out n => exact hu
    | opnd j sm =>
      have hd : ¬ (i = j ∧ sl = sm) := fun e => by simp [e.1, e.2] at hne
      simp only [Blk.give, Blk.open, Blk.opnd?, Option.isNone_iff_eq_none, Option.map_eq_none_iff] at hu ⊢
      rw [List.find?_cons_of_neg]
      · exact hu
      · simp only [Bool.and_eq_true, beq_iff_eq, not_and]
        intro e1 e2
        exact hd ⟨BitVec.toNat_inj.mp e1, e2⟩
  | out n =>
    cases u with
    | none => rfl
    | opnd j sm => exact hu
    | out m =>
      have hd : ¬ n = m := fun e => by simp [e] at hne
      simp only [Blk.give, Blk.open, Blk.out?, Option.isNone_iff_eq_none, Option.map_eq_none_iff] at hu ⊢
      rw [List.find?_cons_of_neg]
      · exact hu
      · simp only [beq_iff_eq]
        exact fun e1 => hd (BitVec.toNat_inj.mp e1)

/-- Delivery to both targets of a header fills them and changes nothing else (R82). -/
theorem State.deliver2_open (s : State) (w p : Nat) (hd : Hdr) (v0 v1 : Token) (b : Blk) (h : s.blk? w = some b)
    (ht : b.Takes hd) : s.deliver2 w p hd v0 v1 = s.modBlk w fun b => b.give2 hd v0 v1 := by
  unfold State.deliver2
  rw [s.deliver_open w p hd.t0 v0 b h ht.1]
  rw [State.deliver_open _ w p hd.t1 v1 (b.give hd.t0 v0) (s.blk?_modBlk w _ b h) (b.open_give _ _ _ ht.2.1 ht.2.2)]
  rw [State.modBlk_modBlk]
  rfl

/-- A block that issues is the one its warp holds. -/
theorem State.blk?_of_issuing (s : State) (b : Blk) (h : s.issuing? = some b) : s.blk? s.cur = some b := by
  unfold State.issuing? at h
  split at h
  · exact h
  · simp at h

/-- An instruction that fires does what its meaning gives for firing. -/
theorem State.issue_fires (s : State) (i : Instr) (h : Hdr) (hh : i.hdr? = some h) (g : Blk → Bool) (n : State → State)
    (f : Blk → Args → State → State) (b : Blk) (x : Args) (hf : s.Fires i b x) (hg : g b = true) :
    s.issue i g n f = f b x s.markFired := by
  obtain ⟨h1, h2, h3⟩ := hf
  have e : Instr.header i = h := by simp [Instr.header, hh]
  rw [e] at h2
  unfold State.issue
  simp [h1, hh, h2, h3, hg]

/-- An instruction whose predicate does not match consumes its operands and produces nothing (R40). -/
theorem State.issue_skips (s : State) (i : Instr) (h : Hdr) (hh : i.hdr? = some h) (g : Blk → Bool) (n : State → State)
    (f : Blk → Args → State → State) (b : Blk) (hi : s.issuing? = some b) (hr : readiness b s.curIdx h.pm i.sig = .skips) :
    s.issue i g n f = s.modBlk s.cur fun b => { b with dropped := s.curIdx :: b.dropped } := by
  unfold State.issue
  simp [hi, hh, hr]

/-- A change of the issuing warp's block, with events counted, changes nothing else. -/
theorem State.only_of_countW (s : State) (b : Blk) (h : s.blk? s.cur = some b) (src n : Nat) (f g : Blk → Blk) (w' : Nat) :
    s.OnlyBlk (g (f b)) (((s.modBlk s.cur f).countW w' src n).modBlk s.cur g) := by
  obtain ⟨l, hl, hp⟩ := (s.modBlk s.cur f).countW_only w' src n
  rw [hl]
  have e1 : ({ s.modBlk s.cur f with cores := l } : State).modBlk s.cur g
      = { (s.modBlk s.cur f).modBlk s.cur g with cores := l } := rfl
  rw [e1, State.modBlk_modBlk, s.modBlk_eq s.cur _ b h]
  exact ⟨rfl, hp⟩

/-- Every meaning of the value shape delivers (R82). -/
theorem execValue_delivers (i : Instr) (h : Hdr) (hh : i.hdr? = some h) (lane : Nat) (f : Blk → Args → Token × Token) (s : State)
    (b : Blk) (x : Args) (hf : s.Fires i b x) (ht : b.Takes (Instr.header i)) :
    ∃ t, execValue i lane f s = .next t ∧
      s.OnlyBlk ((s.marked b).give2 (Instr.header i) (f b x).1 (f b x).2) t := by
  refine ⟨_, rfl, ?_⟩
  rw [s.issue_fires i h hh _ _ _ b x hf rfl]
  have hb := s.blk?_of_issuing b hf.1
  obtain ⟨l, hl, hp⟩ := s.markFired.countW_only s.cur 4 lane
  have hb2 : (s.markFired.countW s.cur 4 lane).blk? s.cur = some (s.marked b) := by
    rw [hl]; exact s.blk?_modBlk s.cur _ b hb
  have hc : s.markFired.cur = s.cur := rfl
  have hci : s.markFired.curIdx = s.curIdx := rfl
  simp only [hc]
  have key := State.deliver2_open (s.markFired.countW s.cur 4 lane) s.cur s.curIdx (Instr.header i) (f b x).1 (f b x).2 _ hb2 ht
  have e2 : (s.markFired.countW s.cur 4 lane).cur = s.cur := by rw [hl]; rfl
  have e3 : (s.markFired.countW s.cur 4 lane).curIdx = s.curIdx := by rw [hl]; rfl
  simp only [hci]
  rw [key]
  exact s.only_of_countW b hb 4 lane (fun b => s.marked b) _ s.cur

/-- Every meaning without a result that changes only its block leaves the rest of the machine (R99). -/
theorem execQuiet_leaves (i : Instr) (h : Hdr) (hh : i.hdr? = some h) (f : Blk → Args → State → State) (g : Blk → Blk) (s : State)
    (b : Blk) (x : Args) (hf : s.Fires i b x) (he : f b x s.markFired = s.markFired.modBlk s.cur g) :
    ∃ t, execQuiet i f s = .next t ∧ s.OnlyBlk (g (s.marked b)) t := by
  refine ⟨_, rfl, ?_⟩
  rw [s.issue_fires i h hh _ _ _ b x hf rfl, he]
  have hb := s.blk?_of_issuing b hf.1
  unfold State.markFired
  rw [State.modBlk_modBlk, s.modBlk_eq s.cur _ b hb]
  exact ⟨rfl, rfl⟩

end Sys2Proof.Machine
end

