-- ==== Sys2Proof/Certificates/Slice0/Obligations.lean ====
section
/-! DEFINITION. The statements about the model that are to be proved. -/

open Sys2Proof Sys2Proof.Machine

/-! Instruction words that deliver values. Each clause says of one instruction that, whenever it fires, it completes with the values
given, and that no register, no memory and nothing else of the machine changes (event counters of cores aside, R452). -/

/-- R83, R102 to R106: `nop` has no effect; `mov`, `fan`, `const`, `consth` and `null` deliver their value, `fan` to four targets; a
`hint` changes nothing (R88). -/
def Obligations.MovingAndBuildingValues : Prop :=
  (∀ h, Leaves (.nop h) (fun _ _ _ => True) fun s b _ => s.marked b) ∧
  (∀ h sh, Delivers (.mov h sh) fun _ _ x => twice x.a) ∧
  (∀ h sh t2 t3, Leaves (.fan h sh t2 t3)
    (fun _ b _ => b.Takes h ∧ b.open t2 = true ∧ b.open t3 = true ∧ ∀ t ∈ [h.t0, h.t1, t2, t3], t = .none ∨ [h.t0, h.t1, t2, t3].count t = 1)
    fun s b x => (((s.marked b).give2 h x.a x.a).give t2 x.a).give t3 x.a) ∧
  (∀ h imm, Delivers (.const h imm) fun _ _ _ => twice (.s (imm.signExtend 64))) ∧
  (∀ h imm, Delivers (.consth h false imm) fun _ _ x => twice (.s (x.sa.extractLsb' 56 8 ++ imm ++ x.sa.extractLsb' 0 28))) ∧
  (∀ h imm, Delivers (.consth h true imm) fun _ _ x => twice (.s (imm.extractLsb' 0 8 ++ x.sa.extractLsb' 0 56))) ∧
  (∀ h, Delivers (.null h) fun _ _ _ => twice .null) ∧
  (∀ a b p s, exec (.hint a b p) s = .next s)

/-- Table 4-2, R107 to R111: the scalar instructions, with slot b a scalar or the sign-extended immediate; the conditions of `scmp` compare signed or
unsigned numbers (Table 4-4); `ssel` delivers b when a is not 0 and c when it is, waits until all three have arrived, and has no immediate and no
modifier. -/
def Obligations.ScalarInstructions : Prop :=
  (∀ h im, Delivers (.sadd h im) fun _ _ x => twice (.s (x.sa + x.sb im))) ∧
  (∀ h im, Delivers (.ssub h im) fun _ _ x => twice (.s (x.sa - x.sb im))) ∧
  (∀ h im, Delivers (.smul h im) fun _ _ x => twice (.s (x.sa * x.sb im))) ∧
  (∀ h im, Delivers (.smulh h .i64 im) fun _ _ x => twice (.s (BitVec.ofInt 64 (x.sa.toInt * (x.sb im).toInt / 2 ^ 64)))) ∧
  (∀ h im, Delivers (.smulh h .n64 im) fun _ _ x => twice (.s (BitVec.ofNat 64 (x.sa.toNat * (x.sb im).toNat / 2 ^ 64)))) ∧
  (∀ h im, Delivers (.sdiv h .i64 im) fun _ _ x => twice (.s (if x.sb im = 0 then allLanes else x.sa.sdiv (x.sb im)))) ∧
  (∀ h im, Delivers (.sdiv h .n64 im) fun _ _ x => twice (.s (if x.sb im = 0 then allLanes else x.sa / x.sb im))) ∧
  (∀ h im, Delivers (.srem h .i64 im) fun _ _ x => twice (.s (if x.sb im = 0 then x.sa else x.sa.srem (x.sb im)))) ∧
  (∀ h im, Delivers (.srem h .n64 im) fun _ _ x => twice (.s (if x.sb im = 0 then x.sa else x.sa % x.sb im))) ∧
  (∀ h im, Delivers (.sand h im) fun _ _ x => twice (.s (x.sa &&& x.sb im))) ∧
  (∀ h im, Delivers (.sor h im) fun _ _ x => twice (.s (x.sa ||| x.sb im))) ∧
  (∀ h im, Delivers (.sxor h im) fun _ _ x => twice (.s (x.sa ^^^ x.sb im))) ∧
  (∀ h im, Delivers (.sshl h im) fun _ _ x => twice (.s (x.sa <<< ((x.sb im).toNat % 64)))) ∧
  (∀ h im, Delivers (.sshr h im) fun _ _ x => twice (.s (x.sa >>> ((x.sb im).toNat % 64)))) ∧
  (∀ h im, Delivers (.ssra h im) fun _ _ x => twice (.s (x.sa.sshiftRight ((x.sb im).toNat % 64)))) ∧
  (∀ h im, Delivers (.smin h .i64 im) fun _ _ x => twice (.s (if x.sa.toInt ≤ (x.sb im).toInt then x.sa else x.sb im))) ∧
  (∀ h im, Delivers (.smin h .n64 im) fun _ _ x => twice (.s (if x.sa ≤ x.sb im then x.sa else x.sb im))) ∧
  (∀ h im, Delivers (.smax h .i64 im) fun _ _ x => twice (.s (if x.sa.toInt ≤ (x.sb im).toInt then x.sb im else x.sa))) ∧
  (∀ h im, Delivers (.smax h .n64 im) fun _ _ x => twice (.s (if x.sa ≤ x.sb im then x.sb im else x.sa))) ∧
  (∀ h sc im, Delivers (.lea h sc im) fun _ _ x => twice (.s (x.sa + x.sb im * BitVec.ofNat 64 (2 ^ sc.val)))) ∧
  (∀ h c im, Delivers (.scmp h c im) fun _ _ x => twice (.s (if scondHolds c x.sa (x.sb im) then 1 else 0))) ∧
  (∀ a b : Word,
      (scondHolds .eq a b = true ↔ a = b) ∧ (scondHolds .ne a b = true ↔ a ≠ b) ∧
      (scondHolds .lt a b = true ↔ a.toInt < b.toInt) ∧ (scondHolds .le a b = true ↔ a.toInt ≤ b.toInt) ∧
      (scondHolds .gt a b = true ↔ b.toInt < a.toInt) ∧ (scondHolds .ge a b = true ↔ b.toInt ≤ a.toInt) ∧
      (scondHolds .ltn a b = true ↔ a.toNat < b.toNat) ∧ (scondHolds .len a b = true ↔ a.toNat ≤ b.toNat) ∧
      (scondHolds .gtn a b = true ↔ b.toNat < a.toNat) ∧ (scondHolds .gen a b = true ↔ b.toNat ≤ a.toNat)) ∧
  (∀ h, (Instr.ssel h).sig.a = some .scalar ∧ (Instr.ssel h).sig.b = some .scalar ∧ (Instr.ssel h).sig.c = some .scalar) ∧
  (∀ h, Delivers (.ssel h) fun _ _ x => twice (.s (if x.sa ≠ 0 then x.b.word else x.sc))) ∧
  (∀ h s b sl, s.issuing? = some b → sl ≠ .p → b.opnd? s.curIdx sl = none → exec (.ssel h) s = .next s) ∧
  (∀ w, wOpc w = 0x016 → wTy w ≠ 0 ∨ w.getLsbD 28 = true → ∃ e, decode w = .error e)

/-- R112 and R114, whole, and R120, whole: `sclz` and `spopc` count bits, `kmov` changes the shape of a value, and `fmtrd` delivers
`fmt` as it stood at block start, which the special read slot 0 delivers too; reserved fields are refused. -/
def Obligations.CountingShapeAndFormat : Prop :=
  (∀ h, Delivers (.sclz h) fun _ _ x => twice (.s (BitVec.ofNat 64 (clz64 x.sa)))) ∧
  (∀ a : Word, clz64 a ≤ 64 ∧ (∀ i < clz64 a, a.getMsbD i = false) ∧ (clz64 a < 64 → a.getMsbD (clz64 a) = true)) ∧
  (∀ h, Delivers (.spopc h) fun _ _ x => twice (.s (BitVec.ofNat 64 ((List.range 64).countP fun i => x.sa.getLsbD i)))) ∧
  (∀ h, Delivers (.kmov h false) fun _ _ x => twice (.s x.sa)) ∧
  (∀ h, Delivers (.kmov h true) fun _ _ x => twice (.k x.sa)) ∧
  (∀ h, (Instr.kmov h false).sig.a = some .mask ∧ (Instr.kmov h true).sig.a = some .scalar) ∧
  (∀ h, (Instr.sclz h).sig.a = some .scalar ∧ (Instr.spopc h).sig.a = some .scalar) ∧
  (∀ h, (Instr.fmtrd h).sig.a = none ∧ (Instr.fmtrd h).sig.b = none ∧ (Instr.fmtrd h).sig.c = none) ∧
  (∀ h, Delivers (.fmtrd h) fun _ b _ => twice (.s b.fmt0)) ∧
  (∀ (s : State) w m b, (s.startBlock w m).blk? w = some b → b.fmt0 = (s.warp w).fmt) ∧
  (∀ (x : Warp) (r : RSlot), r.cls = 3 → r.reg = 0 → x.readSlot r = .s x.fmt) ∧
  (∀ w, wOpc w = 0x01F → 2 ≤ (wTy w).toNat → ∃ e, decode w = .error e) ∧
  (∀ w, wOpc w = 0x017 ∨ wOpc w = 0x018 ∨ wOpc w = 0x023 → wTy w ≠ 0 ∨ w.extractLsb' 0 28 ≠ 0 → ∃ e, decode w = .error e)

/-- Tables 4-5 and 4-6: the mask instructions, and `vote` over the live lanes. Table 4-7: `sysrd` delivers the selected value of the issuing warp; `wstclr` also asks the commit to clear `WST` (R116, R118).
`ctxctl trrd` delivers the trap word that a mod 4 selects, or 0 outside trap mode (R435). -/
def Obligations.MasksVoteAndSysrd : Prop :=
  (∀ h im, Delivers (.kand h im) fun _ _ x => twice (.k (x.sa &&& x.sb im))) ∧
  (∀ h im, Delivers (.kor h im) fun _ _ x => twice (.k (x.sa ||| x.sb im))) ∧
  (∀ h im, Delivers (.kxor h im) fun _ _ x => twice (.k (x.sa ^^^ x.sb im))) ∧
  (∀ h im, Delivers (.kandn h im) fun _ _ x => twice (.k (x.sa &&& ~~~x.sb im))) ∧
  (∀ h, Delivers (.kcnt h) fun _ _ x => twice (.s (BitVec.ofNat 64 ((List.range 64).countP fun i => x.sa.getLsbD i)))) ∧
  (∀ h, Delivers (.kff h) fun _ _ x => twice (.s (BitVec.ofNat 64 (((List.range 64).find? fun i => x.sa.getLsbD i).getD 64)))) ∧
  (∀ h, Delivers (.vote h .any) fun _ b x =>
    twice (.s (if ∃ l ∈ List.range 64, b.live0.getLsbD l = true ∧ x.va.lane l ≠ 0 then 1 else 0))) ∧
  (∀ h, Delivers (.vote h .all) fun _ b x =>
    twice (.s (if ∀ l ∈ List.range 64, b.live0.getLsbD l = true → x.va.lane l ≠ 0 then 1 else 0))) ∧
  (∀ h, Delivers (.vote h .uni) fun _ b x =>
    twice (.s (if ∀ l ∈ List.range 64, ∀ m ∈ List.range 64, b.live0.getLsbD l = true → b.live0.getLsbD m = true →
      x.va.lane l = x.va.lane m then 1 else 0))) ∧
  (∀ h, Delivers (.vote h .ballot) fun _ b x =>
    twice (.k (maskTab fun l => b.live0.getLsbD l && x.va.lane l != 0))) ∧
  (∀ h imm, Delivers (.sysrd h .laneid imm) fun _ _ _ => twice (.v (Vec.tab fun l => BitVec.ofNat 32 l))) ∧
  (∀ h imm, Delivers (.sysrd h .warpid imm) fun s _ _ => twice (.s (BitVec.ofNat 64 (s.warp s.cur).idx))) ∧
  (∀ h imm, Delivers (.sysrd h .live imm) fun s _ _ => twice (.k (s.warp s.cur).live)) ∧
  (∀ h imm, Delivers (.sysrd h .tickl imm) fun s _ _ => twice (.s (BitVec.ofNat 64 (s.localTick (s.place s.cur).die)))) ∧
  (∀ h imm, Delivers (.sysrd h .tickr imm) fun s _ _ => twice (.s (BitVec.ofNat 64 (s.reconTick (s.place s.cur).die)))) ∧
  (∀ h imm, Delivers (.sysrd h .wst imm) fun s _ _ => twice (.s (s.warp s.cur).wst)) ∧
  (∀ h imm, Delivers (.sysrd h .ctxid imm) fun s _ _ => twice (.s (BitVec.ofNat 64 (s.place s.cur).ctx))) ∧
  (∀ h imm, Delivers (.sysrd h .feat3 imm) fun _ _ _ => twice (.s 0x0014400600200820)) ∧
  (∀ h sel imm, sel ≠ .wstclr → Delivers (.sysrd h sel imm) fun s _ _ => twice (sysrdVal s sel imm)) ∧
  (∀ h imm, Leaves (.sysrd h .wstclr imm) (fun _ b _ => b.Takes h) fun s b _ =>
    { (s.marked b).give2 h (.s (s.warp s.cur).wst) (.s (s.warp s.cur).wst) with deferred := { b.deferred with wstclr := true } }) ∧
  (∀ h, Delivers (.ctxctlTrrd h) fun s _ x =>
    let t := (s.warp s.cur).trap
    twice (.s (if t.on = false then 0 else if x.sa.toNat % 4 = 0 then t.tr0 else if x.sa.toNat % 4 = 1 then t.tr1
      else if x.sa.toNat % 4 = 2 then t.tret else t.tlive)))

/-! Instructions whose effect waits for the commit of their block (R101). -/

/-- What `fmtset`, `bar`, `yield`, `trap`, `brk`, `tlwait`, `mmode`, `fence`, `stroke`, `syswr`, `perfctl` and `ctxctl tret` leave for
their block's commit (R119, R126 to R129, R363, R222, R167, R436, R453, R435); the first branch to fire gives its block the successor
(Table 4-8, R434). -/
def Obligations.EffectsWaitForCommit : Prop :=
  (∀ h f, Leaves (.fmtset h f) (fun _ b _ => b.deferred.fmt = none) fun s b x =>
    s.deferTo b fun d => { d with fmt := some (s.curIdx, f, x.sa) }) ∧
  (∀ h sc id, Leaves (.bar h sc id) (fun _ b _ => b.deferred.bar = none) fun s b _ =>
    s.deferTo b fun d => { d with bar := some (s.curIdx, sc, id.toNat) }) ∧
  (∀ h, Leaves (.yield h) (fun _ _ _ => True) fun s b _ => s.deferTo b fun d => { d with yield := true }) ∧
  (∀ h n p, Leaves (.trap h n p) (fun _ b _ => b.deferred.trap = none) fun s b _ =>
    s.deferTo b fun d => { d with trap := some (s.curIdx, n.toNat, p.toNat) }) ∧
  (∀ h p, Leaves (.brk h p) (fun _ b _ => b.deferred.trap = none) fun s b _ =>
    s.deferTo b fun d => { d with trap := some (s.curIdx, 256, p.toNat) }) ∧
  (∀ h, Leaves (.tlwait h .tlc) (fun _ _ _ => True) fun s b x =>
    s.deferTo b fun d => { d with waits := d.waits ++ [{ ctr := .tlc (s.warp s.cur).team, n := x.sa.toNat }] }) ∧
  (∀ h, Leaves (.tlwait h .tlk) (fun _ _ _ => True) fun s b x =>
    s.deferTo b fun d => { d with waits := d.waits ++ [{ ctr := .tlk (s.place s.cur).ctx, n := x.sa.toNat }] }) ∧
  (∀ h q, Leaves (.tlwait h (.tll q)) (fun s _ _ => fld (s.queue q.toNat).ctl 0 8 = (s.place s.cur).ctx) fun s b x =>
    s.deferTo b fun d => { d with waits := d.waits ++ [{ ctr := .tll q.toNat, n := x.sa.toNat }] }) ∧
  (∀ h on en1 a0 a1, Leaves (.mmode h on en1 a0 a1) (fun _ b _ => b.deferred.mmode = none) fun s b _ =>
    s.deferTo b fun d => { d with mmode := some (s.curIdx, on, en1, a0.toNat, a1.toNat) }) ∧
  (∀ h sc xp, Leaves (.fence h sc xp) (fun _ b _ => b.deferred.fence = none) fun s b _ =>
    s.deferTo b fun d => { d with fence := some (sc, xp) }) ∧
  (∀ h sc xp c y, Leaves (.fence h sc xp) (fun _ b _ => b.deferred.fence = some (c, y)) fun s b _ =>
    s.deferTo b fun d => { d with fence := some (if c.code.toNat < sc.code.toNat then sc else c, y || xp) }) ∧
  (∀ h sl, Leaves (.stroke h sl) (fun _ b _ => b.deferred.stroke = none) fun s b _ =>
    s.deferTo b fun d => { d with stroke := some (s.curIdx, sl) }) ∧
  (∀ h r, Leaves (.syswr h r) (fun s _ _ => (s.place s.cur).ctx = 0) fun s b x =>
    s.deferTo b fun d => { d with syswr := d.syswr ++ [(r, x.sa)] }) ∧
  (∀ h n, Leaves (.perfctlCfg h n) (fun s b _ => (s.place s.cur).ctx = 0 ∧ ∀ p ∈ b.deferred.perf, p.1 ≠ n.toNat) fun s b x =>
    s.deferTo b fun d => { d with perf := d.perf ++ [(n.toNat, .cfg x.sa)] }) ∧
  (∀ h n, Leaves (.perfctlClr h n) (fun s b _ => (s.place s.cur).ctx = 0 ∧ ∀ p ∈ b.deferred.perf, p.1 ≠ n.toNat) fun s b _ =>
    s.deferTo b fun d => { d with perf := d.perf ++ [(n.toNat, .clr)] }) ∧
  (∀ h n, Leaves (.perfctlRd h n) (fun _ b _ => b.Takes h ∧ ∀ p ∈ b.deferred.perf, p.1 ≠ n.toNat) fun s b _ =>
    let c := s.perfCtr s.cur n.toNat
    let v : Token := .s (BitVec.ofNat 64 (c.count + if c.ovf then 2 ^ 63 else 0))
    { (s.marked b).give2 h v v with deferred := { b.deferred with perf := b.deferred.perf ++ [(n.toNat, .rd)] } }) ∧
  (∀ h, Leaves (.ctxctlTret h) (fun _ b _ => b.deferred.tret = none) fun s b x =>
    s.deferTo b fun d => { d with tret := some (x.sa.toNat % 2 ^ 24) }) ∧
  let first := fun (_ : State) (b : Blk) (_ : Args) => b.branch = none
  let sel := fun (s : State) (b : Blk) (v : BranchSel) => { s.marked b with branch := some (s.curIdx, v) }
  (∀ h n, Leaves (.bro h n) first fun s b _ => sel s b (.goto n.toNat)) ∧
  (∀ h, Leaves (.brx h) first fun s b x => sel s b (.reg x.sa)) ∧
  (∀ h j, Leaves (.brv h j) first fun s b x => sel s b (.lanes x.va j.toNat)) ∧
  (∀ h n, Leaves (.call h n) first fun s b _ => sel s b (.call n.toNat)) ∧
  (∀ h, Leaves (.ret h) first fun s b _ => sel s b .ret) ∧
  (∀ h, Leaves (.exit h) first fun s b _ => sel s b .exit) ∧
  (∀ h, Leaves (.eret h) first fun s b _ => sel s b .eret)

/-- R42, R119, R126, R128, R167, R363, R435, R453: a second branch, or a second effect of a kind that a block may have once, raises the
operand conflict fault (code 2), whose `INDEX` names the instruction; of two branches that fire in one tick it names the one of higher index.
So does a value for a slot or a write slot that has already received one; there `INDEX` names the instruction whose slot it is, or the
producer whose delivery was the second, in one tick the one of higher index. R129, R133, R226, R436, R453: outside context 0 `syswr`, `perfctl.cfg` and
`perfctl.clr` raise the protection fault with `DETAIL` 18; `tlwait`, `tlrd` and `push` of another context's launch queue raise it with `DETAIL` 17. -/
def Obligations.ConflictsAndProtection : Prop :=
  let again := fun (i : Instr) => FaultsAt i (fun _ b _ => b.branch ≠ none) 2 0 fun s b =>
    (b.branch.map fun q => s.second s.cur b q.1 s.curIdx).getD s.curIdx
  (∀ h n, again (.bro h n)) ∧
  (∀ h, again (.brx h)) ∧
  (∀ h j, again (.brv h j)) ∧
  (∀ h n, again (.call h n)) ∧
  (∀ h, again (.ret h)) ∧
  (∀ h, again (.exit h)) ∧
  (∀ h, again (.eret h)) ∧
  (∀ (s : State) (w p q t : Nat) (b : Blk), b.when_.find? (fun e => e.1 == q) = some (q, t) →
    (t = s.localTick (s.place w).die → s.second w b q p = max q p) ∧ (t ≠ s.localTick (s.place w).die → s.second w b q p = p)) ∧
  (∀ h f, Faults (.fmtset h f) (fun _ b _ => b.deferred.fmt ≠ none) 2 0) ∧
  (∀ h sc id, Faults (.bar h sc id) (fun _ b _ => b.deferred.bar ≠ none) 2 0) ∧
  (∀ h n p, Faults (.trap h n p) (fun _ b _ => b.deferred.trap ≠ none) 2 0) ∧
  (∀ h p, Faults (.brk h p) (fun _ b _ => b.deferred.trap ≠ none) 2 0) ∧
  (∀ h on en1 a0 a1, Faults (.mmode h on en1 a0 a1) (fun _ b _ => b.deferred.mmode ≠ none) 2 0) ∧
  (∀ h sl, Faults (.stroke h sl) (fun _ b _ => b.deferred.stroke ≠ none) 2 0) ∧
  (∀ h, Faults (.ctxctlTret h) (fun _ b _ => b.deferred.tret ≠ none) 2 0) ∧
  (∀ h n, Faults (.perfctlRd h n) (fun _ b _ => ∃ p ∈ b.deferred.perf, p.1 = n.toNat) 2 0) ∧
  (∀ h n, Faults (.perfctlCfg h n) (fun s b _ => (s.place s.cur).ctx = 0 ∧ ∃ p ∈ b.deferred.perf, p.1 = n.toNat) 2 0) ∧
  (∀ h n, Faults (.perfctlClr h n) (fun s b _ => (s.place s.cur).ctx = 0 ∧ ∃ p ∈ b.deferred.perf, p.1 = n.toNat) 2 0) ∧
  (∀ h r, Faults (.syswr h r) (fun s _ _ => (s.place s.cur).ctx ≠ 0) 4 18) ∧
  (∀ h n, Faults (.perfctlCfg h n) (fun s _ _ => (s.place s.cur).ctx ≠ 0) 4 18) ∧
  (∀ h n, Faults (.perfctlClr h n) (fun s _ _ => (s.place s.cur).ctx ≠ 0) 4 18) ∧
  (∀ h q, Faults (.tlwait h (.tll q)) (fun s _ _ => fld (s.queue q.toNat).ctl 0 8 ≠ (s.place s.cur).ctx) 4 17) ∧
  (∀ h f q, Faults (.tlrd h f (.tll q)) (fun s _ _ => fld (s.queue q.toNat).ctl 0 8 ≠ (s.place s.cur).ctx) 4 17) ∧
  (∀ h g q, Faults (.push h g (.launch q)) (fun s _ _ => fld (s.queue q.toNat).ctl 0 8 ≠ (s.place s.cur).ctx) 4 17) ∧
  ∀ (s : State) (w p : Nat) (t : Target) (v : Token) (b : Blk), s.shapeOk → s.blk? w = some b → b.open t = false →
    let u := s.deliver w p t v
    u.mem = s.mem ∧ u.blk? w = none ∧ (u.warp w).park.fault = true ∧ (u.warp w).regs = (s.warp w).regs ∧
    ∃ f, (u.ctx (s.place w).ctx).hubq.getLast? = some f ∧ f.code = 2 ∧ f.detail = 0 ∧
      f.index = (match t with
        | .opnd i _ => i.toNat
        | .out n => s.second w b (b.outBefore n p) p
        | .none => p)

/-! Groups 2 to 4: the lane-array instructions. -/

/-- R325 to R329, Table 14-3: the instructions of group 2 deliver their results lane by lane, computed under `fmt` as at block start;
`vaddc`, `vsubb` and `vmulw` deliver a second vector to `T1`. -/
def Obligations.ElementArithmetic : Prop :=
  let two := fun (g : Word → Lane → Lane → Lane) (ty : VTy) (im : Option (BitVec 28)) (_ : State) (b : Blk) (x : Args) =>
    twice (.v (map2 (fun _ => g b.fmt0) x.va (x.vb ty im)))
  let one := fun (g : Word → Lane → Lane) (_ : State) (b : Blk) (x : Args) => twice (.v (map1 (fun _ => g b.fmt0) x.va))
  (∀ h ty im, Delivers (.vadd h ty im) (two (vaddLane ty) ty im)) ∧
  (∀ h ty im, Delivers (.vsub h ty im) (two (vsubLane ty) ty im)) ∧
  (∀ h im, Delivers (.vaddc h im) fun _ _ x =>
    let t := fun l => (x.va.lane l).toNat + ((x.vb .n32 im).lane l).toNat + (x.vc.lane l).toNat % 2
    (.v (Vec.tab fun l => BitVec.ofNat 32 (t l)), .v (Vec.tab fun l => BitVec.ofNat 32 (t l / 2 ^ 32)))) ∧
  (∀ h im, Delivers (.vsubb h im) fun _ _ x =>
    let y := fun l => ((x.vb .n32 im).lane l).toNat + (x.vc.lane l).toNat % 2
    (.v (Vec.tab fun l => x.va.lane l - (x.vb .n32 im).lane l - BitVec.ofNat 32 ((x.vc.lane l).toNat % 2)),
     .v (Vec.tab fun l => if (x.va.lane l).toNat < y l then 1 else 0))) ∧
  (∀ h ty im, Delivers (.vmul h ty im) (two (vmulLane ty) ty im)) ∧
  (∀ h ty im, Delivers (.vmulh h ty im) (two (fun f => arith2 ty (fun p q => p * q / 2 ^ elemBits ty) Ext.mul f) ty im)) ∧
  (∀ h ty im, Delivers (.vmulw h ty im) fun _ _ x =>
    (.v (map2 (fun _ => vmulwLane ty false) x.va (x.vb ty im)), .v (map2 (fun _ => vmulwLane ty true) x.va (x.vb ty im)))) ∧
  (∀ h ty im, Delivers (.vmad h ty im) fun _ b x => twice (.v (map3 (fun _ => vmadLane ty b.fmt0) x.va (x.vb ty im) x.vc))) ∧
  (∀ h ty im, Delivers (.vdiv h ty im) (two (vdivLane ty) ty im)) ∧
  (∀ h ty im, Delivers (.vrem h ty im) (two (fun _ p q => (divRule32 (isSigned ty) p q).2) ty im)) ∧
  (∀ h, Delivers (.vsqrt h) (one fun f p => rnd32 f (f32 p).sqrt)) ∧
  (∀ h ty, Delivers (.vabs h ty) (one fun _ => vabsLane ty)) ∧
  (∀ h ty, Delivers (.vneg h ty) (one fun _ => vnegLane ty)) ∧
  (∀ h ty im, Delivers (.vmin h ty im) (two (fun _ => minmaxLane ty false) ty im)) ∧
  (∀ h ty im, Delivers (.vmax h ty im) (two (fun _ => minmaxLane ty true) ty im)) ∧
  (∀ h ty im, Delivers (.vaddsat h ty im) (two (fun _ => int2 ty fun p q => clamp ty (p + q)) ty im)) ∧
  (∀ h ty im, Delivers (.vsubsat h ty im) (two (fun _ => int2 ty fun p q => clamp ty (p - q)) ty im)) ∧
  (∀ h ty im, Delivers (.vavg h ty im) (two (fun _ => int2 ty fun p q => (p + q + 1) / 2) ty im)) ∧
  (∀ h ty im, Delivers (.vabsd h ty im) (two (fun _ => int2 ty fun p q => (p - q).natAbs) ty im)) ∧
  (∀ h ty im, Delivers (.vdot4 h ty im) fun _ _ x => twice (.v (map3 (fun _ => vdot4Lane ty) x.va (x.vb ty im) x.vc))) ∧
  (∀ h im, Delivers (.vscale h im) (two vscaleLane .i32 im)) ∧
  (∀ h m, Delivers (.vrint h m) (one fun f => vrintLane (vrintMode f m))) ∧
  (∀ h, Delivers (.vgetexp h) (one fun _ => vgetexpLane)) ∧
  (∀ h, Delivers (.vclass h) (one fun _ => vclassLane))

/-- R297, R325 to R327, Table 14-3: what the integer forms compute on 32-bit lanes, whatever `fmt` holds: sums, differences and
products wrap, `vmulh` is the high half, a division by zero gives all ones and the dividend, saturating forms clamp, and the absolute
value of the most negative number is itself. `vred` combines the live lanes, dead lanes taking no part; the result of `.i32` is
sign-extended and any other zero-extended (R341, R342); `vscan.add` sums the live lanes of the segment up to a lane (R343). -/
def Obligations.IntegerLanes : Prop :=
  (∀ (f : Word) (x y z : Lane),
    vaddLane .i32 f x y = x + y ∧ vaddLane .n32 f x y = x + y ∧ vsubLane .i32 f x y = x - y ∧ vsubLane .n32 f x y = x - y ∧
    vmulLane .i32 f x y = x * y ∧ vmulLane .n32 f x y = x * y ∧ vmadLane .i32 f x y z = x * y + z ∧
    vmadLane .n32 f x y z = x * y + z ∧
    vdivLane .n32 f x y = (if y = 0 then 0xFFFFFFFF else x / y) ∧ vdivLane .i32 f x y = (if y = 0 then 0xFFFFFFFF else x.sdiv y) ∧
    (divRule32 false x y).2 = (if y = 0 then x else x % y) ∧ (divRule32 true x y).2 = (if y = 0 then x else x.srem y) ∧
    vabsLane .i32 x = (if x.slt 0 then 0 - x else x) ∧ vnegLane .i32 x = 0 - x ∧
    minmaxLane .i32 false x y = (if x.sle y then x else y) ∧ minmaxLane .i32 true x y = (if x.sle y then y else x) ∧
    minmaxLane .n32 false x y = (if x.ule y then x else y) ∧ minmaxLane .n32 true x y = (if x.ule y then y else x) ∧
    (int2 .n32 (fun p q => clamp .n32 (p + q)) x y).toNat = min 0xFFFFFFFF (x.toNat + y.toNat) ∧
    (int2 .n32 (fun p q => clamp .n32 (p - q)) x y).toNat = x.toNat - y.toNat ∧
    (int2 .i32 (fun p q => clamp .i32 (p + q)) x y).toInt = max (-2147483648) (min 2147483647 (x.toInt + y.toInt)) ∧
    (vmulwLane .n32 true x y ++ vmulwLane .n32 false x y).toNat = x.toNat * y.toNat ∧
    (vmulwLane .i32 true x y ++ vmulwLane .i32 false x y).toInt = x.toInt * y.toInt) ∧
  ∀ (f live : Word) (a : Vec) (ty : VTy), ty = .i32 ∨ ty = .n32 → live ≠ 0 →
      let ls := (List.range 64).filter fun l => live.getLsbD l
      let wide := fun (r : Lane) => if ty = .i32 then r.signExtend 64 else r.zeroExtend 64
      vredVal ty .add f live a = wide (ls.foldl (fun r l => r + a.lane l) 0) ∧
      vredVal ty .and f live a = wide (ls.foldl (fun r l => r &&& a.lane l) 0xFFFFFFFF) ∧
      vredVal ty .or f live a = wide (ls.foldl (fun r l => r ||| a.lane l) 0) ∧
      vredVal ty .xor f live a = wide (ls.foldl (fun r l => r ^^^ a.lane l) 0) ∧
      (∃ m ∈ ls, vredVal ty .max f live a = wide (a.lane m) ∧ ∀ l ∈ ls, minmaxLane ty true (a.lane m) (a.lane l) = a.lane m) ∧
      (∃ m ∈ ls, vredVal ty .min f live a = wide (a.lane m) ∧ ∀ l ∈ ls, minmaxLane ty false (a.lane m) (a.lane l) = a.lane m) ∧
      ∀ (heads : Word), ∀ l < 64,
        let part := fun n => (List.range n).filter fun j => live.getLsbD j && (List.range n).all fun i => !(decide (j < i) && heads.getLsbD i)
        (vscanVal ty false .add f live a heads).lane l = (part (l + 1)).foldl (fun r j => r + a.lane j) 0 ∧
        (vscanVal ty true .add f live a heads).lane l =
          if l = 0 ∨ heads.getLsbD l = true then 0 else (part l).foldl (fun r j => r + a.lane j) 0

/-- R330 to R332: the instructions of group 3 deliver their results; a shift takes its count modulo the element's width, `vcmp`
compares in the live lanes, and the lane movements read lanes by number modulo 64. -/
def Obligations.LogicAndLaneMovement : Prop :=
  let two := fun (g : Lane → Lane → Lane) (ty : VTy) (im : Option (BitVec 28)) (_ : State) (_ : Blk) (x : Args) =>
    twice (.v (Vec.tab fun l => g (x.va.lane l) ((x.vb ty im).lane l)))
  let one := fun (g : Lane → Lane) (_ : State) (_ : Blk) (x : Args) => twice (.v (Vec.tab fun l => g (x.va.lane l)))
  (∀ h im, Delivers (.vand h im) (two (fun p q => p &&& q) .b32 im)) ∧
  (∀ h im, Delivers (.vor h im) (two (fun p q => p ||| q) .b32 im)) ∧
  (∀ h im, Delivers (.vxor h im) (two (fun p q => p ^^^ q) .b32 im)) ∧
  (∀ h, Delivers (.vnot h) (one fun p => ~~~p)) ∧
  (∀ h ty im, Delivers (.vshl h ty im) (two (zipElems ty fun _ p q => p <<< (q.toNat % elemBits ty)) ty im)) ∧
  (∀ h ty im, Delivers (.vshr h ty im) (two (zipElems ty fun _ p q => p >>> (q.toNat % elemBits ty)) ty im)) ∧
  (∀ h ty im, Delivers (.vsra h ty im) (two (zipElems ty fun _ p q => p.sshiftRight (q.toNat % elemBits ty)) ty im)) ∧
  (∀ h im, Delivers (.vrotl h im) (two (fun p q => p.rotateLeft (q.toNat % 32)) .b32 im)) ∧
  (∀ h, Delivers (.vclz h) (one fun p => BitVec.ofNat 32 (((List.range 32).find? fun i => p.getMsbD i).getD 32))) ∧
  (∀ h, Delivers (.vpopc h) (one fun p => BitVec.ofNat 32 ((List.range 32).countP fun i => p.getLsbD i))) ∧
  (∀ h, Delivers (.vbrev h) (one fun p => p.reverse)) ∧
  (∀ h ty c, Delivers (.vcmp h ty c) fun _ b x =>
    twice (.k (maskTab fun l => b.live0.getLsbD l && vcmpLane ty c (x.va.lane l) (x.b.vec.lane l)))) ∧
  (∀ h im, Delivers (.vsel h im) fun _ _ x =>
    twice (.v (Vec.tab fun l => if x.sa.getLsbD l then (x.vb .b32 im).lane l else x.vc.lane l))) ∧
  (∀ h, Delivers (.vsplat h false) fun _ _ x => twice (.v (Vec.tab fun _ => x.sa.extractLsb' 0 32))) ∧
  (∀ h, Delivers (.vsplat h true) fun _ _ x => twice (.v (Vec.tab fun _ => x.sa.extractLsb' 32 32))) ∧
  (∀ h im, Delivers (.vshfl h im) fun _ _ x => twice (.v (Vec.tab fun l => x.va.lane (((x.vb .b32 im).lane l).toNat % 64)))) ∧
  (∀ h im, Delivers (.vbcast h im) fun _ _ x => twice (.v (Vec.tab fun _ => x.va.lane ((x.sb im).toNat % 64)))) ∧
  (∀ h im, Delivers (.vlrot h im) fun _ _ x => twice (.v (Vec.tab fun l => x.va.lane ((l + (x.sb im).toNat % 64) % 64)))) ∧
  (∀ h, Delivers (.vcompress h) fun _ b x =>
    twice (.v (Vec.tab fun l => (((lanesOf (b.live0 &&& x.b.word)).map fun i => x.va.lane i)).getD l 0))) ∧
  (∀ h, Delivers (.vexpand h) fun _ b x =>
    let m := b.live0 &&& x.b.word
    twice (.v (Vec.tab fun l => if m.getLsbD l then x.va.lane ((List.range l).countP fun i => m.getLsbD i) else 0))) ∧
  (∀ h, Delivers (.vmatch h) fun _ b x =>
    (.v (Vec.tab fun l => if b.live0.getLsbD l then BitVec.ofNat 32 (matchLeader b.live0 x.va l) else 64),
     .k (maskTab fun l => b.live0.getLsbD l && decide (matchLeader b.live0 x.va l = l))))

/-- R333 to R343: conversions, block encoding, transcendental functions, reductions and scans deliver their results; `vsin` and `vcos`
note a live operand out of range for `WST.RANGE` (R340). -/
def Obligations.ConversionsAndReductions : Prop :=
  let one := fun (g : Lane → Lane) (_ : State) (_ : Blk) (x : Args) => twice (.v (Vec.tab fun l => g (x.va.lane l)))
  let wave := fun (turns sn : Bool) (h : Hdr) (s : State) (b : Blk) (x : Args) =>
    let v : Token := .v (Vec.tab fun l => trig turns sn (x.va.lane l))
    { (s.marked b).give2 h v v with deferred := { b.deferred with
      range := b.deferred.range || (List.range 64).any fun l => b.live0.getLsbD l && trigRange (x.va.lane l) } }
  (∀ h d c md p, Delivers (.vcvt h d c md p) fun _ b x => twice (.v (Vec.tab fun l => vcvtLane b.fmt0 d c md p.toNat l (x.va.lane l)))) ∧
  (∀ h f bt, Delivers (.vencb h f bt) fun _ b x =>
    let bl := vencbBlocks b.fmt0 f (bt.getD (fmtB4T b.fmt0)) x.va
    (.v (Vec.tab fun l => (bl.flatMap fun p => packCodes (BFmt.bits f) p.2).getD l 0),
     .v (Vec.tab fun l => if l < 2 then BitVec.ofNat 32 (bl.getD l (0, [])).1 else 0))) ∧
  (∀ h f, Delivers (.vdecb h f) fun _ _ x =>
    let n := 32 / BFmt.bits f
    twice (.v (Vec.tab fun l => rne32 (decb f ((x.b.vec.lane (l / 32)).toNat % 256)
      ((x.va.lane (32 / n * (l / 32) + l % 32 / n)).toNat / 2 ^ (BFmt.bits f * (l % 32 % n)) % 2 ^ BFmt.bits f))))) ∧
  (∀ h, Delivers (.vexp2 h) (one vexp2)) ∧
  (∀ h, Delivers (.vlog2 h) (one vlog2)) ∧
  (∀ h, Delivers (.vrcp h) (one vrcp)) ∧
  (∀ h, Delivers (.vrsqrt h) (one vrsqrt)) ∧
  (∀ h turns, Leaves (.vsin h turns) (fun _ b _ => b.Takes h) (wave turns true h)) ∧
  (∀ h turns, Leaves (.vcos h turns) (fun _ b _ => b.Takes h) (wave turns false h)) ∧
  (∀ h ty op, Delivers (.vred h ty op) fun _ b x => twice (.s (vredVal ty op b.fmt0 b.live0 x.va))) ∧
  (∀ h ty ex op, Delivers (.vscan h ty ex op) fun _ b x => twice (.v (vscanVal ty ex op b.fmt0 b.live0 x.va x.b.word)))


/-- R298 to R301, R307 to R312, R326, R328, R331 and R338 to R343, Tables 13-2, 13-3, 13-7, 13-9, 13-10 and 14-10: a NaN in an operand gives the
canonical NaN of FP32 whatever its payload; infinities and zeros give what IEEE 754 gives them; the classes and exponents of codes; the special operands
and the exact powers of two of the reference algorithms; conversions at the edges of their formats; the element values of BT4; and `vred` and `vscan`
combine the lanes of `.f32` in the order of R342 and R343, in which `.add` is one `vadd` a step. -/
def Obligations.FloatLanes : Prop :=
  let mag := fun (x : Lane) => x &&& 0x7FFFFFFF
  let sgn := fun (x : Lane) => x &&& 0x80000000
  let cvt := fun (f : Word) (ff : FF) (x : Lane) => cvtn f ff 0 0 (f32 x)
  (∀ (f : Word) (x y z : Lane), (fpNan x || fpNan y) = true →
    vaddLane .f32 f x y = 0x7FC00000 ∧ vsubLane .f32 f x y = 0x7FC00000 ∧ vmulLane .f32 f x y = 0x7FC00000 ∧ vdivLane .f32 f x y = 0x7FC00000 ∧
    vmadLane .f32 f x y z = 0x7FC00000 ∧ vmadLane .f32 f x z y = 0x7FC00000 ∧ minmaxLane .f32 false x y = 0x7FC00000 ∧
    minmaxLane .f32 true x y = 0x7FC00000 ∧ vcmpLane .f32 .eq x y = false ∧ vcmpLane .f32 .lt x y = false ∧ vcmpLane .f32 .le x y = false ∧
    vcmpLane .f32 .gt x y = false ∧ vcmpLane .f32 .ge x y = false ∧ vcmpLane .f32 .ne x y = true ∧ vcmpLane .f32 .un x y = true) ∧
  (∀ (f : Word) (m : RM) (x k : Lane) (turns sn : Bool), fpNan x = true →
    rnd32 f (f32 x).sqrt = 0x7FC00000 ∧ vabsLane .f32 x = 0x7FC00000 ∧ vnegLane .f32 x = 0x7FC00000 ∧ vscaleLane f x k = 0x7FC00000 ∧
    vrintLane m x = 0x7FC00000 ∧ vexp2 x = 0x7FC00000 ∧ vlog2 x = 0x7FC00000 ∧ vrcp x = 0x7FC00000 ∧ vrsqrt x = 0x7FC00000 ∧
    trig turns sn x = 0x7FC00000 ∧ vgetexpLane x = 0x7FFFFFFF ∧ vclassLane x = 1 ∧ vcvtLane f .i32 .f32 true 0 0 x = 0) ∧
  (∀ (f : Word) (x : Lane), fpFinite x = true →
    vabsLane .f32 x = mag x ∧ vnegLane .f32 x = x ^^^ 0x80000000 ∧
    vaddLane .f32 f 0x7F800000 x = 0x7F800000 ∧ vaddLane .f32 f x 0xFF800000 = 0xFF800000 ∧ vsubLane .f32 f x 0x7F800000 = 0xFF800000 ∧
    vdivLane .f32 f x 0x7F800000 = sgn x ∧ vdivLane .f32 f x 0xFF800000 = sgn x ^^^ 0x80000000 ∧
    (mag x ≠ 0 → vmulLane .f32 f 0x7F800000 x = 0x7F800000 ||| sgn x ∧ vdivLane .f32 f x 0 = 0x7F800000 ||| sgn x ∧
      vdivLane .f32 f x 0x80000000 = 0x7F800000 ||| (sgn x ^^^ 0x80000000)) ∧
    (mag x = 0 → vmulLane .f32 f 0x7F800000 x = 0x7FC00000 ∧ vdivLane .f32 f x 0 = 0x7FC00000 ∧ rnd32 f (f32 x).sqrt = x) ∧
    (mag x ≠ 0 → sgn x ≠ 0 → rnd32 f (f32 x).sqrt = 0x7FC00000) ∧
    (∀ k, mag x = 0 → vscaleLane f x k = x) ∧ (∀ m, mag x = 0 → vrintLane m x = x) ∧
    (0 < (x.extractLsb' 23 8).toNat → vgetexpLane x = BitVec.ofInt 32 ((x.extractLsb' 23 8).toNat - 127)) ∧
    (mag x = 0 → vgetexpLane x = 0x80000000) ∧
    vclassLane x = (if mag x = 0 then (if sgn x = 0 then 0x20 else 0x10) else if (x.extractLsb' 23 8).toNat = 0 then (if sgn x = 0 then 0x40 else 8)
      else if sgn x = 0 then 0x80 else 4)) ∧
  (∀ f : Word, vaddLane .f32 f 0x7F800000 0xFF800000 = 0x7FC00000 ∧ vsubLane .f32 f 0x7F800000 0x7F800000 = 0x7FC00000 ∧
    vmulLane .f32 f 0xFF800000 0x7F800000 = 0xFF800000 ∧ vdivLane .f32 f 0x7F800000 0xFF800000 = 0x7FC00000 ∧
    rnd32 f (f32 0x7F800000).sqrt = 0x7F800000 ∧ rnd32 f (f32 0xFF800000).sqrt = 0x7FC00000 ∧
    vclassLane 0x7F800000 = 0x100 ∧ vclassLane 0xFF800000 = 2 ∧ vgetexpLane 0x7F800000 = 0x7FFFFFFF ∧ vgetexpLane 0xFF800000 = 0x7FFFFFFF ∧
    minmaxLane .f32 true 0 0x80000000 = 0 ∧ minmaxLane .f32 true 0x80000000 0 = 0 ∧ minmaxLane .f32 false 0 0x80000000 = 0x80000000 ∧
    minmaxLane .f32 false 0x80000000 0 = 0x80000000 ∧ vcmpLane .f32 .eq 0 0x80000000 = true ∧
    vcvtLane f .i32 .f32 true 0 0 0x7F800000 = 0x7FFFFFFF ∧ vcvtLane f .i32 .f32 true 0 0 0xFF800000 = 0x80000000) ∧
  vexp2 0x7F800000 = 0x7F800000 ∧ vexp2 0xFF800000 = 0 ∧ vexp2 0 = 0x3F800000 ∧ vexp2 0x80000000 = 0x3F800000 ∧
  vlog2 0x7F800000 = 0x7F800000 ∧ vlog2 0xFF800000 = 0x7FC00000 ∧ vlog2 0 = 0xFF800000 ∧ vlog2 0x80000000 = 0xFF800000 ∧
  vrcp 0x7F800000 = 0 ∧ vrcp 0xFF800000 = 0x80000000 ∧ vrcp 0 = 0x7F800000 ∧ vrcp 0x80000000 = 0xFF800000 ∧
  vrsqrt 0x7F800000 = 0 ∧ vrsqrt 0xFF800000 = 0x7FC00000 ∧ vrsqrt 0 = 0x7F800000 ∧ vrsqrt 0x80000000 = 0xFF800000 ∧
  (∀ (x : Lane) (t sn : Bool), (mag x = 0x7F800000 → trig t sn x = 0x7FC00000) ∧
    (mag x = 0 → trig t true x = x ∧ trig t false x = 0x3F800000) ∧
    (fpFinite x = true → 0x4B000000 ≤ (mag x).toNat → trig true true x = 0 ∧ trig true false x = 0x3F800000) ∧
    (fpFinite x = true → 0x43000000 ≤ x.toNat → x.toNat < 0x80000000 → vexp2 x = 0x7F800000) ∧
    (fpFinite x = true → 0xC3160000 < x.toNat → vexp2 x = 0) ∧
    (fpFinite x = true → 0x80000000 < x.toNat → vlog2 x = 0x7FC00000 ∧ vrsqrt x = 0x7FC00000)) ∧
  (∀ n : ℤ, -149 ≤ n → n ≤ 127 →
    let two : Lane := if -126 ≤ n then BitVec.ofNat 32 ((n + 127).toNat * 2 ^ 23) else BitVec.ofNat 32 (2 ^ (n + 149).toNat)
    vexp2 (rne32 (Ext.ofInt n)) = two ∧ vlog2 two = rne32 (Ext.ofInt n)) ∧
  cvt 0 .e4m3 0x43E80000 = 0x7E ∧ cvt 0 .e4m3 0x43EB0000 = 0x7F ∧ cvt 0x10 .e4m3 0x43EB0000 = 0x7E ∧ cvt 0 .e4m3 0x3A800000 = 0 ∧
  cvt 0xC .e4m3 0x3A800000 = 1 ∧ cvt 0 .fp16 0x477FF000 = 0x7C00 ∧ cvt 4 .fp16 0x477FF000 = 0x7BFF ∧ cvt 0 .e2m1 0xC0E00000 = 0xF ∧
  cvt 0 .fp16 0x000116C2 = 0 ∧ cvt 0 .e2m1 0x40204000 = 5 ∧ cvt 0 .bf16 0x40204000 = 0x4020 ∧ cvt 0 .e4m3 0x40204000 = 0x42 ∧
  cvt 0 .e2m1 0x40200000 = 4 ∧ cvt 8 .e2m1 0x40204000 = 5 ∧
  (∀ (f : Word) (x : Lane) (l : Nat),
    vcvtLane f .f32 .bf16x2 false 0 l x = (let y : Lane := x.extractLsb' 0 16 ++ 0#16; if fpNan y then 0x7FC00000 else y) ∧
    vcvtLane f .f32 .bf16x2 false 1 l x = (let y : Lane := x.extractLsb' 16 16 ++ 0#16; if fpNan y then 0x7FC00000 else y)) ∧
  ((List.range 16).map fun c => (bt4Val .int4 c).units (-3)) = [0, 8, 16, 24, 32, 40, 48, 56, -64, -56, -48, -40, -32, -24, -16, -8] ∧
  ((List.range 16).map fun c => (bt4Val .e2m1 c).units (-3)) = [0, 4, 8, 12, 16, 24, 32, 48, 0, -4, -8, -12, -16, -24, -32, -48] ∧
  ((List.range 16).map fun c => (bt4Val .log4 c).units (-3)) = [0, 1, 2, 4, 8, 16, 32, 64, 0, -1, -2, -4, -8, -16, -32, -64] ∧
  ((List.range 16).map fun c => (bt4Val .hyb4 c).units (-3)) = [0, 8, 16, 24, 32, 48, 64, 96, 0, -8, -16, -24, -32, -48, -64, -96] ∧
  (∀ (op : RedOp) (g : Lane → Lane → Lane) (f live : Word) (a : Vec), live ≠ 0 →
    (op = .add ∧ g = vaddLane .f32 f) ∨ (op = .min ∧ g = minmaxLane .f32 false) ∨ (op = .max ∧ g = minmaxLane .f32 true) →
    let join := fun (p q : Option Lane) => match p, q with
      | some x, some y => some (g x y)
      | none, y => y
      | x, none => x
    let step := fun (x : Nat → Option Lane) (d l : Nat) => join (x l) (x (l + d))
    let x0 := fun l => if l < 64 ∧ live.getLsbD l = true then some (a.lane l) else none
    let canon := fun (x : Lane) => if fpNan x then 0x7FC00000 else x
    vredVal .f32 op f live a = (canon (([1, 2, 4, 8, 16, 32].foldl step x0 0).getD 0)).zeroExtend 64 ∧
    ∀ (heads : Word),
      let id : Lane := if op = .add then 0x80000000 else if op = .min then 0x7F800000 else 0xFF800000
      let turn := fun (x : Nat → Lane × Bool) (d l : Nat) => if d ≤ l ∧ (x l).2 = false then (g (x (l - d)).1 (x l).1, (x (l - d)).2) else x l
      let r := [1, 2, 4, 8, 16, 32].foldl turn fun l => (if live.getLsbD l then a.lane l else id, heads.getLsbD l)
      ∀ l < 64, (vscanVal .f32 false op f live a heads).lane l = canon (r l).1 ∧
        (vscanVal .f32 true op f live a heads).lane l = if l = 0 ∨ heads.getLsbD l = true then id else canon (r (l - 1)).1)

/-- R306 to R309, R323, R325 to R328 and Table 13-7: `vadd`, `vsub`, `vmul`, `vmad` and `vscale` of `.f32` round the exact result of their finite
operands once, in the mode of `fmt.RND`; an exact result of zero has the sign of R309; and `vcvt` to `.i32` with `.rtz` truncates and clamps. -/
def Obligations.FloatArithmeticRounds : Prop :=
  let zero := fun (neg : Bool) => if neg then (0x80000000 : Lane) else 0
  let sum := fun (f : Word) (p q : Bool) => zero (p && q || (p || q) && rndMode f == .rdn)
  (∀ (f : Word) (x y : Lane), fpFinite x = true → fpFinite y = true →
    RoundsOnce (rndMode f) (fpVal x + fpVal y) (vaddLane .f32 f x y) ∧
    RoundsOnce (rndMode f) (fpVal x - fpVal y) (vsubLane .f32 f x y) ∧
    RoundsOnce (rndMode f) (fpVal x * fpVal y) (vmulLane .f32 f x y) ∧
    (fpVal x + fpVal y = 0 → vaddLane .f32 f x y = sum f (x.getLsbD 31) (y.getLsbD 31)) ∧
    (fpVal x - fpVal y = 0 → vsubLane .f32 f x y = sum f (x.getLsbD 31) (!y.getLsbD 31)) ∧
    (fpVal x * fpVal y = 0 → vmulLane .f32 f x y = zero (x.getLsbD 31 != y.getLsbD 31))) ∧
  (∀ (f : Word) (x y z : Lane), fpFinite x = true → fpFinite y = true → fpFinite z = true →
    RoundsOnce (rndMode f) (fpVal x * fpVal y + fpVal z) (vmadLane .f32 f x y z) ∧
    (fpVal x * fpVal y + fpVal z = 0 → vmadLane .f32 f x y z = sum f (x.getLsbD 31 != y.getLsbD 31) (z.getLsbD 31))) ∧
  (∀ (f : Word) (x k : Lane), fpFinite x = true → RoundsOnce (rndMode f) (fpVal x * 2 ^ k.toInt) (vscaleLane f x k)) ∧
  ∀ (f : Word) (x : Lane) (l : Nat), fpFinite x = true →
    vcvtLane f .i32 .f32 true 0 l x =
      BitVec.ofInt 32 (max (-2147483648) (min 2147483647 (if fpVal x < 0 then ⌈fpVal x⌉ else ⌊fpVal x⌋)))

/-- R306, R307, R323 and R326: `vdiv` and `vsqrt` of `.f32` are correctly rounded in every mode of `fmt.RND`: the quotient of finite operands is
rounded once, and the root of a positive one lies on the side of every other code, or of the midpoint to it, on which the exact root lies. -/
def Obligations.QuotientsAndRootsRound : Prop :=
  (∀ (f : Word) (x y : Lane), fpFinite x = true → fpFinite y = true → fpVal y ≠ 0 →
    RoundsOnce (rndMode f) (fpVal x / fpVal y) (vdivLane .f32 f x y) ∧
    (fpVal x = 0 → vdivLane .f32 f x y = (x ^^^ y) &&& 0x80000000)) ∧
  ∀ (f : Word) (x : Lane), fpFinite x = true → 0 < fpVal x →
    let r := rnd32 f (f32 x).sqrt
    fpFinite r = true ∧ 0 < fpVal r ∧
    (rndMode f = .rtz ∨ rndMode f = .rdn → fpVal r ^ 2 ≤ fpVal x ∧ ∀ c, fpFinite c = true → 0 < fpVal c → fpVal c ^ 2 ≤ fpVal x → fpVal c ≤ fpVal r) ∧
    (rndMode f = .rup → fpVal x ≤ fpVal r ^ 2 ∧ ∀ c, fpFinite c = true → 0 < fpVal c → fpVal x ≤ fpVal c ^ 2 → fpVal r ≤ fpVal c) ∧
    (rndMode f = .rne → ∀ c, fpFinite c = true → 0 < fpVal c →
      (fpVal c < fpVal r → ((fpVal c + fpVal r) / 2) ^ 2 ≤ fpVal x) ∧ (fpVal r < fpVal c → fpVal x ≤ ((fpVal c + fpVal r) / 2) ^ 2))


/-! Group 5: matrix mode. -/

/-- R364, whole: `mzero` clears the tile of its window, and without `TILE` sets its maxima and its latch to minus infinity and its sums
to +0; the INT32 tile reads zero too, since the words are zero. Nothing else of the warp's registers changes. -/
def Obligations.MzeroClears : Prop :=
  ∀ h win tile s b x, s.Fires (.mzero h win tile) b x → b.run = none → winBase b.mreg0 win + 66 ≤ (s.warp s.cur).v.length →
    ∃ t f, exec (.mzero h win tile) s = .next t ∧ s.OnlyWarp s.cur f t ∧
      let base := winBase b.mreg0 win
      let y := t.warp s.cur
      let z := s.warp s.cur
      y.blk = some (s.ticked 1 0 (s.marked b)) ∧ (∀ i < 64, ∀ j < 64, (y.vreg (base + i)).lane j = 0) ∧
      (∀ r < z.v.length, r < base ∨ base + 66 ≤ r → y.vreg r = z.vreg r) ∧ y.v.length = z.v.length ∧
      (tile = true → y.vreg (base + 64) = z.vreg (base + 64) ∧ y.vreg (base + 65) = z.vreg (base + 65) ∧
        y.latch0 = z.latch0 ∧ y.latch1 = z.latch1) ∧
      (tile = false → ∀ i < 64, (y.maxima base).lane i = 0xFF800000 ∧ (y.sums base).lane i = 0 ∧
        (y.latch win).lane i = 0xFF800000) ∧
      y.latch (!win) = z.latch (!win) ∧ y.s = z.s ∧ y.k = z.k ∧ y.fmt = z.fmt ∧ y.mreg = z.mreg ∧ y.wst = z.wst

/-- R353, R355, R359, R365, R366: in each of its lane-array ticks `mma` or `mmar` does one step, without poison and, at its first, without a hazard of
umpire mode: the tile becomes the outcome of the step, which reads the scratchpad as it stands in that tick (R252; of what becomes visible in it each
byte is the old or the new one) and rounds every cell once; the rest of the machine is as before. With `FC` = 1 a cell of a step adds the products
modulo 2^32; a step keeps the tile's 64 rows. -/
def Obligations.MatrixSteps : Prop :=
  (∀ h win n s b a st c, s.Ticks (.mma h win n) b a st c →
    let x := s.warp s.cur
    let t := s.stepSees s.cur
    let fa := fmtFA b.fmt0
    let fb := fmtFB b.fmt0
    let k := codeK fa
    let base := winBase b.mreg0 win
    let panels := panelRanges fa a.sa k (n.toNat + 1) ++ panelRanges fb a.b.word k (n.toNat + 1)
    (st = 0 → s.spadHazard s.cur b panels (s.ofTeam s.cur panels) [] = none) →
    x.winPoison base 64 = false →
    (∀ o ∈ stepBytes fa a.sa k st ++ stepBytes fb a.b.word k st, spWordPoison t b o = false) →
    ∃ u, exec (.mma h win n) s = .next u ∧ s.OnlyStep (fun y =>
      { y.putRegs base (gridStep (fmtFC b.fmt0) (pseOf a.sc) k
          (fun r i => panelVal (spByte t b) fa a.sa (st * k + r) i) (fun r j => panelVal (spByte t b) fb a.b.word (st * k + r) j)
          (x.tile base)) with blk := some (s.ticked (n.toNat + 1) st c) }) u) ∧
  (∀ h n s0 s b a st c, s.Ticks (.mmar h n s0) b a st c →
    let x := s.warp s.cur
    let t := s.stepSees s.cur
    let fb := fmtFB b.fmt0
    let base := winBase b.mreg0 true
    let A := x.tile (winBase b.mreg0 false)
    let panels := panelRanges fb a.sa 2 (n.toNat + 1)
    (st = 0 → s.spadHazard s.cur b panels (s.ofTeam s.cur panels) [] = none) →
    x.winPoison base 64 = false → x.winPoison (winBase b.mreg0 false) 64 = false →
    (∀ o ∈ stepBytes fb a.sa 2 st, spWordPoison t b o = false) →
    ∃ u, exec (.mmar h n s0) s = .next u ∧ s.OnlyStep (fun y =>
      { y.putRegs base (gridStep (fmtFC b.fmt0) (pseOf a.b.word) 2
          (fun r i => val .bf16 (rnebf16 (f32 ((A.getD i []).lane (2 * (s0.toNat + st) + r)))))
          (fun r j => panelVal (spByte t b) fb a.sa (st * 2 + r) j) (x.tile base)) with blk := some (s.ticked (n.toNat + 1) st c) }) u) ∧
  (∀ (p : Int) (c : Lane) (l : List Int), stepCell 1 p c (l.map Ext.ofInt) = BitVec.ofInt 32 (l.foldl (· + ·) c.toInt)) ∧
  (∀ fc p k A B C, (gridStep fc p k A B C).length = C.length) ∧
  (∀ (x : Warp) base (l : List Vec), (x.putRegs base l).v.length = x.v.length ∧
    (∀ i < l.length, base + i < x.v.length → (x.putRegs base l).vreg (base + i) = l.getD i []) ∧
    ∀ r, r < base ∨ base + l.length ≤ r → (x.putRegs base l).vreg r = x.vreg r) ∧
  (∀ (s : State) n k b, (s.ticked n k b).run = (if k + 1 < n then some (s.curIdx, k + 1) else none) ∧ (s.ticked n k b).fired = b.fired)

/-- R367 to R369: without poison, `mmax` folds the row maxima and keeps the old ones in the latch, `mexp` replaces the tile by its
exponentials and folds their sums, `mrescale` scales the tile; the rest of the machine is as before. -/
def Obligations.SoftmaxSteps : Prop :=
  (∀ h win s b a, s.Fires (.mmax h win) b a → b.run = none → (s.warp s.cur).winPoison (winBase b.mreg0 win) 65 = false →
    let x := s.warp s.cur
    let base := winBase b.mreg0 win
    let m := Vec.tab fun i => (List.range 64).foldl (fun m j => fmax32 m (scaled (pseOf a.sa) ((x.vreg (base + i)).lane j)))
      ((x.maxima base).lane i)
    ∃ t, exec (.mmax h win) s = .next t ∧ s.OnlyWarp s.cur (fun y =>
      { (y.putRegs (base + 64) [m]).putLatch win (x.maxima base) with blk := some (s.ticked 1 0 (s.marked b)) }) t) ∧
  (∀ h win s b a, s.Fires (.mexp h win) b a → b.run = none → (s.warp s.cur).winPoison (winBase b.mreg0 win) 66 = false →
    (s.warp s.cur).latchPoison win = false →
    let x := s.warp s.cur
    let base := winBase b.mreg0 win
    let p := (List.range 64).map fun i => mexpRow (pseOf a.sa) ((x.maxima base).lane i) (x.vreg (base + i))
    let sm := Vec.tab fun i => add32 (mul32 ((x.sums base).lane i) (expFactor ((x.latch win).lane i) ((x.maxima base).lane i)))
      (psum64 (p.getD i []))
    ∃ t, exec (.mexp h win) s = .next t ∧ s.OnlyWarp s.cur (fun y =>
      { (y.putRegs base p).putRegs (base + 65) [sm] with blk := some (s.ticked 2 0 (s.marked b)) }) t) ∧
  (∀ h win s b k, s.issuing? = some b → b.run = some (s.curIdx, k) → 0 < k →
    ∃ t, exec (.mexp h win) s = .next t ∧ s.OnlyBlk (s.ticked 2 k b) t) ∧
  (∀ h win s b a, s.Fires (.mrescale h win) b a → b.run = none → (s.warp s.cur).winPoison (winBase b.mreg0 win) 64 = false →
    (s.warp s.cur).winPoison (winBase b.mreg0 (!win) + 64) 1 = false → (s.warp s.cur).latchPoison (!win) = false →
    let x := s.warp s.cur
    let base := winBase b.mreg0 win
    let f := fun i => expFactor ((x.latch (!win)).lane i) ((x.maxima (winBase b.mreg0 (!win))).lane i)
    ∃ t, exec (.mrescale h win) s = .next t ∧ s.OnlyWarp s.cur (fun y =>
      { y.putRegs base ((List.range 64).map fun i => Vec.tab fun j => mul32 ((x.vreg (base + i)).lane j) (f i)) with
        blk := some (s.ticked 1 0 (s.marked b)) }) t)

/-- R355, R359, R370: `mld` moves raw words from the scratchpad into its window, a register in each lane-array tick, the statistics after the tile;
`mst` moves the window, its tile converted to `SFMT`, into the block's own scratchpad bytes, with the values of its first tick; offsets take bits
[18:6] of slot a. -/
def Obligations.WindowMoves : Prop :=
  (∀ h win part s b a st c, s.Ticks (.mld h win part) b a st c →
    let tm := s.stepSees s.cur
    let o := a.sa.toNat / 64 % 8192 * 64 + 256 * st
    let n := if part = .tile then 64 else if part = .all then 66 else 2
    let word := fun q => BitVec.ofNat 32 (leNat ((List.range 4).map fun i => spByte tm b (q + i)))
    (st = 0 → s.spadHazard s.cur b [(o, 256 * n)] (s.ofTeam s.cur [(o, 256 * n)]) [] = none) →
    (∀ i < 64, spWordPoison tm b (o + 4 * i) = false) →
    ∃ t, exec (.mld h win part) s = .next t ∧ s.OnlyStep (fun y =>
      { y.putRegs (winBase b.mreg0 win + (if part = .stat then 64 else 0) + st) [Vec.tab fun j => word (o + 4 * j)] with
        blk := some (s.ticked n st c) }) t) ∧
  (∀ h win part f s b a, s.Fires (.mst h win part f) b a → b.run = none →
    let x := s.warp s.cur
    let tm := s.team x.team
    let base := winBase b.mreg0 win
    let o := a.sa.toNat / 64 % 8192 * 64
    let w := SFmt.bytes f
    let so := if part = .stat then o else o + 4096 * w
    s.spadHazard s.cur b [(o, mstBytes part f)] [] (s.ofTeam s.cur [(o, mstBytes part f)]) = none →
    ∃ t c, exec (.mst h win part f) s = .next t ∧ s.OnlyBlk c t ∧ c.fired = s.curIdx :: b.fired ∧ c.outs = b.outs ∧ c.ops = b.ops ∧
      c.run = (if 1 < mstBytes part f / 256 then some (s.curIdx, 1) else none) ∧
      (part ≠ .stat → ∀ i < 64, ∀ j < 64, ∀ n < w, o + (64 * i + j) * w + n < tm.alloc →
        spByte tm c (o + (64 * i + j) * w + n) = BitVec.ofNat 8 (storeCode b.fmt0 f i j ((x.vreg (base + i)).lane j) / 256 ^ n)) ∧
      (part ≠ .tile → ∀ j < 64, ∀ n < 4, so + 4 * j + n < tm.alloc →
        spByte tm c (so + 4 * j + n) = byteOf ((x.maxima base).lane j) n) ∧
      (part ≠ .tile → ∀ j < 64, ∀ n < 4, so + 256 + 4 * j + n < tm.alloc →
        spByte tm c (so + 256 + 4 * j + n) = byteOf ((x.sums base).lane j) n) ∧
      (∀ q, q < o ∨ o + mstBytes part f ≤ q → spByte tm c q = spByte tm b q)) ∧
  (∀ h win part f s b k, s.issuing? = some b → b.run = some (s.curIdx, k) → 0 < k →
    ∃ t, exec (.mst h win part f) s = .next t ∧ s.OnlyBlk (s.ticked (mstBytes part f / 256) k b) t)

/-! Group 6: memory. -/

/-- R203, R206, R207, R208, R213: once every lower store is settled, `ld`, `lds` and a returning `atom` become outstanding reads of their
lanes' words; with a lane on another package a request goes there. `prefetch` asks for the line of its address, or is dropped, as where `.l1` names a
line that its L1 already holds as it is wanted. Nothing else of the warp, of memory and of the scratchpads changes. -/
def Obligations.LoadsBecomeOutstanding : Prop :=
  let out := fun (s : State) (b : Blk) (m : MFields) (kind : PKind) (lanes : List (Nat × Nat)) (acc : Acc) (t : State) =>
    ∃ c l, s.Keeps c t ∧ c.fired = s.curIdx :: b.fired ∧ c.ops = b.ops ∧ c.outs = b.outs ∧ c.stores = b.stores ∧ l ∈ c.loads ∧
      l.idx = s.curIdx ∧ l.mseq = m.mseq.toNat ∧ l.kind = kind ∧ l.lanes = lanes ∧ l.ord = m.ord ∧ l.scope = m.scope ∧
      (∀ p ∈ lanes, (∃ ph sp leaf, s.transWarp (s.place s.cur).ctx acc m.rqt p.2 = .ok ph sp leaf) → p.2 / 4 ∈ l.need) ∧
      ((∃ p ∈ lanes, ∃ pk rc, s.transWarp (s.place s.cur).ctx acc m.rqt p.2 = .far pk rc) →
        ∃ r ∈ t.remote, r.w = s.cur ∧ r.idx = s.curIdx ∧ r.isLoad = true)
  let held := fun (s : State) (m : MFields) (sp va : Nat) =>
    (s.l1Load? (s.place s.cur).die (s.place s.cur).core (some s.cur) sp (va / 128) m.rqt false [] fun _ => false).isSome
  (∀ h m ty s b x, s.Fires (.ld h m ty) b x → b.mseqTurn m.mseq.toNat = true →
    let lanes := wordLanes (x.sa + m.ofs.signExtend 64) (b.live0 &&& x.sc)
    s.Reaches .rd m.rqt 4 lanes → ∃ t, exec (.ld h m ty) s = .next t ∧ out s b m .ld lanes .rd t) ∧
  (∀ h m wd s b x, s.Fires (.lds h m wd) b x → b.mseqTurn m.mseq.toNat = true →
    let lanes := [(0, (x.sa + m.ofs.signExtend 64).toNat)]
    s.Reaches .rd m.rqt (LdWidth.bytes wd) lanes → ∃ t, exec (.lds h m wd) s = .next t ∧ out s b m (.lds wd) lanes .rd t) ∧
  (∀ h m op s b x, s.Fires (.atom h m op) b x → hdrReturns h = true → b.mseqTurn m.mseq.toNat = true →
    b.othersSettled s.curIdx = true → b.storeCount < b.nst →
    let lanes := atomLanes op b.live0 (x.sa + m.ofs.signExtend 64) x.b.vec
    laneConflicts lanes = [] → s.Reaches .rw m.rqt 4 lanes →
    ∃ t, exec (.atom h m op) s = .next t ∧
      out s b m (.atom op ((List.range 64).map fun l => (x.vc.lane l, x.b.vec.lane l))) lanes .rw t) ∧
  (∀ h m die s b x ph sp leaf, s.Fires (.prefetch h m die) b x → b.mseqTurn m.mseq.toNat = true →
    let va := (x.sa + m.ofs.signExtend 64).toNat
    va < 2 ^ 48 → s.transWarp (s.place s.cur).ctx .rd m.rqt va = .ok ph sp leaf → ¬ (pteRow leaf = true ∧ m.rqt = .own) →
    (die = false → held s m sp va = false) →
    ∃ t r, exec (.prefetch h m die) s = .next t ∧ s.Keeps (s.marked b) t ∧ t.cache.dreqs = s.cache.dreqs ++ [r] ∧
      r.space = sp ∧ r.line = va / 128 ∧ r.rqt = m.rqt ∧ r.w = some s.cur ∧ r.kind = .prefetch (!die)) ∧
  (∀ h m die, Leaves (.prefetch h m die) (fun s b x => b.mseqTurn m.mseq.toNat = true ∧
    let va := (x.sa + m.ofs.signExtend 64).toNat
    (2 ^ 48 ≤ va ∨ ∀ ph sp leaf, s.transWarp (s.place s.cur).ctx .rd m.rqt va = .ok ph sp leaf →
      (pteRow leaf = true ∧ m.rqt = .own) ∨ (die = false ∧ held s m sp va = true)))
    fun s b _ => s.marked b)

/-- R45, R206, R207, R214, R218: `st`, `sts`, `red` and an `atom` without a result are checked when they fire, `red` as a write and `atom` as a
read and a write (Table 19-4), and write nothing: their bytes wait in the block for its commit. -/
def Obligations.StoresWaitForCommit : Prop :=
  let keep := fun (s : State) (b : Blk) (m : MFields) (kind : GKind) =>
    { s.marked b with
      storeCount := b.storeCount + 1,
      stores := b.stores ++ [{ mseq := m.mseq.toNat, idx := s.curIdx, rqt := m.rqt, ord := m.ord, scope := m.scope, kind := kind }] }
  let base := fun (x : Args) (m : MFields) => x.sa + m.ofs.signExtend 64
  (∀ h m ty, Accesses (.st h m ty)
    (fun s b x => b.storeCount < b.nst ∧ s.Reaches .wr m.rqt 4 (wordLanes (base x m) (b.live0 &&& x.sc)))
    fun s b x => keep s b m (.bytes ((wordLanes (base x m) (b.live0 &&& x.sc)).flatMap fun p =>
      placeBytes p.2 (leBytes 4 (x.b.vec.lane p.1).toNat)))) ∧
  (∀ h m wd, Accesses (.sts h m wd)
    (fun s b x => b.storeCount < b.nst ∧ s.Reaches .wr m.rqt (StWidth.bytes wd) [(0, (base x m).toNat)])
    fun s b x => keep s b m (.bytes (placeBytes (base x m).toNat (leBytes (StWidth.bytes wd) x.b.word.toNat)))) ∧
  (∀ h m op, Accesses (.red h m op)
    (fun s b x => b.storeCount < b.nst ∧ laneConflicts (atomLanes op b.live0 (base x m) x.b.vec) = [] ∧
      s.Reaches .wr m.rqt 4 (atomLanes op b.live0 (base x m) x.b.vec))
    fun s b x => keep s b m (.atomic op ((atomLanes op b.live0 (base x m) x.b.vec).map fun p =>
      (p.2, x.vc.lane p.1, x.b.vec.lane p.1)))) ∧
  (∀ h m op, hdrReturns h = false → Accesses (.atom h m op)
    (fun s b x => b.storeCount < b.nst ∧ b.mseqTurn m.mseq.toNat = true ∧
      laneConflicts (atomLanes op b.live0 (base x m) x.b.vec) = [] ∧ s.Reaches .rw m.rqt 4 (atomLanes op b.live0 (base x m) x.b.vec))
    fun s b x => keep s b m (.atomic op ((atomLanes op b.live0 (base x m) x.b.vec).map fun p =>
      (p.2, x.vc.lane p.1, x.b.vec.lane p.1))))

/-- R44, R205, R215, R396, Table 8-1a: a store-class instruction beyond the block's `NST` raises the invalid block fault with `DETAIL` 33; an address
at or above 2^48 raises the protection fault with `DETAIL` 1, a misaligned one the misaligned access fault, a granule without a home the page fault, a
page that does not permit the access the protection fault with `DETAIL` 4; atomics with two lanes at one address raise the lane conflict fault. On a
page with a pending fault the first page fault posts its record and each later one attaches to it and posts nothing. -/
def Obligations.AccessFaults : Prop :=
  let base := fun (x : Args) (m : MFields) => x.sa + m.ofs.signExtend 64
  let words := fun (b : Blk) (x : Args) (m : MFields) => wordLanes (base x m) (b.live0 &&& x.sc)
  let turn := fun (b : Blk) (m : MFields) => b.mseqTurn m.mseq.toNat = true
  let goes := fun (s : State) (h : Hdr) (b : Blk) (m : MFields) => turn b m ∧ (hdrReturns h = true → b.othersSettled s.curIdx = true)
  let past := fun (_ : State) (b : Blk) (_ : Args) => b.nst ≤ b.storeCount
  let twin := fun (op : AtomOp) (b : Blk) (x : Args) (m : MFields) =>
    ∃ p ∈ atomLanes op b.live0 (base x m) x.b.vec, ∃ q ∈ atomLanes op b.live0 (base x m) x.b.vec, p.1 ≠ q.1 ∧ p.2 = q.2
  let one := fun (s : State) (b : Blk) (x : Args) (m : MFields) (wd : LdWidth) (r : TRes) =>
    turn b m ∧ (base x m).toNat < 2 ^ 48 ∧ (base x m).toNat % LdWidth.bytes wd = 0 ∧
      s.transWarp (s.place s.cur).ctx .rd m.rqt (base x m).toNat = r
  let pending := fun (s : State) (va hm sp : Nat) => s.xl.pfaults.find? fun q => q.home == hm && q.space == sp && q.va == va / 65536 * 65536
  (∀ h m ty, Faults (.st h m ty) past 1 33) ∧
  (∀ h m wd, Faults (.sts h m wd) past 1 33) ∧
  (∀ h m op, Faults (.red h m op) past 1 33) ∧
  (∀ h m ty, Faults (.spst h m ty) past 1 33) ∧
  (∀ h m ty, Faults (.spstq h m ty) past 1 33) ∧
  (∀ h m op, Faults (.atom h m op) (fun s b x => goes s h b m ∧ past s b x) 1 33) ∧
  (∀ h m wd, Faults (.lds h m wd) (fun _ b x => turn b m ∧ 2 ^ 48 ≤ (base x m).toNat) 4 1) ∧
  (∀ h m wd, Faults (.lds h m wd) (fun _ b x => turn b m ∧ (base x m).toNat < 2 ^ 48 ∧
    (base x m).toNat % LdWidth.bytes wd ≠ 0) 5 0) ∧
  (∀ h m wd, Faults (.sts h m wd) (fun _ b x => b.storeCount < b.nst ∧ (base x m).toNat < 2 ^ 48 ∧
    (base x m).toNat % StWidth.bytes wd ≠ 0) 5 0) ∧
  (∀ h m ty, Faults (.ld h m ty) (fun _ b x => turn b m ∧ ∃ p ∈ words b x m, 2 ^ 48 ≤ p.2) 4 1) ∧
  (∀ h m ty, Faults (.ld h m ty) (fun _ b x => turn b m ∧ (∀ p ∈ words b x m, p.2 < 2 ^ 48) ∧ ∃ p ∈ words b x m, p.2 % 4 ≠ 0) 5 0) ∧
  (∀ h m ty, Faults (.st h m ty) (fun _ b x => b.storeCount < b.nst ∧
    (∀ p ∈ words b x m, p.2 < 2 ^ 48) ∧ ∃ p ∈ words b x m, p.2 % 4 ≠ 0) 5 0) ∧
  (∀ h m ty, Faults (.st h m ty) (fun s b x => b.storeCount < b.nst ∧
    (∀ p ∈ words b x m, p.2 < 2 ^ 48 ∧ p.2 % 4 = 0 ∧
      ((∃ ph sp leaf, s.transWarp (s.place s.cur).ctx .wr m.rqt p.2 = .ok ph sp leaf) ∨
        s.transWarp (s.place s.cur).ctx .wr m.rqt p.2 = .prot)) ∧
    ∃ p ∈ words b x m, s.transWarp (s.place s.cur).ctx .wr m.rqt p.2 = .prot) 4 4) ∧
  (∀ h m wd, Faults (.lds h m wd) (fun s b x => one s b x m wd .prot) 4 4) ∧
  (∀ h m wd, Faults (.lds h m wd) (fun s b x => one s b x m wd .nohome) 3 0) ∧
  (∀ h m wd, Faults (.lds h m wd) (fun s b x => ∃ hm sp q, one s b x m wd (.page hm sp) ∧
    pending s (base x m).toNat hm sp = some q ∧ q.posted = false) 3 0) ∧
  (∀ h m wd s b x hm sp q, s.shapeOk → s.Fires (.lds h m wd) b x → one s b x m wd (.page hm sp) →
    pending s (base x m).toNat hm sp = some q → q.posted = true →
    ∃ t, exec (.lds h m wd) s = .next t ∧ t.mem = s.mem ∧ t.blk? s.cur = none ∧ (t.warp s.cur).park.fault = true ∧
      (t.ctx (s.place s.cur).ctx).hubq = (s.ctx (s.place s.cur).ctx).hubq ∧
      ∃ r ∈ t.xl.pfaults, r.home = hm ∧ r.space = sp ∧ r.va = (base x m).toNat / 65536 * 65536 ∧ r.warps = q.warps ++ [s.cur]) ∧
  (∀ h m op, Faults (.red h m op) (fun _ b x => b.storeCount < b.nst ∧ twin op b x m) 6 0) ∧
  (∀ h m op, Faults (.atom h m op) (fun s b x => goes s h b m ∧ b.storeCount < b.nst ∧ twin op b x m) 6 0)

/-- R210 to R212, R189, R252: `spld` and `spldq` deliver, in each lane that takes part, the word at its offset as the warp sees it, or 0 where it
lies beyond the team's, or the gang's teams', scratchpads; an acquire at `.quad` drops its core's L and T lines (log 50); `spst` and `spstq` write
nothing before the commit. -/
def Obligations.ScratchpadAccess : Prop :=
  let part := fun (b : Blk) (x : Args) (l : Nat) => (b.live0 &&& x.sc).getLsbD l
  let own := fun (s : State) (q : Bool) (m : MFields) (b : Blk) (x : Args) =>
    (s.spLanes s.cur q m (b.live0 &&& x.sc) x.va).filterMap fun p => p.2.bind fun r => if r.1 == (s.warp s.cur).team then some (r.2, 4) else none
  let got := fun (s : State) (q : Bool) (m : MFields) (b : Blk) (x : Args) => Vec.tab fun l =>
    if part b x l then match s.spPlace s.cur q (spOffset m (x.va.lane l)) with
      | some r => (s.spWord b m.mseq.toNat r.1 r.2).1
      | none => 0
    else 0
  let at_ := fun (s : State) (q : Bool) (m : MFields) (b : Blk) (x : Args) =>
    (s.spLanes s.cur q m (b.live0 &&& x.sc) x.va).filterMap fun p => p.2.map fun r => (r.1, r.2, 4)
  let clean := fun (s : State) (q : Bool) (m : MFields) (b : Blk) (x : Args) =>
    s.spadHazard s.cur b (own s q m b x) (at_ s q m b x) [] = none ∧ b.mseqTurn m.mseq.toNat = true ∧
      ∀ l < 64, part b x l = true → ∀ r, s.spPlace s.cur q (spOffset m (x.va.lane l)) = some r →
        (s.spWord b m.mseq.toNat r.1 r.2).2 = false
  let put := fun (s : State) (q : Bool) (m : MFields) (b : Blk) (x : Args) =>
    { s.marked b with
      storeCount := b.storeCount + 1,
      sps := b.sps ++ (List.range 64).filterMap fun l =>
        if part b x l then (s.spPlace s.cur q (spOffset m (x.va.lane l))).map fun r =>
          { mseq := m.mseq.toNat, idx := s.curIdx, team := r.1, ofs := r.2, val := x.b.vec.lane l,
            rel := if m.ord = .rel then some m.scope else none } else none }
  let free := fun (s : State) (q : Bool) (m : MFields) (b : Blk) (x : Args) =>
    b.storeCount < b.nst ∧ s.spadHazard s.cur b (own s q m b x) [] (at_ s q m b x) = none
  let acq := fun (m : MFields) => m.ord = .acq ∧ Scope.quadUp m.scope = true
  let dropped := fun (s : State) (t : State) => ∀ y, y ∈ t.cache.l1 ↔ y ∈ s.cache.l1 ∧
    ((y.die = (s.place s.cur).die ∧ y.core = (s.place s.cur).core) → y.st = .owned ∨ y.st = .weights)
  let load := fun (i : Instr) (h : Hdr) (m : MFields) (q : Bool) => ∀ s b x, s.Fires i b x → b.Takes h → clean s q m b x →
    ∃ t, exec i s = .next t ∧ { s with cache := { s.cache with l1 := t.cache.l1 } }.OnlyBlk
      ((s.marked b).give2 h (.v (got s q m b x)) (.v (got s q m b x))) t ∧
      (¬ acq m → t.cache.l1 = s.cache.l1) ∧ (acq m → dropped s t)
  (∀ h m ty, load (.spld h m ty) h m false) ∧
  (∀ h m ty, load (.spldq h m ty) h m true) ∧
  (∀ h m ty, Leaves (.spst h m ty) (fun s b x => free s false m b x) fun s b x => put s false m b x) ∧
  (∀ h m ty, Leaves (.spstq h m ty) (fun s b x => free s true m b x) fun s b x => put s true m b x)

/-- R50, R226 to R228: `push` reserves an entry of its queue and delivers 0, or delivers 1 and reserves nothing when the queue is full;
`tlrd` delivers a counter's value, status or highest number issued, and `.errclr` asks the commit to clear the status. -/
def Obligations.PushAndTlrd : Prop :=
  let sent := fun (h : Hdr) (g : Fin 7) (dst : PushDst) (s : State) (b : Blk) =>
    let cmd := ((b.groups.find? fun q => q.1 == g.val + 1).map (·.2)).getD []
    { (s.marked b).give2 h (.s 0) (.s 0) with pushes := b.pushes ++ [{ idx := s.curIdx, dst := dst, cmd := cmd }] }
  let full := fun (h : Hdr) (s : State) (b : Blk) (_ : Args) => (s.marked b).give2 h (.s 1) (.s 1)
  let start := fun (s : State) (t : BitVec 25) => s.wRecon s.cur - s.wPhase s.cur + t.toNat
  let dst := fun (s : State) (b : Blk) (t : BitVec 25) => PushDst.copy (if b.cls = 2 then start s t else t.toNat)
  let intime := fun (s : State) (b : Blk) (t : BitVec 25) => b.cls = 2 → s.wPhase s.cur + 4 ≤ t.toNat
  let mine := fun (s : State) => s.team (s.warp s.cur).team
  let room := fun (s : State) (t : BitVec 6) => (s.queue t.toNat).entries.length + (s.queue t.toNat).reserved < 256 ∧
    (s.queue t.toNat).ctl.getLsbD 10 = true
  (∀ h g t s b x, s.Fires (.push h g (.copy t)) b x → b.Takes h → intime s b t → (mine s).queue.length + (mine s).reserved < 32 →
    exec (.push h g (.copy t)) s = .next { s with
      warps := s.warps.modify s.cur fun y => { y with blk := some (sent h g (dst s b t) s b) },
      teams := s.teams.modify (s.warp s.cur).team fun y => { y with reserved := y.reserved + 1 } }) ∧
  (∀ h g t, Leaves (.push h g (.copy t)) (fun s b _ => b.Takes h ∧ intime s b t ∧ 32 ≤ (mine s).queue.length + (mine s).reserved)
    (full h)) ∧
  (∀ h g t, Faults (.push h g (.copy t)) (fun s b _ => ¬ intime s b t) 11 0) ∧
  (∀ h g s b x, s.Fires (.push h g .coll) b x → b.Takes h →
    (s.ctx (s.place s.cur).ctx).coll.length + (s.ctx (s.place s.cur).ctx).collRes < 256 →
    exec (.push h g .coll) s = .next { s with
      warps := s.warps.modify s.cur fun y => { y with blk := some (sent h g .coll s b) },
      ctxs := s.ctxs.modify (s.place s.cur).ctx fun y => { y with collRes := y.collRes + 1 } }) ∧
  (∀ h g, Leaves (.push h g .coll) (fun s b _ => b.Takes h ∧
    256 ≤ (s.ctx (s.place s.cur).ctx).coll.length + (s.ctx (s.place s.cur).ctx).collRes) (full h)) ∧
  (∀ h g q s b x, s.Fires (.push h g (.launch q)) b x → b.Takes h → fld (s.queue q.toNat).ctl 0 8 = (s.place s.cur).ctx → room s q →
    exec (.push h g (.launch q)) s = .next { s with
      warps := s.warps.modify s.cur fun y => { y with blk := some (sent h g (.launch q.toNat) s b) },
      queues := s.queues.modify q.toNat fun y => { y with reserved := y.reserved + 1 } }) ∧
  (∀ h g q, Leaves (.push h g (.launch q)) (fun s b _ => b.Takes h ∧ fld (s.queue q.toNat).ctl 0 8 = (s.place s.cur).ctx ∧ ¬ room s q)
    (full h)) ∧
  (∀ h c s b x f v, s.Fires (.tlrd h f c) b x → b.Takes h → s.foreignCtr s.cur c = false →
    (f = .val → v = BitVec.ofNat 64 (s.counter (s.ctrOf s.cur c)).val) →
    (f = .issued → v = BitVec.ofNat 64 (s.counter (s.ctrOf s.cur c)).issued) →
    (f = .err ∨ f = .errclr → v = (s.counter (s.ctrOf s.cur c)).status) →
    ∃ t, exec (.tlrd h f c) s = .next t ∧ s.OnlyBlk { (s.marked b).give2 h (.s v) (.s v) with
      deferred := { b.deferred with errclr := b.deferred.errclr ++ if f = .errclr then [s.ctrOf s.cur c] else [] } } t)

/-! Group 7: timed and system instructions. -/

/-- R170, R178, R179: `tkrd` delivers its clock values; `tsend` schedules its transfer for the start tick, and raises the stroke overrun
fault when it fires later than 4 ticks before it; `trecv` copies a full slot or waits for it, and raises the window miss fault when its
window has passed, or in umpire mode hazard 1 when its slot is not full (Table 6-9); a descriptor with a zero bit set marks the warp as in
breach (R2). -/
def Obligations.TimedInstructions : Prop :=
  let len := fun (d : Word) => 64 * (d.toNat / 2 ^ 19 % 64 + 1)
  let ofs := fun (d : Word) => 64 * (d.toNat / 2 ^ 6 % 8192)
  let slot := fun (d : Word) => d.toNat / 2 ^ 25 % 64
  let range := fun (x : Args) => [(ofs x.sa, len x.sa)]
  let full := fun (s : State) (x : Args) => slot x.sa ∈ (s.die (s.place s.cur).die).full ∨
    ∃ l ∈ s.landings, l.die = (s.place s.cur).die ∧ l.slot = slot x.sa ∧ l.at_ ≤ s.wRecon s.cur
  let badZero := fun (d : Word) => d.toNat / 2 ^ 31 ≠ 0 ∨ d.toNat % 64 ≠ 0
  let wait := fun (s : State) (b : Blk) (x : Args) (tick : BitVec 25) (now : Bool) =>
    let last := s.wRecon s.cur - s.wPhase s.cur + tick.toNat
    let r : TRecv := ⟨s.curIdx, slot x.sa, len x.sa, ofs x.sa, last, now, s.localTick (s.place s.cur).die, dBreach x.sa false⟩
    { s.marked b with recv := b.recv ++ [r] }
  let only := fun (s : State) (b : Blk) (br : Bool) (t : State) => t = { s with
    warps := s.warps.modify s.cur fun y => { y with blk := some b, breached := y.breached || br }, tsends := t.tsends }
  (∀ h, Delivers (.tkrd h .phase) fun s _ _ => twice (.s (BitVec.ofNat 64 (s.wRecon s.cur % (s.launchOf s.cur).strokeS)))) ∧
  (∀ h, Delivers (.tkrd h .wait) fun s _ _ => twice (.s (BitVec.ofNat 64 (s.warp s.cur).timed.lastWait))) ∧
  (∀ h, Delivers (.tkrd h .work) fun s _ _ =>
    twice (.s (BitVec.ofNat 64 (s.localTick (s.place s.cur).die - (s.warp s.cur).timed.workStart)))) ∧
  (∀ h, Delivers (.tkrd h .stroke) fun s _ _ => twice (.s (BitVec.ofNat 64 (s.tkVal s.cur .stroke)))) ∧
  (∀ d : Word, (dBreach d false = true ↔ badZero d) ∧ (dBreach d true = true ↔ badZero d ∨ slot d ≠ 0)) ∧
  (∀ h tick s b x, s.Fires (.tsend h tick) b x → s.wPhase s.cur + 4 ≤ tick.toNat →
    s.spadHazard s.cur b (range x) (s.ofTeam s.cur (range x)) [] = none →
    ∃ t y, exec (.tsend h tick) s = .next t ∧ only s (s.marked b) (dBreach x.sa true) t ∧ t.tsends = s.tsends ++ [y] ∧ y.w = s.cur ∧
      y.idx = s.curIdx ∧ y.ofs = ofs x.sa ∧ y.len = len x.sa ∧ y.start = s.wRecon s.cur - s.wPhase s.cur + tick.toNat ∧
      y.committed = false ∧ y.sent = false ∧ y.team = (s.warp s.cur).team ∧
      y.before = (s.seen s.cur y.team).sendBytes (ofs x.sa) (len x.sa)) ∧
  (∀ h tick, Faults (.tsend h tick) (fun s _ _ => tick.toNat < s.wPhase s.cur + 4) 11 0) ∧
  (∀ h tick s b x, s.Fires (.trecv h tick) b x → s.spadHazard s.cur b (range x) [] (s.ofTeam s.cur (range x)) = none → full s x →
    ∃ t, exec (.trecv h tick) s = .next t ∧ only s (wait s b x tick true) (dBreach x.sa false) t ∧ t.tsends = s.tsends) ∧
  (∀ h tick s b x, s.Fires (.trecv h tick) b x → ¬ full s x → s.umpireOn s.cur = false → s.wPhase s.cur ≤ tick.toNat →
    ∃ t, exec (.trecv h tick) s = .next t ∧ only s (wait s b x tick false) (dBreach x.sa false) t ∧ t.tsends = s.tsends) ∧
  (∀ h tick, Faults (.trecv h tick)
    (fun s _ x => ¬ full s x ∧ s.umpireOn s.cur = false ∧ tick.toNat < s.wPhase s.cur) 10 0) ∧
  (∀ h tick, Faults (.trecv h tick)
    (fun s b x => ¬ full s x ∧ s.umpireOn s.cur = true ∧ s.spadHazard s.cur b (range x) [] (s.ofTeam s.cur (range x)) = none) 16 1)

/-- R437: `cachectl.wb` leaves no dirty word of its line in an L1 or a die cache, `.wbinv` leaves no copy of it, and `.l1inv` removes
exactly the L and T lines of its core; registers and scratchpads stay. -/
def Obligations.CacheControl : Prop :=
  (∀ h s b x ph sp leaf, s.Fires (.cachectlWb h) b x → x.sa.toNat < 2 ^ 48 →
    s.transWarp (s.place s.cur).ctx .rd .wt x.sa.toNat = .ok ph sp leaf → s.lineBusy sp (x.sa.toNat / 128) = false →
    s.refreshing (s.lineHome sp (x.sa.toNat / 128)) = false →
    ∃ t, exec (.cachectlWb h) s = .next t ∧ t.warps = s.warps.modify s.cur (fun y => { y with blk := some (s.marked b) }) ∧
      t.teams = s.teams ∧ t = { s.markFired.cleanLine sp (x.sa.toNat / 128) with xl := { s.xl with tlb := t.xl.tlb } } ∧
      (∀ y ∈ t.cache.dc, y.space = sp → y.line = x.sa.toNat / 128 → ∀ w ∈ y.words, w.d = false) ∧
      (∀ y ∈ t.cache.l1, y.space = sp → y.line = x.sa.toNat / 128 → y.st = .owned → ∀ w ∈ y.words, w.d = false)) ∧
  (∀ h s b x ph sp leaf, s.Fires (.cachectlWbinv h) b x → x.sa.toNat < 2 ^ 48 →
    s.transWarp (s.place s.cur).ctx .rd .wt x.sa.toNat = .ok ph sp leaf → s.lineBusy sp (x.sa.toNat / 128) = false →
    s.refreshing (s.lineHome sp (x.sa.toNat / 128)) = false →
    ∃ t, exec (.cachectlWbinv h) s = .next t ∧ t.warps = s.warps.modify s.cur (fun y => { y with blk := some (s.marked b) }) ∧
      t.teams = s.teams ∧ t.mem = (s.markFired.cleanLine sp (x.sa.toNat / 128)).mem ∧
      (∀ y ∈ t.cache.dc, ¬ (y.space = sp ∧ y.line = x.sa.toNat / 128)) ∧
      (∀ y ∈ t.cache.l1, ¬ (y.space = sp ∧ y.line = x.sa.toNat / 128)) ∧
      (∀ y ∈ t.cache.bridge, ¬ (y.space = sp ∧ y.line = x.sa.toNat / 128))) ∧
  (∀ h s b x, s.Fires (.cachectlL1inv h) b x →
    ∃ t, exec (.cachectlL1inv h) s = .next t ∧ s.Keeps (s.marked b) t ∧ t.teams = s.teams ∧
      (∀ y, y ∈ t.cache.l1 ↔ y ∈ s.cache.l1 ∧
        ((y.die = (s.place s.cur).die ∧ y.core = (s.place s.cur).core) → y.st = .owned ∨ y.st = .weights)))


/-! The rules that every block follows. -/

/-- R39 to R41: an instruction that waits changes nothing, and one whose predicate does not match consumes its operands, produces nothing and will not
fire again. An instruction that a null token reaches does not perform its operation, whatever it is: every target takes a null token, a store-class one
counts towards completion, and beside that nothing changes; a branch is not counted as fired. -/
def Obligations.UnfiredWordsProduceNothing : Prop :=
  (∀ (i : Instr) (h : Hdr) (s : State) (b : Blk), i.hdr? = some h → s.issuing? = some b → b.idle i →
    (readiness b s.curIdx h.pm i.sig = .waits → exec i s = .next s) ∧
    (readiness b s.curIdx h.pm i.sig = .skips →
      exec i s = .next { s with warps := s.warps.modify s.cur fun x =>
        { x with blk := some { b with dropped := s.curIdx :: b.dropped } } })) ∧
  (∀ (b : Blk) n pm sh, readiness { b with dropped := n :: b.dropped } n pm sh = .waits) ∧
  (∀ (i : Instr) (h : Hdr) (s : State) (b : Blk), i.wf = true → i.hdr? = some h → s.issuing? = some b → b.idle i →
    readiness b s.curIdx h.pm i.sig = .nulls → (∀ t ∈ Instr.targets i, b.open t = true ∧ (t = .none ∨ (Instr.targets i).count t = 1)) →
    (Instr.storeClass i = true → b.storeCount < b.nst) →
    exec i s = .next { s with warps := s.warps.modify s.cur fun x => { x with blk := some (s.nulled i b) } }) ∧
  (∀ (s : State) (i : Instr) (b : Blk), (s.nulled i b).branch = b.branch ∧ (s.nulled i b).stores = b.stores ∧ (s.nulled i b).sps = b.sps ∧
    (s.nulled i b).pushes = b.pushes ∧ (s.nulled i b).loads = b.loads ∧ (s.nulled i b).deferred = b.deferred ∧
    (s.nulled i b).storeCount = b.storeCount + (if Instr.storeClass i then 1 else 0))

/-- The next step does what the head of the agenda says: it decodes and executes the instruction that stands in the block of the named
warp, in a timed launch where its core picks it (R171, R172), lets an event happen, a pending write to a scratchpad become visible or a register of a
warp in breach take a value, or lets one tick of every clock or of one pass, and one of every clock also when the agenda is empty; what is due comes
before a tick. The agenda and what counts as due are the model's own (logs 1 and 14). -/
def Obligations.StepRunsDecoded : Prop :=
  (∀ (s : State) w idx r b x i, s.agenda = .fire w idx :: r → s.blk? w = some b → b.words[idx]? = some x → decode x = .ok i →
    let u := { s with agenda := r }
    (u.mayIssue w b idx = true → step s = exec i (u.focus w b idx)) ∧ (u.mayIssue w b idx = false → step s = .next u)) ∧
  (∀ (s : State) w b idx, s.scheduled w b = false → s.mayIssue w b idx = true ∧ s.focus w b idx = { s with cur := w, curIdx := idx }) ∧
  (∀ (s : State) w b idx, s.scheduled w b = true → (s.mayIssue w b idx = true ↔
    ∃ c, issueClass (b.words.getD idx 0) = some c ∧ s.pick (s.place w).die (s.place w).core c = some (w, idx))) ∧
  (∀ (s : State) i r, s.agenda = .event i :: r → i.isWord = false → step s = exec i { s with agenda := r }) ∧
  (∀ (s : State) r, s.agenda = .tick :: r → s.due? = none → step s = .next (State.tick { s.noteEligible with agenda := r })) ∧
  (∀ (s : State) r c, s.agenda = .clock c :: r → s.due? = none → step s = .next (State.clock { s.noteEligible with agenda := r } c)) ∧
  (∀ (s : State) r c up, s.agenda = .steer c up :: r → s.due? = none →
    step s = .next (State.steer { s.noteEligible with agenda := r } c up)) ∧
  (∀ s : State, s.agenda = [] → s.due? = none → step s = .next s.noteEligible.tick) ∧
  (∀ s t : State, s.due? = some t →
    (s.agenda = [] ∨ ∃ r, s.agenda = .tick :: r ∨ (∃ c, s.agenda = .clock c :: r) ∨ ∃ c up, s.agenda = .steer c up :: r) →
    step s = .next t) ∧
  (∀ s t : State, s.due? = some t → s.pkg.up.clocked = true ∧ t ≠ s ∧
    ∃ f ∈ s.dueClock ++ s.dueChannel ++ s.dueUmpire ++ s.dueCopy ++ s.dueWarps ++ s.dueTimed ++ s.dueUnits ++ s.dueLimits, f s = .next t) ∧
  (∀ (s : State) r w x, s.agenda = .smear w x :: r → step s = .next (State.smear { s with agenda := r } w x)) ∧
  (∀ (s : State) r k n part, s.agenda = .spad k n part :: r → step s = .next (State.spadDrain { s with agenda := r } k n part)) ∧
  (∀ (s : State) n w, ∃ idx r x, (s.withFetchWord n w).agenda = .fire idx 0 :: r ∧ r = s.agenda ∧
    ((s.withFetchWord n w).blk? idx).bind (fun b => b.words[0]?) = some x ∧ x = BitVec.ofNat 64 (w % 2 ^ n))

/-- Words written out from the encoding tables decode to the instructions they stand for. -/
def Obligations.WordsDecode : Prop :=
  decode 0x0380824010000001 = .ok (.ssub ⟨.always, .opnd 1 .a, .out 0⟩ (some 1)) ∧
  decode 0x20200000000000A0 = .ok (.bro ⟨.onTrue, .none, .none⟩ 5) ∧
  decode 0x2400000000051234 = .ok (.trap ⟨.always, .none, .none⟩ 5 0x1234) ∧
  decode 0x41030020C0000000 = .ok (.vaddc ⟨.always, .out 0, .opnd 1 .c⟩ none) ∧
  decode 0x6680810000000000 = .ok (.vsplat ⟨.always, .opnd 0 .c, .none⟩ false) ∧
  decode 0xA100000001E00000 = .ok (.mma ⟨.always, .none, .none⟩ false 15) ∧
  decode 0xC600000000090000 = .ok (.fence ⟨.always, .none, .none⟩ .core true) ∧
  decode 0xE400000000000000 = .ok (.eret ⟨.always, .none, .none⟩) ∧
  (∃ e, decode 0x0B00000010000000 = .error e) ∧ (∃ e, decode 0xFFFFFFFFFFFFFFFF = .error e)

/-- R132, R160, R269 with Table 10-3, R383 and R404: before power every counter and measurement register is 0, no context is in use, no queue is
bound, and every die leases 10 ticks with a window of 16 bits. The model's choices (log 10): the machine begins without power, and until then the
reconciled counters are 0, the landing buffers of R177 hold nothing and memory lists nothing and reads 0. Reset meets the invariants that every step
keeps. -/
def Obligations.ResetValues : Prop :=
  State.reset.pkg.up = .off ∧ State.reset.stake = 0 ∧ State.reset.dies.length = 8 ∧
  (∀ d ∈ State.reset.dies, d.local_ = 0 ∧ d.recon = 0 ∧ d.lscfg = 0xA1000 ∧ d.tsmax = 0 ∧ d.wrapAt = none ∧ d.landing = []) ∧
  State.reset.queues.length = 64 ∧ (∀ q ∈ State.reset.queues, q.ctl = 0 ∧ q.stat = 0 ∧ q.tll.val = 0 ∧ q.entries = []) ∧
  State.reset.ctxs.length = 256 ∧ (∀ c ∈ State.reset.ctxs, c.st = .free ∧ c.tlk.val = 0) ∧
  State.reset.pkg.mr = List.replicate 8 0 ∧ State.reset.warps = [] ∧ (∀ a, getByte State.reset.mem a = 0) ∧
  State.reset.memOk ∧ State.reset.fixedOk ∧ State.reset.shapeOk

/-- R4: a byte reads as last written and a write leaves every other byte alone; a 64-bit word is stored with the byte at its lowest
address holding bits [7:0]. -/
def Obligations.MemoryReadsWhatWasWritten : Prop :=
  (∀ (m : Memory) a x v, Memory.wf m = true → getByte (setByte m a v) x = if x = a then v else getByte m x) ∧
  (∀ (m : Memory) a (v : Word), Memory.wf m = true → getW64 (setW64 m a v) a = v ∧
    (∀ i < 8, getByte (setW64 m a v) (a + i) = v.extractLsb' (8 * i) 8) ∧
    ∀ x, x < a ∨ a + 8 ≤ x → getByte (setW64 m a v) x = getByte m x) ∧
  (∀ m n : Memory, Memory.wf m = true → Memory.wf n = true → (∀ x, getByte m x = getByte n x) → m = n)

/-- Decoding what the encoder gives for a well-formed instruction word gives that instruction back, with every field at every value that
the encoding admits. Every word that decodes gives a well-formed instruction, and encoding that gives the word back: no two words are one
instruction and no bit of a word is ignored. -/
def Obligations.DecodeEncode : Prop :=
  (∀ i : Instr, i.wf = true → i.isWord = true → ∃ w, encode i = some w ∧ decode w = .ok i) ∧
  (∀ w i, decode w = .ok i → i.wf = true ∧ encode i = some w)

/-- Every step keeps the canonical form of global memory, of every scratchpad and of every landing buffer. -/
def Obligations.StepKeepsMemoryForm : Prop := ∀ s t : State, s.memOk → step s = .next t → t.memOk

/-- Every step keeps `s0` at 0 and `k0` at all ones in every warp (R30, Table 2-2), and eight compute dies (R8, Table 1-1), 64 launch queues (R132) and
256 contexts (R383), with every grid in one of the contexts. -/
def Obligations.StepKeepsFixedRegistersAndShape : Prop :=
  (∀ s t : State, s.fixedOk → step s = .next t → t.fixedOk) ∧ ∀ s t : State, s.shapeOk → step s = .next t → t.shapeOk

/-- R45, R101, R360: a warp's registers change only when its own block commits, when its own matrix block takes a lane-array tick, or when power is
lost or comes on; in a timed launch both are due in their ticks (R171). Beside that, `fmt` is restored when a path-end loop goes on that waited for a
spilled group (R54, R56), and the registers of a warp in breach of a rule hold unspecified values (R2). -/
def Obligations.RegistersChangeOnlyAtCommit : Prop :=
  let matrix := fun (s : State) (w idx : Nat) => ∃ b q i, s.blk? w = some b ∧ b.words[idx]? = some q ∧ decode q = .ok i ∧
    Instr.stepped i = true ∧ ∀ h n c d, i ≠ .mst h n c d
  ∀ (s t : State) (w : Nat) (x : Warp), step s = .next t → s.warps[w]? = some x →
    (∃ y, t.warps[w]? = some y ∧ y.regs = x.regs) ∨
    (∃ r, s.agenda = .event (.blockCommit w) :: r) ∨ (∃ r, s.agenda = .event .thermalTrip :: r) ∨
    (∃ r p, s.agenda = .event (.powerOn p) :: r) ∨
    (x.refill ≠ .none ∧ ∃ y, t.warps[w]? = some y ∧ y.v = x.v ∧ y.s = x.s ∧ y.k = x.k ∧ y.mreg = x.mreg ∧ y.wst = x.wst) ∨
    (x.breached = true ∧ ∃ r q, s.agenda = .smear w q :: r) ∨
    (s.due? = some t ∧ (s.launchOf w).timed = true ∧
      (exec (.blockCommit w) s = .next t ∨ ∃ idx, matrix s w idx ∧ s.fire w idx = .next t)) ∨
    ∃ r idx, s.agenda = .fire w idx :: r ∧ matrix s w idx

/-- R45: no instruction word but `cachectl.wb` and `.wbinv`, which write cached words back, changes global memory or a scratchpad: stores
wait for the commit of their block. -/
def Obligations.WordsWriteNoMemory : Prop :=
  ∀ (i : Instr) (s t : State), i.isWord = true → (∀ h, i ≠ .cachectlWb h ∧ i ≠ .cachectlWbinv h) → exec i s = .next t →
    t.mem = s.mem ∧ t.teams.map Team.spad = s.teams.map Team.spad ∧ t.warps.length = s.warps.length

/-- R37, and R30 whole: at commit a vector write slot writes the live lanes, a scalar or mask slot its whole register, a null token
nothing, and a slot of `s0` or `k0` commits no value. -/
def Obligations.WriteSlotsWrite : Prop :=
  ∀ (x : Warp) (live : Word) (r : Nat) (t : Token), x.s.length = 64 → x.k.length = 16 →
    (t = .null → ∀ c, (x.writeReg live (c, r) t).regs = x.regs) ∧
    (t ≠ .null → r < x.v.length → ∀ l < 64, ((x.writeReg live (0, r) t).vreg r).lane l =
      if live.getLsbD l then t.vec.lane l else (x.vreg r).lane l) ∧
    (∀ n, n ≠ r → (x.writeReg live (0, r) t).vreg n = x.vreg n) ∧
    ((x.writeReg live (0, r) t).s = x.s ∧ (x.writeReg live (0, r) t).k = x.k) ∧
    (t ≠ .null → 0 < r → r < 64 → (x.writeReg live (1, r) t).s.getD r 0 = t.word) ∧
    (∀ n, n ≠ r → (x.writeReg live (1, r) t).s.getD n 0 = x.s.getD n 0) ∧
    ((x.writeReg live (1, r) t).v = x.v ∧ (x.writeReg live (1, r) t).k = x.k) ∧
    (t ≠ .null → 0 < r → r < 16 → (x.writeReg live (2, r) t).k.getD r 0 = t.word) ∧
    (∀ n, n ≠ r → (x.writeReg live (2, r) t).k.getD n 0 = x.k.getD n 0) ∧
    ((x.writeReg live (2, r) t).v = x.v ∧ (x.writeReg live (2, r) t).s = x.s) ∧
    (x.writeReg live (1, 0) t).regs = x.regs ∧ (x.writeReg live (2, 0) t).regs = x.regs ∧
    (∀ c, (x.writeReg live (c, r) t).fmt = x.fmt ∧ (x.writeReg live (c, r) t).mreg = x.mreg ∧ (x.writeReg live (c, r) t).wst = x.wst)


/-! The life of a block. -/

/-- R36, R44: once the acquires that it owes are made (`u`), a block starts with its read slots read once and delivered, nothing fired and
no register changed; a block that can do nothing more and is not complete raises the invalid block fault with `DETAIL` 32. -/
def Obligations.BlockStartsAndStalls : Prop :=
  (∀ s u w m e, s.mayFetch w = true → s.fetchHeld w = false → s.acquires w = some u → (s.warp w).timed.owesMiss = false →
    (s.warp w).refill = .none → u.readImage w (s.warp w).next = .got m e → u.imageCheck w m e = none →
    readsPoison (s.warp w) m ((m.ins.filter fun i => wOpc i == 0x18E).map fun i => fld i 49 4) = false →
    ((m.reads.flatMap fun r => [r.t0, r.t1]).filterMap fun t => match decTarget t with
      | .ok .none => none
      | .ok u => some u
      | .error _ => none).Nodup →
    ∃ t b, exec (.blockFetch w) s = .next t ∧ t.blk? w = some b ∧ b.num = (s.warp w).next ∧ b.words = m.ins ∧ b.cls = m.cls ∧
      b.nst = m.nst ∧ b.live0 = (s.warp w).live ∧ b.fmt0 = (s.warp w).fmt ∧ b.mreg0 = (s.warp w).mreg ∧ b.fired = [] ∧
      b.storeCount = 0 ∧ b.branch = none ∧ (t.warp w).regs = (s.warp w).regs ∧ t.mem = s.mem ∧
      ∀ r ∈ m.reads, ∀ u ∈ [r.t0, r.t1],
        (∀ i sl, decTarget u = .ok (.opnd i sl) → b.opnd? i.toNat sl = some ((s.warp w).readSlot r)) ∧
        ∀ n, decTarget u = .ok (.out n) → b.out? n.toNat = some ((s.warp w).readSlot r)) ∧
  (∀ (x : Warp) (r : RSlot),
    (r.cls = 0 → x.readSlot r = .v (x.vreg r.reg)) ∧ (r.cls = 1 → x.readSlot r = .s (x.s.getD r.reg 0)) ∧
    (r.cls = 2 → x.readSlot r = .k (x.k.getD r.reg 0)) ∧
    (r.cls = 3 → (r.reg = 0 → x.readSlot r = .s x.fmt) ∧ (r.reg = 1 → x.readSlot r = .s x.mreg) ∧
      (r.reg = 2 → x.readSlot r = .v (Vec.tab fun l => BitVec.ofNat 32 l)))) ∧
  (∀ s w, s.mayFetch w = false ∨ s.fetchHeld w = true → exec (.blockFetch w) s = .next s) ∧
  (∀ s w b, s.shapeOk → s.blk? w = some b → b.quiet = true → b.complete = false →
    ∃ t, exec (.blockQuiescent w) s = .next t ∧ s.ParkedOn t w 1 32 255)

/-- R420, R53, R56, R77, R90, R139, R394: what stops a fetch, in the order of R420, once the acquires that the warp owes are made (`u`): the window miss
of a failed timed copy, the read-back of a spilled group, an image that is absent or in a page that may not be executed, the rows of Table 3-15 from
the top, a system block outside trap mode, a general block in a timed launch, a timed block without all lanes, the rows of Table 15-2, and the checks on
`tsend`. The warp parks, and nothing of the block is done. -/
def Obligations.RefusedBlocksFault : Prop :=
  let ready := fun (s u : State) w => u.shapeOk ∧ s.mayFetch w = true ∧ s.fetchHeld w = false ∧ s.acquires w = some u
  let stops := fun (s u : State) w (f : FRec) => ∃ t, exec (.blockFetch w) s = .next t ∧ u.ParkedOn t w f.code f.detail f.index
  let tells := fun (s : State) w m e (code detail : Nat) => ∃ f, s.imageCheck w m e = some f ∧ f.code = code ∧ f.detail = detail
  let row := fun (s : State) w (m : Img) (e : Word) =>
    firstRow (entryRows e ++ (m.fetchRow (s.launchOf w).vregs (s.launchOf w).bars (s.launchOf w).coresident
      (match s.objOf w with
        | some o => o.preloads.length
        | none => 0) (s.warp w).mreg).toList)
  let upTo := fun (s : State) w m e (r : Nat) => ∃ f, s.imageCheck w m e = some f ∧ f.code = 1 ∧ 0 < f.detail ∧ f.detail ≤ r
  let magic := fun (m : Img) => fld m.h0 60 4 = 0xB ∧ fld m.h0 56 4 = 3
  (∀ s u w, ready s u w → (s.warp w).timed.owesMiss = true → stops s u w { code := 10 }) ∧
  (∀ s u w q, ready s u w → (s.warp w).timed.owesMiss = false → (s.warp w).refill = .group →
    u.readGroup w ((s.warp w).spilled - 1) = .error q → q.1.code ≠ 3 → stops s u w q.1) ∧
  (∀ s u w f pg, ready s u w → (s.warp w).timed.owesMiss = false → (s.warp w).refill = .none →
    u.readImage w (s.warp w).next = .bad f pg → f.code ≠ 3 → stops s u w f) ∧
  (∀ s u w m e f, ready s u w → (s.warp w).timed.owesMiss = false → (s.warp w).refill = .none →
    u.readImage w (s.warp w).next = .got m e → u.imageCheck w m e = some f → stops s u w f) ∧
  (∀ (s : State) w n, s.hasBlock w n = false → ∃ f, s.readImage w n = .bad f none ∧ f.code = 1 ∧ f.detail = 34) ∧
  (∀ (s : State) w n o ofs, s.objOf w = some o → o.offset? n = some ofs → s.transNow (s.place w).ctx true .ex (o.code + ofs) = .prot →
    ∃ f, s.readImage w n = .bad f none ∧ f.code = 4 ∧ f.detail = 16 ∧ f.addr = BitVec.ofNat 64 (o.code + ofs)) ∧
  (∀ (l : List Nat) r, firstRow l = some r ↔ r ∈ l ∧ ∀ q ∈ l, r ≤ q) ∧
  (∀ s w m e r, row s w m e = some r → tells s w m e 1 (if r = 27 then 39 else r)) ∧
  (∀ s w m e, ¬ magic m → tells s w m e 1 1) ∧
  (∀ s w m e, magic m → fld m.h0 0 24 ≠ 0 ∨ fld m.h1 0 34 ≠ 0 ∨ fld e 40 23 ≠ 0 → tells s w m e 1 2) ∧
  (∀ s w m e, 16 < m.nrd ∨ 16 < m.nwr → upTo s w m e 3) ∧
  (∀ s w m e, (m.ins.filter fun q => opStore (wOpc q)).length < m.nst → upTo s w m e 4) ∧
  (∀ s w m e, ¬ ((m.writes.filter (·.val)).map fun q => (q.cls, q.reg)).Nodup → upTo s w m e 9) ∧
  (∀ s w m e, (∃ q ∈ m.writes, q.val = true ∧ q.cls = 0 ∧ (s.launchOf w).vregs ≤ q.reg) ∨
    (∃ q ∈ m.reads, q.cls = 0 ∧ (s.launchOf w).vregs ≤ q.reg) → upTo s w m e 10) ∧
  (∀ s w m e r, r ∈ m.reads → (∃ i sl, decTarget r.t0 = .ok (.opnd i sl) ∧ m.nins ≤ i.toNat) → upTo s w m e 14) ∧
  (∀ s w m e, ¬ ((m.ins.filter fun q => opM (wOpc q)).map fun q => fld q 24 5).Nodup → upTo s w m e 16) ∧
  (∀ s w m e, (∀ q ∈ m.ins, ¬ (0x40 ≤ wOpc q ∧ wOpc q ≤ 0x45) ∧ wOpc q ≠ 0x1C8) → upTo s w m e 21) ∧
  (∀ s w m e, fld e 0 40 % 64 ≠ 0 → upTo s w m e 23) ∧
  (∀ s w m e, row s w m e = none → m.cls = 3 → (s.warp w).trap.on = false → (s.place w).ctx ≠ 0 → tells s w m e 4 16) ∧
  (∀ s w m e, row s w m e = none → m.cls = 0 → (s.launchOf w).timed = true → tells s w m e 1 37) ∧
  (∀ s w m e, row s w m e = none → m.cls = 2 → (s.launchOf w).timed = true → (s.warp w).live ≠ allLanes → tells s w m e 1 43) ∧
  (∀ s w m e, row s w m e = none → m.cls = 1 → (s.warp w).live ≠ allLanes → tells s w m e 9 0) ∧
  (∀ s w m e, row s w m e = none → m.cls = 1 → (s.warp w).live = allLanes →
    (∃ q ∈ m.ins, wOpc q = 0x140 ∧ (s.launchOf w).vregs < fld q 2 8 + 66) → tells s w m e 8 1) ∧
  (∀ s w m e, row s w m e = none → m.cls = 1 → (s.warp w).live = allLanes → (∀ q ∈ m.ins, wOpc q ≠ 0x140) →
    (∃ q ∈ m.ins, 0x141 ≤ wOpc q ∧ wOpc q ≤ 0x148) → (s.warp w).mreg.getLsbD 0 = false → tells s w m e 7 0) ∧
  (∀ s w m e k h n, row s w m e = none → m.cls = 2 → (s.launchOf w).timed = true → (s.warp w).live = allLanes → s.umpireOn w = false →
    m.matrixFault (s.warp w).live (s.warp w).mreg (s.warp w).fmt (s.launchOf w).vregs = none →
    m.instr? k = some (.tsend h n) → (n.toNat % 64 ≠ 0 ∨ n.toNat < (s.launchOf w).strokeD ∨ (s.launchOf w).strokeS < n.toNat + 128) →
    (∀ j < k, ∀ i, m.instr? j = some i → s.timedCheck w m.cls i = none) →
    ∃ f, s.imageCheck w m e = some f ∧ f.code = 12 ∧ f.detail = 0 ∧ f.index = k)

/-- R33, R37, R45, R118, R167: a commit writes the registers of its write slots, and `fmt`, `mreg` and `WST` as the block's instructions asked: `wstclr`
clears `WST` before `RANGE` is set. The warp continues at the successor, two ticks later at the earliest, or 24 after `mmode` (R365). With a `stroke`
it parks for its boundary; a slipped one adds the boundaries that it missed to `WST.SLIP`, up to 65,535. (A block that also writes `FAULTRES` may have
its own warp resolved, which R427 describes.) -/
def Obligations.CommitWritesRegisters : Prop :=
  let wst := fun (s : State) w (b : Blk) =>
    let old := if b.deferred.wstclr then 0 else (s.warp w).wst
    if b.deferred.range then old ||| 1 else old
  (∀ s w b n, s.Commits w b → s.GoesTo w b n → s.commitFaults w b = [] → b.deferred.trap = none → b.deferred.stroke = none →
    (∀ p ∈ b.deferred.syswr, ∀ c, p.1 ≠ .faultRes c) →
    ∃ t, exec (.blockCommit w) s = .next t ∧ t.blk? w = none ∧ (t.warp w).next = n ∧ (t.warp w).live = (s.warp w).live ∧
      (t.warp w).begin_ = s.localTick (s.place w).die + (if b.deferred.mmode = none then 2 else 24) ∧
      (t.warp w).v = ((s.warp w).writeSlots b).v ∧ (t.warp w).s = ((s.warp w).writeSlots b).s ∧
      (t.warp w).k = ((s.warp w).writeSlots b).k ∧
      (∀ i form a, b.deferred.fmt = some (i, form, a) → (t.warp w).fmt = fmtWrite form (s.warp w).fmt a) ∧
      (b.deferred.fmt = none → (t.warp w).fmt = (s.warp w).fmt) ∧
      (∀ i on en1 a0 a1, b.deferred.mmode = some (i, on, en1, a0, a1) → (t.warp w).mreg = mregPack on en1 a0 a1) ∧
      (b.deferred.mmode = none → (t.warp w).mreg = (s.warp w).mreg) ∧ (t.warp w).wst = wst s w b ∧
      ∀ v y, v ≠ w → s.warps[v]? = some y → ∃ z, t.warps[v]? = some z ∧ z.regs = y.regs ∧ z.blk = y.blk ∧ z.next = y.next) ∧
  (∀ s w b n i slip, s.Commits w b → s.GoesTo w b n → s.commitFaults w b = [] → b.deferred.trap = none →
    b.deferred.stroke = some (i, slip) → (s.warp w).done = false → (∀ p ∈ b.deferred.syswr, ∀ c, p.1 ≠ .faultRes c) →
    let len := (s.launchOf w).strokeS
    let now := s.wRecon w
    let nb := len * (now / len + 1)
    let bt := (s.warp w).timed.bt
    ∃ t, exec (.blockCommit w) s = .next t ∧ t.blk? w = none ∧ (t.warp w).next = n ∧
      (t.warp w).timed.strokes = (s.warp w).timed.strokes + 1 ∧ (t.warp w).timed.parkedAt = s.localTick (s.place w).die ∧
      ((s.launchOf w).timed = false → (t.warp w).park.stroke = some nb ∧ (t.warp w).wst = wst s w b) ∧
      ((s.launchOf w).timed = true → now < bt → (t.warp w).park.stroke = some bt ∧ (t.warp w).timed.bt = bt + len ∧
        (t.warp w).wst = wst s w b) ∧
      ((s.launchOf w).timed = true → bt ≤ now → (t.warp w).park.stroke = some nb ∧ (t.warp w).timed.bt = nb + len ∧
        fld (t.warp w).wst 48 16 = min 65535 (fld (wst s w b) 48 16 + (nb - bt) / len) ∧ fld (t.warp w).wst 0 48 = fld (wst s w b) 0 48))

/-- R45, R46, R212, R228, R245: at commit the one scratchpad store of a block is made: its word, and no other byte, is then what its warp sees; other
agents see it when it becomes visible, in a timed launch at once, else when the agenda says (log 49) and what comes before it is
visible. Its one global store enters the memory system; its one push sends its command, which takes the next sequence number. -/
def Obligations.CommitPerformsStoresAndPushes : Prop :=
  (∀ s w b n p, s.Commits w b → s.GoesTo w b n → s.commitFaults w b = [] → b.deferred = {} → b.sps = [p] → b.mst = [] →
    p.team < s.teams.length → Memory.wf (s.team p.team).spad = true → (s.teamLaunch p.team).timed = false →
    ∃ t e, exec (.blockCommit w) s = .next t ∧ (t.team p.team).pend = (s.team p.team).pend ++ [e] ∧ e.warp = some w ∧
      e.bytes = placeBytes p.ofs (leBytes 4 p.val.toNat) ∧ (t.team p.team).spad = (s.team p.team).spad ∧ t.mem = s.mem ∧
      getW32 (t.seen w p.team).spad p.ofs = p.val ∧
      ∀ a, a < p.ofs ∨ p.ofs + 4 ≤ a → getByte (t.seen w p.team).spad a = getByte (s.seen w p.team).spad a) ∧
  (∀ s w b n p, s.Commits w b → s.GoesTo w b n → s.commitFaults w b = [] → b.deferred = {} → b.sps = [p] → b.mst = [] →
    p.team < s.teams.length → Memory.wf (s.team p.team).spad = true → (s.teamLaunch p.team).timed = true →
    ∃ t, exec (.blockCommit w) s = .next t ∧ getW32 (t.team p.team).spad p.ofs = p.val ∧ t.mem = s.mem ∧
      ∀ a, a < p.ofs ∨ p.ofs + 4 ≤ a → getByte (t.team p.team).spad a = getByte (s.team p.team).spad a) ∧
  (∀ (s : State) r k n e, s.agenda = .spad k n [] :: r → (s.team k).pend[n]? = some e → s.spadMay k n e = true →
    ∃ t, step s = .next t ∧ (t.team k).spad = setBytes (s.team k).spad e.bytes ∧ (t.team k).pend = (s.team k).pend.eraseIdx n ∧
      t.mem = s.mem ∧ t.warps = s.warps ∧ ∀ j, j ≠ k → t.team j = s.team j) ∧
  (∀ (s : State) r k n e part, s.agenda = .spad k n part :: r → (s.team k).pend[n]? = some e → s.spadMay k n e = false →
    step s = .next { s with agenda := r }) ∧
  (∀ s w b n g l ln, s.Commits w b → s.GoesTo w b n → s.commitFaults w b = [] → b.deferred = {} → b.stores = [g] →
    g.kind = .bytes l → l ≠ [] → (∀ p ∈ l, p.1 / 128 = ln) → (∃ h sp, s.homeOf (s.place w).ctx (ln * 128) = .loc h sp) →
    ∃ t r, exec (.blockCommit w) s = .next t ∧ t.cache.dreqs = s.cache.dreqs ++ [r] ∧ r.kind = .store l ∧ r.line = ln ∧
      r.space = s.spaceOf (s.place w).ctx (ln * 128) ∧ r.w = some w ∧ r.rqt = g.rqt ∧ (r.ord = .rel ↔ g.ord = .rel) ∧
      (g.ord = .rel → r.scope = g.scope) ∧ r.performed = false ∧ t.mem = s.mem) ∧
  (∀ s w b n p k, s.Commits w b → s.GoesTo w b n → s.commitFaults w b = [] → b.deferred = {} → b.pushes = [p] → p.dst = .copy k →
    (s.warp w).team < s.teams.length → (∀ o, s.objOf w = some o → o.preloads = []) →
    ∃ t c, exec (.blockCommit w) s = .next t ∧ (t.team (s.warp w).team).queue = (s.team (s.warp w).team).queue ++ [c] ∧
      c.seq = (s.team (s.warp w).team).tlc.issued + 1 ∧ c.cmd = p.cmd ∧ c.timed = (if k = 0 then none else some k) ∧
      (t.team (s.warp w).team).tlc.issued = (s.team (s.warp w).team).tlc.issued + 1 ∧
      (t.team (s.warp w).team).reserved = (s.team (s.warp w).team).reserved - 1)

/-- R430, R431, R433: at the commit of a block in which `trap` or `brk` fired, the trap words save the trap, the block, its successor and what it
still owes, an exit, a `bar` or a `tlwait`, which wait for the return; trap mode is set, and the warp continues at the handler with its lanes, `fmt`
and registers as the block left them; without a handler it parks with `DETAIL` 40, and in trap mode the block aborts with `DETAIL` 42. (That a
pending exit leaves the block number in `TRET` a free value is log 22.) -/
def Obligations.TrapsAreTaken : Prop :=
  let owes := fun (b : Blk) => (if b.deferred.bar.isSome then 2 ^ 26 else 0) + if b.deferred.waits = [] then 0 else 2 ^ 27
  let takes := fun (s t : State) w (b : Blk) (num pay v ret : Nat) (out : Bool) =>
    (t.warp w).trap.on = true ∧ (t.warp w).trap.tr0 = BitVec.ofNat 64 (pay * 2 ^ 48 + num) ∧
    (t.warp w).trap.tr1 = BitVec.ofNat 64 (b.num * 2 ^ 32 + (s.launchOf w).object) ∧
    (t.warp w).trap.tret = BitVec.ofNat 64 (ret + owes b) ∧ (t.warp w).trap.tlive = (s.warp w).live ∧
    (t.warp w).trap.tdepth = (s.warp w).depth ∧ (t.warp w).trap.pexit = out ∧
    (t.warp w).trap.pbar = b.deferred.bar.map (fun q => (q.2.1, q.2.2)) ∧ (t.warp w).trap.pwait = b.deferred.waits ∧
    (t.warp w).next = v + num ∧ (t.warp w).live = (s.warp w).live ∧ (t.warp w).park.bar = (s.warp w).park.bar ∧
    (t.warp w).park.waits = (s.warp w).park.waits ∧ (t.warp w).regs = ((s.warp w).commitRegs b).regs ∧ t.blk? w = none
  let calm := fun (s : State) w (b : Blk) => b.deferred.stroke = none ∧ (s.warp w).done = false ∧
    ∀ p ∈ b.deferred.syswr, ∀ c, p.1 ≠ .faultRes c
  (∀ s w b n i num pay v, s.Commits w b → s.GoesTo w b n → n < 2 ^ 24 → s.commitFaults w b = [] → b.deferred.trap = some (i, num, pay) →
    calm s w b → s.trapVector (s.place w).ctx = (true, v) → s.hasBlock w (v + num) = true →
    ∃ t, exec (.blockCommit w) s = .next t ∧ takes s t w b num pay v n false) ∧
  (∀ s w b j i num pay v, s.Commits w b → b.branch = some (j, .exit) → s.commitFaults w b = [] → b.deferred.trap = some (i, num, pay) →
    calm s w b → s.trapVector (s.place w).ctx = (true, v) → s.hasBlock w (v + num) = true →
    ∃ t k, exec (.blockCommit w) s = .next t ∧ k < 2 ^ 24 ∧ takes s t w b num pay v (k + 2 ^ 25) true ∧
      (t.warp w).retired = (s.warp w).retired ∧ (t.warp w).done = false) ∧
  (∀ s w b n i num pay v, s.shapeOk → s.Commits w b → s.GoesTo w b n → s.commitFaults w b = [] → b.deferred.trap = some (i, num, pay) →
    b.deferred.stroke = none → (s.warp w).done = false → b.deferred.syswr = [] →
    s.trapVector (s.place w).ctx = (false, v) ∨ (s.trapVector (s.place w).ctx = (true, v) ∧ s.hasBlock w (v + num) = false) →
    ∃ t f, exec (.blockCommit w) s = .next t ∧ (t.warp w).next = n ∧ (t.warp w).regs = ((s.warp w).commitRegs b).regs ∧
      (t.warp w).park.fault = true ∧ (∀ q, b.deferred.bar = some q → (t.warp w).park.bar = some (q.2.1, q.2.2)) ∧
      (t.ctx (s.place w).ctx).hubq.getLast? = some f ∧ f.code = 1 ∧ f.detail = 40 ∧ f.index = i ∧ f.block = b.num) ∧
  (∀ s w b n i num pay, s.shapeOk → s.Commits w b → s.GoesTo w b n → b.deferred.trap = some (i, num, pay) → (s.warp w).trap.on = true →
    b.deferred.stroke = none → (∀ t ∈ s.tsends, t.w = w → t.committed = true) → b.pushes = [] →
    ∃ t, exec (.blockCommit w) s = .next t ∧ s.ParkedOn t w 1 42 i)

/-- R54 to R61, R121 to R125, R434: the successor that each branch gives at commit. `brv` whose lanes agree goes on with all of them; where they
disagree a JOIN entry and a PATH entry for each further target are pushed and the lowest target's lanes go on, in a full stack with the oldest 16 entries
spilled to private memory and `WST.SPILL` set. `call` writes its frame and `ret` takes the newest. `exit` retires lanes. A path that ends at the join
pops the next one. `eret` ends trap mode, restores the saved lanes that have not retired, and then what was owed, the exit, the `bar`, the `tlwait`,
takes effect. A target that is absent, lanes that disagree in a matrix or timed block, a `ret` without a frame or at a deeper stack, an `eret` outside
trap mode or at another depth, and an exhausted stack raise their faults, and the block aborts. -/
def Obligations.BranchesChooseSuccessors : Prop :=
  let commits := fun (s : State) w (b : Blk) (sel : Nat × BranchSel) => s.Commits w b ∧ s.commitFaults w b = [] ∧ b.branch = some sel ∧
    b.deferred.trap = none ∧ b.deferred.stroke = none ∧ (s.warp w).done = false ∧ ∀ p ∈ b.deferred.syswr, ∀ c, p.1 ≠ .faultRes c
  let targets := fun (s : State) w (v : Vec) (j : Nat) (ts : List Nat) => s.hasBlock w j = true ∧ ts.Pairwise (· < ·) ∧
    (∀ n, n ∈ ts ↔ n ≠ j ∧ ∃ l < 64, (s.warp w).live.getLsbD l = true ∧ (v.lane l).toNat = n) ∧
    (∀ n ∈ ts, n < 2 ^ 24 ∧ s.hasBlock w n = true)
  let disagree := fun (s : State) w (v : Vec) => ∃ l < 64, ∃ m < 64, (s.warp w).live.getLsbD l = true ∧ (s.warp w).live.getLsbD m = true ∧
    v.lane l ≠ v.lane m
  let mask := fun (s : State) w (v : Vec) (n : Nat) => maskTab fun l => (s.warp w).live.getLsbD l && (v.lane l).toNat == n
  let fmt := fun (s : State) w (b : Blk) => ((s.warp w).commitRegs b).fmt
  let same := fun (s t : State) w => (t.warp w).live = (s.warp w).live ∧ (t.warp w).stack = (s.warp w).stack ∧ (t.warp w).cj = (s.warp w).cj ∧
    t.blk? w = none
  let rest := fun (s t : State) w (e : REntry) (r : List REntry) => (t.warp w).next = e.block ∧
    (t.warp w).live = e.mask &&& ~~~(t.warp w).retired ∧ (t.warp w).stack = r ∧ (t.warp w).fmt = e.fmt ∧
    (t.warp w).cj = (if e.join then (r.find? fun x => x.join).map (·.block) else (s.warp w).cj) ∧ t.blk? w = none
  let stored := fun (t : State) w sp va (l : List (BitVec 8)) => ∀ p ∈ placeBytes va l, ∃ r ∈ t.cache.dreqs, r.w = some w ∧ r.space = sp ∧
    r.rqt = .own ∧ ∃ x, r.kind = .store x ∧ p ∈ x
  let frame := fun (s : State) w (n : Nat) => s.privBase w + 0x10000 + 16 * n
  let stops := fun (s : State) w (b : Blk) sel (code detail : Nat) => s.shapeOk → commits s w b sel →
    ∃ t, exec (.blockCommit w) s = .next t ∧ s.ParkedOn t w code detail sel.1
  (∀ s w b i v j n, commits s w b (i, .lanes v j) → targets s w v j (if n = j then [] else [n]) → ¬ disagree s w v → (s.warp w).live ≠ 0 →
    (∃ l < 64, (s.warp w).live.getLsbD l = true ∧ (v.lane l).toNat = n) → n < 2 ^ 24 → (s.warp w).cj ≠ some n →
    ∃ t, exec (.blockCommit w) s = .next t ∧ (t.warp w).next = n ∧ same s t w) ∧
  (∀ s w b i v j ts, commits s w b (i, .lanes v j) → targets s w v j ts → disagree s w v → b.cls ≠ 1 → b.cls ≠ 2 →
    (s.warp w).stack.length + ts.length ≤ 32 →
    ∃ t, exec (.blockCommit w) s = .next t ∧ (t.warp w).next = ts.headD 0 ∧ (t.warp w).live = mask s w v (ts.headD 0) ∧
      (t.warp w).cj = some j ∧ (t.warp w).spilled = (s.warp w).spilled ∧ t.blk? w = none ∧
      (t.warp w).stack = (ts.drop 1).map (fun n => { join := false, block := n, mask := mask s w v n, fmt := fmt s w b }) ++
        { join := true, block := j, mask := (s.warp w).live, fmt := fmt s w b } :: (s.warp w).stack) ∧
  (∀ s w b i v j n ph sp leaf, commits s w b (i, .lanes v j) → targets s w v j [n] → disagree s w v → b.cls ≠ 1 → b.cls ≠ 2 →
    (s.warp w).stack.length = 32 → (s.warp w).spilled < 128 →
    s.transNow (s.place w).ctx true .wr (s.privBase w + 512 * (s.warp w).spilled) = .ok ph sp leaf →
    ∃ t, exec (.blockCommit w) s = .next t ∧ (t.warp w).next = n ∧ (t.warp w).live = mask s w v n ∧ (t.warp w).cj = some j ∧
      (t.warp w).wst = ((s.warp w).commitRegs b).wst ||| 2 ∧ (t.warp w).spilled = (s.warp w).spilled + 1 ∧ t.blk? w = none ∧
      (t.warp w).stack = { join := true, block := j, mask := (s.warp w).live, fmt := fmt s w b } :: (s.warp w).stack.take 16 ∧
      stored t w sp (s.privBase w + 512 * (s.warp w).spilled) (((s.warp w).stack.drop 16).reverse.flatMap fun e =>
        leBytes 8 (e.block + if e.join then 2 ^ 24 else 0) ++ leBytes 8 e.mask.toNat ++ leBytes 8 e.fmt.toNat ++ leBytes 8 0)) ∧
  (∀ s w b i v j n, targets s w v j [n] → disagree s w v → b.cls ≠ 1 → b.cls ≠ 2 → (s.warp w).stack.length = 32 → 128 ≤ (s.warp w).spilled →
    stops s w b (i, .lanes v j) 14 0) ∧
  (∀ s w b i v j n hm sp, targets s w v j [n] → disagree s w v → b.cls ≠ 1 → b.cls ≠ 2 → (s.warp w).stack.length = 32 → (s.warp w).spilled < 128 →
    s.transNow (s.place w).ctx true .wr (s.privBase w + 512 * (s.warp w).spilled) = .page hm sp → stops s w b (i, .lanes v j) 13 0) ∧
  (∀ s w b i v j ts, targets s w v j ts → disagree s w v → b.cls = 1 ∨ b.cls = 2 → stops s w b (i, .lanes v j) 1 36) ∧
  (∀ s w b i v j l, l < 64 → (s.warp w).live.getLsbD l = true → s.hasBlock w (v.lane l).toNat = false ∨ s.hasBlock w j = false →
    stops s w b (i, .lanes v j) 1 34) ∧
  (∀ s w b i n, s.hasBlock w n = false → stops s w b (i, .goto n) 1 34 ∧ stops s w b (i, .call n) 1 34) ∧
  (∀ s w b i (x : Word), 2 ^ 24 ≤ x.toNat ∨ s.hasBlock w x.toNat = false → stops s w b (i, .reg x) 1 34) ∧
  (∀ s w b i (x : Word), commits s w b (i, .reg x) → x.toNat < 2 ^ 24 → s.hasBlock w x.toNat = true → (s.warp w).live ≠ 0 →
    (s.warp w).cj ≠ some x.toNat → ∃ t, exec (.blockCommit w) s = .next t ∧ (t.warp w).next = x.toNat ∧ same s t w) ∧
  (∀ s w b i n ph sp leaf, commits s w b (i, .call n) → s.hasBlock w n = true → (s.warp w).live ≠ 0 → (s.warp w).cj ≠ some n →
    (s.warp w).calls < 65536 → s.transNow (s.place w).ctx true .wr (frame s w (s.warp w).calls) = .ok ph sp leaf →
    ∃ t, exec (.blockCommit w) s = .next t ∧ (t.warp w).next = n ∧ same s t w ∧ (t.warp w).calls = (s.warp w).calls + 1 ∧
      stored t w sp (frame s w (s.warp w).calls)
        (leBytes 8 ((s.launchOf w).object + 2 ^ 32 * (((s.warp w).next + 1) % 2 ^ 24)) ++ leBytes 8 ((s.warp w).depth % 4096))) ∧
  (∀ s w b i n hm sp, s.hasBlock w n = true → (s.warp w).calls < 65536 →
    s.transNow (s.place w).ctx true .wr (frame s w (s.warp w).calls) = .page hm sp → stops s w b (i, .call n) 13 0) ∧
  (∀ s w b i k ph sp leaf, commits s w b (i, .ret) → (s.warp w).calls = k + 1 → (s.warp w).live ≠ 0 →
    s.transNow (s.place w).ctx true .rd (frame s w k) = .ok ph sp leaf →
    let l := s.ownBytes w sp (frame s w k) 16
    let n := leNat ((l.map (·.1)).take 8) / 2 ^ 32 % 2 ^ 24
    l.any (·.2) = false → (s.warp w).depth ≤ leNat ((l.map (·.1)).drop 8) % 4096 → s.hasBlock w n = true → (s.warp w).cj ≠ some n →
    ∃ t, exec (.blockCommit w) s = .next t ∧ (t.warp w).next = n ∧ same s t w ∧ (t.warp w).calls = k) ∧
  (∀ s w b i k ph sp leaf, (s.warp w).calls = k + 1 → s.transNow (s.place w).ctx true .rd (frame s w k) = .ok ph sp leaf →
    (s.ownBytes w sp (frame s w k) 16).any (·.2) = false →
    leNat (((s.ownBytes w sp (frame s w k) 16).map (·.1)).drop 8) % 4096 < (s.warp w).depth → stops s w b (i, .ret) 1 35) ∧
  (∀ s w b i, (s.warp w).calls = 0 → stops s w b (i, .ret) 1 35) ∧
  (∀ s w b i, s.shapeOk → commits s w b (i, .exit) → (s.warp w).retired ||| (s.warp w).live = allLanes →
    ∃ t, exec (.blockCommit w) s = .next t ∧ (t.warp w).done = true ∧ (t.warp w).seat.seat = none ∧ t.blk? w = none ∧
      (s.warp w).pslot ∈ (t.ctx (s.place w).ctx).freeSlots) ∧
  (∀ s w b i j e r, commits s w b (i, .exit) → (s.warp w).retired ||| (s.warp w).live ≠ allLanes → (s.warp w).cj = some j →
    (s.warp w).stack = e :: r → e.join = false → e.mask &&& ~~~((s.warp w).retired ||| (s.warp w).live) ≠ 0 → e.block ≠ j →
    ∃ t, exec (.blockCommit w) s = .next t ∧ (t.warp w).retired = (s.warp w).retired ||| (s.warp w).live ∧ rest s t w e r) ∧
  (∀ s w b i n e r, commits s w b (i, .goto n) → s.hasBlock w n = true → (s.warp w).cj = some n → (s.warp w).stack = e :: r →
    e.mask &&& ~~~(s.warp w).retired ≠ 0 → (e.join = false → e.block ≠ n) →
    (e.join = true → (r.find? fun x => x.join).map (·.block) ≠ some e.block ∧ ((r.find? fun x => x.join) = none → (s.warp w).spilled = 0)) →
    ∃ t, exec (.blockCommit w) s = .next t ∧ (t.warp w).retired = (s.warp w).retired ∧ rest s t w e r) ∧
  (∀ s w b i, s.Commits w b → s.commitFaults w b = [] → b.branch = some (i, .eret) → b.deferred = {} → b.pushes = [] →
    (∀ o, s.objOf w = some o → o.preloads = []) → (s.warp w).done = false → (s.warp w).trap.on = true →
    (s.warp w).depth = (s.warp w).trap.tdepth → (s.warp w).trap.pexit = false →
    (s.warp w).trap.tlive &&& ~~~(s.warp w).retired ≠ 0 →
    s.hasBlock w (fld (s.warp w).trap.tret 0 24) = true → (s.warp w).cj ≠ some (fld (s.warp w).trap.tret 0 24) →
    ∃ t, exec (.blockCommit w) s = .next t ∧ (t.warp w).trap.on = false ∧
      (t.warp w).live = (s.warp w).trap.tlive &&& ~~~(s.warp w).retired ∧ (t.warp w).next = fld (s.warp w).trap.tret 0 24 ∧
      (t.warp w).trap.tr0 = (s.warp w).trap.tr0 ∧ (t.warp w).trap.tr1 = (s.warp w).trap.tr1 ∧ t.blk? w = none ∧
      (∀ q, (s.warp w).trap.pbar = some q → (t.warp w).park.bar = some q) ∧
      ((∃ x ∈ (s.warp w).trap.pwait, (s.counter x.ctr).val < x.n) → (t.warp w).park.waits = (s.warp w).trap.pwait)) ∧
  (∀ s w b i, s.Commits w b → s.commitFaults w b = [] → b.branch = some (i, .eret) → b.deferred = {} → (s.warp w).trap.on = true →
    (s.warp w).depth = (s.warp w).trap.tdepth → (s.warp w).trap.pexit = true → (s.warp w).retired ||| (s.warp w).trap.tlive = allLanes →
    ∃ t, exec (.blockCommit w) s = .next t ∧ (t.warp w).done = true ∧ (t.warp w).trap.on = false ∧ t.blk? w = none) ∧
  (∀ s w b i, (s.warp w).trap.on = false ∨ (s.warp w).depth ≠ (s.warp w).trap.tdepth → stops s w b (i, .eret) 1 41)

/-! Events: what the machine does of itself, and what reaches it from outside. -/

/-- R151 to R153: a free seat goes to the warp that has been ready longest, which issues no earlier than 2 ticks after the seat was freed; that ties go
to the warp created first is the model's choice (log 14, R152 names no number of a warp slot); a warp held by an access for more than 16,384 ticks leaves its seat and is ready again when every access that held it is complete; a
warp that has its tenure behind it leaves in the tick of a commit when another waits, and at no other time. -/
def Obligations.SeatsAreShared : Prop :=
  let since := fun (s : State) v => (s.warp v).seat.readyAt.getD 0
  (∀ s die core seat w, seat < 8 → (∀ v ∈ s.coreWarps die core, (s.warp v).seat.seat ≠ some seat) → w ∈ s.coreWarps die core →
    s.waiting w = true →
    (∀ v ∈ s.coreWarps die core, s.waiting v = true → since s w < since s v ∨ (since s w = since s v ∧ w ≤ v)) →
    ∃ t, exec (.seatHandover die core seat) s = .next t ∧ s.OnlyWarp w (fun x =>
      { x with begin_ := max x.begin_ (s.seatFrom die core seat),
               seat := { x.seat with seat := some seat, seatedAt := s.localTick die, readyAt := none, heldAt := none } }) t) ∧
  (∀ (s : State) die core seat, ∀ v ∈ s.coreWarps die core, ∀ n, (s.warp v).seat.left = some (seat, n) → n + 2 ≤ s.seatFrom die core seat) ∧
  (∀ s w b l, s.blk? w = some b → (s.warp w).seat.seat.isSome = true → (s.launchOf w).timed = false → l ∈ b.loads →
    l.at_ + 16384 < s.localTick (s.place w).die →
    exec (.accessHeldTimeout w) s = .next { s with warps := s.warps.modify w fun x =>
      { x with seat := { x.seat.leave (s.localTick (s.place w).die) with heldAt := some (s.localTick (s.place w).die) } } }) ∧
  (∀ s w b n, s.blk? w = some b → (s.warp w).seat.heldAt = some n → (s.warp w).seat.seat = none →
    (∀ l ∈ b.loads, n ≤ l.at_ + 16384) →
    exec (.warpAccessComplete w) s = .next { s with warps := s.warps.modify w fun x =>
      { x with seat := { x.seat with heldAt := none, readyAt := some (s.localTick (s.place w).die) } } }) ∧
  (∀ s w b n l, s.blk? w = some b → (s.warp w).seat.heldAt = some n → l ∈ b.loads → l.at_ + 16384 < n →
    exec (.warpAccessComplete w) s = .next s) ∧
  (∀ s w, s.blk? w = none → (s.warp w).seat.seatedAt + 65536 ≤ s.localTick (s.place w).die → (s.warp w).seat.seat.isSome = true →
    (s.warp w).seat.ended = some (s.localTick (s.place w).die) → (s.launchOf w).timed = false → s.hasWaiter w = true →
    exec (.seatTenureExpiry w) s = .next { s with warps := s.warps.modify w fun x =>
      { x with seat := { x.seat.leave (s.localTick (s.place w).die) with readyAt := some (s.localTick (s.place w).die) } } }) ∧
  (∀ (x : SeatW) n, (x.leave n).seat = none ∧ (x.leave n).heldAt = none ∧ ∀ k, x.seat = some k → (x.leave n).left = some (k, n)) ∧
  (∀ s w, (s.launchOf w).timed = true ∨ s.hasWaiter w = false ∨ (s.warp w).seat.ended ≠ some (s.localTick (s.place w).die) →
    exec (.seatTenureExpiry w) s = .next s)

/-- R25, R126, R129, R167, R170, R180: a barrier lets its warps go when every warp of the unit that has not exited has arrived, and none before, each with
an acquire of the barrier's scope to make; a warp arrives, with its core's clock of that moment (R272), once its release is done; that another
arrival of the same warp stays is a reading of R434 (log 23). A `tlwait` ends when every counter has reached its value,
with the acquires of its counters. A `stroke` park ends at its boundary for every warp of the die, once every transfer that has come has landed. -/
def Obligations.ParkedWarpsResume : Prop :=
  (∀ s sc u n, (∃ w ∈ s.unitWarps sc u, (s.warp w).done = false) →
    (∀ w ∈ s.unitWarps sc u, (s.warp w).done = false → s.arrived w sc n = true) →
    ∃ t, exec (.barrierComplete sc u n) s = .next t ∧ t.mem = s.mem ∧
      (∀ w ∈ s.unitWarps sc u, (s.warp w).done = false → (t.warp w).regs = (s.warp w).regs ∧ (t.warp w).next = (s.warp w).next ∧
        ∃ a, (t.warp w).park = { (s.warp w).park.passed (sc, n) with acq := some a } ∧ (a = sc ∨ (s.warp w).park.acq = some a) ∧
          sc.code.toNat ≤ a.code.toNat) ∧
      ∀ w, w ∉ s.unitWarps sc u ∨ (s.warp w).done = true → t.warp w = s.warp w) ∧
  (∀ (p : Park) (q r : Scope × Nat), q ≠ r → (p.bar = some q → p.bar2 = none → (p.passed q).bar = none) ∧
    (p.bar = some q → p.bar2 = some r → (p.passed q).bar = some r ∧ (p.passed q).bar2 = none) ∧
    (p.bar = some r → p.bar2 = some q → (p.passed q).bar = some r ∧ (p.passed q).bar2 = none)) ∧
  (∀ s sc u n w, w ∈ s.unitWarps sc u → (s.warp w).done = false → s.arrived w sc n = false →
    exec (.barrierComplete sc u n) s = .next s) ∧
  (∀ (s : State) w q, w < s.warps.length → (s.warp w).park.bar = some q → (s.warp w).park.arr = none →
    ((s.arrive w).warp w).park.arr = if s.mayArrive w q.1 then some (s.core (s.place w).die (s.place w).core).pts else none) ∧
  (∀ (s : State) w q n, (s.warp w).park.bar = some q → (s.warp w).park.arr = some n → ((s.arrive w).warp w).park.arr = some n) ∧
  (∀ s w, (s.warp w).park.waits ≠ [] → (∀ x ∈ (s.warp w).park.waits, x.n ≤ (s.counter x.ctr).val) →
    ∃ t a, exec (.tlwaitResume w) s = .next t ∧ (t.warp w).park = { (s.warp w).park with waits := [], acq := some a } ∧
      (a ∈ (s.warp w).park.waits.map (fun x => ctrScope x.ctr) ∨ (s.warp w).park.acq = some a) ∧
      (∀ x ∈ (s.warp w).park.waits, (ctrScope x.ctr).code.toNat ≤ a.code.toNat) ∧
      (t.warp w).regs = (s.warp w).regs ∧ (t.warp w).next = (s.warp w).next ∧ t.mem = s.mem ∧
      ∀ v, v ≠ w → t.warp v = s.warp v) ∧
  (∀ s w x, x ∈ (s.warp w).park.waits → (s.counter x.ctr).val < x.n → exec (.tlwaitResume w) s = .next s) ∧
  (∀ s w, s.landingDue (s.place w).die (fun _ => true) = true → exec (.strokeBoundaryExit w) s = .next s) ∧
  (∀ s w, s.landingDue (s.place w).die (fun _ => true) = false → ∃ t, exec (.strokeBoundaryExit w) s = .next t ∧ ∀ v < s.warps.length,
    (∀ c, (s.place v).die = (s.place w).die → (s.warp v).park.stroke = some c → c ≤ s.reconTick (s.place w).die →
      (t.warp v).park = { (s.warp v).park with stroke := none } ∧ (t.warp v).begin_ = s.localTick (s.place w).die + 2 ∧
      (t.warp v).timed.lastWait = s.localTick (s.place w).die - (s.warp v).timed.parkedAt ∧
      (t.warp v).timed.workStart = s.localTick (s.place w).die ∧ (t.warp v).regs = (s.warp v).regs) ∧
    (((s.place v).die ≠ (s.place w).die ∨ (s.warp v).park.stroke = none ∨
      ∃ c, (s.warp v).park.stroke = some c ∧ s.reconTick (s.place w).die < c) → t.warp v = s.warp v))

/-- R132 to R134, R137, R138, R142: `LQCTL` binds a queue or sets its bits, `LQSTAT` is cleared by a write, a command enters a queue that is
enabled and has room, its record read and checked as it enters, and is otherwise dropped and counted; the LAUNCH is then rejected with its cause or goes on with its
record; a package that is not up takes none (R18); and a head that has waited 14,000,000 ticks rises by one priority. That `DWHY` is 2 where both reasons hold and
that `PRIO` is set at a bind are readings (log 26); that a push's reservation keeps a queue from being bound is the model's choice (log 16). -/
def Obligations.LaunchQueues : Prop :=
  let idle := fun (s : State) q => (s.queue q).ctl.getLsbD 10 = false ∧ (s.queue q).entries = [] ∧ (s.queue q).reserved = 0 ∧
    ∀ g ∈ s.grids, g.queue = q → g.done = true
  let others := fun (s t : State) q => ∀ p, p ≠ q → t.queue p = s.queue p
  let up := fun (s : State) => s.pkg.up = .ready ∨ s.pkg.up = .degraded
  (∀ s q v, q < s.queues.length → idle s q → fld v 0 8 ≠ fld (s.queue q).ctl 0 8 → (s.ctx (fld v 0 8)).st = .active →
    ∃ t, exec (.lqctlWrite q v) s = .next t ∧ (t.queue q).ctl = v &&& 0xFFF ∧ (t.queue q).tll = {} ∧ (t.queue q).stat = 0 ∧
      (t.queue q).prio = fld v 8 2 ∧ others s t q) ∧
  (∀ s q v, q < s.queues.length →
    ¬ idle s q ∨ fld v 0 8 = fld (s.queue q).ctl 0 8 ∨ (s.ctx (fld v 0 8)).st ≠ .active →
    ∃ t, exec (.lqctlWrite q v) s = .next t ∧ fld (t.queue q).ctl 0 8 = fld (s.queue q).ctl 0 8 ∧
      fld (t.queue q).ctl 8 4 = fld v 8 4 ∧ fld (t.queue q).ctl 12 52 = 0 ∧ (t.queue q).tll = (s.queue q).tll ∧
      (t.queue q).stat = (s.queue q).stat ∧ (t.queue q).entries = (s.queue q).entries ∧ others s t q) ∧
  (∀ s q v, exec (.lqstatWrite q v) s = .next { s with queues := s.queues.modify q fun x => { x with stat := 0 } }) ∧
  (∀ s q cmd, up s → (s.queue q).ctl.getLsbD 10 = true → (s.queue q).entries.length + (s.queue q).reserved < 256 →
    s.homeBusy (fld (s.queue q).ctl 0 8) (cmd.getD 1 0).toNat 128 = false →
    ∃ e : QEntry, e.seq = (s.queue q).tll.issued + 1 ∧ e.cmd = cmd.take 8 ∧ e.parent = none ∧ e.read = none ∧ e.xwarps = [] ∧ e.skip = none ∧
      e.verdict = s.launchCheck q e none ∧
      exec (.submissionWindowWrite q cmd) s = .next { s with
        queues := s.queues.modify q fun x => { x with tll := { x.tll with issued := x.tll.issued + 1 }, entries := x.entries ++ [e] },
        fresh := s.fresh + s.cache.dreqs.length + 17 }) ∧
  (∀ s q cmd, ¬ up s → exec (.submissionWindowWrite q cmd) s = .next s ∧ exec (.launch q) s = .next s) ∧
  (∀ s q cmd, up s → q < s.queues.length →
    (s.queue q).ctl.getLsbD 10 = false ∨ 256 ≤ (s.queue q).entries.length + (s.queue q).reserved →
    ∃ t, exec (.submissionWindowWrite q cmd) s = .next t ∧ (t.queue q).entries = (s.queue q).entries ∧ (t.queue q).tll = (s.queue q).tll ∧
      fld (t.queue q).stat 40 24 = min 16777215 (fld (s.queue q).stat 40 24 + 1) ∧
      fld (t.queue q).stat 32 2 = (if (s.queue q).ctl.getLsbD 10 = false then 2 else 1) ∧
      fld (t.queue q).stat 0 32 = fld (s.queue q).stat 0 32 ∧ others s t q) ∧
  (∀ s q e l, up s → (s.queue q).entries.find? (fun e => e.read.isNone) = some e → e.parent = none → e.verdict = (0, l) →
    exec (.launch q) s = .next { s with queues := s.queues.modify q fun x => { x with
      entries := x.entries.map fun y => if y.seq = e.seq then { y with read := some l } else y } }) ∧
  (∀ s q e c l, up s → (s.queue q).entries.find? (fun e => e.read.isNone) = some e → e.verdict = (c, l) → c ≠ 0 →
    q < s.queues.length →
    ∃ t, exec (.launch q) s = .next t ∧ (t.queue q).tll = (s.queue q).tll.finish e.seq c ∧
      (t.queue q).entries = (s.queue q).entries.filter (fun y => decide (y.seq ≠ e.seq)) ∧ fld (t.queue q).stat 0 8 = c % 256 ∧
      fld (t.queue q).stat 8 24 = e.seq % 2 ^ 24) ∧
  (∀ (s : State) q (e : QEntry) p, (launchCmdOk e.cmd = false → (s.launchCheck q e p).1 = 1) ∧
    (launchCmdOk e.cmd = true → 2 ^ 48 ≤ (e.cmd.getD 1 0).toNat ∨ (e.cmd.getD 1 0).toNat % 128 ≠ 0 → (s.launchCheck q e p).1 = 2) ∧
    ((s.launchCheck q e p).1 = 0 → let l := (s.launchCheck q e p).2
      s.fieldsOk (fld (s.queue q).ctl 0 8) l = true ∧ s.kernelOk (fld (s.queue q).ctl 0 8) l = true ∧ s.idleRoom q e l = true)) ∧
  (∀ s q n, (s.queue q).eligAt = some n → s.eligible q = true → n + 14000000 ≤ s.stake →
    exec (.effectivePriorityRise q) s = .next { s with queues := s.queues.modify q fun x =>
      { x with prio := min 3 (x.prio + 1), eligAt := some (n + 14000000), risen := some s.stake } })

/-- R18, R141, R144 to R146, R158, R159, R165, R177 and Table 2-2: a package that is up places the next head's grid, whose regions it adds with their
warps at their start values, and changes no other warp; a timed launch starts on each die at its stroke boundary with empty landing slots; teams, gangs and
grids complete upwards, what a gang held is free from the next tick, and a grid writes its `DONE` word and completes on its queue; whether the home of a `DONE` word on another
package takes it is a free value (log 7). -/
def Obligations.LaunchesRunAndComplete : Prop :=
  let up := fun (s : State) => s.pkg.up = .ready ∨ s.pkg.up = .degraded
  (∀ s q e l, up s → s.noteEligible.heads.find? s.noteEligible.skips = none → s.noteEligible.nextHead? = some q →
    s.noteEligible.head? q = some (e, l) → s.noteEligible.headGrid? q e = none → l.coresident = false →
    ∃ t g, exec .launchPlacement s = .next t ∧ t.grids = s.grids ++ [g] ∧ g.queue = q ∧ g.seq = e.seq ∧ g.launch = l ∧
      g.ctx = fld (s.queue q).ctl 0 8 ∧ g.placed = 1 ∧ g.placedAt = s.stake ∧ g.started = true ∧ g.done = false ∧
      t.warps.length = s.warps.length + l.nGangs * (l.nTeams * l.nWarps) ∧ t.warps.take s.warps.length = s.warps ∧
      ∀ x ∈ t.warps.drop s.warps.length,
        x.v = List.replicate l.vregs (Vec.tab fun _ => 0) ∧ x.s = 0 :: l.args :: List.replicate 62 0 ∧
        x.k = allLanes :: List.replicate 15 0 ∧ x.fmt = fmtReset ∧ x.mreg = 0 ∧ x.wst = 0 ∧ x.live = allLanes ∧ x.retired = 0 ∧
        x.stack = [] ∧ x.calls = 0 ∧ x.trap = {} ∧ x.next = l.entry ∧ x.done = false) ∧
  (∀ s q e l, up s → s.noteEligible.heads.find? s.noteEligible.skips = some q → s.noteEligible.head? q = some (e, l) → q < s.queues.length →
    ∃ t, exec .launchPlacement s = .next t ∧ (t.queue q).tll = (s.queue q).tll.finish e.seq 5 ∧ t.warps = s.warps ∧ t.grids = s.grids) ∧
  (∀ s, ¬ up s → exec .launchPlacement s = .next s.noteEligible) ∧
  (∀ s g, g < s.grids.length → (s.grid g).launch.timed = true → (s.grid g).done = false → (s.grid g).launch.nRegions ≤ (s.grid g).placed →
    let len := (s.grid g).launch.strokeS
    let b0 := ((s.grid g).placedAt + 4096 + len - 1) / len * len
    let due := fun r => (s.region r).begun = false ∧ b0 ≤ s.reconTick (s.region r).die
    (∃ r ∈ s.regionsOf g, due r) →
    ∃ t, exec (.timedLaunchStart g) s = .next t ∧ (t.grid g).started = true ∧ t.mem = s.mem ∧ ∀ r ∈ s.regionsOf g,
      (due r → (t.region r).begun = true ∧ (t.die (s.region r).die).full = [] ∧ (t.die (s.region r).die).landing = [] ∧
        ∀ w ∈ (s.gangsOf r).flatMap s.gangWarps, (t.warp w).timed.b0 = b0 ∧ (t.warp w).timed.bt = b0 + len ∧
          (t.warp w).begin_ = s.localTick (s.region r).die ∧ (t.warp w).regs = (s.warp w).regs) ∧
      (¬ due r → ∀ w ∈ (s.gangsOf r).flatMap s.gangWarps, t.warp w = s.warp w)) ∧
  (∀ s g, s.starting g = [] → exec (.timedLaunchStart g) s = .next s) ∧
  (∀ s k, k < s.teams.length → (s.team k).done = false → (∀ w ∈ s.warpsOf k, (s.warp w).done = true ∧ s.unseen w = false) →
    (s.team k).tlc.val = (s.team k).tlc.issued → (s.team k).gang < s.gangs.length →
    ∃ t, exec (.teamComplete k) s = .next t ∧ (t.team k).done = true ∧ (t.team k).spad = (s.team k).spad ∧
      ((∀ u ∈ s.teamsOf (s.team k).gang, u = k ∨ (s.team u).done = true) → (t.gang (s.team k).gang).st = .done ∧
        (t.gang (s.team k).gang).freedAt = some (s.localTick (s.teamPlace k).die))) ∧
  (∀ s k w, w ∈ s.warpsOf k → (s.warp w).done = false → exec (.teamComplete k) s = .next s) ∧
  (∀ s g, g < s.grids.length → (s.grid g).queue < s.queues.length → (s.grid g).done = false → (s.grid g).launch.nRegions ≤ (s.grid g).placed →
    (∀ r ∈ s.regionsOf g, (s.region r).done = true) → (s.grid g).children = 0 →
    (∀ n ∈ (s.grid g).colls, n ≤ (s.ctx (s.grid g).ctx).tlk.val) → (∀ w ∈ s.gridWarps g, s.unacked w = false) →
    s.homeBusy (s.grid g).ctx (s.grid g).launch.doneVA.toNat 8 = false →
    let q := (s.grid g).queue
    let a := (s.grid g).launch.doneVA.toNat
    ∃ t, exec (.gridComplete g) s = .next t ∧ (t.grid g).done = true ∧
      (a = 0 → (t.queue q).tll = (s.queue q).tll.finish (s.grid g).seq 0 ∧ t.mem = s.mem) ∧
      (∀ p sp f, a ≠ 0 → s.transNow (s.grid g).ctx true .wr a = .ok p sp f →
        (t.queue q).tll = (s.queue q).tll.finish (s.grid g).seq 0 ∧
        t.mem = (s.pokeCtx (s.grid g).ctx a (leBytes 8 (s.grid g).seq)).mem ∧
        t.cache = (s.pokeCtx (s.grid g).ctx a (leBytes 8 (s.grid g).seq)).cache) ∧
      (∀ pk rc, a ≠ 0 → s.transNow (s.grid g).ctx true .wr a = .far pk rc →
        (t.queue q).tll = (s.queue q).tll.finish (s.grid g).seq (if (Config.freeWord s.fresh).getLsbD 0 then 8 else 0) ∧ t.mem = s.mem) ∧
      (∀ h sp, a ≠ 0 → s.transNow (s.grid g).ctx true .wr a = .page h sp →
        (t.queue q).tll = (s.queue q).tll.finish (s.grid g).seq 8 ∧ t.mem = s.mem)) ∧
  (∀ s g r, r ∈ s.regionsOf g → (s.region r).done = false → exec (.gridComplete g) s = .next s)

/-- R155 to R157, R438 to R442: for a head that has no room every gang that its plan names stops, or at the driver's request one gang with its grid's
other gangs when that is co-resident; slow general blocks abort; once a gang has drained, the state of each of its teams stays on its core as the
reserve or is saved with its records, which frees the core from the next tick; an untranslated page of the save area posts a record and the gang stays stopped;
contexts change places, and a gang resumes, in place or, once all of it is saved, on another quad of its die; no register changes. That a gang of which
only a part was kept resumes in place, and that no wait is made where the other context's gangs have ended, are the model's choices (log 27). -/
def Obligations.GangsArePreempted : Prop :=
  let regs := fun (s t : State) => t.warps.map Warp.regs = s.warps.map Warp.regs
  let die := fun (s : State) g => (s.region (s.gang g).region).die
  let ctx := fun (s : State) g => (s.grid (s.gangGrid g)).ctx
  let out := fun (s : State) g k => s.gridPrio (s.gangGrid k) ≤ s.gridPrio (s.gangGrid g) ∧
    (s.gridPrio (s.gangGrid k) = s.gridPrio (s.gangGrid g) → (s.gang g).stoppedAt ≤ (s.gang k).stoppedAt)
  (∀ (s : State) g, g < s.gangs.length → (s.grid (s.gangGrid g)).launch.timed = false → (s.gang g).st = .resident ∨ (s.causeOf g).isSome = true →
    ∃ t, exec (.preemptGang g) s = .next t ∧ t.warps = s.warps ∧
      (∀ k ∈ s.stopSet g, k < s.gangs.length →
        ((s.gang k).st = .resident → (t.gang k).st = .stopping (s.localTick (die s k)) (s.causeOf g) ∧ (t.gang k).stoppedAt = s.stake) ∧
        ((s.gang k).st = .reserve → (s.causeOf g).isSome = true →
          (t.gang k).st = .stopping (s.localTick (die s k)) (s.causeOf g) ∧ (t.gang k).stoppedAt = (s.gang k).stoppedAt)) ∧
      ∀ k, k ∉ s.stopSet g ∨ ((s.gang k).st ≠ .resident ∧ (s.gang k).st ≠ .reserve) → t.gang k = s.gang k) ∧
  (∀ (s : State) g, s.causeOf g = none →
    ((s.grid (s.gangGrid g)).launch.coresident = false → s.stopSet g = [g]) ∧
    ((s.grid (s.gangGrid g)).launch.coresident = true → ∀ k, k ∈ s.stopSet g ↔ ∃ r ∈ s.regionsOf (s.gangGrid g), k ∈ s.gangsOf r)) ∧
  (∀ (s : State) g q, s.causeOf g = some q → s.stopSet g = s.plan q ∧ g ∈ s.plan q) ∧
  (∀ (s : State) q, ∀ k ∈ s.plan q, s.placeHead q = none ∧ (s.grid (s.gangGrid k)).launch.timed = false ∧
    s.gridPrio (s.gangGrid k) < (s.queue q).prio ∧ (s.gang k).st.holds = true ∧
    ((s.grid (s.gangGrid k)).launch.coresident = true →
      ∀ j < s.gangs.length, s.gangGrid j = s.gangGrid k → (s.gang j).st.holds = true → j ∈ s.plan q)) ∧
  (∀ s g, (s.grid (s.gangGrid g)).launch.timed = true → exec (.preemptGang g) s = .next s) ∧
  (∀ s w b n h, s.blk? w = some b → b.cls = 0 → b.atomDone = none → (s.gang (s.place w).gang).st = .stopping n h →
    n + 16384 ≤ s.localTick (s.place w).die →
    ∃ t, exec (.preemptBlockTimeout w) s = .next t ∧ t.blk? w = none ∧ t.mem = s.mem ∧ regs s t ∧
      (t.warp w).next = (s.warp w).next ∧ (t.warp w).park = (s.warp w).park) ∧
  (∀ s g n h, g < s.gangs.length → (s.gang g).st = .stopping n h → (∀ w ∈ s.gangWarps g, (s.warp w).blk = none ∧ s.unsettled w = false) →
    (∀ k ∈ s.teamsOf g, (s.team k).tlc.val = (s.team k).tlc.issued) → s.saveHeld g = false →
    let c := ctx s g
    let l := s.savedTeams g h
    (∀ p ∈ s.saveRecords l, s.homeBusy c p.1 128 = false) →
    (∀ k, k ∈ l ↔ k ∈ s.teamsOf g ∧ s.mayKeep k h = false) ∧ ∃ t, exec (.preemptDrained g) s = .next t ∧ regs s t ∧
      (s.saveMiss c (s.saveRecords l) = none →
        t.mem = (s.writeRecords c l).mem ∧ (∀ k ∈ s.teamsOf g, (t.team k).kept = s.mayKeep k h) ∧
        ((∃ k ∈ s.teamsOf g, s.mayKeep k h = true) → (t.gang g).st = .reserve) ∧
        ((∀ k ∈ s.teamsOf g, s.mayKeep k h = false) → (t.gang g).st = .saved) ∧
        (l ≠ [] → (t.gang g).freedAt = some (s.localTick (die s g)))) ∧
      (∀ a, s.shapeOk → s.teamsOf g ≠ [] → s.saveMiss c (s.saveRecords l) = some a →
        t.gang g = s.gang g ∧ t.mem = s.mem ∧ ∃ f, (t.ctx c).hubq.getLast? = some f ∧ f.code = 3 ∧ f.src = 3 ∧ f.addr = BitVec.ofNat 64 a ∧
          f.save = some g)) ∧
  (∀ s g n h w, (s.gang g).st = .stopping n h → w ∈ s.gangWarps g → (s.warp w).blk ≠ none ∨ s.unsettled w = true →
    exec (.preemptDrained g) s = .next s) ∧
  (∀ (s : State) d core n, (s.core d core).switchAt = some n → n ≤ s.localTick d →
    let kept := fun k => (s.gang (s.team k).gang).st = .reserve
    let stays := fun k => some (s.teamPlace k).ctx = (s.core d core).primary ∧ ¬ kept k
    ∃ t, exec (.contextSwitch d core) s = .next t ∧ t.warps = s.warps ∧ (t.core d core).switchAt = none ∧
      ((∃ k ∈ s.coreTeams d core, stays k) → (t.core d core).primary = (s.core d core).primary) ∧
      ((∀ k ∈ s.coreTeams d core, ¬ stays k) → (t.core d core).primary = none ∧ (t.core d core).freed = some (s.localTick d)) ∧
      ((∃ k ∈ s.coreTeams d core, kept k) → ∃ k ∈ s.coreTeams d core, kept k ∧ (t.core d core).reserve = some (s.teamPlace k).ctx) ∧
      ((∀ k ∈ s.coreTeams d core, ¬ kept k) → (t.core d core).reserve = none)) ∧
  (∀ (s : State) g, (s.gang g).st = .reserve → (∀ k ∈ s.teamsOf g, (s.team k).kept = true ∧ (s.core (die s g) (s.team k).core).fenced = false ∧
      (∀ c, (s.core (die s g) (s.team k).core).primary = some c → c = ctx s g) ∧
      ∀ n, (s.core (die s g) (s.team k).core).bound = some n → n + 64 ≤ s.localTick (die s g)) →
    s.resumeQuad g = some (s.gang g).quad) ∧
  (∀ (s : State) g k, (s.gang g).st = .reserve → k ∈ s.teamsOf g → (s.team k).kept = true → (s.core (die s g) (s.team k).core).fenced = true ∨
      (∃ c, (s.core (die s g) (s.team k).core).primary = some c ∧ c ≠ ctx s g) ∨
      (∃ n, (s.core (die s g) (s.team k).core).bound = some n ∧ s.localTick (die s g) < n + 64) →
    s.resumeQuad g = none) ∧
  (∀ (s : State) g, (s.gang g).st = .saved →
    s.resumeQuad g = (List.range 48).find? fun n => s.quadRoom (ctx s g) (s.grid (s.gangGrid g)).launch (die s g) n) ∧
  (∀ s g n, g < s.gangs.length → (s.grid (s.gangGrid g)).launch.coresident = false → s.resumeQuad g = some n →
    (∀ w ∈ s.gangWarps g, (s.team (s.warp w).team).kept = true ∨ s.homeBusy (ctx s g) (s.warpRec w) 128 = false) →
    (∀ k ∈ s.waitingGangs, out s g k) →
    (∀ q ∈ s.heads, (s.queue q).prio ≤ s.gridPrio (s.gangGrid g) ∨ (s.placeHead q = none ∧ s.urgent q = false)) →
    ∃ t, exec (.gangResume g) s = .next t ∧ (t.gang g).st = .resident ∧ (t.gang g).quad = n ∧ regs s t ∧
      ∀ k ∈ s.teamsOf g, (t.team k).core = 4 * n + (s.team k).idx ∧ (t.team k).kept = false) ∧
  (∀ s g q, q ∈ s.heads → s.gridPrio (s.gangGrid g) < (s.queue q).prio → (s.placeHead q).isSome = true ∨ s.urgent q = true →
    exec (.gangResume g) s = .next s)

/-- R181, R225, R229 to R240: the head of a team's copy queue is issued and checked; a chunk begins when the engine turns to the team, by asking for its source
through the core's caches, and is written when that has come, to the scratchpad or by `.wt` stores; an untranslated page pauses the command; a timed copy moves
128 bytes in each tick, a chunk checked as a whole before it begins; a command that has ended completes when all that it wrote is performed, and advances the
counter over the unbroken prefix of completed commands, with the first error kept. That a write to the scratchpad waits to become visible is log 49; that a
timed copy moves the bytes of one line of its source and one of its destination at a time, reads a line once in a chunk, and what PRELOAD-L2 does with the
scratchpad handle, are the model's choices (log 28). -/
def Obligations.CopiesMoveBytes : Prop :=
  let ctxOf := fun (s : State) k => (s.teamPlace k).ctx
  let src := fun (s : State) k (j : CopyJob) =>
    if (CopyArgs.of j.cmd).hasSrc then s.handle (s.teamPlace k).ctx j.tab (CopyArgs.of j.cmd).srcH else none
  let dst := fun (s : State) k (j : CopyJob) => s.handle (s.teamPlace k).ctx j.tab (CopyArgs.of j.cmd).dstH
  let live := fun (s : State) k n (j : CopyJob) => s.job? k n = some j ∧ j.finished = none ∧ j.paused = none ∧ (s.ctx (s.teamPlace k).ctx).st = .active
  let moving := fun (s : State) k n (j : CopyJob) => live s k n j ∧ j.timed = none ∧ (CopyArgs.of j.cmd).code ≠ 0x106
  let went := fun (j : CopyJob) n (q : CopyJob) => q.pos = j.pos + n ∧ q.cmd = j.cmd ∧ q.asked = false ∧
    q.finished = if (CopyArgs.of j.cmd).rb * (CopyArgs.of j.cmd).rows * (CopyArgs.of j.cmd).planes ≤ j.pos + n then some 0 else none
  let here := fun (s : State) k va => ∃ h, s.homeOf (s.teamPlace k).ctx va = .loc h (s.spaceOf (s.teamPlace k).ctx va)
  (∀ p ∈ [(Instr.copy2d, 0x101), (.copy3d, 0x102), (.gather, 0x103), (.scatter, 0x104), (.fill, 0x105), (.preloadL2, 0x106)],
    ∀ (s : State) k c r, (s.team k).queue = c :: r → ((s.team k).jobs.filter fun j => j.finished.isNone).length < 4 →
      (∀ w, c.xwarp = some w → s.unsettled w = false) → cmdCode c.cmd = p.2 →
      let found := s.copyCheck k c.cmd c.timed.isSome
      let late := found = 3 ∧ ∃ t0, c.timed = some t0 ∧ t0 ≤ s.reconTick (s.teamPlace k).die
      ∃ t cause, exec (p.1 k) s = .next t ∧ (late → cause = 9) ∧ (¬ late → cause = found ∧ t.warps = s.warps) ∧
        (late → ∀ w, c.warp = some w → w < s.warps.length → (t.warp w).timed.owesMiss = true) ∧
        t = { s with warps := t.warps, teams := s.teams.modify k fun x => { x with queue := r, jobs := x.jobs ++ [
          { seq := c.seq, cmd := c.cmd, tab := s.tabOf (ctxOf s k), pos := 0, after := c.after, paused := none, timed := c.timed, warp := c.warp,
            finished := if cause = 0 then none else some cause }] } }) ∧
  (∀ (s : State) k (cmd : List Word) b, (copyHeaderOk cmd = false → s.copyCheck k cmd b = 1) ∧
    (copyHeaderOk cmd = true → (CopyArgs.of cmd).rangeOk = false → s.copyCheck k cmd b = 2)) ∧
  (∀ s k n j i, moving s k n j → j.asked = false → s.copyTurn k = true → s.rowIndex k (CopyArgs.of j.cmd) j (src s k j) (dst s k j) = .ok i →
    let c := chunkOf (CopyArgs.of j.cmd) i
    s.chunkStop k (CopyArgs.of j.cmd) i c (src s k j) (dst s k j) = none →
    ∃ t q, exec (.copyChunk k n) s = .next t ∧ t.job? k n = some q ∧ q.asked = true ∧ q.pos = j.pos ∧ q.cmd = j.cmd ∧ q.index = i.index ∧
      q.finished = none ∧ t.mem = s.mem ∧ t.teams.map Team.spad = s.teams.map Team.spad ∧
      ∀ base len rd wr, src s k j = some (.mem base len rd wr) → ∀ m < c.n,
        let va := base + c.src.toNat + m
        here s k va → va / 4 ∈ q.need ∧ ((∃ g ∈ q.got, g.1 = va / 4) ∨
          ∃ d ∈ t.cache.dreqs, d.job = some (k, n) ∧ d.rqt = .wt ∧ d.space = s.spaceOf (ctxOf s k) va ∧ d.line = va / 128 ∧
            ∃ ws, d.kind = .load 0 ws ∧ va / 4 % 32 ∈ ws)) ∧
  (∀ s k n j, moving s k n j → j.asked = false → s.copyTurn k = false → exec (.copyChunk k n) s = .next s) ∧
  (∀ s k n j, moving s k n j → j.asked = true → (∀ x ∈ j.need, ∃ g ∈ j.got, g.1 = x) → (∀ g ∈ j.got, g.2.2 = false) →
    let c := chunkOf (CopyArgs.of j.cmd) j
    let bytes := s.chunkBytes k (CopyArgs.of j.cmd) j c (src s k j)
    s.chunkStop k (CopyArgs.of j.cmd) j c (src s k j) (dst s k j) = none →
    ∃ t q, exec (.copyChunk k n) s = .next t ∧ t.job? k n = some q ∧ went j c.n q ∧ t.mem = s.mem ∧
      (dst s k j = some .spad → (s.teamLaunch k).timed = false → ∃ e, (t.team k).pend = (s.team k).pend ++ [e] ∧ e.job = some (k, n) ∧
        e.bytes = placeBytes c.dst.toNat bytes ∧ (t.team k).spad = (s.team k).spad ∧ t.cache = s.cache) ∧
      (dst s k j = some .spad → (s.teamLaunch k).timed = true →
        (t.team k).spad = setBytes (s.team k).spad (placeBytes c.dst.toNat bytes) ∧ t.cache = s.cache) ∧
      ∀ base len rd wr, dst s k j = some (.mem base len rd wr) → (t.team k).spad = (s.team k).spad ∧
        ∃ l, t.cache.dreqs = s.cache.dreqs ++ l ∧ (∀ d ∈ l, d.job = some (k, n) ∧ d.rqt = .wt ∧ d.performed = false ∧
          ∃ bs, d.kind = .store bs ∧ ∀ p ∈ bs, p ∈ placeBytes (base + c.dst.toNat) bytes ∧ p.1 / 128 = d.line ∧
            s.spaceOf (ctxOf s k) p.1 = d.space) ∧
          ∀ p ∈ placeBytes (base + c.dst.toNat) bytes, here s k p.1 → ∃ d ∈ l, ∃ bs, d.kind = .store bs ∧ p ∈ bs) ∧
  (∀ (s : State) k (a : CopyArgs) j c b,
    (s.chunkBytes k a j c b).length = c.n ∧
    (a.code = 0x105 → ∀ i < c.n, (s.chunkBytes k a j c b).getD i 0 = byteOf (BitVec.ofNat 32 a.pattern) (i % 4)) ∧
    (a.code ≠ 0x105 → b = some .spad → ∀ i < c.n, (s.chunkBytes k a j c b).getD i 0 = getByte (s.team k).spad (c.src.toNat + i)) ∧
    ∀ base len rd wr, a.code ≠ 0x105 → b = some (.mem base len rd wr) → ∀ i < c.n, ∀ g,
      j.got.find? (fun g => g.1 == (j.from_ + i) / 4) = some g →
      (s.chunkBytes k a j c b).getD i 0 = byteOf g.2.1 ((j.from_ + i) % 4)) ∧
  (∀ s k n j base len rd wr va h sp, moving s k n j → (CopyArgs.of j.cmd).code = 0x105 → dst s k j = some (.mem base len rd wr) →
    (j.asked = false ∧ s.copyTurn k = true) ∨ (j.asked = true ∧ j.need = []) →
    let c := chunkOf (CopyArgs.of j.cmd) j
    s.engineMiss (ctxOf s k) .wr (base + c.dst.toNat) c.n = some (va, .page h sp) →
    (s.pageRoom va (some (h, sp)) = true → ∃ t q, exec (.copyChunk k n) s = .next t ∧ t.job? k n = some q ∧ q.paused = some va ∧ q.pos = j.pos ∧
      q.asked = false ∧ q.finished = none ∧ t.mem = s.mem) ∧
    (s.pageRoom va (some (h, sp)) = false → exec (.copyChunk k n) s = .next s)) ∧
  (∀ s k n j base len rd wr, live s k n j → j.timed = none → (CopyArgs.of j.cmd).code = 0x106 → s.copyTurn k = true →
    s.handle (ctxOf s k) j.tab (CopyArgs.of j.cmd).srcH = some (.mem base len rd wr) →
    let a := CopyArgs.of j.cmd
    let line := (base + a.srcO) / 128 + j.pos
    ∃ t q, exec (.copyChunk k n) s = .next t ∧ t.job? k n = some q ∧ q.pos = j.pos + 1 ∧ t.mem = s.mem ∧
      q.finished = (if (base + a.srcO + a.rb - 1) / 128 ≤ line then some 0 else none) ∧
      ∀ ph sp f, s.transNow (ctxOf s k) false .rd (line * 128) = .ok ph sp f → s.dc? (s.teamPlace k).die sp line = none →
        ∃ d, t.cache.dreqs = s.cache.dreqs ++ [d] ∧ d.kind = .prefetch false ∧ d.line = line ∧ d.space = sp ∧ d.job = some (k, n)) ∧
  (∀ s k n j t0, s.job? k n = some j → j.timed = some t0 → j.begun = false → j.finished = none → t0 ≤ s.reconTick (s.teamPlace k).die →
    let a := CopyArgs.of j.cmd
    let ok := s.timedSide k a (s.handle (ctxOf s k) j.tab a.srcH) a.srcO a.ss a.sp &&
      s.timedSide k a (s.handle (ctxOf s k) j.tab a.dstH) a.dstO a.ds a.dp
    ∃ t q, exec (.timedCopyStart k n) s = .next t ∧ t.job? k n = some q ∧ q.begun = ok ∧ q.finished = (if ok then none else some 9) ∧
      (∀ w, j.warp = some w → w < s.warps.length → ok = false → (t.warp w).timed.owesMiss = true) ∧ (ok = true → t.warps = s.warps)) ∧
  (∀ s k n j, live s k n j → j.timed = none → (CopyArgs.of j.cmd).code = 0x106 → s.copyTurn k = true →
    s.handle (ctxOf s k) j.tab (CopyArgs.of j.cmd).srcH = some .spad →
    ∃ t q, exec (.copyChunk k n) s = .next t ∧ t.job? k n = some q ∧ q.finished = some 0 ∧ t.mem = s.mem ∧ t.cache = s.cache) ∧
  (∀ s k n j t0, live s k n j → j.timed = some t0 → j.begun = true → (CopyArgs.of j.cmd).code ≠ 0x106 →
    let a := CopyArgs.of j.cmd
    let c := chunkOf a j
    let side := fun h => if c.start then s.handle (ctxOf s k) j.tab h else j.side h
    let room := 128 * (workTicks (s.reconTick (s.teamPlace k).die + 1) - workTicks t0) - j.pos
    let i := if c.start then { j with from_ := memBase (side a.srcH) (side a.dstH), got := [] } else j
    (room = 0 → exec (.copyChunk k n) s = .next s) ∧
    (∀ u, 0 < room → c.start = true → s.chunkStop k a j c (side a.srcH) (side a.dstH) = some u → exec (.copyChunk k n) s = .next u) ∧
    (0 < room → (c.start = true → s.chunkStop k a j c (side a.srcH) (side a.dstH) = none ∧
        ∀ va, Buf.va? (side a.srcH) c.src = some va → s.enginePoison (ctxOf s k) va c.n = false) →
      exec (.copyChunk k n) s = .next ((s.modJob k n fun _ => i).timedMove k a i c (side a.srcH) (side a.dstH) room))) ∧
  (∀ s k n j c room base len rd wr, live s k n j → j.asked = false → Memory.wf (s.team k).spad = true → (∀ g ∈ j.got, g.2.2 = false) →
    let a := CopyArgs.of j.cmd
    let va := base + c.src.toNat
    let m := min (min c.n room) (min (128 - va % 128) (128 - c.dst.toNat % 128))
    let t := s.timedMove k a j c (some (.mem base len rd wr)) (some .spad) room
    (∃ g ∈ j.got, g.1 / 32 = va / 128) →
    ∃ q, t.job? k n = some q ∧ went j m q ∧ t.mem = s.mem ∧ t.cache = s.cache ∧
      (∀ i < m, ∀ g, j.got.find? (fun g => g.1 == (va + i) / 4) = some g →
        getByte (t.team k).spad (c.dst.toNat + i) = byteOf g.2.1 ((va + i) % 4)) ∧
      ∀ y, y < c.dst.toNat ∨ c.dst.toNat + m ≤ y → getByte (t.team k).spad y = getByte (s.team k).spad y) ∧
  (∀ (s : State) k n j c b, s.job? k n = some j →
    (∀ g ∈ j.got, g.1 / 32 = ((Buf.va? b c.src).getD c.src.toNat) / 128 → s.timedLine k j c b = s) ∧
    (b = some .spad → (∀ g ∈ j.got, g.1 / 32 ≠ c.src.toNat / 128) → ∃ q, (s.timedLine k j c b).job? k n = some q ∧
      q.got = (List.range 32).map fun i => (c.src.toNat / 128 * 32 + i, getW32 (s.team k).spad (c.src.toNat / 128 * 128 + 4 * i),
        (s.team k).spPoison.contains (c.src.toNat / 128 * 128 + 4 * i)))) ∧
  (∀ s k n j c, s.job? k n = some j → j.finished = some c → s.jobQuiet k n = true →
    ∃ t, exec (.commandComplete (.tlc k) n) s = .next t ∧ (t.team k).tlc = (s.team k).tlc.finish n c ∧ t.job? k n = none ∧
      t.mem = s.mem ∧ t.warps = s.warps) ∧
  (∀ s k n, s.jobQuiet k n = false → exec (.commandComplete (.tlc k) n) s = .next s) ∧
  (∀ s x j c n, x < s.ctxs.length → (s.ctx x).jobs.find? (fun j => j.seq == n) = some j → j.finished = some c →
    (∀ y ∈ s.teams, ∀ e ∈ y.pend, e.coll ≠ some (x, n)) →
    ∃ t, exec (.commandComplete (.tlk x) n) s = .next t ∧ (t.ctx x).tlk = (s.ctx x).tlk.finish n c ∧ (∀ q ∈ (t.ctx x).jobs, q.seq ≠ n) ∧
      t.mem = s.mem ∧ t.warps = s.warps) ∧
  (∀ s x n, (∃ y ∈ s.teams, ∃ e ∈ y.pend, e.coll = some (x, n)) → exec (.commandComplete (.tlk x) n) s = .next s) ∧
  (∀ (c : Counter) n e,
    let d := c.finish n e
    c.val ≤ d.val ∧ (∀ m, c.val < m → m ≤ d.val → m = n ∨ ∃ p ∈ c.done, p.1 = m) ∧ (∀ p ∈ d.done, p.1 ≠ d.val + 1) ∧
    d.issued = c.issued ∧ (e = 0 ∨ c.status.getLsbD 63 = true → d.status = c.status) ∧
    (e ≠ 0 → c.status.getLsbD 63 = false → d.status = BitVec.ofNat 64 (2 ^ 63 + e % 128 * 2 ^ 56 + n % 2 ^ 56)))

/-- R223, R280 to R290, Tables 11-6 and 11-7: a command reads its source chunk by chunk and contributes it; one whose contributions are
complete writes its result chunk by chunk, pausing at an untranslated page, and is then done, and one whose handle has become invalid ends with cause 3; a cross-path fence's
stores come first. Packets are contributed; those and aborts of a group that no entry names are counted as stale, which the model does in every active context
(log 35); a group aborts by timeout or message at its members on one route; groups are defined, end and wash, the report of the switch taken with the end
(log 36). How long a chunk of at most 4 KiB is, is a free value (log 35); that a write to the scratchpad waits to become visible is log 49. -/
def Obligations.CollectivesCombine : Prop :=
  let entry := fun (s : State) x gid => s.groupAddr x (s.gtabOf x) gid .wr
  let codes : List ((Nat → Instr) × Nat) :=
    [(Instr.allreduce, 0x201), (.reducescatter, 0x202), (.allgather, 0x203), (.broadcast, 0x204), (.barrier, 0x205)]
  let only := fun (s : State) x (j : CollJob) e => x < s.ctxs.length ∧ (s.ctx x).st = .active ∧ (s.ctx x).jobs = [j] ∧ j.finished = none ∧
    j.paused = none ∧ s.memberOf x j = some e
  let chunk := fun (o pos total size n : Nat) => 0 < n ∧ n % size = 0 ∧ pos + n ≤ total ∧ (o + pos) / 4096 = (o + pos + n - 1) / 4096
  (∀ p ∈ codes, ∀ (s : State) x j e l, only s x j e → cmdCode j.cmd = p.2 → j.loaded = true → s.gathered x j e = some l →
    let a := CollArgs.of j.cmd
    let total := a.writes e * a.size
    let src := if a.reads e = 0 then none else s.handle x j.tab a.srcH
    let bytes := fun n => ((elemBytes a.size (collResult a e l)).drop j.out).take n
    (total ≤ j.out → ∃ t q, exec (p.1 x) s = .next t ∧ (t.ctx x).jobs = [q] ∧ q.seq = j.seq ∧ q.finished = some 0 ∧ t.mem = s.mem ∧ t.teams = s.teams) ∧
    (j.out < total → s.collRevoked x j e = true →
      ∃ t q, exec (p.1 x) s = .next t ∧ (t.ctx x).jobs = [q] ∧ q.finished = some 3 ∧ t.mem = s.mem ∧ t.teams = s.teams) ∧
    (j.out < total → s.collRevoked x j e = false → a.dstO % a.size = 0 → j.out % a.size = 0 →
      (s.handle x j.tab a.dstH = some .spad → collOverlap a e src (some .spad) = false → j.team < s.teams.length →
        ∃ t q n, exec (p.1 x) s = .next t ∧ chunk a.dstO j.out total a.size n ∧ (t.ctx x).jobs = [q] ∧ q.out = j.out + n ∧ q.finished = none ∧
          t.mem = s.mem ∧
          ((s.teamLaunch j.team).timed = false → ∃ e, (t.team j.team).pend = (s.team j.team).pend ++ [e] ∧ e.coll = some (x, j.seq) ∧
            e.bytes = placeBytes (a.dstO + j.out) (bytes n) ∧ (t.team j.team).spad = (s.team j.team).spad) ∧
          ((s.teamLaunch j.team).timed = true → (t.team j.team).spad = setBytes (s.team j.team).spad (placeBytes (a.dstO + j.out) (bytes n)))) ∧
      ∀ base len rd wr, s.handle x j.tab a.dstH = some (.mem base len rd wr) → (∀ n ≤ 4096, s.bufHeld x (.mem base len rd wr) (a.dstO + j.out) n = false) →
        (collOverlap a e src (some (.mem base len rd wr)) = false → (∀ i < 4096, s.isFar x (base + (a.dstO + j.out) + i) = false) →
          (∀ n ≤ 4096, s.bufMiss x (.mem base len rd wr) .wr (a.dstO + j.out) n = none) →
          ∃ t q n, exec (p.1 x) s = .next t ∧ chunk a.dstO j.out total a.size n ∧ (t.ctx x).jobs = [q] ∧ q.out = j.out + n ∧ q.finished = none ∧
            t.mem = (s.pokeCtx x (base + (a.dstO + j.out)) (bytes n)).mem ∧ t.teams = s.teams) ∧
        ∀ va h sp, (∀ n ≤ 4096, 0 < n → s.bufMiss x (.mem base len rd wr) .wr (a.dstO + j.out) n = some (va, .page h sp)) →
          s.pageRoom va (some (h, sp)) = true →
          ∃ t q, exec (p.1 x) s = .next t ∧ (t.ctx x).jobs = [q] ∧ q.paused = some va ∧ q.out = j.out ∧ t.mem = s.mem ∧ t.teams = s.teams)) ∧
  (∀ p ∈ codes, ∀ (s : State) x j e, only s x j e → cmdCode j.cmd = p.2 → j.loaded = false →
    let a := CollArgs.of j.cmd
    let total := a.reads e * a.size
    (j.pos < total → s.collRevoked x j e = true →
      ∃ t q, exec (p.1 x) s = .next t ∧ (t.ctx x).jobs = [q] ∧ q.finished = some 3 ∧ t.mem = s.mem ∧ t.teams = s.teams) ∧
    (j.pos < total → s.collRevoked x j e = false → s.handle x j.tab a.srcH = some .spad → (s.team j.team).spPoison = [] →
      a.srcO % a.size = 0 → j.pos % a.size = 0 →
      ∃ t q n, exec (p.1 x) s = .next t ∧ chunk a.srcO j.pos total a.size n ∧ (t.ctx x).jobs = [q] ∧ q.pos = j.pos + n ∧
        q.data = j.data ++ (List.range (n / a.size)).map (fun i =>
          BitVec.ofNat 32 (leNat (getBytes (s.team j.team).spad (a.srcO + j.pos + i * a.size) a.size))) ∧
        q.loaded = false ∧ t.mem = s.mem ∧ t.teams = s.teams) ∧
    (total ≤ j.pos → s.membersOn j.gid j.gen e.route = [x] →
      let m : Contribution := { gid := j.gid, gen := j.gen, rank := e.rank, k := j.k, hdr := j.cmd.getD 0 0, count := a.count, root := a.root,
                                data := j.data }
      (∀ y ∈ (s.ctx x).contrib, m.matched y = true → m.agrees y = true) →
      ∃ t q, exec (p.1 x) s = .next t ∧ (t.ctx x).jobs = [q] ∧ q.loaded = true ∧ m ∈ (t.ctx x).contrib ∧ t.mem = s.mem ∧ t.teams = s.teams)) ∧
  (∀ p ∈ codes, ∀ (s : State) x c w, (s.ctx x).jobs = [] → (s.ctx x).coll = [c] → c.xwarp = some w → s.unsettled w = true →
    exec (p.1 x) s = .next s) ∧
  (∀ radix (l : List Lane), 2 ≤ radix → rtree (combine 0 0) radix l.length l = l.foldl (fun x y => x + y) 0) ∧
  (∀ (a : CollArgs) e l, a.code = 0x204 →
    collResult a e l = (List.range a.count).map fun i => ((l.getD a.root default).data).getD i 0) ∧
  (∀ s x n j, (s.ctx x).jobs.find? (fun j => j.seq == n) = some j → j.finished = none → (CollArgs.of j.cmd).timeout ≠ 0 →
    j.issuedAt + 1024 * (CollArgs.of j.cmd).timeout ≤ s.stake → s.members j.gid j.gen = [x] →
    ∃ t q, exec (.collectiveTimeout x n) s = .next t ∧ (t.ctx x).jobs.find? (fun j => j.seq == n) = some q ∧ q.finished = some 9) ∧
  (∀ s x n, (∀ j ∈ (s.ctx x).jobs, (CollArgs.of j.cmd).timeout = 0) → exec (.collectiveTimeout x n) s = .next s) ∧
  (∀ (s : State) x gid gen cause e y, y < s.ctxs.length → s.member x gid gen = some e → (s.membersOn gid gen e.route).Nodup →
    (y ∉ s.membersOn gid gen e.route → (s.abortGroup x gid gen cause).ctx y = s.ctx y) ∧
    (s.membersOn gid gen e.route = [y] → ∀ q ∈ ((s.abortGroup x gid gen cause).ctx y).jobs, q.gid = gid → q.gen = gen → q.finished ≠ none)) ∧
  (∀ s gid gen c, s.members gid gen = [] →
    ∃ t, exec (.collectiveAbortReceived gid gen c) s = .next t ∧ t.mem = s.mem ∧ t.teams = s.teams ∧
      ∀ x < s.ctxs.length, (s.ctx x).st = .active →
        fld (t.ctx x).gstat 32 32 = min (2 ^ 32 - 1) (fld (s.ctx x).gstat 32 32 + 1) ∧ (t.ctx x).jobs = (s.ctx x).jobs) ∧
  (∀ s gid gen c x, s.members gid gen = [x] →
    ∃ t, exec (.collectiveAbortReceived gid gen c) s = .next t ∧ (t.ctx x).jobs.length = (s.ctx x).jobs.length ∧
      (∀ q ∈ (t.ctx x).jobs, q.gid = gid → q.gen = gen → q.finished ≠ none) ∧ ∃ d, (gid, gen, d) ∈ (t.ctx x).aborted) ∧
  (∀ s gid gen rank k hdr count root data, s.members gid gen = [] →
    ∃ t, exec (.collectivePacketReceived gid gen rank k hdr count root data) s = .next t ∧ t.mem = s.mem ∧ t.teams = s.teams ∧
      ∀ x < s.ctxs.length, (s.ctx x).st = .active →
        fld (t.ctx x).gstat 32 32 = min (2 ^ 32 - 1) (fld (s.ctx x).gstat 32 32 + 1) ∧ (t.ctx x).contrib = (s.ctx x).contrib) ∧
  (∀ s gid gen rank k hdr count root data x, s.members gid gen = [x] →
    let m : Contribution := { gid := gid, gen := gen, rank := rank, k := k, hdr := hdr, count := count, root := root, data := data }
    (∀ y ∈ (s.ctx x).contrib, m.matched y = true → m.agrees y = true) →
    ∃ t, exec (.collectivePacketReceived gid gen rank k hdr count root data) s = .next t ∧ m ∈ (t.ctx x).contrib ∧
      t.mem = s.mem ∧ t.teams = s.teams) ∧
  (∀ s x gid w0 w1 a, x < s.ctxs.length → entry s x gid = some a → (s.ctx x).st = .active → w0.getLsbD 63 = true → gid < 4096 →
    (∀ q ∈ (s.ctx x).active, q.1 ≠ gid) → (∀ q ∈ (s.ctx x).washing, ¬ (q.1 = gid ∧ q.2.1 = fld w0 48 4)) →
    ∃ t, exec (.groupDefine x gid w0 w1) s = .next t ∧ (t.ctx x).active = (s.ctx x).active ++ [(gid, fld w0 48 4)] ∧
      t.mem = (s.pokeCtx x a (leBytes 8 w0.toNat ++ leBytes 8 w1.toNat)).mem) ∧
  (∀ s x gid w0 w1 a, x < s.ctxs.length → entry s x gid = some a → (s.ctx x).st = .active → w0.getLsbD 63 = true → gid < 4096 →
    (∃ q ∈ (s.ctx x).washing, q.1 = gid ∧ q.2.1 = fld w0 48 4) →
    ∃ t, exec (.groupDefine x gid w0 w1) s = .next t ∧ (t.ctx x).active = (s.ctx x).active ∧ t.mem = s.mem ∧
      fld (t.ctx x).gstat 16 1 = 1) ∧
  (∀ s x gid e a, x < s.ctxs.length → s.groupE x (s.gtabOf x) gid = some e → entry s x gid = some a →
    ∃ t, exec (.groupEnd x gid) s = .next t ∧ (gid, e.gen) ∉ (t.ctx x).active ∧ (gid, e.gen, s.stake) ∈ (t.ctx x).washing ∧
      (∀ q ∈ (t.ctx x).jobs, q.gid = gid → q.gen = e.gen → q.finished ≠ none) ∧
      fld (t.ctx x).gstat 0 12 = ((s.ctx x).washing.map (·.1) ++ [gid]).dedup.length % 2 ^ 12) ∧
  (∀ s x gid gen n, x < s.ctxs.length → (s.ctx x).washing = [(gid, gen, n)] → n + 70000 ≤ s.stake →
    (∀ j ∈ (s.ctx x).jobs, ¬ (j.gid = gid ∧ j.gen = gen)) →
    (∀ c ∈ (s.ctx x).coll, ¬ ((CollArgs.of c.cmd).gid = gid ∧ (CollArgs.of c.cmd).gen = gen)) →
    ∃ t, exec (.groupWashComplete x gid) s = .next t ∧ (t.ctx x).washing = [] ∧ fld (t.ctx x).gstat 0 12 = 0) ∧
  (∀ s x gid gen n, (s.ctx x).washing = [(gid, gen, n)] →
    (∃ c ∈ (s.ctx x).coll, (CollArgs.of c.cmd).gid = gid ∧ (CollArgs.of c.cmd).gen = gen) → exec (.groupWashComplete x gid) s = .next s)

/-- R177 to R179: at its start tick a committed transfer is read from the scratchpad and sent, the same to every destination: a byte that the
team wrote since the firing is the old or the new one, and so is one that is written while the transfer reads. It lands in its slot and
sets the full flag; a copy writes the slot's bytes to the scratchpad, clears the flag and delivers the offset, after a landing that is due; a
transfer whose block has not committed and a `trecv` whose window has passed raise their faults. -/
def Obligations.TimedTransfersMove : Prop :=
  (∀ (s : State) n x, s.tsends[n]? = some x → x.start ≤ s.reconTick x.die → x.sent = false → x.committed = true →
    let len := (s.grid (s.teamPlace x.team).grid).launch.strokeS
    (∀ y ∈ s.tsends, y.sent = true → y.team = x.team → y.cslot = x.cslot → y.start / len ≠ x.start / len) →
    ∃ t l, exec (.tsendTransferStart n) s = .next t ∧ t.landings = s.landings ++ l ∧ l.map Landing.die = x.dests ∧
      { x with sent := true } ∈ t.tsends ∧ t.warps = s.warps ∧ t.mem = s.mem ∧ (∀ y ∈ l, ∀ z ∈ l, y.bytes = z.bytes) ∧
      ∀ y ∈ l, y.slot = x.lslot ∧ y.at_ = x.start + Config.linkLat x.die y.die + x.len / 64 ∧ y.bytes.length = x.len ∧
        ∀ i < x.len, y.bytes.getD i 0 = (if x.ofs + i < (s.team x.team).alloc then getByte (s.team x.team).spad (x.ofs + i) else 0) ∨
          x.before[i]? = some (y.bytes.getD i 0)) ∧
  (∀ (s : State) (n : Nat) (e : SpPend), n < s.teams.length → Memory.wf (s.team n).spad = true →
    (∀ a v, lastByte? e.bytes a = some v → getByte ((s.spadPut n e).team n).spad a = v) ∧
    (∀ a, lastByte? e.bytes a = none → getByte ((s.spadPut n e).team n).spad a = getByte (s.team n).spad a) ∧
    (s.spadPut n e).landings.length = s.landings.length ∧
    ∀ (k : Nat) (y z : Landing), s.landings[k]? = some y → (s.spadPut n e).landings[k]? = some z →
      z.die = y.die ∧ z.slot = y.slot ∧ z.at_ = y.at_ ∧ z.poison = y.poison ∧ z.bytes.length = y.bytes.length ∧
      ∀ i < y.bytes.length, z.bytes.getD i 0 = y.bytes.getD i 0 ∨
        ∃ x ∈ s.tsends, x.team = n ∧ x.team = y.team ∧ x.cslot = y.cslot ∧ x.sent = true ∧
          s.reconTick x.die < x.start + x.len / 64 ∧ lastByte? e.bytes (x.ofs + i) = some (z.bytes.getD i 0)) ∧
  (∀ (s : State) n x b, s.shapeOk → s.tsends[n]? = some x → x.start ≤ s.reconTick x.die → x.sent = false → x.committed = false →
    s.blk? x.w = some b → ∃ t, exec (.tsendTransferStart n) s = .next t ∧ s.ParkedOn t x.w 11 0 x.idx) ∧
  (∀ (s : State) n x, s.landings[n]? = some x → x.at_ ≤ s.reconTick x.die → x.die < s.dies.length →
    Memory.wf (s.die x.die).landing = true →
    ∃ t, exec (.transferLanded n) s = .next t ∧ t.landings = s.landings.eraseIdx n ∧ x.slot ∈ (t.die x.die).full ∧
      (∀ i < x.bytes.length, getByte (t.die x.die).landing (4096 * x.slot + i) = x.bytes.getD i 0) ∧
      (∀ y, y < 4096 * x.slot ∨ 4096 * x.slot + x.bytes.length ≤ y →
        getByte (t.die x.die).landing y = getByte (s.die x.die).landing y) ∧
      (t.die x.die).chan = (s.die x.die).chan + (if x.slot ∈ (s.die x.die).full then 1 else 0)) ∧
  (∀ (s : State) w b i idx r, s.blk? w = some b → b.recv = [r] → r.idx = idx → r.copying = true → r.breach = false →
    decode (b.words.getD idx 0) = .ok i → b.Takes (Instr.header i) → (s.warp w).team < s.teams.length →
    (s.place w).die < s.dies.length → Memory.wf (s.team (s.warp w).team).spad = true → s.landingDue (s.place w).die (· == r.slot) = false →
    r.endsAt ≤ s.localTick (s.place w).die →
    let n := min r.len ((s.team (s.warp w).team).alloc - r.ofs)
    ∃ t, exec (.trecvCopyDone w idx) s = .next t ∧
      t.blk? w = some (({ b with recv := [], when_ := (idx, s.localTick (s.place w).die) :: b.when_ } : Blk).give2 (Instr.header i)
        (.s (BitVec.ofNat 64 r.ofs)) (.s (BitVec.ofNat 64 r.ofs))) ∧
      r.slot ∉ (t.die (s.place w).die).full ∧
      (∀ j < n, getByte (t.team (s.warp w).team).spad (r.ofs + j) = getByte (s.die (s.place w).die).landing (4096 * r.slot + j)) ∧
      ∀ y, y < r.ofs ∨ r.ofs + n ≤ y → getByte (t.team (s.warp w).team).spad y = getByte (s.team (s.warp w).team).spad y) ∧
  (∀ (s : State) w b idx r, s.blk? w = some b → b.recv = [r] → r.idx = idx → r.copying = true →
    s.landingDue (s.place w).die (· == r.slot) = true ∨ s.localTick (s.place w).die < r.at_ + 6 + r.len / 64 →
    exec (.trecvCopyDone w idx) s = .next s) ∧
  (∀ (s : State) w b idx r, s.shapeOk → s.blk? w = some b → b.recv = [r] → r.idx = idx → r.copying = false → r.until_ < s.wRecon w →
    ∃ t, exec (.trecvWindowMiss w idx) s = .next t ∧ s.ParkedOn t w 10 0 idx)

/-- R208, R266 to R275, R194: a load delivers when its words have arrived, and an acquire drops the T lines of its core; the die cache asks the
home for what it lacks, writes the bytes of a store, takes fills, and acknowledges stores, which moves the core's clock past the leases that
end before it; clocks advance on hits, expired lines go, wrap-around clears the timestamps of a die once its requests are complete, and a
promotion, which waits for the stores before the release, writes back what the releasing core owns. Which releases are promoted follows R254 and not `RLSC` (log 52).
That acknowledgements come in order for each line is log 5. -/
def Obligations.CachesServe : Prop :=
  (∀ s w b i idx l, s.blk? w = some b → b.loads = [l] → l.idx = idx → (∀ k ∈ l.need, (l.word? k).isSome = true) →
    decode (b.words.getD idx 0) = .ok i → b.Takes (Instr.header i) → (l.result (b.ownBytes l.mseq) s.fresh).2 = [] →
    s.farWaits w idx = false → (∀ q ∈ l.lanes, s.isFar (s.place w).ctx q.2 = false) →
    let v := (l.result (b.ownBytes l.mseq) s.fresh).1
    ∃ t, exec (.loadDataReturn w idx) s = .next t ∧
      t.blk? w = some (({ b with loads := [], when_ := (idx, s.localTick (s.place w).die) :: b.when_ } : Blk).give2 (Instr.header i) v v) ∧
      (t.warp w).regs = (s.warp w).regs ∧ t.mem = s.mem ∧ t.teams = s.teams ∧ t.cache.dc = s.cache.dc ∧
      (∀ y ∈ t.cache.l1, y ∈ s.cache.l1) ∧
      (l.ord = .acq ∨ l.ord = .racq → Scope.quadUp l.scope = true →
        ∀ y ∈ t.cache.l1, y.die = (s.place w).die → y.core = (s.place w).core → ∀ f, y.st ≠ .through f)) ∧
  (∀ (l : PLoad) fresh p v, l.kind = .ld → p ∈ l.lanes → p.1 < 64 → (l.lanes.map (·.1)).Nodup → p.2 % 4 = 0 →
    l.word? (p.2 / 4) = some (v, false) → (l.result [] fresh).1.vec.lane p.1 = v) ∧
  (∀ s w b l k, s.blk? w = some b → b.loads = [l] → k ∈ l.need → l.word? k = none → exec (.loadDataReturn w l.idx) s = .next s) ∧
  (∀ (s : State) n d, s.cache.dreqs[n]? = some d → s.reqWaits n d = false → (s.lineLeaf? d.space d.line).any pteRow = false →
    d.atHome = false → s.dc? d.die d.space d.line = none →
    ∃ t m, exec (.dieCacheRequest n) s = .next t ∧ t.cache.msgs = s.cache.msgs ++ [m] ∧
      m.kind = (if d.wantsM then .getM else .getS) ∧ m.node = d.die ∧ m.home = s.lineHome d.space d.line ∧ m.space = d.space ∧
      m.line = d.line ∧ t.cache.dreqs = s.cache.dreqs.modify n (fun _ => { s.sent d false with counted := true, asked := true }) ∧ t.mem = s.mem ∧ t.warps = s.warps) ∧
  (∀ (s : State) n d l x, s.cache.dreqs[n]? = some d → s.reqWaits n d = false → (s.lineLeaf? d.space d.line).any pteRow = false →
    d.rqt = .wt → d.kind = .store l → s.dc? d.die d.space d.line = some x → x.ownc = 255 → x.hst = .M ∨ x.hst = .E →
    d.ord = .plain → s.l1? d.die 255 d.space d.line = none → d.core ≠ 255 → (∀ i ∈ d.readsWords, (wordAt? x.words i).isSome = true) →
    max d.pts (x.rts + 1) ≤ (s.die d.die).tsTop →
    ∃ t y, exec (.dieCacheRequest n) s = .next t ∧ t.dc? d.die d.space d.line = some y ∧
      y.words = storeBytes x.words x.words d.line l true ∧ y.hst = .M ∧ y.wts = max d.pts (x.rts + 1) ∧ y.rts = y.wts ∧
      t.cache.dreqs = s.cache.dreqs.modify n (fun e => { e with counted := true, performed := true, wts := y.wts }) ∧ t.mem = s.mem) ∧
  (∀ (s : State) n m, s.cache.msgs[n]? = some m → m.kind = .data → m.inFlight = true → m.node < s.dies.length → m.node < 8 →
    (s.die m.node).tsmax + 1 ≤ (s.die m.node).tsTop → s.dc? m.node m.space m.line = none →
    (∀ d ∈ s.cache.dreqs, ¬ (d.die = m.node ∧ d.space = m.space ∧ d.line = m.line)) →
    ∃ t y, exec (.dieCacheFillArrival n) s = .next t ∧ t.dc? m.node m.space m.line = some y ∧ y.hst = m.grant ∧
      y.words = m.words.map (fun c => { c with d := m.dirty && c.d }) ∧ y.wts = (s.die m.node).tsmax + 1 ∧ y.rts = y.wts ∧ y.ownc = 255 ∧
      t.mem = s.mem) ∧
  (∀ (s : State) n d, s.cache.dreqs[n]? = some d → d.performed = true →
    (∀ e ∈ s.cache.dreqs.take n, ¬ (e.die = d.die ∧ e.core = d.core ∧ e.space = d.space ∧ e.line = d.line ∧ e.performed = true)) →
    ∃ t, exec (.storeAcknowledge n) s = .next t ∧ t.cache.dreqs = s.cache.dreqs.eraseIdx n ∧
      (t.core d.die d.core).pts = max (s.core d.die d.core).pts d.wts ∧
      (∀ y ∈ t.cache.l1, ∀ r, y.die = d.die → y.core = d.core → y.st = .leased r →
        max (s.core d.die d.core).pts d.wts ≤ r ∧ (y.space = d.space → y.line = d.line → (∃ l, d.kind = .store l) → r = d.wts)) ∧
      t.mem = s.mem ∧ t.warps = s.warps) ∧
  (∀ (s : State) n d e, s.cache.dreqs[n]? = some d → e ∈ s.cache.dreqs.take n → e.die = d.die → e.core = d.core → e.space = d.space →
    e.line = d.line → e.performed = true → exec (.storeAcknowledge n) s = .next s) ∧
  (∀ (s : State) n r, s.remote[n - s.cache.dreqs.length]? = some r → s.cache.dreqs.length ≤ n → r.isLoad = false →
    (∀ sc, r.rel = some sc → s.relWaits r.w r.stamp sc = false) →
    exec (.storeAcknowledge n) s = .next { s with remote := s.remote.eraseIdx (n - s.cache.dreqs.length) }) ∧
  (∀ (s : State) n r sc, s.remote[n - s.cache.dreqs.length]? = some r → s.cache.dreqs.length ≤ n → r.rel = some sc →
    s.relWaits r.w r.stamp sc = true → exec (.storeAcknowledge n) s = .next s) ∧
  (∀ (s : State) x r, x.st = .leased r → (s.core x.die x.core).pts + 1 ≤ (s.die x.die).tsTop →
    let c := (s.l1Hit x).core x.die x.core
    ((s.core x.die x.core).hits + 1 < 256 → c.hits = (s.core x.die x.core).hits + 1 ∧ c.pts = (s.core x.die x.core).pts) ∧
    ((s.core x.die x.core).hits + 1 = 256 → c.hits = 0 ∧ c.pts = (s.core x.die x.core).pts + 1)) ∧
  (∀ s die core, 256 ≤ (s.core die core).hits → (s.core die core).pts + 1 ≤ (s.die die).tsTop →
    ∃ t, exec (.l1ClockAdvance die core) s = .next t ∧ (t.core die core).pts = (s.core die core).pts + 1 ∧
      (t.core die core).hits = (s.core die core).hits - 256 ∧ t.cache.dc = s.cache.dc ∧ t.mem = s.mem ∧
      ∀ y, y ∈ t.cache.l1 ↔ y ∈ s.cache.l1 ∧ ¬ (y.die = die ∧ y.core = core ∧ ∃ r, y.st = .leased r ∧ r ≤ (s.core die core).pts)) ∧
  (∀ s die core sp ln x f, s.l1? die core sp ln = some x → x.st = .through f → f + 1024 ≤ s.localTick die →
    ∃ t, exec (.throughLineExpiry die core sp ln) s = .next t ∧ t.l1? die core sp ln = none ∧ t.cache.dc = s.cache.dc ∧
      ∀ y ∈ s.cache.l1, ¬ (y.die = die ∧ y.core = core ∧ y.space = sp ∧ y.line = ln) → y ∈ t.cache.l1) ∧
  (∀ s die, (s.die die).wrapAt.isSome = true → s.wrapReady die = false → exec (.leaseWrapAround die) s = .next s) ∧
  (∀ (s : State) die, s.wrapReady die = true → ∀ d ∈ s.cache.dreqs, d.die = die → d.performed = false) ∧
  (∀ s die, die < s.dies.length → (s.die die).wrapAt.isSome = true → s.wrapReady die = true →
    ∃ t, exec (.leaseWrapAround die) s = .next t ∧ (t.die die).wrapAt = none ∧ (t.die die).tsmax = 0 ∧
      (t.die die).lscfg = (s.die die).lsPend.getD (s.die die).lscfg ∧ (t.die die).lsPend = none ∧
      (∀ y ∈ t.cache.dc, y.die = die → y.wts = 0 ∧ y.rts = 0) ∧
      (∀ y ∈ t.cache.l1, y.die = die → y.st = .owned ∨ y.st = .weights) ∧ (∀ c ∈ t.cores, c.die = die → c.pts = 0) ∧
      t.cache.dreqs.length = s.cache.dreqs.length ∧ (∀ d ∈ t.cache.dreqs, d.die = die → d.pts = 0) ∧
      t.mem = s.mem ∧ ∀ v < s.warps.length, t.warp v = if (s.place v).die = die then
        { s.warp v with park := { (s.warp v).park with arr := (s.warp v).park.arr.map fun _ => 0, arr2 := (s.warp v).park.arr2.map fun _ => 0 } }
        else s.warp v) ∧
  (∀ (s : State) d sp ln core num, s.promotes d = some (sp, ln, core, num) →
    d.ord = .racq ∧ core ≠ d.core ∧ sp = d.space ∧ ln = d.line ∧ (sp, ln, core, num) ∈ (s.die d.die).rels) ∧
  (∀ (s : State) d, d.ord = .racq → s.promotes d = none →
    ∀ core num, (d.space, d.line, core, num) ∈ (s.die d.die).rels → core = d.core) ∧
  (∀ (s : State) n d x core num, s.cache.dreqs[n]? = some d → s.dc? d.die d.space d.line = some x →
    s.promotes d = some (d.space, d.line, core, num) → d.performed = false → (∀ y ∈ s.cache.dc, y.die = d.die → y.ownc ≠ core) →
    (∀ e ∈ s.cache.dreqs, e.die = d.die → e.core = core → e.stores = true → num ≤ e.num) →
    ∃ t, exec (.promoteRequest n) s = .next t ∧
      t.dc? d.die d.space d.line = some { x with wts := max x.wts (s.core d.die core).pts, rlsc := 255 } ∧
      (t.die d.die).rels = (s.die d.die).rels.erase (d.space, d.line, core, num) ∧
      t.cache.dreqs = s.cache.dreqs ∧ t.cache.l1 = s.cache.l1 ∧ t.mem = s.mem) ∧
  (∀ (s : State) n d y z core num, s.cache.dreqs[n]? = some d → (s.dc? d.die d.space d.line).isSome = true →
    s.promotes d = some (d.space, d.line, core, num) → d.performed = false → (s.cache.dc.filter fun y => y.die == d.die && y.ownc == core) = [y] →
    s.dc? y.die y.space y.line = some y → ¬ (y.space = d.space ∧ y.line = d.line) →
    s.l1? d.die core y.space y.line = some z → (∀ e ∈ s.cache.dreqs, e.die = d.die → e.core = core → e.stores = true → num ≤ e.num) →
    ∃ t, exec (.promoteRequest n) s = .next t ∧
      t.dc? y.die y.space y.line = some { y with words := mergeWords y.words (dirtyWords z.words) } ∧ t.mem = s.mem) ∧
  (∀ (s : State) n d e sp ln core num, s.cache.dreqs[n]? = some d → s.promotes d = some (sp, ln, core, num) → e ∈ s.cache.dreqs →
    e.die = d.die → e.core = core → e.stores = true → e.num < num → exec (.promoteRequest n) s = .next s)

/-- R276 to R279, R174, R195, Tables 10-6 and 10-7: what the home does on GetS, GetM, PutM and PutS, how a die cache answers FwdGetS, FwdGetM and
Inv, how responses, acknowledgements and data end a transaction, and what waits for the end of a refresh. The home's words are memory's, or at the hub
those of its cache. -/
def Obligations.DirectoryServes : Prop :=
  let may := fun (s : State) n (m : Msg) => s.firstAsk n m = true ∧ s.tx? m.space m.line = none ∧ s.refreshing m.home = false
  let room := fun (s : State) (m : Msg) =>
    (s.cache.dir.filter fun e => e.home == m.home && filterSet e.line == filterSet m.line).length < 16
  let dataTo := fun (D m : Msg) g ws => D.kind = .data ∧ D.node = m.node ∧ D.space = m.space ∧ D.line = m.line ∧ D.grant = g ∧ D.words = ws
  let gone := fun (s : State) n => s.cache.msgs.eraseIdx n
  let from_ := fun (s : State) (m : Msg) => (s.homeRead m.space m.line false).1
  let held := fun (s : State) n (m : Msg) x => s.behind n m = false ∧ s.writingBack m = false ∧ m.node < 8 ∧
    s.dc? m.node m.space m.line = some x ∧ x.ownc = 255
  (∀ s n m, s.msg? n .getS = some m → may s n m → s.dir? m.space m.line = none → room s m →
    ∃ t D, exec (.gets n) s = .next t ∧ t.cache.msgs = gone s n ++ [D] ∧ dataTo D m .E (from_ s m) ∧
      t.dir? m.space m.line = some m.owned ∧ t.mem = s.mem) ∧
  (∀ s n m e, s.msg? n .getS = some m → may s n m → s.dir? m.space m.line = some e → e.st = .S →
    ∃ t D f, exec (.gets n) s = .next t ∧ t.cache.msgs = gone s n ++ [D] ∧ dataTo D m .S (from_ s m) ∧
      t.dir? m.space m.line = some f ∧ f.st = .S ∧ (∀ k, k ∈ f.sharers ↔ k ∈ e.sharers ∨ k = m.node) ∧ t.mem = s.mem) ∧
  (∀ s n m e, s.msg? n .getS = some m → may s n m → s.dir? m.space m.line = some e → e.st ≠ .S →
    ∃ t T, exec (.gets n) s = .next t ∧ t.cache.msgs = gone s n ++ [m.about .fwdGetS e.owner] ∧ t.tx? m.space m.line = some T ∧
      T.req = some m.node ∧ T.getM = false ∧ T.awaitResp = some e.owner ∧ T.awaitAcks = [] ∧ t.dir? m.space m.line = some e) ∧
  (∀ s n m, s.msg? n .getM = some m → may s n m → s.dir? m.space m.line = none → room s m →
    ∃ t D, exec (.getm n) s = .next t ∧ t.cache.msgs = gone s n ++ [D] ∧
      dataTo D m .M (if m.needData then from_ s m else []) ∧ t.dir? m.space m.line = some m.owned ∧ t.mem = s.mem) ∧
  (∀ (s : State) sp ln, (∀ h ∈ s.cache.hub, ¬ (h.space = sp ∧ h.line = ln)) → (s.homeRead sp ln false).1 = s.memWords sp ln) ∧
  (∀ (s : State) sp ln h c, s.homeOfSpace sp (ln * 128) = .loc 8 c → h ∈ s.cache.hub → h.space = sp → h.line = ln →
    (∀ y ∈ s.cache.hub, y.space = sp → y.line = ln → y = h) → (s.homeRead sp ln false).1 = h.words) ∧
  (∀ (s : State) sp ln r, (s.homeRead sp ln r).2.mem = s.mem) ∧
  (∀ s n m e, s.msg? n .getM = some m → may s n m → s.dir? m.space m.line = some e → e.st ≠ .S → e.owner ≠ m.node →
    (∀ k ∈ e.sharers, k = m.node ∨ k = e.owner) →
    ∃ t T, exec (.getm n) s = .next t ∧ t.cache.msgs = gone s n ++ [m.about .fwdGetM e.owner] ∧ t.tx? m.space m.line = some T ∧
      T.req = some m.node ∧ T.getM = true ∧ T.awaitResp = some e.owner ∧ T.awaitAcks = [] ∧ t.dir? m.space m.line = some e) ∧
  (∀ s n m e, s.msg? n .getM = some m → may s n m → s.dir? m.space m.line = some e → e.st = .S → (∃ k ∈ e.sharers, k ≠ m.node) →
    ∃ t T, exec (.getm n) s = .next t ∧
      t.cache.msgs = gone s n ++ (e.sharers.filter (· != m.node)).map (fun k => m.about .inv k) ∧ t.tx? m.space m.line = some T ∧
      T.req = some m.node ∧ T.getM = true ∧ T.awaitResp = none ∧ T.awaitAcks = e.sharers.filter (· != m.node)) ∧
  (∀ s n m e, s.msg? n .putM = some m → s.firstAsk n m = true → s.tx? m.space m.line = none → s.refreshing m.home = false →
    s.dir? m.space m.line = some e → e.st ≠ .S → e.owner = m.node → (∀ k ∈ e.sharers, k = m.node) →
    ∃ t, exec (.putm n) s = .next t ∧ t.mem = (s.writeHome m.space m.line m.words).mem ∧ t.dir? m.space m.line = none ∧
      t.cache.msgs = gone s n ++ [m.about .wbAck m.node]) ∧
  (∀ s n m e, s.msg? n .putM = some m → s.firstAsk n m = true → s.tx? m.space m.line = none → s.refreshing m.home = false →
    s.dir? m.space m.line = some e → e.st ≠ .S → e.owner = m.node → (∃ k ∈ e.sharers, k ≠ m.node) →
    ∃ t f, exec (.putm n) s = .next t ∧ t.mem = (s.writeHome m.space m.line m.words).mem ∧ t.dir? m.space m.line = some f ∧ f.st = .S ∧
      f.sharers = e.sharers.filter (· != m.node) ∧ t.cache.msgs = gone s n ++ [m.about .wbAck m.node]) ∧
  (∀ s n m e, s.msg? n .putM = some m → s.firstAsk n m = true → s.tx? m.space m.line = none → s.refreshing m.home = false →
    s.dir? m.space m.line = some e → e.st = .S →
    ∃ t, exec (.putm n) s = .next t ∧ t.mem = s.mem ∧ t.cache.msgs = gone s n ++ [m.about .wbAck m.node] ∧
      ((∀ k ∈ e.sharers, k = m.node) → t.dir? m.space m.line = none) ∧
      ((∃ k ∈ e.sharers, k ≠ m.node) → ∃ f, t.dir? m.space m.line = some f ∧ f.st = .S ∧ f.sharers = e.sharers.filter (· != m.node))) ∧
  (∀ s n m, s.msg? n .putM = some m → s.firstAsk n m = true → s.tx? m.space m.line = none → s.refreshing m.home = false →
    (∀ e, s.dir? m.space m.line = some e → e.st ≠ .S ∧ e.owner ≠ m.node) →
    ∃ t, exec (.putm n) s = .next t ∧ t.mem = s.mem ∧ t.cache.dir = s.cache.dir ∧
      t.cache.msgs = gone s n ++ [m.about .wbAck m.node]) ∧
  (∀ s n m e, s.msg? n .putS = some m → s.firstAsk n m = true → s.tx? m.space m.line = none → s.dir? m.space m.line = some e →
    e.st = .S ∨ e.owner = m.node → (∀ k ∈ e.sharers, k = m.node) →
    ∃ t, exec (.puts n) s = .next t ∧ t.dir? m.space m.line = none ∧ t.cache.msgs = gone s n ∧ t.mem = s.mem) ∧
  (∀ s n m e, s.msg? n .putS = some m → s.firstAsk n m = true → s.tx? m.space m.line = none → s.dir? m.space m.line = some e →
    (∃ k ∈ e.sharers, k ≠ m.node) →
    ∃ t f, exec (.puts n) s = .next t ∧ t.dir? m.space m.line = some f ∧ f.sharers = e.sharers.filter (· != m.node) ∧
      f.st = (if e.owner = m.node then .S else e.st) ∧ t.cache.msgs = gone s n ∧ t.mem = s.mem) ∧
  (∀ s n m x, s.msg? n .fwdGetS = some m → held s n m x →
    ∃ t R, exec (.fwdgets n) s = .next t ∧ t.cache.msgs = gone s n ++ [R] ∧ R.kind = .resp ∧ R.node = m.node ∧
      R.words = dirtyWords x.words ∧ R.inFlight = false ∧ t.mem = s.mem ∧
      t.dc? m.node m.space m.line = some { x with hst := .O }) ∧
  (∀ s n m x, s.msg? n .fwdGetM = some m → held s n m x →
    ∃ t R, exec (.fwdgetm n) s = .next t ∧ t.cache.msgs = gone s n ++ [R] ∧ R.kind = .resp ∧ R.node = m.node ∧
      R.words = dirtyWords x.words ∧ R.inFlight = false ∧ t.mem = s.mem ∧ t.dc? m.node m.space m.line = none) ∧
  (∀ s n m, s.msg? n .fwdGetM = some m → s.behind n m = false → s.writingBack m = true →
    ∃ t R, exec (.fwdgetm n) s = .next t ∧ t.cache.msgs = gone s n ++ [R] ∧ R.kind = .resp ∧ R.node = m.node ∧ R.inFlight = true ∧
      R.words = [] ∧ t.cache.dc = s.cache.dc) ∧
  (∀ s n m x, s.msg? n .inv = some m → held s n m x →
    ∃ t l, exec (.inv n) s = .next t ∧ t.cache.msgs = gone s n ++ l ++ [m.about .invAck m.node] ∧
      t.dc? m.node m.space m.line = none ∧ t.mem = s.mem ∧ (dirtyWords x.words = [] → l = []) ∧
      (dirtyWords x.words ≠ [] → ∃ R, l = [R] ∧ R.kind = .resp ∧ R.node = m.node ∧ R.words = dirtyWords x.words)) ∧
  (∀ s n m, s.refreshing m.home = true →
    (s.msg? n .getS = some m → exec (.gets n) s = .next s) ∧ (s.msg? n .getM = some m → exec (.getm n) s = .next s) ∧
    (s.msg? n .putM = some m → exec (.putm n) s = .next s) ∧ (s.msg? n .resp = some m → exec (.resp n) s = .next s) ∧
    (s.msg? n .invAck = some m → exec (.invack n) s = .next s)) ∧
  (∀ s n m e T r, s.msg? n .resp = some m → s.refreshing m.home = false → s.tx? m.space m.line = some T → T.getM = false → T.req = some r →
    T.awaitResp = some m.node → T.awaitAcks = [] → T.awaitPut = none → T.words = [] → m.inFlight = false →
    s.dir? m.space m.line = some e → e.st ≠ .S →
    ∃ t D f, exec (.resp n) s = .next t ∧ t.cache.msgs = gone s n ++ [D] ∧ D.kind = .data ∧ D.node = r ∧ D.grant = .S ∧
      D.words = cleanWords (mergeWords (from_ s m) (mergeWords [] m.words)) ∧ t.mem = s.mem ∧ t.tx? m.space m.line = none ∧
      t.dir? m.space m.line = some f ∧ f.st = (if m.words = [] ∧ e.st = .M then .S else .O) ∧
      ∀ k, k ∈ f.sharers ↔ k = r ∨ (if m.words = [] ∧ e.st = .M then k = e.owner else k ∈ e.sharers)) ∧
  (∀ s n m e T r, s.msg? n .resp = some m → s.refreshing m.home = false → s.tx? m.space m.line = some T → T.getM = true → T.req = some r →
    T.awaitResp = some m.node → T.awaitAcks = [] → T.awaitPut = none → m.inFlight = false → s.dir? m.space m.line = some e → e.st ≠ .S →
    ∃ t D f, exec (.resp n) s = .next t ∧ t.cache.msgs = gone s n ++ [D] ∧ D.kind = .data ∧ D.node = r ∧ D.grant = .M ∧
      D.words = mergeWords T.words m.words ∧ t.tx? m.space m.line = none ∧ t.dir? m.space m.line = some f ∧ f.st = .M ∧ f.owner = r ∧
      f.sharers = []) ∧
  (∀ s n m e T r, s.msg? n .invAck = some m → s.refreshing m.home = false → s.tx? m.space m.line = some T → T.getM = true → T.req = some r → T.awaitResp = none →
    T.awaitAcks = [m.node] → T.awaitPut = none → s.dir? m.space m.line = some e → e.st = .S →
    (∀ y ∈ s.cache.msgs.take n, ¬ (y.kind = .resp ∧ y.node = m.node ∧ y.space = m.space ∧ y.line = m.line)) →
    ∃ t D f, exec (.invack n) s = .next t ∧ t.cache.msgs = gone s n ++ [D] ∧ D.kind = .data ∧ D.node = r ∧ D.grant = .M ∧
      D.words = (if T.needData ∧ ¬ (T.hasS ∧ r ∈ e.sharers) then from_ s m else []) ∧
      t.tx? m.space m.line = none ∧ t.dir? m.space m.line = some f ∧ f.st = .M ∧ f.owner = r) ∧
  (∀ s n m, s.msg? n .data = some m → m.inFlight = false → s.behind n m = false → m.node < 8 →
    ∃ t, exec (.data n) s = .next t ∧ t.cache.msgs = s.cache.msgs.modify n (fun y => { y with inFlight := true }) ∧
      t.cache.dc = s.cache.dc ∧ t.mem = s.mem) ∧
  (∀ s n m, s.msg? n .data = some m → m.inFlight = false → s.behind n m = false → 8 ≤ m.node → s.refreshing m.home = false →
    s.bridge? m.node m.space m.line = none →
    ∃ t b, exec (.data n) s = .next t ∧ t.cache.msgs = gone s n ∧ t.bridge? m.node m.space m.line = some b ∧
      b.permM = (m.grant == .M) ∧ b.words = mergeWords (s.memWords m.space m.line) (mergeWords [] m.words) ∧ b.modified = m.dirty) ∧
  (∀ s n m, s.msg? n .wbAck = some m →
    ∃ t, exec (.wback n) s = .next t ∧ t.cache.msgs = gone s n ∧ t.cache.pwb = s.cache.pwb.erase (m.node, m.space, m.line) ∧
      t.mem = s.mem)

/-- R200, R201, R197, R264: the bridge supplies a cox from its copy or asks the home for the line, answers a read of read-only weights from the home, and takes a
cox's write when it has permission. That `VA[8]` chooses the bridge, that a dirty eviction keeps the line and the clean eviction that leaves no half drops it, with a
modified line written back, and that the answer to a cox's read is kept, are readings (log 37). -/
def Obligations.BridgesServeCoxes : Prop :=
  let quiet := fun (s : State) io sp ln => (∀ m ∈ s.cache.msgs, ¬ (m.node = io ∧ m.space = sp ∧ m.line = ln)) ∧
    ∀ t ∈ s.cache.txs, ¬ (t.space = sp ∧ t.line = ln ∧ t.req = some io)
  (∀ s x va p sp leaf b, s.transNow x false .rd va = .ok p sp leaf → pteRow leaf = false → s.bridge? (bridgeOf va) sp (va / 128) = some b →
    s.shutTo 8 0 none sp (va / 128) = false →
    ∃ t c, exec (.coxRead x va) s = .next t ∧ t.bridge? (bridgeOf va) sp (va / 128) = some c ∧ halfOf va ∈ c.held ∧
      c.words = b.words ∧ c.permM = b.permM ∧ t.cache.cox = some (x, va / 64 * 64, halfBytes b.words (halfOf va)) ∧ t.mem = s.mem) ∧
  (∀ words h i, i < 64 → (halfBytes words h)[i]? = some (byteOf (((wordAt? words (16 * h + i / 4)).map (·.v)).getD 0) (i % 4))) ∧
  (∀ s x va p sp leaf, s.transNow x false .rd va = .ok p sp leaf → pteRow leaf = true → s.shutTo 8 0 none sp (va / 128) = false →
    s.homeBusy x va 1 = false →
    ∃ t, exec (.coxRead x va) s = .next t ∧
      t.cache.cox = some (x, va / 64 * 64, halfBytes (s.homeRead sp (va / 128) true).1 (halfOf va)) ∧ t.cache.bridge = s.cache.bridge ∧
      t.cache.msgs = s.cache.msgs ∧ t.mem = s.mem) ∧
  (∀ s x va, (∀ p sp leaf, s.transNow x false .rd va ≠ .ok p sp leaf) → exec (.coxRead x va) s = .next s) ∧
  (∀ s x va p sp leaf, s.transNow x false .rd va = .ok p sp leaf → pteRow leaf = false → s.bridge? (bridgeOf va) sp (va / 128) = none →
    quiet s (bridgeOf va) sp (va / 128) → s.shutTo 8 0 none sp (va / 128) = false →
    ∃ t m, exec (.coxRead x va) s = .next t ∧ t.cache.msgs = s.cache.msgs ++ [m] ∧ m.kind = .getS ∧ m.node = bridgeOf va ∧
      m.space = sp ∧ m.line = va / 128 ∧ t.cache.bridge = s.cache.bridge) ∧
  (∀ s x va l p sp leaf b, s.transNow x false .wr va = .ok p sp leaf → pteRow leaf = false →
    s.bridge? (bridgeOf va) sp (va / 128) = some b → b.permM = true →
    ∃ t c, exec (.coxWrite x va l) s = .next t ∧ t.bridge? (bridgeOf va) sp (va / 128) = some c ∧ halfOf va ∈ c.dirty ∧ halfOf va ∈ c.held ∧
      c.words = storeBytes b.words b.words (va / 128) ((placeBytes va l).filter fun q => q.1 / 64 == va / 64) false ∧ t.mem = s.mem) ∧
  (∀ s x va l p sp leaf, s.transNow x false .wr va = .ok p sp leaf → pteRow leaf = false →
    (∀ b, s.bridge? (bridgeOf va) sp (va / 128) = some b → b.permM = false) → quiet s (bridgeOf va) sp (va / 128) →
    ∃ t m, exec (.coxWrite x va l) s = .next t ∧ t.cache.msgs = s.cache.msgs ++ [m] ∧ m.kind = .getM ∧ m.node = bridgeOf va ∧
      m.space = sp ∧ m.line = va / 128 ∧ t.cache.bridge = s.cache.bridge) ∧
  (∀ s x va b, s.bridge? (bridgeOf va) (s.spaceOf x va) (va / 128) = some b → halfOf va ∈ b.dirty →
    ∃ t c, exec (.coxEviction x va) s = .next t ∧ t.bridge? (bridgeOf va) (s.spaceOf x va) (va / 128) = some c ∧ c.modified = true ∧
      halfOf va ∉ c.dirty ∧ halfOf va ∉ c.held ∧ c.words = b.words ∧ t.cache.msgs = s.cache.msgs) ∧
  (∀ s x va b, s.bridge? (bridgeOf va) (s.spaceOf x va) (va / 128) = some b → halfOf va ∉ b.dirty → (∀ h ∈ b.held, h = halfOf va) →
    ∃ t m, exec (.coxEviction x va) s = .next t ∧ t.bridge? (bridgeOf va) (s.spaceOf x va) (va / 128) = none ∧
      t.cache.msgs = s.cache.msgs ++ [m] ∧ m.node = bridgeOf va ∧ m.space = s.spaceOf x va ∧ m.line = va / 128 ∧
      (b.modified = true → m.kind = .putM ∧ m.words = b.words.map (fun w => { w with d := true }) ∧
        (bridgeOf va, s.spaceOf x va, va / 128) ∈ t.cache.pwb) ∧ (b.modified = false → m.kind = .putS))

/-- R10, R11, R15 to R17, R160 to R163, R174: clocks tick, one by one or all together, in pace and with their reconciled counts bound to
each other; counts are exchanged, relayed, and corrected by at most one step in 64 ticks; lost timelines are reported, refresh is counted once an interval,
and the clock step is the lower of those that heat and power call for. That a lead is bounded by a tick of each clock beside the rates of R161, and how a relayed count is
carried on, are the model's choices (log 8); that power moves the cap's own step, one at a time, and when a change asked for in a boundary's tick takes
effect, are too (log 14). -/
def Obligations.ClocksKeepTime : Prop :=
  let asks := fun (s : State) cap heat => ({ s with pkg := { s.pkg with
    capStep := cap, heatStep := heat, clockPend := if max cap heat = s.pkg.clockStep then none else some (max cap heat) } } : State)
  (∀ (s : State) (d : Nat) (x : Die), s.pkg.up.clocked = true → s.dies[d]? = some x →
    ∃ y : Die, s.tick.dies[d]? = some y ∧ s.tick.stake = s.stake + 1 ∧ (x.stopped = true → y = x) ∧
      (x.stopped = false → s.stands x = true → y.local_ = x.local_ ∧ y.recon = x.recon) ∧
      (s.stands x = false → y.local_ = x.local_ + 1 ∧ x.recon ≤ y.recon ∧ y.recon ≤ x.recon + 2 ∧
        (y.recon ≠ x.recon + 1 → y.lastCorr = some y.local_ ∧ ∀ n, x.lastCorr = some n → n + 64 ≤ y.local_))) ∧
  (∀ (s : State) c up d e, s.reconciled = true → d ≠ e → d < s.dies.length → e < s.dies.length → (s.die d).promised = true →
    (s.die e).promised = true → ∀ t ∈ [s.clock c, s.steer c up],
      apart (t.die d).recon (t.die e).recon ≤ max 2 (apart (s.die d).recon (s.die e).recon)) ∧
  (∀ (s : State) c d, 8 ≤ c → d < s.dies.length → (s.die d).stopped = false →
    (s.clock c = s ∨ ((s.clock c).stake = s.stake + 1 ∧ ((s.die d).paced false true).paceOk = true ∧
      (s.reconciled = true → (s.die d).promised = true → apart (s.die d).recon (s.stake + 1) ≤ 1))) ∧
    ((s.clock c).die d).recon = (s.die d).recon) ∧
  (∀ (s : State) c d, c < 8 → d < s.dies.length →
    (s.clock c).stake = s.stake ∧
    ((s.clock c).die d = s.die d ∨ (c = d ∧ (((s.die d).tick s.stake).paced true false).paceOk = true ∧
      ((s.clock c).die d).local_ = (s.die d).local_ + 1 ∧
      (s.reconciled = true → (s.die d).promised = true → ((s.clock c).die d).recon ≤ s.stake + 2)))) ∧
  (∀ d : Die, (d.paceOk = true ↔ d.ahead < 100130000 ∧ d.behind < 100390338) ∧
    (d.paced true true).ahead = d.ahead - 130000 ∧ (d.paced true true).behind = d.behind - 130338 ∧
    (d.paced true false).ahead = d.ahead + 50000000 ∧ (d.paced false true).behind = d.behind + 50130000) ∧
  (∀ (s : State) d, d < 8 → s.dies.length = 8 → (s.die d).local_ % 1024 = 0 → 0 < (s.die d).local_ →
    (s.die d).exchanged ≠ (s.die d).local_ / 1024 →
    ∃ t l, exec (.tickExchangeSend d) s = .next t ∧ t.ticks = s.ticks ++ l ∧ l.map TickMsg.dst = 8 :: Config.neighbours d ∧
      (∀ m ∈ l, m.src = d ∧ m.loc = (s.die d).local_ ∧ m.rec_ = (s.die d).recon ∧ m.relay = (s.die d).lastStake) ∧
      (t.die d).missed = (s.die d).missed + (if (s.die d).awaiting = true then 1 else 0) ∧ (t.die d).awaiting = true ∧
      (t.die d).recon = (s.die d).recon) ∧
  (∀ (s : State), s.stake % 1024 = 0 → 0 < s.stake → s.pkg.exchanged ≠ s.stake / 1024 →
    ∃ t l, exec (.tickExchangeSend 8) s = .next t ∧ t.ticks = s.ticks ++ l ∧ l.map TickMsg.dst = List.range 8 ∧
      ∀ m ∈ l, m.src = 8 ∧ m.loc = s.stake ∧ m.rec_ = s.stake) ∧
  (∀ (s : State) n m, s.dies.length = 8 → s.ticks[n]? = some m → m.dst < 8 → m.src = 8 →
    ∃ t, exec (.tickExchangeReceive n) s = .next t ∧ t.ticks = s.ticks.eraseIdx n ∧ (t.die m.dst).missed = 0 ∧
      (t.die m.dst).awaiting = false ∧ (t.die m.dst).lost = none ∧ (t.die m.dst).lastStake = (s.die m.dst).recon ∧ (t.die m.dst).recon = (s.die m.dst).recon ∧
      (t.die m.dst).reconAcc = ((m.rec_ + (s.stake - m.loc) : Nat) : Int) - (s.die m.dst).recon ∧
      ((s.die m.dst).lost ≠ none → (7, m.dst, 0) ∈ t.pkg.mgmtLog)) ∧
  (∀ (s : State) n m, s.dies.length = 8 → s.ticks[n]? = some m → m.dst < 8 → m.src < 8 → 0 < m.relay → m.relay ≤ m.rec_ →
    (m.src, m.relay) ∉ (s.die m.dst).relays → (s.die m.dst).awaiting = true →
    ∃ t, exec (.tickExchangeReceive n) s = .next t ∧ t.ticks = s.ticks.eraseIdx n ∧ (t.die m.dst).missed = 0 ∧
      (t.die m.dst).awaiting = false ∧ (t.die m.dst).lost = none ∧ (t.die m.dst).recon = (s.die m.dst).recon ∧
      (t.die m.dst).lastStake = (s.die m.dst).lastStake ∧ (m.src, m.relay) ∈ (t.die m.dst).relays ∧
      (t.die m.dst).reconAcc = ((m.rec_ + ((s.die m.src).local_ - m.loc) : Nat) : Int) - (s.die m.dst).recon) ∧
  (∀ (s : State) n m, s.dies.length = 8 → s.ticks[n]? = some m → m.dst < 8 → m.src < 8 →
    m.relay = 0 ∨ (m.src, m.relay) ∈ (s.die m.dst).relays ∨ (s.die m.dst).awaiting = false →
    ∃ t, exec (.tickExchangeReceive n) s = .next t ∧ t.ticks = s.ticks.eraseIdx n ∧ (t.die m.dst).missed = (s.die m.dst).missed ∧
      (t.die m.dst).lost = (s.die m.dst).lost ∧ (t.die m.dst).reconAcc = (s.die m.dst).reconAcc) ∧
  (∀ (s : State) d, d < 8 → s.dies.length = 8 → 8 ≤ (s.die d).missed → (s.die d).lost = none →
    ∃ t, exec (.timelineLost d) s = .next t ∧ (t.die d).lost = some s.stake ∧ (6, d, 0) ∈ t.pkg.mgmtLog) ∧
  (∀ (s : State) d n, (s.die d).lost = some n → n + 2 ^ 30 ≤ s.stake → s.pkg.up = .ready →
    exec (.timelineLostPersists d) s = .next { s with pkg := { s.pkg with up := .degraded, replace := true } }) ∧
  (∀ (s : State) d, s.dies.length = 8 → d < 8 → 3776 ≤ (s.die d).recon % 4096 → (s.die d).refreshed ≠ (s.die d).recon / 4096 + 1 →
    ∃ t, exec (.refresh d) s = .next t ∧ (t.die d).refreshed = (s.die d).recon / 4096 + 1 ∧ t.mem = s.mem ∧ t.cache = s.cache) ∧
  (∀ (s : State) d, d < 8 → ∃ l, exec (.droopTickStretch d) s = .next { s with pkg := { s.pkg with stretched := l } } ∧ d ∈ l) ∧
  (∀ (s : State) n, s.pkg.clockPend = some n → s.stake % s.stepBoundary = 0 →
    exec .clockStepChange s = .next { s with pkg := { s.pkg with clockStep := n, clockPend := none } }) ∧
  (∀ (s : State) n, s.pkg.clockPend = some n → s.stake % s.stepBoundary ≠ 0 → exec .clockStepChange s = .next s) ∧
  (∀ (s : State), s.pkg.up.clocked = true →
    exec .junctionHot s = .next (asks s s.pkg.capStep (min 3 (max s.pkg.capStep s.pkg.heatStep + 1)))) ∧
  (∀ (s : State), s.pkg.up.clocked = true → exec .junctionCool s = .next (asks s s.pkg.capStep (s.pkg.heatStep - 1))) ∧
  (∀ (s : State), s.pkg.up.clocked = true →
    exec (.packagePowerAtCap true) s = .next (asks s (min 3 (max s.pkg.capStep s.pkg.heatStep + 1)) s.pkg.heatStep)) ∧
  (∀ (s : State), s.pkg.up.clocked = true → exec (.packagePowerAtCap false) s = .next (asks s (s.pkg.capStep - 1) s.pkg.heatStep))

/-- R8, R15, R17 to R22, R404: the package goes through its bring-up states in order or fails with a cause; the update staged when power comes on
is the one that the bring-up takes, and SECURE BOOT refuses the image of a bring-up, staged or in effect, unless its signatures are verified and its security versions
are not below the fused one; a thermal trip takes power away and bars power-on until it is cleared. That a refused image is dropped is the model's choice (log 12), as
is what power-off keeps beside what the spec names: the staged image and the firmware (log 38), with memory empty after it (log 10). -/
def Obligations.PackageComesUp : Prop :=
  let done := fun (s : State) (u : BringUp) => ∃ t, exec (.bringUpStageComplete none) s = .next t ∧ t.pkg.up = u
  (∀ s : State, s.pkg.up ≠ .off → ∃ t, exec .thermalTrip s = .next t ∧ t.pkg.up = .off ∧ t.pkg.trip = true ∧
    t.pkg.tripLog = s.pkg.tripLog + 1 ∧ t.mem = [] ∧ t.warps = [] ∧ t.pkg.firmware = s.pkg.firmware ∧
    t.pkg.staged = (s.pkg.staged <|> s.pkg.booting)) ∧
  (∀ s, exec .clearThermalTrip s = .next { s with pkg := { s.pkg with trip := false } }) ∧
  (∀ (s : State) p, s.pkg.up = .off → s.pkg.trip = false →
    ∃ t, exec (.powerOn p) s = .next t ∧ t.pkg.up = .standby ∧ t.pkg.rootPort = p ∧ t.mem = [] ∧ t.stake = 0 ∧
      t.pkg.booting = (s.pkg.staged <|> s.pkg.booting) ∧ t.pkg.staged = none) ∧
  (∀ (s : State) p, s.pkg.trip = true → exec (.powerOn p) s = .next s) ∧
  (∀ s : State, s.pkg.up = .standby → done s .secureBoot) ∧
  (∀ (p : Package), let i := p.booting.getD p.firmware
    p.bootRefused = false ↔ Config.imageSigned i = true ∧ Config.svnFused ≤ Config.svnt i ∧ Config.svnFused ≤ Config.svnr i) ∧
  (∀ s : State, s.pkg.up = .secureBoot → ∃ t, exec (.bringUpStageComplete none) s = .next t ∧ t.pkg.booting = none ∧
    (s.pkg.bootRefused = false → t.pkg.up = .runtimeLoad ∧ t.pkg.firmware = s.pkg.booting.getD s.pkg.firmware ∧ t.pkg.staged = s.pkg.staged ∧
      t.pkg.debugOn = s.pkg.debugArmed.isSome ∧ t.pkg.debugArmed = none ∧ t.pkg.mr.drop 2 = [0, 0, 0, 0, 0, 0]) ∧
    (s.pkg.bootRefused = true → t.pkg.up = .failed ∧ t.pkg.firmware = s.pkg.firmware)) ∧
  (∀ s : State, s.pkg.up = .runtimeLoad → s.ctxs.length = 256 →
    ∃ t, exec (.bringUpStageComplete none) s = .next t ∧ t.pkg.up = .memoryInit ∧ (t.ctx 0).st = .active) ∧
  (∀ s : State, s.pkg.up = .memoryInit →
    ∃ t, exec (.bringUpStageComplete none) s = .next t ∧ t.pkg.up = .linkInit ∧ (∀ a, getByte t.mem a = 0) ∧ t.memPoison = []) ∧
  (∀ s : State, s.pkg.up = .linkInit → ∃ t, exec (.bringUpStageComplete none) s = .next t ∧ (t.pkg.up = .ready ∨ t.pkg.up = .degraded) ∧
    (s.degradedNow = false → t.pkg.up = .ready) ∧ ∀ d ∈ t.dies, d.recon = s.stake) ∧
  (∀ (s : State) c, s.pkg.up ∈ [.standby, .secureBoot, .runtimeLoad, .memoryInit, .linkInit] →
    exec (.bringUpStageComplete (some c)) s = .next { s with pkg := { s.pkg with up := .failed, cause := c } }) ∧
  (∀ (s : State) w, 3000 ≤ w → w ≤ 4500 → w % 50 = 0 → exec (.setPowerCap w) s = .next { s with pkg := { s.pkg with capW := w } }) ∧
  (∀ (s : State) w, w < 3000 ∨ 4500 < w ∨ w % 50 ≠ 0 → exec (.setPowerCap w) s = .next s) ∧
  (∀ s n, exec (.stageFirmwareUpdate n) s = .next { s with pkg := { s.pkg with staged := some n } }) ∧
  (∀ s n, 11 ≤ n → n ≤ 15 → exec (.misroutedPacket n) s = .next { s with pkg := { s.pkg with misroute := s.pkg.misroute + 1 } }) ∧
  (∀ s n, n < 11 → exec (.misroutedPacket n) s = .next s)

/-- R269, R388, R436: the driver's writes of `LSCFG` and of a context block keep the fields that the registers have; the system register space
reaches the same registers. -/
def Obligations.DriverRegistersTakeWrites : Prop :=
  (∀ (s : State) d v, d < s.dies.length → (∀ r ∈ s.regions, r.die = d → r.done = true) → 8 ≤ fld v 8 5 → fld v 8 5 ≤ 20 →
    ∃ t, exec (.lscfgWrite d v) s = .next t ∧ (t.die d).lscfg = v &&& 0xFF1F00 ∧ (t.die d).lsPend = none ∧
      ∀ e, e ≠ d → t.die e = s.die e) ∧
  (∀ (s : State) d v, d < s.dies.length → (s.die d).lsPend = none → (∀ r ∈ s.regions, r.die = d → r.done = true) →
    fld v 8 5 < 8 ∨ 20 < fld v 8 5 →
    ∃ t, exec (.lscfgWrite d v) s = .next t ∧ fld (t.die d).lscfg 8 5 = fld (s.die d).lscfg 8 5 ∧
      fld (t.die d).lscfg 16 8 = fld v 16 8) ∧
  (∀ (s : State) d v r, d < s.dies.length → r ∈ s.regions → r.die = d → r.done = false → 8 ≤ fld v 8 5 → fld v 8 5 ≤ 20 →
    ∃ t, exec (.lscfgWrite d v) s = .next t ∧ (t.die d).lscfg = (s.die d).lscfg ∧ (t.die d).lsPend = some (v &&& 0xFF1F00)) ∧
  (∀ (s : State) n v, n / 8 < s.ctxs.length → (s.ctx (n / 8)).block.length = 8 →
    ∃ t, exec (.contextBlockWrite n v) s = .next t ∧ (t.ctx (n / 8)).block = (s.ctx (n / 8)).block.set (n % 8) (v &&& ctxBits (n % 8)) ∧
      (t.ctx (n / 8)).block.getD (n % 8) 0 = v &&& ctxBits (n % 8) ∧ ∀ c, c ≠ n / 8 → t.ctx c = s.ctx c) ∧
  (∀ s q v, ∃ t, exec (.systemRegisterWrite (.lqctl q) v) s = .next t ∧ exec (.lqctlWrite q.toNat v) s = .next t) ∧
  (∀ s d v, ∃ t, exec (.systemRegisterWrite (.lscfg d) v) s = .next t ∧ exec (.lscfgWrite d.toNat v) s = .next t) ∧
  (∀ s n v, ∃ t, exec (.systemRegisterWrite (.ctxWord n) v) s = .next t ∧ exec (.contextBlockWrite n.toNat v) s = .next t) ∧
  (∀ s c q, ∃ t, exec (.systemRegisterWrite (.faultRes c) (resolution q 0 1)) s = .next t ∧ exec (.retry c.toNat q) s = .next t)

/-- R174, R393 to R400, R427, R454: a checked MAP of a space that has its root enters its pages, marks their frames and releases what waited for them, whose records it
closes; without room for its tables, or a root, it changes no page; UNMAP and PROTECT wait while an access to the pages is under way and take them out of
the translation entries (that a PROTECT which removes no permission does so too is log 39); a refused request returns its status and changes no page; a
walk enters a translation for the page that was asked of it or makes its pending fault, whose record the first access posts, and waits while no entry is
free. -/
def Obligations.PagesAreMapped : Prop :=
  let status := fun (t : State) home => assoc t.xl.mapStatus home 9
  let turn := fun (s : State) home n (w : Walk) page => s.xl.walks[n]? = some w ∧ w.home = home ∧ w.asks = [page] ∧ s.refreshing home = false ∧
    ((s.xl.walks.take n).filter fun x => x.home == home).length < 512
  (∀ s home req u, home < 9 → s.mapCheck home 1 (MapReq.of req) = 0 →
    s.mapPages home (MapReq.of req) (MapReq.of req).pages = some u →
    ∃ t, exec (.map home req) s = .next t ∧ status t home = 0 ∧ t.mem = s.mem ∧ t.xl.pte = u.xl.pte ∧
      (∀ f ∈ (MapReq.of req).frames, frMapped (t.frame home f) = true) ∧
      (∀ p ∈ s.xl.pfaults, p.home = home → p.space = (MapReq.of req).space → (MapReq.of req).covers p.va = true →
        p ∉ t.xl.pfaults ∧ (∀ w ∈ p.warps, w < s.warps.length → (t.warp w).park.fault = false) ∧
        ∀ c, ∀ r ∈ (t.ctx c).posted, ∀ q ∈ p.recs, q.same r = false) ∧
      t.warps.map Warp.regs = s.warps.map Warp.regs) ∧
  (∀ s home req, home < 9 → s.mapCheck home 1 (MapReq.of req) = 0 →
    s.mapPages home (MapReq.of req) (MapReq.of req).pages = none →
    ∃ t, exec (.map home req) s = .next t ∧ status t home = 7 ∧ t.xl.pte = s.xl.pte ∧ t.xl.frames = s.xl.frames ∧
      t.xl.pfaults = s.xl.pfaults ∧ t.warps = s.warps) ∧
  (∀ (s : State) home req, s.root? home (MapReq.of req).space = none → 0 < (MapReq.of req).count →
    s.mapPages home (MapReq.of req) (MapReq.of req).pages = none) ∧
  (∀ (s : State) home req, s.pagesBusy (MapReq.of req) = true →
    (s.mapCheck home 2 (MapReq.of req) = 0 → exec (.unmap home req) s = .next s) ∧
    (s.mapCheck home 3 (MapReq.of req) = 0 → exec (.protect home req) s = .next s)) ∧
  (∀ (s : State) (r : MapReq) w b x a, s.blk? w = some b → x ∈ b.stores → a ∈ x.addrs → r.covers a = true → s.spaceOf (s.place w).ctx a = r.space →
    s.pagesBusy r = true) ∧
  (∀ s home req, home < 9 → s.mapCheck home 1 (MapReq.of req) = 0 → (MapReq.of req).size = 0 → (MapReq.of req).count = 1 →
    s.hasPath home (MapReq.of req).space (MapReq.of req).va →
    ∃ t, exec (.map home req) s = .next t ∧
      t.walk home (MapReq.of req).space (MapReq.of req).va = some ((MapReq.of req).leaf (MapReq.of req).frame, 16)) ∧
  (∀ s home req, home < 9 → s.mapCheck home 1 (MapReq.of req) ≠ 0 →
    ∃ t, exec (.map home req) s = .next t ∧ status t home = s.mapCheck home 1 (MapReq.of req) ∧ t.xl.pte = s.xl.pte ∧
      t.xl.frames = s.xl.frames ∧ t.xl.pfaults = s.xl.pfaults ∧ t.warps = s.warps) ∧
  (∀ s home req, home < 9 → s.mapCheck home 2 (MapReq.of req) = 0 → s.pagesBusy (MapReq.of req) = false →
    ∃ t, exec (.unmap home req) s = .next t ∧ status t home = 0 ∧
      (∀ v ∈ (MapReq.of req).pages, t.walk home (MapReq.of req).space v = none) ∧
      (∀ e ∈ t.xl.tlb, e.home = home → e.space = (MapReq.of req).space → (MapReq.of req).covers e.base = false) ∧ t.warps = s.warps) ∧
  (∀ s home req, home < 9 → s.mapCheck home 2 (MapReq.of req) ≠ 0 →
    ∃ t, exec (.unmap home req) s = .next t ∧ status t home = s.mapCheck home 2 (MapReq.of req) ∧ t.xl.pte = s.xl.pte ∧ t.mem = s.mem) ∧
  (∀ s home req leaf, home < 9 → s.mapCheck home 3 (MapReq.of req) = 0 → s.pagesBusy (MapReq.of req) = false → (MapReq.of req).size = 0 →
    (MapReq.of req).count = 1 → s.hasPath home (MapReq.of req).space (MapReq.of req).va →
    s.walk home (MapReq.of req).space (MapReq.of req).va = some (leaf, 16) →
    ∃ t, exec (.protect home req) s = .next t ∧ status t home = 0 ∧
      t.walk home (MapReq.of req).space (MapReq.of req).va = some ((MapReq.of req).leaf (pteAddr leaf), 16) ∧
      (∀ e ∈ t.xl.tlb, e.home = home → e.space = (MapReq.of req).space → (MapReq.of req).covers e.base = false) ∧ t.warps = s.warps) ∧
  (∀ s home req, home < 9 → s.mapCheck home 3 (MapReq.of req) ≠ 0 →
    ∃ t, exec (.protect home req) s = .next t ∧ status t home = s.mapCheck home 3 (MapReq.of req) ∧ t.xl.pte = s.xl.pte) ∧
  (∀ (s : State) home n, s.refreshing home = true → exec (.pageWalk home n) s = .next s) ∧
  (∀ (s : State) home n w page leaf bits, turn s home n w page → s.walk home w.space page = some (leaf, bits) → bits = 16 ∨ bits = 21 ∨ bits = 30 →
    ∃ t e, exec (.pageWalk home n) s = .next t ∧ t.xl.walks = s.xl.walks.eraseIdx n ∧ t.xl.tlb.head? = some e ∧ e.home = home ∧
      e.space = w.space ∧ e.base = page / 2 ^ bits * 2 ^ bits ∧ e.size = bits ∧ e.leaf = leaf ∧ t.xl.pfaults = s.xl.pfaults) ∧
  (∀ (s : State) home n w page, turn s home n w page → s.walk home w.space page = none →
    (∀ p ∈ s.xl.pfaults, ¬ (p.home = home ∧ p.space = w.space ∧ p.va = page)) →
    ((s.xl.pfaults.filter fun p => p.home == home).length < 4096 →
      ∃ t p, exec (.pageWalk home n) s = .next t ∧ t.xl.walks = s.xl.walks.eraseIdx n ∧ t.xl.pfaults = s.xl.pfaults ++ [p] ∧ p.home = home ∧
        p.space = w.space ∧ p.va = page ∧ p.warps = [] ∧ p.recs = [] ∧ p.posted = false ∧ t.xl.tlb = s.xl.tlb) ∧
    (4096 ≤ (s.xl.pfaults.filter fun p => p.home == home).length →
      ∃ t, exec (.pageWalk home n) s = .next t ∧ t.xl.walks = s.xl.walks ∧ t.xl.pfaults = s.xl.pfaults ∧ t.xl.tlb = s.xl.tlb))

/-- R383 to R385, R391, R392, R397 to R406: the services of the Bexa root, done or refused. -/
def Obligations.BexaServes : Prop :=
  let keptOut := fun (s : State) home f => frameKept home f = true ∨ frUsed (s.frame home f) = true ∨ (home, f) ∈ s.pkg.marked ∨
    (home, f) ∈ s.pkg.retiredFrames
  (∀ (s : State) c, c < s.ctxs.length → (s.ctx c).st = .free →
    ∃ t, exec (.ctxCreate c) s = .next t ∧ t.pkg.refused = false ∧ (t.ctx c).st = .active ∧ (t.ctx c).block = List.replicate 8 0 ∧
      (t.ctx c).ctxm = 0 ∧ (∀ g < 262144, t.homeEntry c g = 0) ∧ ∀ d, d ≠ c → t.ctx d = s.ctx d) ∧
  (∀ (s : State) c, (∀ x ∈ s.ctxs, x.st ≠ .free) → exec (.ctxCreate c) s = .next { s with pkg := { s.pkg with refused := true } }) ∧
  (∀ (s : State) c, (s.ctx c).st ≠ .active → exec (.ctxDestroy c) s = .next { s with pkg := { s.pkg with refused := true } }) ∧
  (∀ (s : State) c, c < s.ctxs.length → (s.ctx c).st = .active → (s.ctx c).active = [] → s.openGrids c = [] →
    (∀ q < 64, fld (s.queue q).ctl 0 8 ≠ c) →
    ∃ t, exec (.ctxDestroy c) s = .next t ∧ t.ctx c = {} ∧ (∀ o ∈ t.objs, o.ctx ≠ c) ∧ (∀ y ∈ t.cache.l1, y.space ≠ c) ∧
      (∀ y ∈ t.cache.dc, y.space ≠ c) ∧ (∀ e ∈ t.xl.tlb, e.space ≠ c) ∧ (∀ e ∈ t.xl.frames, ¬ (frUsed e.2 = true ∧ frOwner e.2 = c)) ∧
      t.warps = s.warps) ∧
  (∀ (s : State) c q, (s.ctx c).st = .active → (s.ctx c).active = [] → s.openGrids c = [] → q < 64 → fld (s.queue q).ctl 0 8 = c →
    (s.queue q).ctl.getLsbD 10 = true → (s.queue q).entries = [] → (∀ p < 64, p ≠ q → fld (s.queue p).ctl 0 8 ≠ c) →
    ∃ t, exec (.ctxDestroy c) s = .next t ∧ (t.ctx c).st = .dying ∧ t.pkg.refused = false) ∧
  (∀ (s : State) c, (s.ctx c).st = .dying → s.queueOn c = true → s.finishDying c = s) ∧
  (∀ (s : State) c, c < s.ctxs.length → (s.ctx c).st = .dying → s.queueOn c = false → (s.finishDying c).ctx c = {}) ∧
  (∀ (s : State) h f n sp w, h ≤ 8 → sp ≤ 256 → w ≤ 255 → (∀ x, f ≤ x → x < f + n → ¬ keptOut s h x) →
    ∃ t, exec (.frameAssign h f n sp w) s = .next t ∧ t.pkg.refused = false ∧ t.mem = s.mem ∧ ∀ x, f ≤ x → x < f + n →
      t.frame h x = BitVec.ofNat 32 (2 ^ 31 + sp * 2 ^ 16 + (if sp = 256 then w * 256 else 0))) ∧
  (∀ (s : State) h f n sp w x, f ≤ x → x < f + n → keptOut s h x →
    exec (.frameAssign h f n sp w) s = .next { s with pkg := { s.pkg with refused := true } }) ∧
  (∀ (s : State) h f n, (∀ x, f ≤ x → x < f + n → frUsed (s.frame h x) = true → frMapped (s.frame h x) = false) →
    ∃ t, exec (.frameReclaim h f n) s = .next t ∧ t.pkg.refused = false ∧
      ∀ x, f ≤ x → x < f + n → frUsed (s.frame h x) = true → t.frame h x = 0 ∧
        ∀ i < 65536, getByte t.mem (h * 2 ^ 48 + x * 65536 + i) = 0) ∧
  (∀ (s : State) h f n x, f ≤ x → x < f + n → frUsed (s.frame h x) = true → frMapped (s.frame h x) = true →
    exec (.frameReclaim h f n) s = .next { s with pkg := { s.pkg with refused := true } }) ∧
  (∀ s c g v, s.granuleMapped c g = false → v.getLsbD 56 = false → g < 262144 → (s.ctx c).st ≠ .free →
    ∃ t, exec (.homeSet c g v) s = .next t ∧ t.homeEntry c g = v &&& 0xFFFFFFC000000000 ∧ t.pkg.refused = false ∧ t.mem = s.mem ∧
      ∀ d k, k < 262144 → (d ≠ c ∨ k ≠ g) → t.homeEntry d k = s.homeEntry d k) ∧
  (∀ s c g v, s.granuleMapped c g = true → v &&& 0xFFFFFFC000000000 = s.homeEntry c g → v.getLsbD 56 = false → g < 262144 →
    (s.ctx c).st ≠ .free →
    ∃ t, exec (.homeSet c g v) s = .next t ∧ t.pkg.refused = false ∧ t.mem = s.mem ∧
      ∀ d k, k < 262144 → t.homeEntry d k = s.homeEntry d k) ∧
  (∀ s c g v, s.granuleMapped c g = true → v &&& 0xFFFFFFC000000000 ≠ s.homeEntry c g → exec (.homeSet c g v) s = .next { s with pkg := { s.pkg with refused := true } }) ∧
  (∀ (s : State) w l v, w ≤ 255 → l.Nodup → v.length = l.length → (∀ x ∈ s.xl.windows, x.win ≠ w ∧ ∀ g ∈ x.granules, g ∉ l) →
    ∃ t x, exec (.windowCreate w l v) s = .next t ∧ t.pkg.refused = false ∧ t.xl.windows = s.xl.windows ++ [x] ∧ x.win = w ∧
      x.granules = l ∧ x.members = [] ∧ ∀ p ∈ l.zip v, x.entry p.1 = (p.2 &&& 0xFFFFFFC000000000) ||| (1#64 <<< 56)) ∧
  (∀ (s : State) w l v x g, x ∈ s.xl.windows → g ∈ x.granules → g ∈ l →
    exec (.windowCreate w l v) s = .next { s with pkg := { s.pkg with refused := true } }) ∧
  (∀ (s : State) n c w, s.xl.windows.find? (fun w => w.win == n) = some w → (s.ctx c).st = .active →
    (∀ g ∈ w.granules, (s.homeEntry c g).getLsbD 63 = true → s.homeEntry c g = w.entry g) →
    ∃ t x, exec (.windowJoin n c) s = .next t ∧ t.pkg.refused = false ∧ (∀ g ∈ w.granules, t.homeEntry c g = w.entry g) ∧
      t.xl.windows.find? (fun w => w.win == n) = some x ∧ c ∈ x.members ∧ x.granules = w.granules) ∧
  (∀ (s : State) n c w, s.xl.windows = [w] → w.win = n → c ∈ w.members →
    ∃ t x, exec (.windowLeave n c) s = .next t ∧ t.pkg.refused = false ∧ (∀ g ∈ w.granules, t.homeEntry c g = 0) ∧
      t.xl.windows = [x] ∧ c ∉ x.members) ∧
  (∀ (s : State) c l, c < s.ctxs.length → l.length ≤ 64 →
    ∃ t, exec (.exportSet c l) s = .next t ∧ (t.ctx c).exports = l ∧ t.pkg.refused = false ∧ ∀ d, d ≠ c → t.ctx d = s.ctx d) ∧
  (∀ s c l, 64 < l.length → exec (.exportSet c l) s = .next { s with pkg := { s.pkg with refused := true } }) ∧
  (∀ (s : State) n d, 2 ≤ n → n ≤ 7 → s.pkg.mr.length = 8 →
    ∃ t, exec (.measureExtend (.mr n) d) s = .next t ∧ t.pkg.mr = s.pkg.mr.set n (measExtend (s.pkg.mr.getD n 0) d) ∧
      t.pkg.refused = false) ∧
  (∀ (s : State) n d, n < 2 → exec (.measureExtend (.mr n) d) s = .next { s with pkg := { s.pkg with refused := true } }) ∧
  (∀ (s : State) c d, c < s.ctxs.length →
    ∃ t, exec (.measureExtend (.ctxm c) d) s = .next t ∧ (t.ctx c).ctxm = measExtend (s.ctx c).ctxm d ∧ t.pkg.mr = s.pkg.mr) ∧
  (∀ (s : State) n c, s.pkg.mr.length = 8 →
    ∃ t r, exec (.attest n c) s = .next t ∧ t.pkg.report = some r ∧ r.chain = Config.certChain ∧ r.body.length = 688 ∧ (r.body.drop 8).take 64 = measBytes n ∧
      (r.body.drop 104).take 512 = s.pkg.mr.flatMap measBytes ∧
      r.body.drop 624 = measBytes ((c.map fun x => (s.ctx x).ctxm).getD 0) ∧ t.mem = s.mem) ∧
  (∀ (s : State) k, ∃ t, exec (.debugUnlock k) s = .next t ∧ t.pkg.refused = !Config.tokenVerified s.fresh k ∧
    t.pkg.debugArmed = (if Config.tokenVerified s.fresh k then some k else s.pkg.debugArmed) ∧ t.pkg.debugOn = s.pkg.debugOn)

/-- R388, R424 to R427, Tables 21-5 and 21-6: records are posted in order, to the fault queue that the context had when the fault was raised,
while there is room, and held when there is none, and the driver's actions on
a record release, redirect or retire its warp, or stop its command; a record that a MAP has released is posted but not outstanding (R454);
the hub writes the status to `FRS` where it can, 1 when no outstanding record has the number. RETIRE for a warp in the save area waits until it is
restored (R442). In a refresh of the queue's home the hub waits (R174, R196). Log 41: a held record holds every record behind it, and a released record
that is still to be posted is posted and not outstanding. Log 29: the hub writes at once, and nothing where the page is missing. -/
def Obligations.FaultQueueResolves : Prop :=
  let free := fun (s : State) c => s.homeBusy c (s.fqCtl c + 16) 8 = false
  let found := fun (s : State) c n f => (s.ctx c).posted.find? (fun r => r.seq % 2 ^ 32 == n % 2 ^ 32) = some f ∧ c < s.ctxs.length ∧ free s c
  let gone := fun (t : State) c f => f ∉ (t.ctx c).posted
  let numbered := fun (s : State) c (f : FRec) => if f.released then [] else [{ f with seq := (s.peek64 c f.ctl).toNat }]
  let told := fun (t : State) c n k => if t.hubWrites c (t.fqCtl c + 16) then
    t.pokeCtx c (t.fqCtl c + 16) (leBytes 8 (n % 2 ^ 32 * 2 ^ 32 + k)) else t
  (∀ (s : State) c f, c < s.ctxs.length → ∃ h, (s.postRec c f).ctx c = { s.ctx c with hubq := (s.ctx c).hubq ++ [{ f with held := h, fq := (s.ctx c).block.getD 4 0 }] } ∧
    (h = true ↔ f.held = true ∨ ∃ g ∈ (s.ctx c).hubq, g.held = true)) ∧
  (∀ (s : State) c f r, c < s.ctxs.length → (s.ctx c).hubq = f :: r → f.held = false →
    (∀ b < c, ∀ g q, (s.ctx b).hubq = g :: q → g.held = true) → s.fqBusy c f = false → s.fqRoom c f = true →
    ∃ t, exec .faultRecordPost s = .next t ∧ (t.ctx c).hubq = r ∧ (t.ctx c).irq = (s.ctx c).irq + 1 ∧
      (t.ctx c).posted = (s.ctx c).posted ++ numbered s c f ∧ t.warps = s.warps) ∧
  (∀ (s : State) c f r, c < s.ctxs.length → (s.ctx c).hubq = f :: r → f.held = false →
    (∀ b < c, ∀ g q, (s.ctx b).hubq = g :: q → g.held = true) → s.fqBusy c f = false → s.fqRoom c f = false →
    ∃ t, exec .faultRecordPost s = .next t ∧ (∀ g ∈ (t.ctx c).hubq, g.held = true) ∧ (t.ctx c).posted = (s.ctx c).posted ∧
      (t.ctx c).hubq.length = (s.ctx c).hubq.length ∧ t.mem = s.mem ∧ t.warps = s.warps) ∧
  (∀ (s : State) c f r, c < s.ctxs.length → (s.ctx c).hubq = f :: r → s.fqBusy c f = true →
    (∀ b < c, ∀ g q, (s.ctx b).hubq = g :: q → g.held = true) →
    (f.held = false → exec .faultRecordPost s = .next s) ∧ (f.held = true → exec (.faultQueueRecheck c) s = .next s)) ∧
  (∀ (s : State) c f r, c < s.ctxs.length → (s.ctx c).hubq = f :: r → f.held = true → s.fqBusy c f = false → s.fqRoom c f = true →
    ∃ t, exec (.faultQueueRecheck c) s = .next t ∧ (t.ctx c).hubq = r ∧
      (t.ctx c).posted = (s.ctx c).posted ++ numbered s c f) ∧
  (∀ s c n f w, found s c n f → f.src = 0 → f.atom = false → f.mmod = false → f.code ≠ 16 → s.entryOf f = none → f.job = none → f.coll = none →
    s.recWarps f = [w] → (s.warp w).park.fault = true → w < s.warps.length →
    ∃ t : State, exec (.retry c n) s = .next (told t c n 0) ∧ (t.warp w).park = { (s.warp w).park with fault := false } ∧ (t.warp w).next = (s.warp w).next ∧
      (t.warp w).regs = (s.warp w).regs ∧ gone t c f ∧ t.mem = s.mem) ∧
  (∀ s c n f, found s c n f → f.atom = true ∨ f.mmod = true ∨ f.code = 16 → exec (.retry c n) s = .next (told s c n 2)) ∧
  (∀ s c n f w b, found s c n f → f.src = 0 → s.entryOf f = none → s.recWarps f = [w] → (s.warp w).park.fault = true →
    w < s.warps.length → b < 2 ^ 24 → s.hasBlock w b = true →
    ∃ t : State, exec (.resumeAt c n b) s = .next (told t c n 0) ∧ (t.warp w).park = { (s.warp w).park with fault := false } ∧ (t.warp w).next = b ∧
      (t.warp w).regs = (s.warp w).regs ∧ gone t c f ∧ t.mem = s.mem) ∧
  (∀ s c n f w b, found s c n f → s.recWarps f = [w] → b < 2 ^ 24 → s.hasBlock w b = false → exec (.resumeAt c n b) s = .next (told s c n 2)) ∧
  (∀ s c n f w, found s c n f → f.src = 0 → s.entryOf f = none → s.recWarps f = [w] → w < s.warps.length →
    (s.gang (s.place w).gang).st.out = true → (s.team (s.warp w).team).kept = false →
    ∃ t : State, exec (.retire c n) s = .next (told t c n 0) ∧ (t.warp w).retiring = true ∧ (t.warp w).done = (s.warp w).done ∧
      (t.warp w).pslot = (s.warp w).pslot ∧ gone t c f ∧ (t.ctx c).freeSlots = (s.ctx c).freeSlots ∧ t.mem = s.mem) ∧
  (∀ s c n f w, found s c n f → f.src = 0 → s.entryOf f = none → s.recWarps f = [w] → w < s.warps.length →
    (s.gang (s.place w).gang).st.out = false ∨ (s.team (s.warp w).team).kept = true →
    ∃ t : State, exec (.retire c n) s = .next (told t c n 0) ∧ (t.warp w).done = true ∧ (t.warp w).retired = allLanes ∧ (t.warp w).live = 0 ∧ gone t c f ∧
      t.mem = s.mem ∧ ∀ v, v ≠ w → t.warp v = s.warp v) ∧
  (∀ s c n f w, found s c n f → f.src = 0 → f.code = 16 → f.atom = false → f.mmod = false → s.recWarps f = [w] →
    (s.warp w).park.fault = true → w < s.warps.length →
    ∃ t : State, exec (.retryUnchecked c n) s = .next (told t c n 0) ∧ (t.warp w).unchecked = true ∧ (t.warp w).park = { (s.warp w).park with fault := false } ∧
      (t.warp w).next = (s.warp w).next ∧ gone t c f) ∧
  (∀ s c n f, found s c n f → f.code ≠ 16 → exec (.retryUnchecked c n) s = .next (told s c n 2)) ∧
  (∀ s c n f k m j, found s c n f → f.src = 2 → s.entryOf f = none → f.job = some (k, m) → f.coll = none → s.job? k m = some j →
    ∃ (t : State) (q : CopyJob), exec (.stop c n) s = .next (told t c n 0) ∧ t.job? k m = some q ∧ q.finished = some 7 ∧ q.paused = none ∧ gone t c f) ∧
  (∀ s c n f, found s c n f → f.src ≠ 2 → exec (.stop c n) s = .next (told s c n 2)) ∧
  (∀ (s : State) c n, ¬ free s c → exec (.retry c n) s = .next s ∧ exec (.retire c n) s = .next s ∧ exec (.stop c n) s = .next s) ∧
  (∀ (s : State) c n, (s.ctx c).posted.find? (fun r => r.seq % 2 ^ 32 == n % 2 ^ 32) = none → free s c →
    exec (.retry c n) s = .next (told s c n 1) ∧ exec (.resumeAt c n 0) s = .next (told s c n 1) ∧ exec (.retire c n) s = .next (told s c n 1) ∧
    exec (.retryUnchecked c n) s = .next (told s c n 1) ∧ exec (.stop c n) s = .next (told s c n 1))

/-- R183, R291, R392, R422, R444 to R451: errors are counted, poison words, fence cores and dies and mark frames; links fall back; requests of other
packages are performed or refused, and those to other packages time out. Health events go to the log and to context 0; the record's `DIE` holds the
sockets 0 to 7 only (log 42). The remote store to an untranslated page that makes one pending fault, with a record of source 1, is logs 33 and 7; hazard
3 raised late, and 3 before 5, is log 32. -/
def Obligations.ErrorsAreContained : Prop :=
  let errs := fun (s : State) h f => (s.pkg.frameErrs.filter fun e => e.1 == h && e.2.1 == f && decide (s.stake < e.2.2 + errWindow)).length
  let listed := fun (s : State) c p r va => (p, r) ∈ (s.ctx c).exports ∧ va % 4 = 0
  (∀ s p, ∃ t, exec (.correctedError p) s = .next t ∧ t.warps = s.warps ∧ t.teams = s.teams ∧
    ((∀ h a, p ≠ .dram h a) → t.mem = s.mem ∧ t.memPoison = s.memPoison ∧ t.pkg.marked = s.pkg.marked ∧ t.pkg.mgmtLog = s.pkg.mgmtLog)) ∧
  (∀ s d a e, s.dies.length = 8 → d < 8 → e ∈ (s.die d).ctrs →
    (∃ t, exec (.correctedError (.dieArray d a)) s = .next t ∧ e.add 37 256 1 ∈ (t.die d).ctrs) ∧
    (∃ t, exec (.linkCrcError (.interposer d) false) s = .next t ∧ e.add 38 256 1 ∈ (t.die d).ctrs)) ∧
  (∀ s a e, e ∈ s.pkg.ctrs.getD 0 [] → ∃ t, exec (.correctedError (.hubCache 0 0 a)) s = .next t ∧ e.add 37 256 1 ∈ t.pkg.ctrs.getD 0 []) ∧
  (∀ s p e, p < 18 → e ∈ s.pkg.ctrs.getD (1 + p / 9) [] →
    ∃ t, exec (.linkCrcError (.zorlis p) false) s = .next t ∧ e.add 38 256 1 ∈ t.pkg.ctrs.getD (1 + p / 9) []) ∧
  (∀ s h a, errs s h (a / 65536) < 15 →
    ∃ t, exec (.correctedError (.dram h a)) s = .next t ∧ t.pkg.frameErrs = s.pkg.frameErrs ++ [(h, a / 65536, s.stake)] ∧
      t.pkg.marked = s.pkg.marked ∧ t.mem = s.mem) ∧
  (∀ s w r l, w < s.warps.length → ∃ t, exec (.uncorrectableError (.vreg w r l)) s = .next t ∧ .v r l ∈ (t.warp w).poison ∧
    (t.warp w).regs = (s.warp w).regs) ∧
  (∀ s w r, w < s.warps.length → ∃ t, exec (.uncorrectableError (.sreg w r)) s = .next t ∧ .s r ∈ (t.warp w).poison) ∧
  (∀ s w r, w < s.warps.length → ∃ t, exec (.uncorrectableError (.kreg w r)) s = .next t ∧ .k r ∈ (t.warp w).poison) ∧
  (∀ s w a r, w < s.warps.length → ∃ t, exec (.uncorrectableError (.latch w a r)) s = .next t ∧ .l a r ∈ (t.warp w).poison) ∧
  (∀ s d o, d < s.dies.length → d < 8 → ∃ t, exec (.uncorrectableError (.dieArray d o)) s = .next t ∧ o / 8 * 8 ∈ (t.die d).arrPoison ∧
    o / 8 * 8 + 4 ∈ (t.die d).arrPoison) ∧
  (∀ s k o, k < s.teams.length → ∃ t, exec (.uncorrectableError (.spad k o)) s = .next t ∧ o / 4 * 4 ∈ (t.team k).spPoison ∧
    (t.team k).spad = (s.team k).spad) ∧
  (∀ s h a, frUsed (s.frame h (a / 65536)) = true →
    ∃ t, exec (.uncorrectableError (.dram h a)) s = .next t ∧ (∀ i < 8, h * 2 ^ 48 + a / 32 * 32 + 4 * i ∈ t.memPoison) ∧ t.mem = s.mem) ∧
  (∀ s : State, s.pkg.up ≠ .off → ∃ t, exec (.uncorrectableError (.tagOrDirectory 8)) s = .next t ∧ t.pkg.up = .failed ∧
    (s.pkg.up ≠ .failed → (5, 8, 0) ∈ t.pkg.mgmtLog)) ∧
  (∀ s : State, s.pkg.up = .off → ∃ t, exec (.uncorrectableError (.tagOrDirectory 8)) s = .next t ∧ t.pkg.up = .off ∧ t.pkg.mgmtLog = s.pkg.mgmtLog) ∧
  (∀ (s : State) d, d = 9 ∨ d = 10 → d ∉ s.pkg.fencedIo → ∃ t, exec (.uncorrectableError (.tagOrDirectory d)) s = .next t ∧
    t.pkg.fencedIo = s.pkg.fencedIo ++ [d] ∧ (5, d, 0) ∈ t.pkg.mgmtLog ∧ (s.pkg.up = .ready → t.pkg.up = .degraded) ∧
    (s.pkg.up ≠ .ready → t.pkg.up = s.pkg.up) ∧ t.grids = s.grids) ∧
  (∀ s d, s.dies.length = 8 → d < 8 → (s.die d).fenced = false →
    ∃ t, exec (.uncorrectableError (.tagOrDirectory d)) s = .next t ∧ (t.die d).fenced = true ∧ (t.die d).stopped = true) ∧
  (∀ s p, ∃ t, exec (.linkCrcError (.zorlis p) false) s = .next t ∧ assoc t.pkg.linkErrs p 0 = assoc s.pkg.linkErrs p 0 + 1 ∧
    t.pkg.halfLinks = s.pkg.halfLinks ∧ t.mem = s.mem) ∧
  (∀ s p, ∃ t, exec (.linkCrcError (.zorlis p) true) s = .next t ∧ p ∈ t.pkg.halfLinks) ∧
  (∀ s d, s.dies.length = 8 → d < 8 → (s.die d).fenced = false →
    ∃ t, exec (.linkCrcError (.interposer d) true) s = .next t ∧ (t.die d).fenced = true ∧ (t.die d).stopped = true) ∧
  (∀ s d, ∃ t, exec (.linkCrcError (.interposer d) false) s = .next t ∧ t.warps = s.warps ∧ t.mem = s.mem) ∧
  (∀ s d c, (s.core d c).worn s.stake = true → (s.core d c).fenced = false →
    ∃ t, exec (.coreFenced d c) s = .next t ∧ (t.core d c).fenced = true ∧ (1, d, c) ∈ t.pkg.mgmtLog) ∧
  (∀ s h f, 16 ≤ errs s h f → frUsed (s.frame h f) = true → (h, f) ∉ s.pkg.retiredFrames →
    ∃ t, exec (.frameMarked h f) s = .next t ∧ (h, f) ∈ t.pkg.marked ∧ t.mem = s.mem) ∧
  (∀ s h f, errs s h f < 16 → exec (.frameMarked h f) s = .next s) ∧
  (∀ s p, p < 18 → p ∉ s.pkg.halfLinks →
    ∃ t, exec (.linkHalfWidth p) s = .next t ∧ t.pkg.halfLinks = s.pkg.halfLinks ++ [p] ∧ (4, 9 + p / 9, p) ∈ t.pkg.mgmtLog) ∧
  (∀ s d, s.dies.length = 8 → d < 8 → 24 ≤ (s.cores.filter fun c => c.die == d && c.fenced).length → (s.die d).fenced = false →
    ∃ t, exec (.dieFenced d) s = .next t ∧ (t.die d).fenced = true ∧ (t.die d).stopped = true) ∧
  (∀ s, exec .pcieLinkDown s = .next { s with pkg := { s.pkg with pcieUp := false } }) ∧
  (∀ (s : State) n r b, s.shapeOk → s.remote[n]? = some r → r.at_ + 1000000 ≤ s.stake → r.isLoad = true → s.blk? r.w = some b →
    ∃ t, exec (.remoteRequestTimeout n) s = .next t ∧ s.ParkedOn t r.w 15 0 r.idx) ∧
  (∀ (s : State) n r, s.remote[n]? = some r → r.at_ + 1000000 ≤ s.stake → r.isLoad = false → r.ctx < s.ctxs.length →
    ∃ t f, exec (.remoteRequestTimeout n) s = .next t ∧ t.remote = s.remote.eraseIdx n ∧ t.warps = s.warps ∧ t.mem = s.mem ∧
      (t.ctx r.ctx).hubq.getLast? = some f ∧ f.code = 15 ∧ f.src = 1 ∧ f.addr = BitVec.ofNat 64 r.va ∧ f.index = r.idx ∧ f.block = r.block) ∧
  (∀ (s : State) n r, s.remote[n]? = some r → s.stake < r.at_ + 1000000 → exec (.remoteRequestTimeout n) s = .next s) ∧
  (∀ s p r c va v ph sp leaf, listed s c p r va → s.transNow c true .wr va = .ok ph sp leaf → s.lineBusy sp (va / 128) = false →
    s.homeBusy c va 4 = false → exec (.remoteRequestReceived p r c va (.store v)) s = .next (s.pokeBytes sp (placeBytes va (leBytes 4 v.toNat)))) ∧
  (∀ s p r c va op x y ret ph sp leaf, listed s c p r va → s.transNow c true (if ret = true then .rw else .wr) va = .ok ph sp leaf →
    s.lineBusy sp (va / 128) = false → s.homeBusy c va 4 = false →
    exec (.remoteRequestReceived p r c va (.atomic op x y ret)) s = .next (s.pokeWord sp (va / 128) (va / 4 % 32)
      (atomVal op (s.peekWord sp (va / 128) (va / 4 % 32)).v x y) false)) ∧
  (∀ s p r c va op ph sp leaf, listed s c p r va → s.transNow c true .rw va = .ok ph sp leaf → s.homeBusy c va 4 = true →
    exec (.remoteRequestReceived p r c va (.atomic op 0 0 true)) s = .next s) ∧
  (∀ s p r c va op, (p, r) ∉ (s.ctx c).exports → exec (.remoteRequestReceived p r c va op) s = .next s) ∧
  (∀ s p r c va v, listed s c p r va → s.transNow c true .wr va = .prot → exec (.remoteRequestReceived p r c va (.store v)) s = .next s) ∧
  (∀ s p r c va v h sp, c < s.ctxs.length → listed s c p r va → s.transNow c true .wr va = .page h sp →
    (∀ q ∈ s.xl.pfaults, ¬ (q.home = h ∧ q.space = sp ∧ q.va = va / 65536 * 65536)) → s.pfaultsFull h = false →
    ∃ t q f, exec (.remoteRequestReceived p r c va (.store v)) s = .next t ∧ t.mem = s.mem ∧ t.xl.pfaults = s.xl.pfaults ++ [q] ∧
      q.home = h ∧ q.space = sp ∧ q.va = va / 65536 * 65536 ∧ q.warps = [] ∧ q.posted = true ∧ (t.ctx c).hubq.getLast? = some f ∧ f.code = 3 ∧ f.src = 1 ∧
      f.addr = BitVec.ofNat 64 va) ∧
  (∀ s w b i x, s.shapeOk → s.blk? w = some b → s.umpireOn w = true → s.tsendHazard (s.spadWrites w i b) = some x →
    ∃ t, exec (.umpireHazard w i 3 x) s = .next t ∧ s.ParkedOn t w 16 3 i) ∧
  (∀ (s : State) w b own reads writes o, s.umpireOn w = true → s.rangeHazard w b own = none →
    (s.tsendHazard writes = some o → s.spadHazard w b own reads writes = some (3, o)) ∧
    (s.tsendHazard writes = none → s.copyHazard w reads = some o → s.spadHazard w b own reads writes = some (5, o))) ∧
  (∀ s b x h m ty quad k o, s.shapeOk →
    let i : Instr := if quad then .spldq h m ty else .spld h m ty
    let lanes := s.spLanes s.cur quad m (b.live0 &&& x.sc) x.va
    s.Fires i b x → b.mseqTurn m.mseq.toNat = true →
    s.spadHazard s.cur b (lanes.filterMap fun p => p.2.bind fun q => if q.1 = (s.warp s.cur).team then some (q.2, 4) else none)
      (lanes.filterMap fun p => p.2.map fun q => (q.1, q.2, 4)) [] = some (k, o) →
    ∃ t, exec i s = .next t ∧ s.ParkedOn t s.cur 16 k s.curIdx)

/-- R411 to R418: werad takes an object whose steps all hold and stops at the first that fails, an object is freed when nothing holds it, and a
swap replaces the block table when the same blocks are present, each with an image that may stand for its own. Row 1 for a block whose HVER is not the
object's is log 53; how the length of a stroke segment is computed, and what werad holds against a `tsend` that it cannot reach, is log 34. -/
def Obligations.CodeObjectsLoad : Prop :=
  let step := fun (s : State) c h va l n k => ∃ t, exec (.codeObjectLoad c h va l n) s = .next t ∧ t.pkg.loadStep = k ∧ t.objs = s.objs ∧
    t.mem = s.mem
  let table := fun (s : State) (o : CodeObj) c a => (List.range o.btab.length).map fun i => s.peek64 c (a + 8 * i)
  (∀ s c h va l n, (s.ctx c).st = .active → ObjFile.read l = none → step s c h va l n 1) ∧
  (∀ s c h va l n o, (s.ctx c).st = .active → ObjFile.read l = some o → o.featuresOk = false → step s c h va l n 2) ∧
  (∀ s c h va l n o, (s.ctx c).st = .active → ObjFile.read l = some o → o.featuresOk = true → o.badBlocks ≠ [] →
    ∃ t, exec (.codeObjectLoad c h va l n) s = .next t ∧ t.pkg.loadStep = 3 ∧ t.pkg.loadBad = o.badBlocks ∧ t.objs = s.objs ∧ t.mem = s.mem) ∧
  (∀ s c h va l n o, (s.ctx c).st = .active → ObjFile.read l = some o → o.featuresOk = true → o.badBlocks = [] →
    va % 64 = 0 → s.homeOf c va = .loc h c → s.nativePages c va o.native.length = true → (∀ k ∈ o.kernels, o.timedOk k = true) →
    o.strayOk = true → s.obj? c n = none → n < 2 ^ 32 →
    ∃ t x, exec (.codeObjectLoad c h va l n) s = .next t ∧ t.pkg.loadStep = 0 ∧ t.objs = s.objs ++ [x] ∧ x.ctx = c ∧ x.oid = n ∧ x.code = va ∧
      x.btab = o.btab ∧ x.kernels = o.kernels ∧ x.preloads = o.preloads ∧ x.chmap = o.chmap ∧ t.mem = (s.pokeCtx c va o.native).mem) ∧
  (∀ s c h va l n o, (s.ctx c).st = .active → ObjFile.read l = some o → o.featuresOk = true → o.badBlocks = [] →
    va % 64 ≠ 0 ∨ s.homeOf c va ≠ .loc h c ∨ s.nativePages c va o.native.length = false → step s c h va l n 5) ∧
  (∀ s c h va l n o, (s.ctx c).st = .active → ObjFile.read l = some o → o.featuresOk = true → o.badBlocks = [] →
    va % 64 = 0 → s.homeOf c va = .loc h c → s.nativePages c va o.native.length = true →
    ((∃ k ∈ o.kernels, o.timedOk k = false) ∨ o.strayOk = false → step s c h va l n 6) ∧
    ((∀ k ∈ o.kernels, o.timedOk k = true) → o.strayOk = true → s.obj? c n ≠ none → step s c h va l n 7)) ∧
  (∀ (o : ObjFile) k, k.timed = true → o.timedOk k = true →
    (∀ b ∈ o.kernelBlocks k, (o.image b).cls = 1 ∨ (o.image b).cls = 2) ∧ o.segmentsOk k = true) ∧
  (∀ (o : ObjFile) k c n, k.timed = true → o.timedOk k = true → c ∈ k.strokes → o.segment o.btab.length k.entry 0 = some n →
    n + ({ (default : LaunchRec) with stroke := c } : LaunchRec).strokeG ≤ ({ (default : LaunchRec) with stroke := c } : LaunchRec).strokeS) ∧
  (∀ (o : ObjFile) b, (o.btab.getD b 0).getLsbD 63 = true → fld (o.image b).h0 56 4 ≠ o.hver → o.blockRow b = some 1) ∧
  (∀ s c n, s.held c n = false → ∃ t, exec (.codeObjectUnload c n) s = .next t ∧ t.obj? c n = none ∧ t.mem = s.mem ∧
    ∀ o ∈ s.objs, o.unloading = false → ¬ (o.ctx = c ∧ o.oid = n) → o ∈ t.objs) ∧
  (∀ s c n o, s.held c n = true → s.obj? c n = some o →
    ∃ t q, exec (.codeObjectUnload c n) s = .next t ∧ t.obj? c n = some q ∧ q.unloading = true ∧ q.btab = o.btab ∧ q.code = o.code) ∧
  (∀ s c n o a b, s.obj? c n = some o →
    (∀ i < o.btab.length, present (table s o c a) i = present o.btab i ∧
      (present o.btab i = true → s.mayStandFor o b (table s o c a) i = true)) →
    (∀ g ∈ s.grids, g.ctx = c → g.done = false → g.launch.object = n → g.launch.timed = false) →
    ∃ t q, exec (.blockTableSwap c n a b) s = .next t ∧ t.obj? c n = some q ∧ q.code = b ∧
      q.btab = table s o c a ∧ q.kernels = o.kernels ∧ t.mem = s.mem) ∧
  (∀ s c n o a b i, s.obj? c n = some o → i < o.btab.length →
    present (table s o c a) i ≠ present o.btab i ∨ (present o.btab i = true ∧ s.mayStandFor o b (table s o c a) i = false) →
    exec (.blockTableSwap c n a b) s = .next s) ∧
  (∀ s c n o a b g, s.obj? c n = some o → g ∈ s.grids → g.ctx = c → g.done = false → g.launch.object = n → g.launch.timed = true →
    exec (.blockTableSwap c n a b) s = .next s) ∧
  (∀ s c n a b, s.obj? c n = none → exec (.blockTableSwap c n a b) s = .next s)
end

