-- ==== Sys2Proof/Laws/State.lean ====
section
/-! SUPPORT. What each update of the state leaves in each field: one lemma per field and update, so that no proof unfolds one. -/

namespace Sys2Proof.Machine

@[simp] theorem State.modWarp_pkg (s : State) (n : Nat) (f : Warp → Warp) : (s.modWarp n f).pkg = s.pkg := rfl
@[simp] theorem State.modWarp_stake (s : State) (n : Nat) (f : Warp → Warp) : (s.modWarp n f).stake = s.stake := rfl
@[simp] theorem State.modWarp_dies (s : State) (n : Nat) (f : Warp → Warp) : (s.modWarp n f).dies = s.dies := rfl
@[simp] theorem State.modWarp_cores (s : State) (n : Nat) (f : Warp → Warp) : (s.modWarp n f).cores = s.cores := rfl
@[simp] theorem State.modWarp_warps (s : State) (n : Nat) (f : Warp → Warp) : (s.modWarp n f).warps = s.warps.modify n f := rfl
@[simp] theorem State.modWarp_teams (s : State) (n : Nat) (f : Warp → Warp) : (s.modWarp n f).teams = s.teams := rfl
@[simp] theorem State.modWarp_gangs (s : State) (n : Nat) (f : Warp → Warp) : (s.modWarp n f).gangs = s.gangs := rfl
@[simp] theorem State.modWarp_regions (s : State) (n : Nat) (f : Warp → Warp) : (s.modWarp n f).regions = s.regions := rfl
@[simp] theorem State.modWarp_grids (s : State) (n : Nat) (f : Warp → Warp) : (s.modWarp n f).grids = s.grids := rfl
@[simp] theorem State.modWarp_queues (s : State) (n : Nat) (f : Warp → Warp) : (s.modWarp n f).queues = s.queues := rfl
@[simp] theorem State.modWarp_served (s : State) (n : Nat) (f : Warp → Warp) : (s.modWarp n f).served = s.served := rfl
@[simp] theorem State.modWarp_ctxs (s : State) (n : Nat) (f : Warp → Warp) : (s.modWarp n f).ctxs = s.ctxs := rfl
@[simp] theorem State.modWarp_objs (s : State) (n : Nat) (f : Warp → Warp) : (s.modWarp n f).objs = s.objs := rfl
@[simp] theorem State.modWarp_mem (s : State) (n : Nat) (f : Warp → Warp) : (s.modWarp n f).mem = s.mem := rfl
@[simp] theorem State.modWarp_memPoison (s : State) (n : Nat) (f : Warp → Warp) : (s.modWarp n f).memPoison = s.memPoison := rfl
@[simp] theorem State.modWarp_xl (s : State) (n : Nat) (f : Warp → Warp) : (s.modWarp n f).xl = s.xl := rfl
@[simp] theorem State.modWarp_cache (s : State) (n : Nat) (f : Warp → Warp) : (s.modWarp n f).cache = s.cache := rfl
@[simp] theorem State.modWarp_tsends (s : State) (n : Nat) (f : Warp → Warp) : (s.modWarp n f).tsends = s.tsends := rfl
@[simp] theorem State.modWarp_landings (s : State) (n : Nat) (f : Warp → Warp) : (s.modWarp n f).landings = s.landings := rfl
@[simp] theorem State.modWarp_ticks (s : State) (n : Nat) (f : Warp → Warp) : (s.modWarp n f).ticks = s.ticks := rfl
@[simp] theorem State.modWarp_remote (s : State) (n : Nat) (f : Warp → Warp) : (s.modWarp n f).remote = s.remote := rfl
@[simp] theorem State.modWarp_agenda (s : State) (n : Nat) (f : Warp → Warp) : (s.modWarp n f).agenda = s.agenda := rfl
@[simp] theorem State.modWarp_cur (s : State) (n : Nat) (f : Warp → Warp) : (s.modWarp n f).cur = s.cur := rfl
@[simp] theorem State.modWarp_curIdx (s : State) (n : Nat) (f : Warp → Warp) : (s.modWarp n f).curIdx = s.curIdx := rfl
@[simp] theorem State.modWarp_fresh (s : State) (n : Nat) (f : Warp → Warp) : (s.modWarp n f).fresh = s.fresh := rfl

@[simp] theorem State.modTeam_pkg (s : State) (n : Nat) (f : Team → Team) : (s.modTeam n f).pkg = s.pkg := rfl
@[simp] theorem State.modTeam_stake (s : State) (n : Nat) (f : Team → Team) : (s.modTeam n f).stake = s.stake := rfl
@[simp] theorem State.modTeam_dies (s : State) (n : Nat) (f : Team → Team) : (s.modTeam n f).dies = s.dies := rfl
@[simp] theorem State.modTeam_cores (s : State) (n : Nat) (f : Team → Team) : (s.modTeam n f).cores = s.cores := rfl
@[simp] theorem State.modTeam_warps (s : State) (n : Nat) (f : Team → Team) : (s.modTeam n f).warps = s.warps := rfl
@[simp] theorem State.modTeam_teams (s : State) (n : Nat) (f : Team → Team) : (s.modTeam n f).teams = s.teams.modify n f := rfl
@[simp] theorem State.modTeam_gangs (s : State) (n : Nat) (f : Team → Team) : (s.modTeam n f).gangs = s.gangs := rfl
@[simp] theorem State.modTeam_regions (s : State) (n : Nat) (f : Team → Team) : (s.modTeam n f).regions = s.regions := rfl
@[simp] theorem State.modTeam_grids (s : State) (n : Nat) (f : Team → Team) : (s.modTeam n f).grids = s.grids := rfl
@[simp] theorem State.modTeam_queues (s : State) (n : Nat) (f : Team → Team) : (s.modTeam n f).queues = s.queues := rfl
@[simp] theorem State.modTeam_served (s : State) (n : Nat) (f : Team → Team) : (s.modTeam n f).served = s.served := rfl
@[simp] theorem State.modTeam_ctxs (s : State) (n : Nat) (f : Team → Team) : (s.modTeam n f).ctxs = s.ctxs := rfl
@[simp] theorem State.modTeam_objs (s : State) (n : Nat) (f : Team → Team) : (s.modTeam n f).objs = s.objs := rfl
@[simp] theorem State.modTeam_mem (s : State) (n : Nat) (f : Team → Team) : (s.modTeam n f).mem = s.mem := rfl
@[simp] theorem State.modTeam_memPoison (s : State) (n : Nat) (f : Team → Team) : (s.modTeam n f).memPoison = s.memPoison := rfl
@[simp] theorem State.modTeam_xl (s : State) (n : Nat) (f : Team → Team) : (s.modTeam n f).xl = s.xl := rfl
@[simp] theorem State.modTeam_cache (s : State) (n : Nat) (f : Team → Team) : (s.modTeam n f).cache = s.cache := rfl
@[simp] theorem State.modTeam_tsends (s : State) (n : Nat) (f : Team → Team) : (s.modTeam n f).tsends = s.tsends := rfl
@[simp] theorem State.modTeam_landings (s : State) (n : Nat) (f : Team → Team) : (s.modTeam n f).landings = s.landings := rfl
@[simp] theorem State.modTeam_ticks (s : State) (n : Nat) (f : Team → Team) : (s.modTeam n f).ticks = s.ticks := rfl
@[simp] theorem State.modTeam_remote (s : State) (n : Nat) (f : Team → Team) : (s.modTeam n f).remote = s.remote := rfl
@[simp] theorem State.modTeam_agenda (s : State) (n : Nat) (f : Team → Team) : (s.modTeam n f).agenda = s.agenda := rfl
@[simp] theorem State.modTeam_cur (s : State) (n : Nat) (f : Team → Team) : (s.modTeam n f).cur = s.cur := rfl
@[simp] theorem State.modTeam_curIdx (s : State) (n : Nat) (f : Team → Team) : (s.modTeam n f).curIdx = s.curIdx := rfl
@[simp] theorem State.modTeam_fresh (s : State) (n : Nat) (f : Team → Team) : (s.modTeam n f).fresh = s.fresh := rfl

@[simp] theorem State.modGang_pkg (s : State) (n : Nat) (f : Gang → Gang) : (s.modGang n f).pkg = s.pkg := rfl
@[simp] theorem State.modGang_stake (s : State) (n : Nat) (f : Gang → Gang) : (s.modGang n f).stake = s.stake := rfl
@[simp] theorem State.modGang_dies (s : State) (n : Nat) (f : Gang → Gang) : (s.modGang n f).dies = s.dies := rfl
@[simp] theorem State.modGang_cores (s : State) (n : Nat) (f : Gang → Gang) : (s.modGang n f).cores = s.cores := rfl
@[simp] theorem State.modGang_warps (s : State) (n : Nat) (f : Gang → Gang) : (s.modGang n f).warps = s.warps := rfl
@[simp] theorem State.modGang_teams (s : State) (n : Nat) (f : Gang → Gang) : (s.modGang n f).teams = s.teams := rfl
@[simp] theorem State.modGang_gangs (s : State) (n : Nat) (f : Gang → Gang) : (s.modGang n f).gangs = s.gangs.modify n f := rfl
@[simp] theorem State.modGang_regions (s : State) (n : Nat) (f : Gang → Gang) : (s.modGang n f).regions = s.regions := rfl
@[simp] theorem State.modGang_grids (s : State) (n : Nat) (f : Gang → Gang) : (s.modGang n f).grids = s.grids := rfl
@[simp] theorem State.modGang_queues (s : State) (n : Nat) (f : Gang → Gang) : (s.modGang n f).queues = s.queues := rfl
@[simp] theorem State.modGang_served (s : State) (n : Nat) (f : Gang → Gang) : (s.modGang n f).served = s.served := rfl
@[simp] theorem State.modGang_ctxs (s : State) (n : Nat) (f : Gang → Gang) : (s.modGang n f).ctxs = s.ctxs := rfl
@[simp] theorem State.modGang_objs (s : State) (n : Nat) (f : Gang → Gang) : (s.modGang n f).objs = s.objs := rfl
@[simp] theorem State.modGang_mem (s : State) (n : Nat) (f : Gang → Gang) : (s.modGang n f).mem = s.mem := rfl
@[simp] theorem State.modGang_memPoison (s : State) (n : Nat) (f : Gang → Gang) : (s.modGang n f).memPoison = s.memPoison := rfl
@[simp] theorem State.modGang_xl (s : State) (n : Nat) (f : Gang → Gang) : (s.modGang n f).xl = s.xl := rfl
@[simp] theorem State.modGang_cache (s : State) (n : Nat) (f : Gang → Gang) : (s.modGang n f).cache = s.cache := rfl
@[simp] theorem State.modGang_tsends (s : State) (n : Nat) (f : Gang → Gang) : (s.modGang n f).tsends = s.tsends := rfl
@[simp] theorem State.modGang_landings (s : State) (n : Nat) (f : Gang → Gang) : (s.modGang n f).landings = s.landings := rfl
@[simp] theorem State.modGang_ticks (s : State) (n : Nat) (f : Gang → Gang) : (s.modGang n f).ticks = s.ticks := rfl
@[simp] theorem State.modGang_remote (s : State) (n : Nat) (f : Gang → Gang) : (s.modGang n f).remote = s.remote := rfl
@[simp] theorem State.modGang_agenda (s : State) (n : Nat) (f : Gang → Gang) : (s.modGang n f).agenda = s.agenda := rfl
@[simp] theorem State.modGang_cur (s : State) (n : Nat) (f : Gang → Gang) : (s.modGang n f).cur = s.cur := rfl
@[simp] theorem State.modGang_curIdx (s : State) (n : Nat) (f : Gang → Gang) : (s.modGang n f).curIdx = s.curIdx := rfl
@[simp] theorem State.modGang_fresh (s : State) (n : Nat) (f : Gang → Gang) : (s.modGang n f).fresh = s.fresh := rfl

@[simp] theorem State.modRegion_pkg (s : State) (n : Nat) (f : Region → Region) : (s.modRegion n f).pkg = s.pkg := rfl
@[simp] theorem State.modRegion_stake (s : State) (n : Nat) (f : Region → Region) : (s.modRegion n f).stake = s.stake := rfl
@[simp] theorem State.modRegion_dies (s : State) (n : Nat) (f : Region → Region) : (s.modRegion n f).dies = s.dies := rfl
@[simp] theorem State.modRegion_cores (s : State) (n : Nat) (f : Region → Region) : (s.modRegion n f).cores = s.cores := rfl
@[simp] theorem State.modRegion_warps (s : State) (n : Nat) (f : Region → Region) : (s.modRegion n f).warps = s.warps := rfl
@[simp] theorem State.modRegion_teams (s : State) (n : Nat) (f : Region → Region) : (s.modRegion n f).teams = s.teams := rfl
@[simp] theorem State.modRegion_gangs (s : State) (n : Nat) (f : Region → Region) : (s.modRegion n f).gangs = s.gangs := rfl
@[simp] theorem State.modRegion_regions (s : State) (n : Nat) (f : Region → Region) : (s.modRegion n f).regions = s.regions.modify n f := rfl
@[simp] theorem State.modRegion_grids (s : State) (n : Nat) (f : Region → Region) : (s.modRegion n f).grids = s.grids := rfl
@[simp] theorem State.modRegion_queues (s : State) (n : Nat) (f : Region → Region) : (s.modRegion n f).queues = s.queues := rfl
@[simp] theorem State.modRegion_served (s : State) (n : Nat) (f : Region → Region) : (s.modRegion n f).served = s.served := rfl
@[simp] theorem State.modRegion_ctxs (s : State) (n : Nat) (f : Region → Region) : (s.modRegion n f).ctxs = s.ctxs := rfl
@[simp] theorem State.modRegion_objs (s : State) (n : Nat) (f : Region → Region) : (s.modRegion n f).objs = s.objs := rfl
@[simp] theorem State.modRegion_mem (s : State) (n : Nat) (f : Region → Region) : (s.modRegion n f).mem = s.mem := rfl
@[simp] theorem State.modRegion_memPoison (s : State) (n : Nat) (f : Region → Region) : (s.modRegion n f).memPoison = s.memPoison := rfl
@[simp] theorem State.modRegion_xl (s : State) (n : Nat) (f : Region → Region) : (s.modRegion n f).xl = s.xl := rfl
@[simp] theorem State.modRegion_cache (s : State) (n : Nat) (f : Region → Region) : (s.modRegion n f).cache = s.cache := rfl
@[simp] theorem State.modRegion_tsends (s : State) (n : Nat) (f : Region → Region) : (s.modRegion n f).tsends = s.tsends := rfl
@[simp] theorem State.modRegion_landings (s : State) (n : Nat) (f : Region → Region) : (s.modRegion n f).landings = s.landings := rfl
@[simp] theorem State.modRegion_ticks (s : State) (n : Nat) (f : Region → Region) : (s.modRegion n f).ticks = s.ticks := rfl
@[simp] theorem State.modRegion_remote (s : State) (n : Nat) (f : Region → Region) : (s.modRegion n f).remote = s.remote := rfl
@[simp] theorem State.modRegion_agenda (s : State) (n : Nat) (f : Region → Region) : (s.modRegion n f).agenda = s.agenda := rfl
@[simp] theorem State.modRegion_cur (s : State) (n : Nat) (f : Region → Region) : (s.modRegion n f).cur = s.cur := rfl
@[simp] theorem State.modRegion_curIdx (s : State) (n : Nat) (f : Region → Region) : (s.modRegion n f).curIdx = s.curIdx := rfl
@[simp] theorem State.modRegion_fresh (s : State) (n : Nat) (f : Region → Region) : (s.modRegion n f).fresh = s.fresh := rfl

@[simp] theorem State.modGrid_pkg (s : State) (n : Nat) (f : Grid → Grid) : (s.modGrid n f).pkg = s.pkg := rfl
@[simp] theorem State.modGrid_stake (s : State) (n : Nat) (f : Grid → Grid) : (s.modGrid n f).stake = s.stake := rfl
@[simp] theorem State.modGrid_dies (s : State) (n : Nat) (f : Grid → Grid) : (s.modGrid n f).dies = s.dies := rfl
@[simp] theorem State.modGrid_cores (s : State) (n : Nat) (f : Grid → Grid) : (s.modGrid n f).cores = s.cores := rfl
@[simp] theorem State.modGrid_warps (s : State) (n : Nat) (f : Grid → Grid) : (s.modGrid n f).warps = s.warps := rfl
@[simp] theorem State.modGrid_teams (s : State) (n : Nat) (f : Grid → Grid) : (s.modGrid n f).teams = s.teams := rfl
@[simp] theorem State.modGrid_gangs (s : State) (n : Nat) (f : Grid → Grid) : (s.modGrid n f).gangs = s.gangs := rfl
@[simp] theorem State.modGrid_regions (s : State) (n : Nat) (f : Grid → Grid) : (s.modGrid n f).regions = s.regions := rfl
@[simp] theorem State.modGrid_grids (s : State) (n : Nat) (f : Grid → Grid) : (s.modGrid n f).grids = s.grids.modify n f := rfl
@[simp] theorem State.modGrid_queues (s : State) (n : Nat) (f : Grid → Grid) : (s.modGrid n f).queues = s.queues := rfl
@[simp] theorem State.modGrid_served (s : State) (n : Nat) (f : Grid → Grid) : (s.modGrid n f).served = s.served := rfl
@[simp] theorem State.modGrid_ctxs (s : State) (n : Nat) (f : Grid → Grid) : (s.modGrid n f).ctxs = s.ctxs := rfl
@[simp] theorem State.modGrid_objs (s : State) (n : Nat) (f : Grid → Grid) : (s.modGrid n f).objs = s.objs := rfl
@[simp] theorem State.modGrid_mem (s : State) (n : Nat) (f : Grid → Grid) : (s.modGrid n f).mem = s.mem := rfl
@[simp] theorem State.modGrid_memPoison (s : State) (n : Nat) (f : Grid → Grid) : (s.modGrid n f).memPoison = s.memPoison := rfl
@[simp] theorem State.modGrid_xl (s : State) (n : Nat) (f : Grid → Grid) : (s.modGrid n f).xl = s.xl := rfl
@[simp] theorem State.modGrid_cache (s : State) (n : Nat) (f : Grid → Grid) : (s.modGrid n f).cache = s.cache := rfl
@[simp] theorem State.modGrid_tsends (s : State) (n : Nat) (f : Grid → Grid) : (s.modGrid n f).tsends = s.tsends := rfl
@[simp] theorem State.modGrid_landings (s : State) (n : Nat) (f : Grid → Grid) : (s.modGrid n f).landings = s.landings := rfl
@[simp] theorem State.modGrid_ticks (s : State) (n : Nat) (f : Grid → Grid) : (s.modGrid n f).ticks = s.ticks := rfl
@[simp] theorem State.modGrid_remote (s : State) (n : Nat) (f : Grid → Grid) : (s.modGrid n f).remote = s.remote := rfl
@[simp] theorem State.modGrid_agenda (s : State) (n : Nat) (f : Grid → Grid) : (s.modGrid n f).agenda = s.agenda := rfl
@[simp] theorem State.modGrid_cur (s : State) (n : Nat) (f : Grid → Grid) : (s.modGrid n f).cur = s.cur := rfl
@[simp] theorem State.modGrid_curIdx (s : State) (n : Nat) (f : Grid → Grid) : (s.modGrid n f).curIdx = s.curIdx := rfl
@[simp] theorem State.modGrid_fresh (s : State) (n : Nat) (f : Grid → Grid) : (s.modGrid n f).fresh = s.fresh := rfl

@[simp] theorem State.modQueue_pkg (s : State) (n : Nat) (f : Queue → Queue) : (s.modQueue n f).pkg = s.pkg := rfl
@[simp] theorem State.modQueue_stake (s : State) (n : Nat) (f : Queue → Queue) : (s.modQueue n f).stake = s.stake := rfl
@[simp] theorem State.modQueue_dies (s : State) (n : Nat) (f : Queue → Queue) : (s.modQueue n f).dies = s.dies := rfl
@[simp] theorem State.modQueue_cores (s : State) (n : Nat) (f : Queue → Queue) : (s.modQueue n f).cores = s.cores := rfl
@[simp] theorem State.modQueue_warps (s : State) (n : Nat) (f : Queue → Queue) : (s.modQueue n f).warps = s.warps := rfl
@[simp] theorem State.modQueue_teams (s : State) (n : Nat) (f : Queue → Queue) : (s.modQueue n f).teams = s.teams := rfl
@[simp] theorem State.modQueue_gangs (s : State) (n : Nat) (f : Queue → Queue) : (s.modQueue n f).gangs = s.gangs := rfl
@[simp] theorem State.modQueue_regions (s : State) (n : Nat) (f : Queue → Queue) : (s.modQueue n f).regions = s.regions := rfl
@[simp] theorem State.modQueue_grids (s : State) (n : Nat) (f : Queue → Queue) : (s.modQueue n f).grids = s.grids := rfl
@[simp] theorem State.modQueue_queues (s : State) (n : Nat) (f : Queue → Queue) : (s.modQueue n f).queues = s.queues.modify n f := rfl
@[simp] theorem State.modQueue_served (s : State) (n : Nat) (f : Queue → Queue) : (s.modQueue n f).served = s.served := rfl
@[simp] theorem State.modQueue_ctxs (s : State) (n : Nat) (f : Queue → Queue) : (s.modQueue n f).ctxs = s.ctxs := rfl
@[simp] theorem State.modQueue_objs (s : State) (n : Nat) (f : Queue → Queue) : (s.modQueue n f).objs = s.objs := rfl
@[simp] theorem State.modQueue_mem (s : State) (n : Nat) (f : Queue → Queue) : (s.modQueue n f).mem = s.mem := rfl
@[simp] theorem State.modQueue_memPoison (s : State) (n : Nat) (f : Queue → Queue) : (s.modQueue n f).memPoison = s.memPoison := rfl
@[simp] theorem State.modQueue_xl (s : State) (n : Nat) (f : Queue → Queue) : (s.modQueue n f).xl = s.xl := rfl
@[simp] theorem State.modQueue_cache (s : State) (n : Nat) (f : Queue → Queue) : (s.modQueue n f).cache = s.cache := rfl
@[simp] theorem State.modQueue_tsends (s : State) (n : Nat) (f : Queue → Queue) : (s.modQueue n f).tsends = s.tsends := rfl
@[simp] theorem State.modQueue_landings (s : State) (n : Nat) (f : Queue → Queue) : (s.modQueue n f).landings = s.landings := rfl
@[simp] theorem State.modQueue_ticks (s : State) (n : Nat) (f : Queue → Queue) : (s.modQueue n f).ticks = s.ticks := rfl
@[simp] theorem State.modQueue_remote (s : State) (n : Nat) (f : Queue → Queue) : (s.modQueue n f).remote = s.remote := rfl
@[simp] theorem State.modQueue_agenda (s : State) (n : Nat) (f : Queue → Queue) : (s.modQueue n f).agenda = s.agenda := rfl
@[simp] theorem State.modQueue_cur (s : State) (n : Nat) (f : Queue → Queue) : (s.modQueue n f).cur = s.cur := rfl
@[simp] theorem State.modQueue_curIdx (s : State) (n : Nat) (f : Queue → Queue) : (s.modQueue n f).curIdx = s.curIdx := rfl
@[simp] theorem State.modQueue_fresh (s : State) (n : Nat) (f : Queue → Queue) : (s.modQueue n f).fresh = s.fresh := rfl

@[simp] theorem State.modCtx_pkg (s : State) (n : Nat) (f : Ctx → Ctx) : (s.modCtx n f).pkg = s.pkg := rfl
@[simp] theorem State.modCtx_stake (s : State) (n : Nat) (f : Ctx → Ctx) : (s.modCtx n f).stake = s.stake := rfl
@[simp] theorem State.modCtx_dies (s : State) (n : Nat) (f : Ctx → Ctx) : (s.modCtx n f).dies = s.dies := rfl
@[simp] theorem State.modCtx_cores (s : State) (n : Nat) (f : Ctx → Ctx) : (s.modCtx n f).cores = s.cores := rfl
@[simp] theorem State.modCtx_warps (s : State) (n : Nat) (f : Ctx → Ctx) : (s.modCtx n f).warps = s.warps := rfl
@[simp] theorem State.modCtx_teams (s : State) (n : Nat) (f : Ctx → Ctx) : (s.modCtx n f).teams = s.teams := rfl
@[simp] theorem State.modCtx_gangs (s : State) (n : Nat) (f : Ctx → Ctx) : (s.modCtx n f).gangs = s.gangs := rfl
@[simp] theorem State.modCtx_regions (s : State) (n : Nat) (f : Ctx → Ctx) : (s.modCtx n f).regions = s.regions := rfl
@[simp] theorem State.modCtx_grids (s : State) (n : Nat) (f : Ctx → Ctx) : (s.modCtx n f).grids = s.grids := rfl
@[simp] theorem State.modCtx_queues (s : State) (n : Nat) (f : Ctx → Ctx) : (s.modCtx n f).queues = s.queues := rfl
@[simp] theorem State.modCtx_served (s : State) (n : Nat) (f : Ctx → Ctx) : (s.modCtx n f).served = s.served := rfl
@[simp] theorem State.modCtx_ctxs (s : State) (n : Nat) (f : Ctx → Ctx) : (s.modCtx n f).ctxs = s.ctxs.modify n f := rfl
@[simp] theorem State.modCtx_objs (s : State) (n : Nat) (f : Ctx → Ctx) : (s.modCtx n f).objs = s.objs := rfl
@[simp] theorem State.modCtx_mem (s : State) (n : Nat) (f : Ctx → Ctx) : (s.modCtx n f).mem = s.mem := rfl
@[simp] theorem State.modCtx_memPoison (s : State) (n : Nat) (f : Ctx → Ctx) : (s.modCtx n f).memPoison = s.memPoison := rfl
@[simp] theorem State.modCtx_xl (s : State) (n : Nat) (f : Ctx → Ctx) : (s.modCtx n f).xl = s.xl := rfl
@[simp] theorem State.modCtx_cache (s : State) (n : Nat) (f : Ctx → Ctx) : (s.modCtx n f).cache = s.cache := rfl
@[simp] theorem State.modCtx_tsends (s : State) (n : Nat) (f : Ctx → Ctx) : (s.modCtx n f).tsends = s.tsends := rfl
@[simp] theorem State.modCtx_landings (s : State) (n : Nat) (f : Ctx → Ctx) : (s.modCtx n f).landings = s.landings := rfl
@[simp] theorem State.modCtx_ticks (s : State) (n : Nat) (f : Ctx → Ctx) : (s.modCtx n f).ticks = s.ticks := rfl
@[simp] theorem State.modCtx_remote (s : State) (n : Nat) (f : Ctx → Ctx) : (s.modCtx n f).remote = s.remote := rfl
@[simp] theorem State.modCtx_agenda (s : State) (n : Nat) (f : Ctx → Ctx) : (s.modCtx n f).agenda = s.agenda := rfl
@[simp] theorem State.modCtx_cur (s : State) (n : Nat) (f : Ctx → Ctx) : (s.modCtx n f).cur = s.cur := rfl
@[simp] theorem State.modCtx_curIdx (s : State) (n : Nat) (f : Ctx → Ctx) : (s.modCtx n f).curIdx = s.curIdx := rfl
@[simp] theorem State.modCtx_fresh (s : State) (n : Nat) (f : Ctx → Ctx) : (s.modCtx n f).fresh = s.fresh := rfl

@[simp] theorem State.modDie_pkg (s : State) (n : Nat) (f : Die → Die) : (s.modDie n f).pkg = s.pkg := rfl
@[simp] theorem State.modDie_stake (s : State) (n : Nat) (f : Die → Die) : (s.modDie n f).stake = s.stake := rfl
@[simp] theorem State.modDie_dies (s : State) (n : Nat) (f : Die → Die) : (s.modDie n f).dies = s.dies.modify n f := rfl
@[simp] theorem State.modDie_cores (s : State) (n : Nat) (f : Die → Die) : (s.modDie n f).cores = s.cores := rfl
@[simp] theorem State.modDie_warps (s : State) (n : Nat) (f : Die → Die) : (s.modDie n f).warps = s.warps := rfl
@[simp] theorem State.modDie_teams (s : State) (n : Nat) (f : Die → Die) : (s.modDie n f).teams = s.teams := rfl
@[simp] theorem State.modDie_gangs (s : State) (n : Nat) (f : Die → Die) : (s.modDie n f).gangs = s.gangs := rfl
@[simp] theorem State.modDie_regions (s : State) (n : Nat) (f : Die → Die) : (s.modDie n f).regions = s.regions := rfl
@[simp] theorem State.modDie_grids (s : State) (n : Nat) (f : Die → Die) : (s.modDie n f).grids = s.grids := rfl
@[simp] theorem State.modDie_queues (s : State) (n : Nat) (f : Die → Die) : (s.modDie n f).queues = s.queues := rfl
@[simp] theorem State.modDie_served (s : State) (n : Nat) (f : Die → Die) : (s.modDie n f).served = s.served := rfl
@[simp] theorem State.modDie_ctxs (s : State) (n : Nat) (f : Die → Die) : (s.modDie n f).ctxs = s.ctxs := rfl
@[simp] theorem State.modDie_objs (s : State) (n : Nat) (f : Die → Die) : (s.modDie n f).objs = s.objs := rfl
@[simp] theorem State.modDie_mem (s : State) (n : Nat) (f : Die → Die) : (s.modDie n f).mem = s.mem := rfl
@[simp] theorem State.modDie_memPoison (s : State) (n : Nat) (f : Die → Die) : (s.modDie n f).memPoison = s.memPoison := rfl
@[simp] theorem State.modDie_xl (s : State) (n : Nat) (f : Die → Die) : (s.modDie n f).xl = s.xl := rfl
@[simp] theorem State.modDie_cache (s : State) (n : Nat) (f : Die → Die) : (s.modDie n f).cache = s.cache := rfl
@[simp] theorem State.modDie_tsends (s : State) (n : Nat) (f : Die → Die) : (s.modDie n f).tsends = s.tsends := rfl
@[simp] theorem State.modDie_landings (s : State) (n : Nat) (f : Die → Die) : (s.modDie n f).landings = s.landings := rfl
@[simp] theorem State.modDie_ticks (s : State) (n : Nat) (f : Die → Die) : (s.modDie n f).ticks = s.ticks := rfl
@[simp] theorem State.modDie_remote (s : State) (n : Nat) (f : Die → Die) : (s.modDie n f).remote = s.remote := rfl
@[simp] theorem State.modDie_agenda (s : State) (n : Nat) (f : Die → Die) : (s.modDie n f).agenda = s.agenda := rfl
@[simp] theorem State.modDie_cur (s : State) (n : Nat) (f : Die → Die) : (s.modDie n f).cur = s.cur := rfl
@[simp] theorem State.modDie_curIdx (s : State) (n : Nat) (f : Die → Die) : (s.modDie n f).curIdx = s.curIdx := rfl
@[simp] theorem State.modDie_fresh (s : State) (n : Nat) (f : Die → Die) : (s.modDie n f).fresh = s.fresh := rfl

@[simp] theorem State.modBlk_pkg (s : State) (n : Nat) (f : Blk → Blk) : (s.modBlk n f).pkg = s.pkg := rfl
@[simp] theorem State.modBlk_stake (s : State) (n : Nat) (f : Blk → Blk) : (s.modBlk n f).stake = s.stake := rfl
@[simp] theorem State.modBlk_dies (s : State) (n : Nat) (f : Blk → Blk) : (s.modBlk n f).dies = s.dies := rfl
@[simp] theorem State.modBlk_cores (s : State) (n : Nat) (f : Blk → Blk) : (s.modBlk n f).cores = s.cores := rfl
@[simp] theorem State.modBlk_warps (s : State) (n : Nat) (f : Blk → Blk) : (s.modBlk n f).warps = s.warps.modify n fun x => { x with blk := x.blk.map f } := rfl
@[simp] theorem State.modBlk_teams (s : State) (n : Nat) (f : Blk → Blk) : (s.modBlk n f).teams = s.teams := rfl
@[simp] theorem State.modBlk_gangs (s : State) (n : Nat) (f : Blk → Blk) : (s.modBlk n f).gangs = s.gangs := rfl
@[simp] theorem State.modBlk_regions (s : State) (n : Nat) (f : Blk → Blk) : (s.modBlk n f).regions = s.regions := rfl
@[simp] theorem State.modBlk_grids (s : State) (n : Nat) (f : Blk → Blk) : (s.modBlk n f).grids = s.grids := rfl
@[simp] theorem State.modBlk_queues (s : State) (n : Nat) (f : Blk → Blk) : (s.modBlk n f).queues = s.queues := rfl
@[simp] theorem State.modBlk_served (s : State) (n : Nat) (f : Blk → Blk) : (s.modBlk n f).served = s.served := rfl
@[simp] theorem State.modBlk_ctxs (s : State) (n : Nat) (f : Blk → Blk) : (s.modBlk n f).ctxs = s.ctxs := rfl
@[simp] theorem State.modBlk_objs (s : State) (n : Nat) (f : Blk → Blk) : (s.modBlk n f).objs = s.objs := rfl
@[simp] theorem State.modBlk_mem (s : State) (n : Nat) (f : Blk → Blk) : (s.modBlk n f).mem = s.mem := rfl
@[simp] theorem State.modBlk_memPoison (s : State) (n : Nat) (f : Blk → Blk) : (s.modBlk n f).memPoison = s.memPoison := rfl
@[simp] theorem State.modBlk_xl (s : State) (n : Nat) (f : Blk → Blk) : (s.modBlk n f).xl = s.xl := rfl
@[simp] theorem State.modBlk_cache (s : State) (n : Nat) (f : Blk → Blk) : (s.modBlk n f).cache = s.cache := rfl
@[simp] theorem State.modBlk_tsends (s : State) (n : Nat) (f : Blk → Blk) : (s.modBlk n f).tsends = s.tsends := rfl
@[simp] theorem State.modBlk_landings (s : State) (n : Nat) (f : Blk → Blk) : (s.modBlk n f).landings = s.landings := rfl
@[simp] theorem State.modBlk_ticks (s : State) (n : Nat) (f : Blk → Blk) : (s.modBlk n f).ticks = s.ticks := rfl
@[simp] theorem State.modBlk_remote (s : State) (n : Nat) (f : Blk → Blk) : (s.modBlk n f).remote = s.remote := rfl
@[simp] theorem State.modBlk_agenda (s : State) (n : Nat) (f : Blk → Blk) : (s.modBlk n f).agenda = s.agenda := rfl
@[simp] theorem State.modBlk_cur (s : State) (n : Nat) (f : Blk → Blk) : (s.modBlk n f).cur = s.cur := rfl
@[simp] theorem State.modBlk_curIdx (s : State) (n : Nat) (f : Blk → Blk) : (s.modBlk n f).curIdx = s.curIdx := rfl
@[simp] theorem State.modBlk_fresh (s : State) (n : Nat) (f : Blk → Blk) : (s.modBlk n f).fresh = s.fresh := rfl

@[simp] theorem State.modCache_pkg (s : State) (f : Caches → Caches) : (s.modCache f).pkg = s.pkg := rfl
@[simp] theorem State.modCache_stake (s : State) (f : Caches → Caches) : (s.modCache f).stake = s.stake := rfl
@[simp] theorem State.modCache_dies (s : State) (f : Caches → Caches) : (s.modCache f).dies = s.dies := rfl
@[simp] theorem State.modCache_cores (s : State) (f : Caches → Caches) : (s.modCache f).cores = s.cores := rfl
@[simp] theorem State.modCache_warps (s : State) (f : Caches → Caches) : (s.modCache f).warps = s.warps := rfl
@[simp] theorem State.modCache_teams (s : State) (f : Caches → Caches) : (s.modCache f).teams = s.teams := rfl
@[simp] theorem State.modCache_gangs (s : State) (f : Caches → Caches) : (s.modCache f).gangs = s.gangs := rfl
@[simp] theorem State.modCache_regions (s : State) (f : Caches → Caches) : (s.modCache f).regions = s.regions := rfl
@[simp] theorem State.modCache_grids (s : State) (f : Caches → Caches) : (s.modCache f).grids = s.grids := rfl
@[simp] theorem State.modCache_queues (s : State) (f : Caches → Caches) : (s.modCache f).queues = s.queues := rfl
@[simp] theorem State.modCache_served (s : State) (f : Caches → Caches) : (s.modCache f).served = s.served := rfl
@[simp] theorem State.modCache_ctxs (s : State) (f : Caches → Caches) : (s.modCache f).ctxs = s.ctxs := rfl
@[simp] theorem State.modCache_objs (s : State) (f : Caches → Caches) : (s.modCache f).objs = s.objs := rfl
@[simp] theorem State.modCache_mem (s : State) (f : Caches → Caches) : (s.modCache f).mem = s.mem := rfl
@[simp] theorem State.modCache_memPoison (s : State) (f : Caches → Caches) : (s.modCache f).memPoison = s.memPoison := rfl
@[simp] theorem State.modCache_xl (s : State) (f : Caches → Caches) : (s.modCache f).xl = s.xl := rfl
@[simp] theorem State.modCache_cache (s : State) (f : Caches → Caches) : (s.modCache f).cache = f s.cache := rfl
@[simp] theorem State.modCache_tsends (s : State) (f : Caches → Caches) : (s.modCache f).tsends = s.tsends := rfl
@[simp] theorem State.modCache_landings (s : State) (f : Caches → Caches) : (s.modCache f).landings = s.landings := rfl
@[simp] theorem State.modCache_ticks (s : State) (f : Caches → Caches) : (s.modCache f).ticks = s.ticks := rfl
@[simp] theorem State.modCache_remote (s : State) (f : Caches → Caches) : (s.modCache f).remote = s.remote := rfl
@[simp] theorem State.modCache_agenda (s : State) (f : Caches → Caches) : (s.modCache f).agenda = s.agenda := rfl
@[simp] theorem State.modCache_cur (s : State) (f : Caches → Caches) : (s.modCache f).cur = s.cur := rfl
@[simp] theorem State.modCache_curIdx (s : State) (f : Caches → Caches) : (s.modCache f).curIdx = s.curIdx := rfl
@[simp] theorem State.modCache_fresh (s : State) (f : Caches → Caches) : (s.modCache f).fresh = s.fresh := rfl

@[simp] theorem State.modXl_pkg (s : State) (f : Xlat → Xlat) : (s.modXl f).pkg = s.pkg := rfl
@[simp] theorem State.modXl_stake (s : State) (f : Xlat → Xlat) : (s.modXl f).stake = s.stake := rfl
@[simp] theorem State.modXl_dies (s : State) (f : Xlat → Xlat) : (s.modXl f).dies = s.dies := rfl
@[simp] theorem State.modXl_cores (s : State) (f : Xlat → Xlat) : (s.modXl f).cores = s.cores := rfl
@[simp] theorem State.modXl_warps (s : State) (f : Xlat → Xlat) : (s.modXl f).warps = s.warps := rfl
@[simp] theorem State.modXl_teams (s : State) (f : Xlat → Xlat) : (s.modXl f).teams = s.teams := rfl
@[simp] theorem State.modXl_gangs (s : State) (f : Xlat → Xlat) : (s.modXl f).gangs = s.gangs := rfl
@[simp] theorem State.modXl_regions (s : State) (f : Xlat → Xlat) : (s.modXl f).regions = s.regions := rfl
@[simp] theorem State.modXl_grids (s : State) (f : Xlat → Xlat) : (s.modXl f).grids = s.grids := rfl
@[simp] theorem State.modXl_queues (s : State) (f : Xlat → Xlat) : (s.modXl f).queues = s.queues := rfl
@[simp] theorem State.modXl_served (s : State) (f : Xlat → Xlat) : (s.modXl f).served = s.served := rfl
@[simp] theorem State.modXl_ctxs (s : State) (f : Xlat → Xlat) : (s.modXl f).ctxs = s.ctxs := rfl
@[simp] theorem State.modXl_objs (s : State) (f : Xlat → Xlat) : (s.modXl f).objs = s.objs := rfl
@[simp] theorem State.modXl_mem (s : State) (f : Xlat → Xlat) : (s.modXl f).mem = s.mem := rfl
@[simp] theorem State.modXl_memPoison (s : State) (f : Xlat → Xlat) : (s.modXl f).memPoison = s.memPoison := rfl
@[simp] theorem State.modXl_xl (s : State) (f : Xlat → Xlat) : (s.modXl f).xl = f s.xl := rfl
@[simp] theorem State.modXl_cache (s : State) (f : Xlat → Xlat) : (s.modXl f).cache = s.cache := rfl
@[simp] theorem State.modXl_tsends (s : State) (f : Xlat → Xlat) : (s.modXl f).tsends = s.tsends := rfl
@[simp] theorem State.modXl_landings (s : State) (f : Xlat → Xlat) : (s.modXl f).landings = s.landings := rfl
@[simp] theorem State.modXl_ticks (s : State) (f : Xlat → Xlat) : (s.modXl f).ticks = s.ticks := rfl
@[simp] theorem State.modXl_remote (s : State) (f : Xlat → Xlat) : (s.modXl f).remote = s.remote := rfl
@[simp] theorem State.modXl_agenda (s : State) (f : Xlat → Xlat) : (s.modXl f).agenda = s.agenda := rfl
@[simp] theorem State.modXl_cur (s : State) (f : Xlat → Xlat) : (s.modXl f).cur = s.cur := rfl
@[simp] theorem State.modXl_curIdx (s : State) (f : Xlat → Xlat) : (s.modXl f).curIdx = s.curIdx := rfl
@[simp] theorem State.modXl_fresh (s : State) (f : Xlat → Xlat) : (s.modXl f).fresh = s.fresh := rfl

@[simp] theorem State.modPkg_pkg (s : State) (f : Package → Package) : (s.modPkg f).pkg = f s.pkg := rfl
@[simp] theorem State.modPkg_stake (s : State) (f : Package → Package) : (s.modPkg f).stake = s.stake := rfl
@[simp] theorem State.modPkg_dies (s : State) (f : Package → Package) : (s.modPkg f).dies = s.dies := rfl
@[simp] theorem State.modPkg_cores (s : State) (f : Package → Package) : (s.modPkg f).cores = s.cores := rfl
@[simp] theorem State.modPkg_warps (s : State) (f : Package → Package) : (s.modPkg f).warps = s.warps := rfl
@[simp] theorem State.modPkg_teams (s : State) (f : Package → Package) : (s.modPkg f).teams = s.teams := rfl
@[simp] theorem State.modPkg_gangs (s : State) (f : Package → Package) : (s.modPkg f).gangs = s.gangs := rfl
@[simp] theorem State.modPkg_regions (s : State) (f : Package → Package) : (s.modPkg f).regions = s.regions := rfl
@[simp] theorem State.modPkg_grids (s : State) (f : Package → Package) : (s.modPkg f).grids = s.grids := rfl
@[simp] theorem State.modPkg_queues (s : State) (f : Package → Package) : (s.modPkg f).queues = s.queues := rfl
@[simp] theorem State.modPkg_served (s : State) (f : Package → Package) : (s.modPkg f).served = s.served := rfl
@[simp] theorem State.modPkg_ctxs (s : State) (f : Package → Package) : (s.modPkg f).ctxs = s.ctxs := rfl
@[simp] theorem State.modPkg_objs (s : State) (f : Package → Package) : (s.modPkg f).objs = s.objs := rfl
@[simp] theorem State.modPkg_mem (s : State) (f : Package → Package) : (s.modPkg f).mem = s.mem := rfl
@[simp] theorem State.modPkg_memPoison (s : State) (f : Package → Package) : (s.modPkg f).memPoison = s.memPoison := rfl
@[simp] theorem State.modPkg_xl (s : State) (f : Package → Package) : (s.modPkg f).xl = s.xl := rfl
@[simp] theorem State.modPkg_cache (s : State) (f : Package → Package) : (s.modPkg f).cache = s.cache := rfl
@[simp] theorem State.modPkg_tsends (s : State) (f : Package → Package) : (s.modPkg f).tsends = s.tsends := rfl
@[simp] theorem State.modPkg_landings (s : State) (f : Package → Package) : (s.modPkg f).landings = s.landings := rfl
@[simp] theorem State.modPkg_ticks (s : State) (f : Package → Package) : (s.modPkg f).ticks = s.ticks := rfl
@[simp] theorem State.modPkg_remote (s : State) (f : Package → Package) : (s.modPkg f).remote = s.remote := rfl
@[simp] theorem State.modPkg_agenda (s : State) (f : Package → Package) : (s.modPkg f).agenda = s.agenda := rfl
@[simp] theorem State.modPkg_cur (s : State) (f : Package → Package) : (s.modPkg f).cur = s.cur := rfl
@[simp] theorem State.modPkg_curIdx (s : State) (f : Package → Package) : (s.modPkg f).curIdx = s.curIdx := rfl
@[simp] theorem State.modPkg_fresh (s : State) (f : Package → Package) : (s.modPkg f).fresh = s.fresh := rfl

@[simp] theorem State.modCore_pkg (s : State) (d c : Nat) (f : Core → Core) : (s.modCore d c f).pkg = s.pkg := by
  unfold State.modCore; split <;> rfl
@[simp] theorem State.modCore_stake (s : State) (d c : Nat) (f : Core → Core) : (s.modCore d c f).stake = s.stake := by
  unfold State.modCore; split <;> rfl
@[simp] theorem State.modCore_dies (s : State) (d c : Nat) (f : Core → Core) : (s.modCore d c f).dies = s.dies := by
  unfold State.modCore; split <;> rfl
@[simp] theorem State.modCore_warps (s : State) (d c : Nat) (f : Core → Core) : (s.modCore d c f).warps = s.warps := by
  unfold State.modCore; split <;> rfl
@[simp] theorem State.modCore_teams (s : State) (d c : Nat) (f : Core → Core) : (s.modCore d c f).teams = s.teams := by
  unfold State.modCore; split <;> rfl
@[simp] theorem State.modCore_gangs (s : State) (d c : Nat) (f : Core → Core) : (s.modCore d c f).gangs = s.gangs := by
  unfold State.modCore; split <;> rfl
@[simp] theorem State.modCore_regions (s : State) (d c : Nat) (f : Core → Core) : (s.modCore d c f).regions = s.regions := by
  unfold State.modCore; split <;> rfl
@[simp] theorem State.modCore_grids (s : State) (d c : Nat) (f : Core → Core) : (s.modCore d c f).grids = s.grids := by
  unfold State.modCore; split <;> rfl
@[simp] theorem State.modCore_queues (s : State) (d c : Nat) (f : Core → Core) : (s.modCore d c f).queues = s.queues := by
  unfold State.modCore; split <;> rfl
@[simp] theorem State.modCore_served (s : State) (d c : Nat) (f : Core → Core) : (s.modCore d c f).served = s.served := by
  unfold State.modCore; split <;> rfl
@[simp] theorem State.modCore_ctxs (s : State) (d c : Nat) (f : Core → Core) : (s.modCore d c f).ctxs = s.ctxs := by
  unfold State.modCore; split <;> rfl
@[simp] theorem State.modCore_objs (s : State) (d c : Nat) (f : Core → Core) : (s.modCore d c f).objs = s.objs := by
  unfold State.modCore; split <;> rfl
@[simp] theorem State.modCore_mem (s : State) (d c : Nat) (f : Core → Core) : (s.modCore d c f).mem = s.mem := by
  unfold State.modCore; split <;> rfl
@[simp] theorem State.modCore_memPoison (s : State) (d c : Nat) (f : Core → Core) : (s.modCore d c f).memPoison = s.memPoison := by
  unfold State.modCore; split <;> rfl
@[simp] theorem State.modCore_xl (s : State) (d c : Nat) (f : Core → Core) : (s.modCore d c f).xl = s.xl := by
  unfold State.modCore; split <;> rfl
@[simp] theorem State.modCore_cache (s : State) (d c : Nat) (f : Core → Core) : (s.modCore d c f).cache = s.cache := by
  unfold State.modCore; split <;> rfl
@[simp] theorem State.modCore_tsends (s : State) (d c : Nat) (f : Core → Core) : (s.modCore d c f).tsends = s.tsends := by
  unfold State.modCore; split <;> rfl
@[simp] theorem State.modCore_landings (s : State) (d c : Nat) (f : Core → Core) : (s.modCore d c f).landings = s.landings := by
  unfold State.modCore; split <;> rfl
@[simp] theorem State.modCore_ticks (s : State) (d c : Nat) (f : Core → Core) : (s.modCore d c f).ticks = s.ticks := by
  unfold State.modCore; split <;> rfl
@[simp] theorem State.modCore_remote (s : State) (d c : Nat) (f : Core → Core) : (s.modCore d c f).remote = s.remote := by
  unfold State.modCore; split <;> rfl
@[simp] theorem State.modCore_agenda (s : State) (d c : Nat) (f : Core → Core) : (s.modCore d c f).agenda = s.agenda := by
  unfold State.modCore; split <;> rfl
@[simp] theorem State.modCore_cur (s : State) (d c : Nat) (f : Core → Core) : (s.modCore d c f).cur = s.cur := by
  unfold State.modCore; split <;> rfl
@[simp] theorem State.modCore_curIdx (s : State) (d c : Nat) (f : Core → Core) : (s.modCore d c f).curIdx = s.curIdx := by
  unfold State.modCore; split <;> rfl
@[simp] theorem State.modCore_fresh (s : State) (d c : Nat) (f : Core → Core) : (s.modCore d c f).fresh = s.fresh := by
  unfold State.modCore; split <;> rfl

@[simp] theorem State.countCore_pkg (s : State) (d c src ctx n : Nat) : (s.countCore d c src ctx n).pkg = s.pkg := by
  unfold State.countCore; split <;> simp
@[simp] theorem State.countCore_stake (s : State) (d c src ctx n : Nat) : (s.countCore d c src ctx n).stake = s.stake := by
  unfold State.countCore; split <;> simp
@[simp] theorem State.countCore_dies (s : State) (d c src ctx n : Nat) : (s.countCore d c src ctx n).dies = s.dies := by
  unfold State.countCore; split <;> simp
@[simp] theorem State.countCore_warps (s : State) (d c src ctx n : Nat) : (s.countCore d c src ctx n).warps = s.warps := by
  unfold State.countCore; split <;> simp
@[simp] theorem State.countCore_teams (s : State) (d c src ctx n : Nat) : (s.countCore d c src ctx n).teams = s.teams := by
  unfold State.countCore; split <;> simp
@[simp] theorem State.countCore_gangs (s : State) (d c src ctx n : Nat) : (s.countCore d c src ctx n).gangs = s.gangs := by
  unfold State.countCore; split <;> simp
@[simp] theorem State.countCore_regions (s : State) (d c src ctx n : Nat) : (s.countCore d c src ctx n).regions = s.regions := by
  unfold State.countCore; split <;> simp
@[simp] theorem State.countCore_grids (s : State) (d c src ctx n : Nat) : (s.countCore d c src ctx n).grids = s.grids := by
  unfold State.countCore; split <;> simp
@[simp] theorem State.countCore_queues (s : State) (d c src ctx n : Nat) : (s.countCore d c src ctx n).queues = s.queues := by
  unfold State.countCore; split <;> simp
@[simp] theorem State.countCore_served (s : State) (d c src ctx n : Nat) : (s.countCore d c src ctx n).served = s.served := by
  unfold State.countCore; split <;> simp
@[simp] theorem State.countCore_ctxs (s : State) (d c src ctx n : Nat) : (s.countCore d c src ctx n).ctxs = s.ctxs := by
  unfold State.countCore; split <;> simp
@[simp] theorem State.countCore_objs (s : State) (d c src ctx n : Nat) : (s.countCore d c src ctx n).objs = s.objs := by
  unfold State.countCore; split <;> simp
@[simp] theorem State.countCore_mem (s : State) (d c src ctx n : Nat) : (s.countCore d c src ctx n).mem = s.mem := by
  unfold State.countCore; split <;> simp
@[simp] theorem State.countCore_memPoison (s : State) (d c src ctx n : Nat) : (s.countCore d c src ctx n).memPoison = s.memPoison := by
  unfold State.countCore; split <;> simp
@[simp] theorem State.countCore_xl (s : State) (d c src ctx n : Nat) : (s.countCore d c src ctx n).xl = s.xl := by
  unfold State.countCore; split <;> simp
@[simp] theorem State.countCore_cache (s : State) (d c src ctx n : Nat) : (s.countCore d c src ctx n).cache = s.cache := by
  unfold State.countCore; split <;> simp
@[simp] theorem State.countCore_tsends (s : State) (d c src ctx n : Nat) : (s.countCore d c src ctx n).tsends = s.tsends := by
  unfold State.countCore; split <;> simp
@[simp] theorem State.countCore_landings (s : State) (d c src ctx n : Nat) : (s.countCore d c src ctx n).landings = s.landings := by
  unfold State.countCore; split <;> simp
@[simp] theorem State.countCore_ticks (s : State) (d c src ctx n : Nat) : (s.countCore d c src ctx n).ticks = s.ticks := by
  unfold State.countCore; split <;> simp
@[simp] theorem State.countCore_remote (s : State) (d c src ctx n : Nat) : (s.countCore d c src ctx n).remote = s.remote := by
  unfold State.countCore; split <;> simp
@[simp] theorem State.countCore_agenda (s : State) (d c src ctx n : Nat) : (s.countCore d c src ctx n).agenda = s.agenda := by
  unfold State.countCore; split <;> simp
@[simp] theorem State.countCore_cur (s : State) (d c src ctx n : Nat) : (s.countCore d c src ctx n).cur = s.cur := by
  unfold State.countCore; split <;> simp
@[simp] theorem State.countCore_curIdx (s : State) (d c src ctx n : Nat) : (s.countCore d c src ctx n).curIdx = s.curIdx := by
  unfold State.countCore; split <;> simp
@[simp] theorem State.countCore_fresh (s : State) (d c src ctx n : Nat) : (s.countCore d c src ctx n).fresh = s.fresh := by
  unfold State.countCore; split <;> simp

@[simp] theorem State.countW_pkg (s : State) (w src n : Nat) : (s.countW w src n).pkg = s.pkg := by
  unfold State.countW; split <;> simp
@[simp] theorem State.countW_stake (s : State) (w src n : Nat) : (s.countW w src n).stake = s.stake := by
  unfold State.countW; split <;> simp
@[simp] theorem State.countW_dies (s : State) (w src n : Nat) : (s.countW w src n).dies = s.dies := by
  unfold State.countW; split <;> simp
@[simp] theorem State.countW_warps (s : State) (w src n : Nat) : (s.countW w src n).warps = s.warps := by
  unfold State.countW; split <;> simp
@[simp] theorem State.countW_teams (s : State) (w src n : Nat) : (s.countW w src n).teams = s.teams := by
  unfold State.countW; split <;> simp
@[simp] theorem State.countW_gangs (s : State) (w src n : Nat) : (s.countW w src n).gangs = s.gangs := by
  unfold State.countW; split <;> simp
@[simp] theorem State.countW_regions (s : State) (w src n : Nat) : (s.countW w src n).regions = s.regions := by
  unfold State.countW; split <;> simp
@[simp] theorem State.countW_grids (s : State) (w src n : Nat) : (s.countW w src n).grids = s.grids := by
  unfold State.countW; split <;> simp
@[simp] theorem State.countW_queues (s : State) (w src n : Nat) : (s.countW w src n).queues = s.queues := by
  unfold State.countW; split <;> simp
@[simp] theorem State.countW_served (s : State) (w src n : Nat) : (s.countW w src n).served = s.served := by
  unfold State.countW; split <;> simp
@[simp] theorem State.countW_ctxs (s : State) (w src n : Nat) : (s.countW w src n).ctxs = s.ctxs := by
  unfold State.countW; split <;> simp
@[simp] theorem State.countW_objs (s : State) (w src n : Nat) : (s.countW w src n).objs = s.objs := by
  unfold State.countW; split <;> simp
@[simp] theorem State.countW_mem (s : State) (w src n : Nat) : (s.countW w src n).mem = s.mem := by
  unfold State.countW; split <;> simp
@[simp] theorem State.countW_memPoison (s : State) (w src n : Nat) : (s.countW w src n).memPoison = s.memPoison := by
  unfold State.countW; split <;> simp
@[simp] theorem State.countW_xl (s : State) (w src n : Nat) : (s.countW w src n).xl = s.xl := by
  unfold State.countW; split <;> simp
@[simp] theorem State.countW_cache (s : State) (w src n : Nat) : (s.countW w src n).cache = s.cache := by
  unfold State.countW; split <;> simp
@[simp] theorem State.countW_tsends (s : State) (w src n : Nat) : (s.countW w src n).tsends = s.tsends := by
  unfold State.countW; split <;> simp
@[simp] theorem State.countW_landings (s : State) (w src n : Nat) : (s.countW w src n).landings = s.landings := by
  unfold State.countW; split <;> simp
@[simp] theorem State.countW_ticks (s : State) (w src n : Nat) : (s.countW w src n).ticks = s.ticks := by
  unfold State.countW; split <;> simp
@[simp] theorem State.countW_remote (s : State) (w src n : Nat) : (s.countW w src n).remote = s.remote := by
  unfold State.countW; split <;> simp
@[simp] theorem State.countW_agenda (s : State) (w src n : Nat) : (s.countW w src n).agenda = s.agenda := by
  unfold State.countW; split <;> simp
@[simp] theorem State.countW_cur (s : State) (w src n : Nat) : (s.countW w src n).cur = s.cur := by
  unfold State.countW; split <;> simp
@[simp] theorem State.countW_curIdx (s : State) (w src n : Nat) : (s.countW w src n).curIdx = s.curIdx := by
  unfold State.countW; split <;> simp
@[simp] theorem State.countW_fresh (s : State) (w src n : Nat) : (s.countW w src n).fresh = s.fresh := by
  unfold State.countW; split <;> simp

theorem State.countDie_pkg (s : State) {d : Nat} (src ctx n : Nat) (h : d < 8) : (s.countDie d src ctx n).pkg = s.pkg := by
  simp only [State.countDie, Nat.not_le.mpr h, if_false]; split <;> simp
@[simp] theorem State.countDie_stake (s : State) (d src ctx n : Nat) : (s.countDie d src ctx n).stake = s.stake := by
  unfold State.countDie; (repeat' split) <;> simp
@[simp] theorem State.countDie_cores (s : State) (d src ctx n : Nat) : (s.countDie d src ctx n).cores = s.cores := by
  unfold State.countDie; (repeat' split) <;> simp
@[simp] theorem State.countDie_warps (s : State) (d src ctx n : Nat) : (s.countDie d src ctx n).warps = s.warps := by
  unfold State.countDie; (repeat' split) <;> simp
@[simp] theorem State.countDie_teams (s : State) (d src ctx n : Nat) : (s.countDie d src ctx n).teams = s.teams := by
  unfold State.countDie; (repeat' split) <;> simp
@[simp] theorem State.countDie_gangs (s : State) (d src ctx n : Nat) : (s.countDie d src ctx n).gangs = s.gangs := by
  unfold State.countDie; (repeat' split) <;> simp
@[simp] theorem State.countDie_regions (s : State) (d src ctx n : Nat) : (s.countDie d src ctx n).regions = s.regions := by
  unfold State.countDie; (repeat' split) <;> simp
@[simp] theorem State.countDie_grids (s : State) (d src ctx n : Nat) : (s.countDie d src ctx n).grids = s.grids := by
  unfold State.countDie; (repeat' split) <;> simp
@[simp] theorem State.countDie_queues (s : State) (d src ctx n : Nat) : (s.countDie d src ctx n).queues = s.queues := by
  unfold State.countDie; (repeat' split) <;> simp
@[simp] theorem State.countDie_served (s : State) (d src ctx n : Nat) : (s.countDie d src ctx n).served = s.served := by
  unfold State.countDie; (repeat' split) <;> simp
@[simp] theorem State.countDie_ctxs (s : State) (d src ctx n : Nat) : (s.countDie d src ctx n).ctxs = s.ctxs := by
  unfold State.countDie; (repeat' split) <;> simp
@[simp] theorem State.countDie_objs (s : State) (d src ctx n : Nat) : (s.countDie d src ctx n).objs = s.objs := by
  unfold State.countDie; (repeat' split) <;> simp
@[simp] theorem State.countDie_mem (s : State) (d src ctx n : Nat) : (s.countDie d src ctx n).mem = s.mem := by
  unfold State.countDie; (repeat' split) <;> simp
@[simp] theorem State.countDie_memPoison (s : State) (d src ctx n : Nat) : (s.countDie d src ctx n).memPoison = s.memPoison := by
  unfold State.countDie; (repeat' split) <;> simp
@[simp] theorem State.countDie_xl (s : State) (d src ctx n : Nat) : (s.countDie d src ctx n).xl = s.xl := by
  unfold State.countDie; (repeat' split) <;> simp
@[simp] theorem State.countDie_cache (s : State) (d src ctx n : Nat) : (s.countDie d src ctx n).cache = s.cache := by
  unfold State.countDie; (repeat' split) <;> simp
@[simp] theorem State.countDie_tsends (s : State) (d src ctx n : Nat) : (s.countDie d src ctx n).tsends = s.tsends := by
  unfold State.countDie; (repeat' split) <;> simp
@[simp] theorem State.countDie_landings (s : State) (d src ctx n : Nat) : (s.countDie d src ctx n).landings = s.landings := by
  unfold State.countDie; (repeat' split) <;> simp
@[simp] theorem State.countDie_ticks (s : State) (d src ctx n : Nat) : (s.countDie d src ctx n).ticks = s.ticks := by
  unfold State.countDie; (repeat' split) <;> simp
@[simp] theorem State.countDie_remote (s : State) (d src ctx n : Nat) : (s.countDie d src ctx n).remote = s.remote := by
  unfold State.countDie; (repeat' split) <;> simp
@[simp] theorem State.countDie_agenda (s : State) (d src ctx n : Nat) : (s.countDie d src ctx n).agenda = s.agenda := by
  unfold State.countDie; (repeat' split) <;> simp
@[simp] theorem State.countDie_cur (s : State) (d src ctx n : Nat) : (s.countDie d src ctx n).cur = s.cur := by
  unfold State.countDie; (repeat' split) <;> simp
@[simp] theorem State.countDie_curIdx (s : State) (d src ctx n : Nat) : (s.countDie d src ctx n).curIdx = s.curIdx := by
  unfold State.countDie; (repeat' split) <;> simp
@[simp] theorem State.countDie_fresh (s : State) (d src ctx n : Nat) : (s.countDie d src ctx n).fresh = s.fresh := by
  unfold State.countDie; (repeat' split) <;> simp

@[simp] theorem State.postRec_pkg (s : State) (c : Nat) (r : FRec) : (s.postRec c r).pkg = s.pkg := rfl
@[simp] theorem State.postRec_stake (s : State) (c : Nat) (r : FRec) : (s.postRec c r).stake = s.stake := rfl
@[simp] theorem State.postRec_dies (s : State) (c : Nat) (r : FRec) : (s.postRec c r).dies = s.dies := rfl
@[simp] theorem State.postRec_cores (s : State) (c : Nat) (r : FRec) : (s.postRec c r).cores = s.cores := rfl
@[simp] theorem State.postRec_warps (s : State) (c : Nat) (r : FRec) : (s.postRec c r).warps = s.warps := rfl
@[simp] theorem State.postRec_teams (s : State) (c : Nat) (r : FRec) : (s.postRec c r).teams = s.teams := rfl
@[simp] theorem State.postRec_gangs (s : State) (c : Nat) (r : FRec) : (s.postRec c r).gangs = s.gangs := rfl
@[simp] theorem State.postRec_regions (s : State) (c : Nat) (r : FRec) : (s.postRec c r).regions = s.regions := rfl
@[simp] theorem State.postRec_grids (s : State) (c : Nat) (r : FRec) : (s.postRec c r).grids = s.grids := rfl
@[simp] theorem State.postRec_queues (s : State) (c : Nat) (r : FRec) : (s.postRec c r).queues = s.queues := rfl
@[simp] theorem State.postRec_served (s : State) (c : Nat) (r : FRec) : (s.postRec c r).served = s.served := rfl
@[simp] theorem State.postRec_objs (s : State) (c : Nat) (r : FRec) : (s.postRec c r).objs = s.objs := rfl
@[simp] theorem State.postRec_mem (s : State) (c : Nat) (r : FRec) : (s.postRec c r).mem = s.mem := rfl
@[simp] theorem State.postRec_memPoison (s : State) (c : Nat) (r : FRec) : (s.postRec c r).memPoison = s.memPoison := rfl
@[simp] theorem State.postRec_xl (s : State) (c : Nat) (r : FRec) : (s.postRec c r).xl = s.xl := rfl
@[simp] theorem State.postRec_cache (s : State) (c : Nat) (r : FRec) : (s.postRec c r).cache = s.cache := rfl
@[simp] theorem State.postRec_tsends (s : State) (c : Nat) (r : FRec) : (s.postRec c r).tsends = s.tsends := rfl
@[simp] theorem State.postRec_landings (s : State) (c : Nat) (r : FRec) : (s.postRec c r).landings = s.landings := rfl
@[simp] theorem State.postRec_ticks (s : State) (c : Nat) (r : FRec) : (s.postRec c r).ticks = s.ticks := rfl
@[simp] theorem State.postRec_remote (s : State) (c : Nat) (r : FRec) : (s.postRec c r).remote = s.remote := rfl
@[simp] theorem State.postRec_agenda (s : State) (c : Nat) (r : FRec) : (s.postRec c r).agenda = s.agenda := rfl
@[simp] theorem State.postRec_cur (s : State) (c : Nat) (r : FRec) : (s.postRec c r).cur = s.cur := rfl
@[simp] theorem State.postRec_curIdx (s : State) (c : Nat) (r : FRec) : (s.postRec c r).curIdx = s.curIdx := rfl
@[simp] theorem State.postRec_fresh (s : State) (c : Nat) (r : FRec) : (s.postRec c r).fresh = s.fresh := rfl

end Sys2Proof.Machine
end

