-- ==== Sys2Proof/Laws/Fault.lean ====
section
/-! SUPPORT. What aborting a block and raising a fault leave unchanged (R48, R419, R421). -/

namespace Sys2Proof.Machine

/-- What no step of a fold changes, the fold does not change. -/
theorem foldl_field {α β : Type} (g : State → β) (f : State → α → State) (h : ∀ s x, g (f s x) = g s) (l : List α) (s : State) :
    g (l.foldl f s) = g s := by
  induction l generalizing s with
  | nil => rfl
  | cons x r ih => rw [List.foldl_cons, ih, h]

/-- Freeing a seat changes no register, no block and no park of any warp. -/
theorem State.freeSeat_warp (s : State) (w v : Nat) :
    ∃ q, (s.freeSeat w).warp v = { s.warp v with seat := q } := by
  unfold State.freeSeat
  split
  · exact ⟨_, rfl⟩
  · by_cases h : w = v
    · subst h
      cases hw : s.warps[w]? with
      | none => exact ⟨(s.warp w).seat, by simp [State.warp, List.getD, hw]⟩
      | some x => exact ⟨x.seat.leave (s.localTick (s.place w).die), by simp [State.warp, List.getD, hw]⟩
    · exact ⟨(s.warp v).seat, by simp [State.warp, List.getD, h]⟩

@[simp] theorem State.releasePush_pkg (s : State) (w : Nat) (p : PushRes) : (s.releasePush w p).pkg = s.pkg := by
  unfold State.releasePush; split <;> rfl
@[simp] theorem State.releasePush_stake (s : State) (w : Nat) (p : PushRes) : (s.releasePush w p).stake = s.stake := by
  unfold State.releasePush; split <;> rfl
@[simp] theorem State.releasePush_dies (s : State) (w : Nat) (p : PushRes) : (s.releasePush w p).dies = s.dies := by
  unfold State.releasePush; split <;> rfl
@[simp] theorem State.releasePush_gangs (s : State) (w : Nat) (p : PushRes) : (s.releasePush w p).gangs = s.gangs := by
  unfold State.releasePush; split <;> rfl
@[simp] theorem State.releasePush_regions (s : State) (w : Nat) (p : PushRes) : (s.releasePush w p).regions = s.regions := by
  unfold State.releasePush; split <;> rfl
@[simp] theorem State.releasePush_grids (s : State) (w : Nat) (p : PushRes) : (s.releasePush w p).grids = s.grids := by
  unfold State.releasePush; split <;> rfl
@[simp] theorem State.releasePush_served (s : State) (w : Nat) (p : PushRes) : (s.releasePush w p).served = s.served := by
  unfold State.releasePush; split <;> rfl
@[simp] theorem State.releasePush_objs (s : State) (w : Nat) (p : PushRes) : (s.releasePush w p).objs = s.objs := by
  unfold State.releasePush; split <;> rfl
@[simp] theorem State.releasePush_mem (s : State) (w : Nat) (p : PushRes) : (s.releasePush w p).mem = s.mem := by
  unfold State.releasePush; split <;> rfl
@[simp] theorem State.releasePush_memPoison (s : State) (w : Nat) (p : PushRes) : (s.releasePush w p).memPoison = s.memPoison := by
  unfold State.releasePush; split <;> rfl
@[simp] theorem State.releasePush_xl (s : State) (w : Nat) (p : PushRes) : (s.releasePush w p).xl = s.xl := by
  unfold State.releasePush; split <;> rfl
@[simp] theorem State.releasePush_landings (s : State) (w : Nat) (p : PushRes) : (s.releasePush w p).landings = s.landings := by
  unfold State.releasePush; split <;> rfl
@[simp] theorem State.releasePush_ticks (s : State) (w : Nat) (p : PushRes) : (s.releasePush w p).ticks = s.ticks := by
  unfold State.releasePush; split <;> rfl
@[simp] theorem State.releasePush_agenda (s : State) (w : Nat) (p : PushRes) : (s.releasePush w p).agenda = s.agenda := by
  unfold State.releasePush; split <;> rfl
@[simp] theorem State.releasePush_cur (s : State) (w : Nat) (p : PushRes) : (s.releasePush w p).cur = s.cur := by
  unfold State.releasePush; split <;> rfl
@[simp] theorem State.releasePush_curIdx (s : State) (w : Nat) (p : PushRes) : (s.releasePush w p).curIdx = s.curIdx := by
  unfold State.releasePush; split <;> rfl
@[simp] theorem State.releasePush_fresh (s : State) (w : Nat) (p : PushRes) : (s.releasePush w p).fresh = s.fresh := by
  unfold State.releasePush; split <;> rfl
@[simp] theorem State.releasePush_warps (s : State) (w : Nat) (p : PushRes) : (s.releasePush w p).warps = s.warps := by
  unfold State.releasePush; split <;> rfl

@[simp] theorem State.abortBlock_pkg (s : State) (w : Nat) : (s.abortBlock w).pkg = s.pkg := by
  unfold State.abortBlock
  split
  · rfl
  · simp [foldl_field (fun s => s.pkg) (fun s p => s.releasePush w p) (fun s p => s.releasePush_pkg w p)]
@[simp] theorem State.abortBlock_stake (s : State) (w : Nat) : (s.abortBlock w).stake = s.stake := by
  unfold State.abortBlock
  split
  · rfl
  · simp [foldl_field (fun s => s.stake) (fun s p => s.releasePush w p) (fun s p => s.releasePush_stake w p)]
@[simp] theorem State.abortBlock_dies (s : State) (w : Nat) : (s.abortBlock w).dies = s.dies := by
  unfold State.abortBlock
  split
  · rfl
  · simp [foldl_field (fun s => s.dies) (fun s p => s.releasePush w p) (fun s p => s.releasePush_dies w p)]
@[simp] theorem State.abortBlock_gangs (s : State) (w : Nat) : (s.abortBlock w).gangs = s.gangs := by
  unfold State.abortBlock
  split
  · rfl
  · simp [foldl_field (fun s => s.gangs) (fun s p => s.releasePush w p) (fun s p => s.releasePush_gangs w p)]
@[simp] theorem State.abortBlock_regions (s : State) (w : Nat) : (s.abortBlock w).regions = s.regions := by
  unfold State.abortBlock
  split
  · rfl
  · simp [foldl_field (fun s => s.regions) (fun s p => s.releasePush w p) (fun s p => s.releasePush_regions w p)]
@[simp] theorem State.abortBlock_grids (s : State) (w : Nat) : (s.abortBlock w).grids = s.grids := by
  unfold State.abortBlock
  split
  · rfl
  · simp [foldl_field (fun s => s.grids) (fun s p => s.releasePush w p) (fun s p => s.releasePush_grids w p)]
@[simp] theorem State.abortBlock_served (s : State) (w : Nat) : (s.abortBlock w).served = s.served := by
  unfold State.abortBlock
  split
  · rfl
  · simp [foldl_field (fun s => s.served) (fun s p => s.releasePush w p) (fun s p => s.releasePush_served w p)]
@[simp] theorem State.abortBlock_objs (s : State) (w : Nat) : (s.abortBlock w).objs = s.objs := by
  unfold State.abortBlock
  split
  · rfl
  · simp [foldl_field (fun s => s.objs) (fun s p => s.releasePush w p) (fun s p => s.releasePush_objs w p)]
@[simp] theorem State.abortBlock_mem (s : State) (w : Nat) : (s.abortBlock w).mem = s.mem := by
  unfold State.abortBlock
  split
  · rfl
  · simp [foldl_field (fun s => s.mem) (fun s p => s.releasePush w p) (fun s p => s.releasePush_mem w p)]
@[simp] theorem State.abortBlock_memPoison (s : State) (w : Nat) : (s.abortBlock w).memPoison = s.memPoison := by
  unfold State.abortBlock
  split
  · rfl
  · simp [foldl_field (fun s => s.memPoison) (fun s p => s.releasePush w p) (fun s p => s.releasePush_memPoison w p)]
@[simp] theorem State.abortBlock_xl (s : State) (w : Nat) : (s.abortBlock w).xl = s.xl := by
  unfold State.abortBlock
  split
  · rfl
  · simp [foldl_field (fun s => s.xl) (fun s p => s.releasePush w p) (fun s p => s.releasePush_xl w p)]
@[simp] theorem State.abortBlock_landings (s : State) (w : Nat) : (s.abortBlock w).landings = s.landings := by
  unfold State.abortBlock
  split
  · rfl
  · simp [foldl_field (fun s => s.landings) (fun s p => s.releasePush w p) (fun s p => s.releasePush_landings w p)]
@[simp] theorem State.abortBlock_ticks (s : State) (w : Nat) : (s.abortBlock w).ticks = s.ticks := by
  unfold State.abortBlock
  split
  · rfl
  · simp [foldl_field (fun s => s.ticks) (fun s p => s.releasePush w p) (fun s p => s.releasePush_ticks w p)]
@[simp] theorem State.abortBlock_agenda (s : State) (w : Nat) : (s.abortBlock w).agenda = s.agenda := by
  unfold State.abortBlock
  split
  · rfl
  · simp [foldl_field (fun s => s.agenda) (fun s p => s.releasePush w p) (fun s p => s.releasePush_agenda w p)]
@[simp] theorem State.abortBlock_cur (s : State) (w : Nat) : (s.abortBlock w).cur = s.cur := by
  unfold State.abortBlock
  split
  · rfl
  · simp [foldl_field (fun s => s.cur) (fun s p => s.releasePush w p) (fun s p => s.releasePush_cur w p)]
@[simp] theorem State.abortBlock_curIdx (s : State) (w : Nat) : (s.abortBlock w).curIdx = s.curIdx := by
  unfold State.abortBlock
  split
  · rfl
  · simp [foldl_field (fun s => s.curIdx) (fun s p => s.releasePush w p) (fun s p => s.releasePush_curIdx w p)]
@[simp] theorem State.abortBlock_fresh (s : State) (w : Nat) : (s.abortBlock w).fresh = s.fresh := by
  unfold State.abortBlock
  split
  · rfl
  · simp [foldl_field (fun s => s.fresh) (fun s p => s.releasePush w p) (fun s p => s.releasePush_fresh w p)]

/-- Aborting a block takes it from its warp and changes no other warp. -/
theorem State.abortBlock_warps (s : State) (w : Nat) (b : Blk) (h : s.blk? w = some b) :
    (s.abortBlock w).warps = s.warps.modify w fun x => { x with blk := none, unchecked := false } := by
  unfold State.abortBlock
  rw [h]
  simp [foldl_field (fun s => s.warps) (fun s p => s.releasePush w p) (fun s p => s.releasePush_warps w p)]

@[simp] theorem State.freeSeat_pkg (s : State) (w : Nat) : (s.freeSeat w).pkg = s.pkg := by
  unfold State.freeSeat; split <;> rfl
@[simp] theorem State.freeSeat_stake (s : State) (w : Nat) : (s.freeSeat w).stake = s.stake := by
  unfold State.freeSeat; split <;> rfl
@[simp] theorem State.freeSeat_dies (s : State) (w : Nat) : (s.freeSeat w).dies = s.dies := by
  unfold State.freeSeat; split <;> rfl
@[simp] theorem State.freeSeat_gangs (s : State) (w : Nat) : (s.freeSeat w).gangs = s.gangs := by
  unfold State.freeSeat; split <;> rfl
@[simp] theorem State.freeSeat_regions (s : State) (w : Nat) : (s.freeSeat w).regions = s.regions := by
  unfold State.freeSeat; split <;> rfl
@[simp] theorem State.freeSeat_grids (s : State) (w : Nat) : (s.freeSeat w).grids = s.grids := by
  unfold State.freeSeat; split <;> rfl
@[simp] theorem State.freeSeat_served (s : State) (w : Nat) : (s.freeSeat w).served = s.served := by
  unfold State.freeSeat; split <;> rfl
@[simp] theorem State.freeSeat_objs (s : State) (w : Nat) : (s.freeSeat w).objs = s.objs := by
  unfold State.freeSeat; split <;> rfl
@[simp] theorem State.freeSeat_mem (s : State) (w : Nat) : (s.freeSeat w).mem = s.mem := by
  unfold State.freeSeat; split <;> rfl
@[simp] theorem State.freeSeat_memPoison (s : State) (w : Nat) : (s.freeSeat w).memPoison = s.memPoison := by
  unfold State.freeSeat; split <;> rfl
@[simp] theorem State.freeSeat_xl (s : State) (w : Nat) : (s.freeSeat w).xl = s.xl := by
  unfold State.freeSeat; split <;> rfl
@[simp] theorem State.freeSeat_landings (s : State) (w : Nat) : (s.freeSeat w).landings = s.landings := by
  unfold State.freeSeat; split <;> rfl
@[simp] theorem State.freeSeat_ticks (s : State) (w : Nat) : (s.freeSeat w).ticks = s.ticks := by
  unfold State.freeSeat; split <;> rfl
@[simp] theorem State.freeSeat_agenda (s : State) (w : Nat) : (s.freeSeat w).agenda = s.agenda := by
  unfold State.freeSeat; split <;> rfl
@[simp] theorem State.freeSeat_cur (s : State) (w : Nat) : (s.freeSeat w).cur = s.cur := by
  unfold State.freeSeat; split <;> rfl
@[simp] theorem State.freeSeat_curIdx (s : State) (w : Nat) : (s.freeSeat w).curIdx = s.curIdx := by
  unfold State.freeSeat; split <;> rfl
@[simp] theorem State.freeSeat_fresh (s : State) (w : Nat) : (s.freeSeat w).fresh = s.fresh := by
  unfold State.freeSeat; split <;> rfl

@[simp] theorem State.fault_pkg (s : State) (w : Nat) (r : FRec) : (s.fault w r).pkg = s.pkg := by
  unfold State.fault; simp
@[simp] theorem State.fault_stake (s : State) (w : Nat) (r : FRec) : (s.fault w r).stake = s.stake := by
  unfold State.fault; simp
@[simp] theorem State.fault_dies (s : State) (w : Nat) (r : FRec) : (s.fault w r).dies = s.dies := by
  unfold State.fault; simp
@[simp] theorem State.fault_gangs (s : State) (w : Nat) (r : FRec) : (s.fault w r).gangs = s.gangs := by
  unfold State.fault; simp
@[simp] theorem State.fault_regions (s : State) (w : Nat) (r : FRec) : (s.fault w r).regions = s.regions := by
  unfold State.fault; simp
@[simp] theorem State.fault_grids (s : State) (w : Nat) (r : FRec) : (s.fault w r).grids = s.grids := by
  unfold State.fault; simp
@[simp] theorem State.fault_served (s : State) (w : Nat) (r : FRec) : (s.fault w r).served = s.served := by
  unfold State.fault; simp
@[simp] theorem State.fault_objs (s : State) (w : Nat) (r : FRec) : (s.fault w r).objs = s.objs := by
  unfold State.fault; simp
@[simp] theorem State.fault_mem (s : State) (w : Nat) (r : FRec) : (s.fault w r).mem = s.mem := by
  unfold State.fault; simp
@[simp] theorem State.fault_memPoison (s : State) (w : Nat) (r : FRec) : (s.fault w r).memPoison = s.memPoison := by
  unfold State.fault; simp
@[simp] theorem State.fault_xl (s : State) (w : Nat) (r : FRec) : (s.fault w r).xl = s.xl := by
  unfold State.fault; simp
@[simp] theorem State.fault_landings (s : State) (w : Nat) (r : FRec) : (s.fault w r).landings = s.landings := by
  unfold State.fault; simp
@[simp] theorem State.fault_ticks (s : State) (w : Nat) (r : FRec) : (s.fault w r).ticks = s.ticks := by
  unfold State.fault; simp
@[simp] theorem State.fault_agenda (s : State) (w : Nat) (r : FRec) : (s.fault w r).agenda = s.agenda := by
  unfold State.fault; simp
@[simp] theorem State.fault_cur (s : State) (w : Nat) (r : FRec) : (s.fault w r).cur = s.cur := by
  unfold State.fault; simp
@[simp] theorem State.fault_curIdx (s : State) (w : Nat) (r : FRec) : (s.fault w r).curIdx = s.curIdx := by
  unfold State.fault; simp
@[simp] theorem State.fault_fresh (s : State) (w : Nat) (r : FRec) : (s.fault w r).fresh = s.fresh := by
  unfold State.fault; simp

end Sys2Proof.Machine
end

