-- ==== Sys2Proof/Laws/Memory.lean ====
section
/-! SUPPORT. Every operation on a memory keeps its canonical form. -/

namespace Sys2Proof.Machine

/-- A lower bound may be lowered. -/
theorem wfFrom_mono (m : Memory) (lo hi : Nat) (h : lo ≤ hi) (hm : wfFrom hi m = true) : wfFrom lo m = true := by
  cases m with
  | nil => rfl
  | cons c r =>
    simp only [wfFrom, Bool.and_eq_true, decide_eq_true_eq] at hm ⊢
    exact ⟨⟨by omega, hm.1.2⟩, hm.2⟩

/-- Writing a byte keeps the form from any bound at or below its address. -/
theorem wfFrom_setByte (m : Memory) (lo a : Nat) (v : BitVec 8) (ha : lo ≤ a) (hm : wfFrom lo m = true) :
    wfFrom lo (setByte m a v) = true := by
  induction m generalizing lo with
  | nil => by_cases h : v = 0#8 <;> simp [setByte, wfFrom, h, ha]
  | cons c r ih =>
    obtain ⟨b, x⟩ := c
    simp only [wfFrom, Bool.and_eq_true, decide_eq_true_eq] at hm
    simp only [setByte]
    split
    · simp only [wfFrom, Bool.and_eq_true, decide_eq_true_eq]
      exact ⟨hm.1, ih (b + 1) (by omega) hm.2⟩
    · split
      · split
        · exact wfFrom_mono r lo (b + 1) (by omega) hm.2
        · rename_i h
          subst b
          simpa [wfFrom, ha, hm.2] using h
      · split
        · simp only [wfFrom, Bool.and_eq_true, decide_eq_true_eq]
          exact hm
        · simp only [wfFrom, Bool.and_eq_true, decide_eq_true_eq, bne_iff_ne, ne_eq]
          rename_i h
          exact ⟨⟨ha, h⟩, ⟨by omega, by simpa using hm.1.2⟩, hm.2⟩

/-- Writing a byte keeps the canonical form. -/
theorem Memory.wf_setByte (m : Memory) (a : Nat) (v : BitVec 8) (h : Memory.wf m = true) : Memory.wf (setByte m a v) = true :=
  wfFrom_setByte m 0 a v (Nat.zero_le a) h

/-- Writing bytes keeps the canonical form. -/
theorem Memory.wf_setBytes (m : Memory) (l : List (Nat × BitVec 8)) (h : Memory.wf m = true) : Memory.wf (setBytes m l) = true := by
  unfold setBytes
  induction l generalizing m with
  | nil => exact h
  | cons p r ih => exact ih _ (Memory.wf_setByte m p.1 p.2 h)

/-- Writing a 32-bit word keeps the canonical form. -/
theorem Memory.wf_setW32 (m : Memory) (a : Nat) (v : Lane) (h : Memory.wf m = true) : Memory.wf (setW32 m a v) = true :=
  Memory.wf_setBytes m _ h

/-- Writing a 64-bit word keeps the canonical form. -/
theorem Memory.wf_setW64 (m : Memory) (a : Nat) (v : Word) (h : Memory.wf m = true) : Memory.wf (setW64 m a v) = true :=
  Memory.wf_setBytes m _ h

/-- Dropping cells keeps the form from any bound. -/
theorem wfFrom_filter (m : Memory) (p : Host.Cell → Bool) (lo : Nat) (h : wfFrom lo m = true) : wfFrom lo (m.filter p) = true := by
  induction m generalizing lo with
  | nil => rfl
  | cons c r ih =>
    obtain ⟨b, x⟩ := c
    simp only [wfFrom, Bool.and_eq_true, decide_eq_true_eq] at h
    rw [List.filter_cons]
    split
    · simp only [wfFrom, Bool.and_eq_true, decide_eq_true_eq]
      exact ⟨h.1, ih (b + 1) h.2⟩
    · exact ih lo (wfFrom_mono r lo (b + 1) (by omega) h.2)

/-- Zeroing a physical range keeps the canonical form. -/
theorem Memory.wf_dropRange (m : Memory) (lo n : Nat) (h : Memory.wf m = true) : Memory.wf (dropRange m lo n) = true :=
  wfFrom_filter m _ 0 h

/-- Reset memory has the canonical form. -/
theorem reset_mem_wf : Memory.wf State.reset.mem = true := rfl

end Sys2Proof.Machine
end

