-- ==== Sys2Proof/Laws/PerInstr.lean ====
section
/-! SUPPORT. Laws stated of every instruction as syntax, one lemma per constructor. -/

open Sys2Proof

/-- An instruction has an encoding exactly when it is an instruction word; an event has neither an encoding nor a header. -/
def Sys2Proof.Laws.Encoding.Statement (i : Instr) : Prop :=
  (encode i).isSome = i.isWord ∧ (i.isWord = false → i.hdr? = none)

theorem Sys2Proof.Laws.Encoding.nop (x0 : Hdr) : Sys2Proof.Laws.Encoding.Statement (.nop x0) := ⟨rfl, fun h => nomatch h⟩
theorem Sys2Proof.Laws.Encoding.mov (x0 : Hdr) (x1 : Shape) : Sys2Proof.Laws.Encoding.Statement (.mov x0 x1) := ⟨rfl, fun h => nomatch h⟩
theorem Sys2Proof.Laws.Encoding.fan (x0 : Hdr) (x1 : Shape) (x2 : Target) (x3 : Target) : Sys2Proof.Laws.Encoding.Statement (.fan x0 x1 x2 x3) := ⟨rfl, fun h => nomatch h⟩
theorem Sys2Proof.Laws.Encoding.const (x0 : Hdr) (x1 : BitVec 28) : Sys2Proof.Laws.Encoding.Statement (.const x0 x1) := ⟨rfl, fun h => nomatch h⟩
theorem Sys2Proof.Laws.Encoding.consth (x0 : Hdr) (x1 : Bool) (x2 : BitVec 28) : Sys2Proof.Laws.Encoding.Statement (.consth x0 x1 x2) := ⟨rfl, fun h => nomatch h⟩
theorem Sys2Proof.Laws.Encoding.null (x0 : Hdr) : Sys2Proof.Laws.Encoding.Statement (.null x0) := ⟨rfl, fun h => nomatch h⟩
theorem Sys2Proof.Laws.Encoding.sadd (x0 : Hdr) (x1 : Option (BitVec 28)) : Sys2Proof.Laws.Encoding.Statement (.sadd x0 x1) := ⟨rfl, fun h => nomatch h⟩
theorem Sys2Proof.Laws.Encoding.ssub (x0 : Hdr) (x1 : Option (BitVec 28)) : Sys2Proof.Laws.Encoding.Statement (.ssub x0 x1) := ⟨rfl, fun h => nomatch h⟩
theorem Sys2Proof.Laws.Encoding.smul (x0 : Hdr) (x1 : Option (BitVec 28)) : Sys2Proof.Laws.Encoding.Statement (.smul x0 x1) := ⟨rfl, fun h => nomatch h⟩
theorem Sys2Proof.Laws.Encoding.smulh (x0 : Hdr) (x1 : Sgn) (x2 : Option (BitVec 28)) : Sys2Proof.Laws.Encoding.Statement (.smulh x0 x1 x2) := ⟨rfl, fun h => nomatch h⟩
theorem Sys2Proof.Laws.Encoding.sdiv (x0 : Hdr) (x1 : Sgn) (x2 : Option (BitVec 28)) : Sys2Proof.Laws.Encoding.Statement (.sdiv x0 x1 x2) := ⟨rfl, fun h => nomatch h⟩
theorem Sys2Proof.Laws.Encoding.srem (x0 : Hdr) (x1 : Sgn) (x2 : Option (BitVec 28)) : Sys2Proof.Laws.Encoding.Statement (.srem x0 x1 x2) := ⟨rfl, fun h => nomatch h⟩
theorem Sys2Proof.Laws.Encoding.sand (x0 : Hdr) (x1 : Option (BitVec 28)) : Sys2Proof.Laws.Encoding.Statement (.sand x0 x1) := ⟨rfl, fun h => nomatch h⟩
theorem Sys2Proof.Laws.Encoding.sor (x0 : Hdr) (x1 : Option (BitVec 28)) : Sys2Proof.Laws.Encoding.Statement (.sor x0 x1) := ⟨rfl, fun h => nomatch h⟩
theorem Sys2Proof.Laws.Encoding.sxor (x0 : Hdr) (x1 : Option (BitVec 28)) : Sys2Proof.Laws.Encoding.Statement (.sxor x0 x1) := ⟨rfl, fun h => nomatch h⟩
theorem Sys2Proof.Laws.Encoding.sshl (x0 : Hdr) (x1 : Option (BitVec 28)) : Sys2Proof.Laws.Encoding.Statement (.sshl x0 x1) := ⟨rfl, fun h => nomatch h⟩
theorem Sys2Proof.Laws.Encoding.sshr (x0 : Hdr) (x1 : Option (BitVec 28)) : Sys2Proof.Laws.Encoding.Statement (.sshr x0 x1) := ⟨rfl, fun h => nomatch h⟩
theorem Sys2Proof.Laws.Encoding.ssra (x0 : Hdr) (x1 : Option (BitVec 28)) : Sys2Proof.Laws.Encoding.Statement (.ssra x0 x1) := ⟨rfl, fun h => nomatch h⟩
theorem Sys2Proof.Laws.Encoding.smin (x0 : Hdr) (x1 : Sgn) (x2 : Option (BitVec 28)) : Sys2Proof.Laws.Encoding.Statement (.smin x0 x1 x2) := ⟨rfl, fun h => nomatch h⟩
theorem Sys2Proof.Laws.Encoding.smax (x0 : Hdr) (x1 : Sgn) (x2 : Option (BitVec 28)) : Sys2Proof.Laws.Encoding.Statement (.smax x0 x1 x2) := ⟨rfl, fun h => nomatch h⟩
theorem Sys2Proof.Laws.Encoding.lea (x0 : Hdr) (x1 : Fin 5) (x2 : Option (BitVec 28)) : Sys2Proof.Laws.Encoding.Statement (.lea x0 x1 x2) := ⟨rfl, fun h => nomatch h⟩
theorem Sys2Proof.Laws.Encoding.scmp (x0 : Hdr) (x1 : SCond) (x2 : Option (BitVec 28)) : Sys2Proof.Laws.Encoding.Statement (.scmp x0 x1 x2) := ⟨rfl, fun h => nomatch h⟩
theorem Sys2Proof.Laws.Encoding.ssel (x0 : Hdr) : Sys2Proof.Laws.Encoding.Statement (.ssel x0) := ⟨rfl, fun h => nomatch h⟩
theorem Sys2Proof.Laws.Encoding.sclz (x0 : Hdr) : Sys2Proof.Laws.Encoding.Statement (.sclz x0) := ⟨rfl, fun h => nomatch h⟩
theorem Sys2Proof.Laws.Encoding.spopc (x0 : Hdr) : Sys2Proof.Laws.Encoding.Statement (.spopc x0) := ⟨rfl, fun h => nomatch h⟩
theorem Sys2Proof.Laws.Encoding.kand (x0 : Hdr) (x1 : Option (BitVec 28)) : Sys2Proof.Laws.Encoding.Statement (.kand x0 x1) := ⟨rfl, fun h => nomatch h⟩
theorem Sys2Proof.Laws.Encoding.kor (x0 : Hdr) (x1 : Option (BitVec 28)) : Sys2Proof.Laws.Encoding.Statement (.kor x0 x1) := ⟨rfl, fun h => nomatch h⟩
theorem Sys2Proof.Laws.Encoding.kxor (x0 : Hdr) (x1 : Option (BitVec 28)) : Sys2Proof.Laws.Encoding.Statement (.kxor x0 x1) := ⟨rfl, fun h => nomatch h⟩
theorem Sys2Proof.Laws.Encoding.kandn (x0 : Hdr) (x1 : Option (BitVec 28)) : Sys2Proof.Laws.Encoding.Statement (.kandn x0 x1) := ⟨rfl, fun h => nomatch h⟩
theorem Sys2Proof.Laws.Encoding.kcnt (x0 : Hdr) : Sys2Proof.Laws.Encoding.Statement (.kcnt x0) := ⟨rfl, fun h => nomatch h⟩
theorem Sys2Proof.Laws.Encoding.kff (x0 : Hdr) : Sys2Proof.Laws.Encoding.Statement (.kff x0) := ⟨rfl, fun h => nomatch h⟩
theorem Sys2Proof.Laws.Encoding.kmov (x0 : Hdr) (x1 : Bool) : Sys2Proof.Laws.Encoding.Statement (.kmov x0 x1) := ⟨rfl, fun h => nomatch h⟩
theorem Sys2Proof.Laws.Encoding.vote (x0 : Hdr) (x1 : VoteForm) : Sys2Proof.Laws.Encoding.Statement (.vote x0 x1) := ⟨rfl, fun h => nomatch h⟩
theorem Sys2Proof.Laws.Encoding.sysrd (x0 : Hdr) (x1 : SysSel) (x2 : BitVec 16) : Sys2Proof.Laws.Encoding.Statement (.sysrd x0 x1 x2) := ⟨rfl, fun h => nomatch h⟩
theorem Sys2Proof.Laws.Encoding.fmtset (x0 : Hdr) (x1 : FmtForm) : Sys2Proof.Laws.Encoding.Statement (.fmtset x0 x1) := ⟨rfl, fun h => nomatch h⟩
theorem Sys2Proof.Laws.Encoding.fmtrd (x0 : Hdr) : Sys2Proof.Laws.Encoding.Statement (.fmtrd x0) := ⟨rfl, fun h => nomatch h⟩
theorem Sys2Proof.Laws.Encoding.bro (x0 : Hdr) (x1 : BitVec 24) : Sys2Proof.Laws.Encoding.Statement (.bro x0 x1) := ⟨rfl, fun h => nomatch h⟩
theorem Sys2Proof.Laws.Encoding.brx (x0 : Hdr) : Sys2Proof.Laws.Encoding.Statement (.brx x0) := ⟨rfl, fun h => nomatch h⟩
theorem Sys2Proof.Laws.Encoding.brv (x0 : Hdr) (x1 : BitVec 24) : Sys2Proof.Laws.Encoding.Statement (.brv x0 x1) := ⟨rfl, fun h => nomatch h⟩
theorem Sys2Proof.Laws.Encoding.call (x0 : Hdr) (x1 : BitVec 24) : Sys2Proof.Laws.Encoding.Statement (.call x0 x1) := ⟨rfl, fun h => nomatch h⟩
theorem Sys2Proof.Laws.Encoding.ret (x0 : Hdr) : Sys2Proof.Laws.Encoding.Statement (.ret x0) := ⟨rfl, fun h => nomatch h⟩
theorem Sys2Proof.Laws.Encoding.exit (x0 : Hdr) : Sys2Proof.Laws.Encoding.Statement (.exit x0) := ⟨rfl, fun h => nomatch h⟩
theorem Sys2Proof.Laws.Encoding.bar (x0 : Hdr) (x1 : Scope) (x2 : BitVec 16) : Sys2Proof.Laws.Encoding.Statement (.bar x0 x1 x2) := ⟨rfl, fun h => nomatch h⟩
theorem Sys2Proof.Laws.Encoding.yield (x0 : Hdr) : Sys2Proof.Laws.Encoding.Statement (.yield x0) := ⟨rfl, fun h => nomatch h⟩
theorem Sys2Proof.Laws.Encoding.trap (x0 : Hdr) (x1 : BitVec 8) (x2 : BitVec 16) : Sys2Proof.Laws.Encoding.Statement (.trap x0 x1 x2) := ⟨rfl, fun h => nomatch h⟩
theorem Sys2Proof.Laws.Encoding.brk (x0 : Hdr) (x1 : BitVec 16) : Sys2Proof.Laws.Encoding.Statement (.brk x0 x1) := ⟨rfl, fun h => nomatch h⟩
theorem Sys2Proof.Laws.Encoding.tlwait (x0 : Hdr) (x1 : Ctr) : Sys2Proof.Laws.Encoding.Statement (.tlwait x0 x1) := ⟨rfl, fun h => nomatch h⟩
theorem Sys2Proof.Laws.Encoding.vadd (x0 : Hdr) (x1 : VTy) (x2 : Option (BitVec 28)) : Sys2Proof.Laws.Encoding.Statement (.vadd x0 x1 x2) := ⟨rfl, fun h => nomatch h⟩
theorem Sys2Proof.Laws.Encoding.vsub (x0 : Hdr) (x1 : VTy) (x2 : Option (BitVec 28)) : Sys2Proof.Laws.Encoding.Statement (.vsub x0 x1 x2) := ⟨rfl, fun h => nomatch h⟩
theorem Sys2Proof.Laws.Encoding.vaddc (x0 : Hdr) (x1 : Option (BitVec 28)) : Sys2Proof.Laws.Encoding.Statement (.vaddc x0 x1) := ⟨rfl, fun h => nomatch h⟩
theorem Sys2Proof.Laws.Encoding.vsubb (x0 : Hdr) (x1 : Option (BitVec 28)) : Sys2Proof.Laws.Encoding.Statement (.vsubb x0 x1) := ⟨rfl, fun h => nomatch h⟩
theorem Sys2Proof.Laws.Encoding.vmul (x0 : Hdr) (x1 : VTy) (x2 : Option (BitVec 28)) : Sys2Proof.Laws.Encoding.Statement (.vmul x0 x1 x2) := ⟨rfl, fun h => nomatch h⟩
theorem Sys2Proof.Laws.Encoding.vmulh (x0 : Hdr) (x1 : VTy) (x2 : Option (BitVec 28)) : Sys2Proof.Laws.Encoding.Statement (.vmulh x0 x1 x2) := ⟨rfl, fun h => nomatch h⟩
theorem Sys2Proof.Laws.Encoding.vmulw (x0 : Hdr) (x1 : VTy) (x2 : Option (BitVec 28)) : Sys2Proof.Laws.Encoding.Statement (.vmulw x0 x1 x2) := ⟨rfl, fun h => nomatch h⟩
theorem Sys2Proof.Laws.Encoding.vmad (x0 : Hdr) (x1 : VTy) (x2 : Option (BitVec 28)) : Sys2Proof.Laws.Encoding.Statement (.vmad x0 x1 x2) := ⟨rfl, fun h => nomatch h⟩
theorem Sys2Proof.Laws.Encoding.vdiv (x0 : Hdr) (x1 : VTy) (x2 : Option (BitVec 28)) : Sys2Proof.Laws.Encoding.Statement (.vdiv x0 x1 x2) := ⟨rfl, fun h => nomatch h⟩
theorem Sys2Proof.Laws.Encoding.vrem (x0 : Hdr) (x1 : VTy) (x2 : Option (BitVec 28)) : Sys2Proof.Laws.Encoding.Statement (.vrem x0 x1 x2) := ⟨rfl, fun h => nomatch h⟩
theorem Sys2Proof.Laws.Encoding.vsqrt (x0 : Hdr) : Sys2Proof.Laws.Encoding.Statement (.vsqrt x0) := ⟨rfl, fun h => nomatch h⟩
theorem Sys2Proof.Laws.Encoding.vabs (x0 : Hdr) (x1 : VTy) : Sys2Proof.Laws.Encoding.Statement (.vabs x0 x1) := ⟨rfl, fun h => nomatch h⟩
theorem Sys2Proof.Laws.Encoding.vneg (x0 : Hdr) (x1 : VTy) : Sys2Proof.Laws.Encoding.Statement (.vneg x0 x1) := ⟨rfl, fun h => nomatch h⟩
theorem Sys2Proof.Laws.Encoding.vmin (x0 : Hdr) (x1 : VTy) (x2 : Option (BitVec 28)) : Sys2Proof.Laws.Encoding.Statement (.vmin x0 x1 x2) := ⟨rfl, fun h => nomatch h⟩
theorem Sys2Proof.Laws.Encoding.vmax (x0 : Hdr) (x1 : VTy) (x2 : Option (BitVec 28)) : Sys2Proof.Laws.Encoding.Statement (.vmax x0 x1 x2) := ⟨rfl, fun h => nomatch h⟩
theorem Sys2Proof.Laws.Encoding.vaddsat (x0 : Hdr) (x1 : VTy) (x2 : Option (BitVec 28)) : Sys2Proof.Laws.Encoding.Statement (.vaddsat x0 x1 x2) := ⟨rfl, fun h => nomatch h⟩
theorem Sys2Proof.Laws.Encoding.vsubsat (x0 : Hdr) (x1 : VTy) (x2 : Option (BitVec 28)) : Sys2Proof.Laws.Encoding.Statement (.vsubsat x0 x1 x2) := ⟨rfl, fun h => nomatch h⟩
theorem Sys2Proof.Laws.Encoding.vavg (x0 : Hdr) (x1 : VTy) (x2 : Option (BitVec 28)) : Sys2Proof.Laws.Encoding.Statement (.vavg x0 x1 x2) := ⟨rfl, fun h => nomatch h⟩
theorem Sys2Proof.Laws.Encoding.vabsd (x0 : Hdr) (x1 : VTy) (x2 : Option (BitVec 28)) : Sys2Proof.Laws.Encoding.Statement (.vabsd x0 x1 x2) := ⟨rfl, fun h => nomatch h⟩
theorem Sys2Proof.Laws.Encoding.vdot4 (x0 : Hdr) (x1 : VTy) (x2 : Option (BitVec 28)) : Sys2Proof.Laws.Encoding.Statement (.vdot4 x0 x1 x2) := ⟨rfl, fun h => nomatch h⟩
theorem Sys2Proof.Laws.Encoding.vscale (x0 : Hdr) (x1 : Option (BitVec 28)) : Sys2Proof.Laws.Encoding.Statement (.vscale x0 x1) := ⟨rfl, fun h => nomatch h⟩
theorem Sys2Proof.Laws.Encoding.vrint (x0 : Hdr) (x1 : Fin 6) : Sys2Proof.Laws.Encoding.Statement (.vrint x0 x1) := ⟨rfl, fun h => nomatch h⟩
theorem Sys2Proof.Laws.Encoding.vgetexp (x0 : Hdr) : Sys2Proof.Laws.Encoding.Statement (.vgetexp x0) := ⟨rfl, fun h => nomatch h⟩
theorem Sys2Proof.Laws.Encoding.vclass (x0 : Hdr) : Sys2Proof.Laws.Encoding.Statement (.vclass x0) := ⟨rfl, fun h => nomatch h⟩
theorem Sys2Proof.Laws.Encoding.vand (x0 : Hdr) (x1 : Option (BitVec 28)) : Sys2Proof.Laws.Encoding.Statement (.vand x0 x1) := ⟨rfl, fun h => nomatch h⟩
theorem Sys2Proof.Laws.Encoding.vor (x0 : Hdr) (x1 : Option (BitVec 28)) : Sys2Proof.Laws.Encoding.Statement (.vor x0 x1) := ⟨rfl, fun h => nomatch h⟩
theorem Sys2Proof.Laws.Encoding.vxor (x0 : Hdr) (x1 : Option (BitVec 28)) : Sys2Proof.Laws.Encoding.Statement (.vxor x0 x1) := ⟨rfl, fun h => nomatch h⟩
theorem Sys2Proof.Laws.Encoding.vnot (x0 : Hdr) : Sys2Proof.Laws.Encoding.Statement (.vnot x0) := ⟨rfl, fun h => nomatch h⟩
theorem Sys2Proof.Laws.Encoding.vshl (x0 : Hdr) (x1 : VTy) (x2 : Option (BitVec 28)) : Sys2Proof.Laws.Encoding.Statement (.vshl x0 x1 x2) := ⟨rfl, fun h => nomatch h⟩
theorem Sys2Proof.Laws.Encoding.vshr (x0 : Hdr) (x1 : VTy) (x2 : Option (BitVec 28)) : Sys2Proof.Laws.Encoding.Statement (.vshr x0 x1 x2) := ⟨rfl, fun h => nomatch h⟩
theorem Sys2Proof.Laws.Encoding.vsra (x0 : Hdr) (x1 : VTy) (x2 : Option (BitVec 28)) : Sys2Proof.Laws.Encoding.Statement (.vsra x0 x1 x2) := ⟨rfl, fun h => nomatch h⟩
theorem Sys2Proof.Laws.Encoding.vrotl (x0 : Hdr) (x1 : Option (BitVec 28)) : Sys2Proof.Laws.Encoding.Statement (.vrotl x0 x1) := ⟨rfl, fun h => nomatch h⟩
theorem Sys2Proof.Laws.Encoding.vclz (x0 : Hdr) : Sys2Proof.Laws.Encoding.Statement (.vclz x0) := ⟨rfl, fun h => nomatch h⟩
theorem Sys2Proof.Laws.Encoding.vpopc (x0 : Hdr) : Sys2Proof.Laws.Encoding.Statement (.vpopc x0) := ⟨rfl, fun h => nomatch h⟩
theorem Sys2Proof.Laws.Encoding.vbrev (x0 : Hdr) : Sys2Proof.Laws.Encoding.Statement (.vbrev x0) := ⟨rfl, fun h => nomatch h⟩
theorem Sys2Proof.Laws.Encoding.vcmp (x0 : Hdr) (x1 : VTy) (x2 : VCond) : Sys2Proof.Laws.Encoding.Statement (.vcmp x0 x1 x2) := ⟨rfl, fun h => nomatch h⟩
theorem Sys2Proof.Laws.Encoding.vsel (x0 : Hdr) (x1 : Option (BitVec 28)) : Sys2Proof.Laws.Encoding.Statement (.vsel x0 x1) := ⟨rfl, fun h => nomatch h⟩
theorem Sys2Proof.Laws.Encoding.vsplat (x0 : Hdr) (x1 : Bool) : Sys2Proof.Laws.Encoding.Statement (.vsplat x0 x1) := ⟨rfl, fun h => nomatch h⟩
theorem Sys2Proof.Laws.Encoding.vshfl (x0 : Hdr) (x1 : Option (BitVec 28)) : Sys2Proof.Laws.Encoding.Statement (.vshfl x0 x1) := ⟨rfl, fun h => nomatch h⟩
theorem Sys2Proof.Laws.Encoding.vbcast (x0 : Hdr) (x1 : Option (BitVec 28)) : Sys2Proof.Laws.Encoding.Statement (.vbcast x0 x1) := ⟨rfl, fun h => nomatch h⟩
theorem Sys2Proof.Laws.Encoding.vlrot (x0 : Hdr) (x1 : Option (BitVec 28)) : Sys2Proof.Laws.Encoding.Statement (.vlrot x0 x1) := ⟨rfl, fun h => nomatch h⟩
theorem Sys2Proof.Laws.Encoding.vcompress (x0 : Hdr) : Sys2Proof.Laws.Encoding.Statement (.vcompress x0) := ⟨rfl, fun h => nomatch h⟩
theorem Sys2Proof.Laws.Encoding.vexpand (x0 : Hdr) : Sys2Proof.Laws.Encoding.Statement (.vexpand x0) := ⟨rfl, fun h => nomatch h⟩
theorem Sys2Proof.Laws.Encoding.vcvt (x0 : Hdr) (x1 : VTy) (x2 : VTy) (x3 : Bool) (x4 : BitVec 2) : Sys2Proof.Laws.Encoding.Statement (.vcvt x0 x1 x2 x3 x4) := ⟨rfl, fun h => nomatch h⟩
theorem Sys2Proof.Laws.Encoding.vencb (x0 : Hdr) (x1 : BFmt) (x2 : Option BtType) : Sys2Proof.Laws.Encoding.Statement (.vencb x0 x1 x2) := ⟨rfl, fun h => nomatch h⟩
theorem Sys2Proof.Laws.Encoding.vdecb (x0 : Hdr) (x1 : BFmt) : Sys2Proof.Laws.Encoding.Statement (.vdecb x0 x1) := ⟨rfl, fun h => nomatch h⟩
theorem Sys2Proof.Laws.Encoding.vexp2 (x0 : Hdr) : Sys2Proof.Laws.Encoding.Statement (.vexp2 x0) := ⟨rfl, fun h => nomatch h⟩
theorem Sys2Proof.Laws.Encoding.vlog2 (x0 : Hdr) : Sys2Proof.Laws.Encoding.Statement (.vlog2 x0) := ⟨rfl, fun h => nomatch h⟩
theorem Sys2Proof.Laws.Encoding.vrcp (x0 : Hdr) : Sys2Proof.Laws.Encoding.Statement (.vrcp x0) := ⟨rfl, fun h => nomatch h⟩
theorem Sys2Proof.Laws.Encoding.vrsqrt (x0 : Hdr) : Sys2Proof.Laws.Encoding.Statement (.vrsqrt x0) := ⟨rfl, fun h => nomatch h⟩
theorem Sys2Proof.Laws.Encoding.vsin (x0 : Hdr) (x1 : Bool) : Sys2Proof.Laws.Encoding.Statement (.vsin x0 x1) := ⟨rfl, fun h => nomatch h⟩
theorem Sys2Proof.Laws.Encoding.vcos (x0 : Hdr) (x1 : Bool) : Sys2Proof.Laws.Encoding.Statement (.vcos x0 x1) := ⟨rfl, fun h => nomatch h⟩
theorem Sys2Proof.Laws.Encoding.vred (x0 : Hdr) (x1 : VTy) (x2 : RedOp) : Sys2Proof.Laws.Encoding.Statement (.vred x0 x1 x2) := ⟨rfl, fun h => nomatch h⟩
theorem Sys2Proof.Laws.Encoding.vscan (x0 : Hdr) (x1 : VTy) (x2 : Bool) (x3 : RedOp) : Sys2Proof.Laws.Encoding.Statement (.vscan x0 x1 x2 x3) := ⟨rfl, fun h => nomatch h⟩
theorem Sys2Proof.Laws.Encoding.mmode (x0 : Hdr) (x1 : Bool) (x2 : Bool) (x3 : BitVec 8) (x4 : BitVec 8) : Sys2Proof.Laws.Encoding.Statement (.mmode x0 x1 x2 x3 x4) := ⟨rfl, fun h => nomatch h⟩
theorem Sys2Proof.Laws.Encoding.mzero (x0 : Hdr) (x1 : Bool) (x2 : Bool) : Sys2Proof.Laws.Encoding.Statement (.mzero x0 x1 x2) := ⟨rfl, fun h => nomatch h⟩
theorem Sys2Proof.Laws.Encoding.mma (x0 : Hdr) (x1 : Bool) (x2 : BitVec 8) : Sys2Proof.Laws.Encoding.Statement (.mma x0 x1 x2) := ⟨rfl, fun h => nomatch h⟩
theorem Sys2Proof.Laws.Encoding.mmar (x0 : Hdr) (x1 : BitVec 8) (x2 : BitVec 5) : Sys2Proof.Laws.Encoding.Statement (.mmar x0 x1 x2) := ⟨rfl, fun h => nomatch h⟩
theorem Sys2Proof.Laws.Encoding.mmax (x0 : Hdr) (x1 : Bool) : Sys2Proof.Laws.Encoding.Statement (.mmax x0 x1) := ⟨rfl, fun h => nomatch h⟩
theorem Sys2Proof.Laws.Encoding.mexp (x0 : Hdr) (x1 : Bool) : Sys2Proof.Laws.Encoding.Statement (.mexp x0 x1) := ⟨rfl, fun h => nomatch h⟩
theorem Sys2Proof.Laws.Encoding.mrescale (x0 : Hdr) (x1 : Bool) : Sys2Proof.Laws.Encoding.Statement (.mrescale x0 x1) := ⟨rfl, fun h => nomatch h⟩
theorem Sys2Proof.Laws.Encoding.mld (x0 : Hdr) (x1 : Bool) (x2 : MPart) : Sys2Proof.Laws.Encoding.Statement (.mld x0 x1 x2) := ⟨rfl, fun h => nomatch h⟩
theorem Sys2Proof.Laws.Encoding.mst (x0 : Hdr) (x1 : Bool) (x2 : MPart) (x3 : SFmt) : Sys2Proof.Laws.Encoding.Statement (.mst x0 x1 x2 x3) := ⟨rfl, fun h => nomatch h⟩
theorem Sys2Proof.Laws.Encoding.ld (x0 : Hdr) (x1 : MFields) (x2 : VTy) : Sys2Proof.Laws.Encoding.Statement (.ld x0 x1 x2) := ⟨rfl, fun h => nomatch h⟩
theorem Sys2Proof.Laws.Encoding.st (x0 : Hdr) (x1 : MFields) (x2 : VTy) : Sys2Proof.Laws.Encoding.Statement (.st x0 x1 x2) := ⟨rfl, fun h => nomatch h⟩
theorem Sys2Proof.Laws.Encoding.lds (x0 : Hdr) (x1 : MFields) (x2 : LdWidth) : Sys2Proof.Laws.Encoding.Statement (.lds x0 x1 x2) := ⟨rfl, fun h => nomatch h⟩
theorem Sys2Proof.Laws.Encoding.sts (x0 : Hdr) (x1 : MFields) (x2 : StWidth) : Sys2Proof.Laws.Encoding.Statement (.sts x0 x1 x2) := ⟨rfl, fun h => nomatch h⟩
theorem Sys2Proof.Laws.Encoding.spld (x0 : Hdr) (x1 : MFields) (x2 : VTy) : Sys2Proof.Laws.Encoding.Statement (.spld x0 x1 x2) := ⟨rfl, fun h => nomatch h⟩
theorem Sys2Proof.Laws.Encoding.spst (x0 : Hdr) (x1 : MFields) (x2 : VTy) : Sys2Proof.Laws.Encoding.Statement (.spst x0 x1 x2) := ⟨rfl, fun h => nomatch h⟩
theorem Sys2Proof.Laws.Encoding.spldq (x0 : Hdr) (x1 : MFields) (x2 : VTy) : Sys2Proof.Laws.Encoding.Statement (.spldq x0 x1 x2) := ⟨rfl, fun h => nomatch h⟩
theorem Sys2Proof.Laws.Encoding.spstq (x0 : Hdr) (x1 : MFields) (x2 : VTy) : Sys2Proof.Laws.Encoding.Statement (.spstq x0 x1 x2) := ⟨rfl, fun h => nomatch h⟩
theorem Sys2Proof.Laws.Encoding.prefetch (x0 : Hdr) (x1 : MFields) (x2 : Bool) : Sys2Proof.Laws.Encoding.Statement (.prefetch x0 x1 x2) := ⟨rfl, fun h => nomatch h⟩
theorem Sys2Proof.Laws.Encoding.atom (x0 : Hdr) (x1 : MFields) (x2 : AtomOp) : Sys2Proof.Laws.Encoding.Statement (.atom x0 x1 x2) := ⟨rfl, fun h => nomatch h⟩
theorem Sys2Proof.Laws.Encoding.red (x0 : Hdr) (x1 : MFields) (x2 : AtomOp) : Sys2Proof.Laws.Encoding.Statement (.red x0 x1 x2) := ⟨rfl, fun h => nomatch h⟩
theorem Sys2Proof.Laws.Encoding.vmatch (x0 : Hdr) : Sys2Proof.Laws.Encoding.Statement (.vmatch x0) := ⟨rfl, fun h => nomatch h⟩
theorem Sys2Proof.Laws.Encoding.fence (x0 : Hdr) (x1 : Scope) (x2 : Bool) : Sys2Proof.Laws.Encoding.Statement (.fence x0 x1 x2) := ⟨rfl, fun h => nomatch h⟩
theorem Sys2Proof.Laws.Encoding.tlrd (x0 : Hdr) (x1 : TlrdForm) (x2 : Ctr) : Sys2Proof.Laws.Encoding.Statement (.tlrd x0 x1 x2) := ⟨rfl, fun h => nomatch h⟩
theorem Sys2Proof.Laws.Encoding.push (x0 : Hdr) (x1 : Fin 7) (x2 : PushQ) : Sys2Proof.Laws.Encoding.Statement (.push x0 x1 x2) := ⟨rfl, fun h => nomatch h⟩
theorem Sys2Proof.Laws.Encoding.stroke (x0 : Hdr) (x1 : Bool) : Sys2Proof.Laws.Encoding.Statement (.stroke x0 x1) := ⟨rfl, fun h => nomatch h⟩
theorem Sys2Proof.Laws.Encoding.tkrd (x0 : Hdr) (x1 : TkSel) : Sys2Proof.Laws.Encoding.Statement (.tkrd x0 x1) := ⟨rfl, fun h => nomatch h⟩
theorem Sys2Proof.Laws.Encoding.tsend (x0 : Hdr) (x1 : BitVec 25) : Sys2Proof.Laws.Encoding.Statement (.tsend x0 x1) := ⟨rfl, fun h => nomatch h⟩
theorem Sys2Proof.Laws.Encoding.trecv (x0 : Hdr) (x1 : BitVec 25) : Sys2Proof.Laws.Encoding.Statement (.trecv x0 x1) := ⟨rfl, fun h => nomatch h⟩
theorem Sys2Proof.Laws.Encoding.syswr (x0 : Hdr) (x1 : SysReg) : Sys2Proof.Laws.Encoding.Statement (.syswr x0 x1) := ⟨rfl, fun h => nomatch h⟩
theorem Sys2Proof.Laws.Encoding.cachectlWb (x0 : Hdr) : Sys2Proof.Laws.Encoding.Statement (.cachectlWb x0) := ⟨rfl, fun h => nomatch h⟩
theorem Sys2Proof.Laws.Encoding.cachectlWbinv (x0 : Hdr) : Sys2Proof.Laws.Encoding.Statement (.cachectlWbinv x0) := ⟨rfl, fun h => nomatch h⟩
theorem Sys2Proof.Laws.Encoding.cachectlL1inv (x0 : Hdr) : Sys2Proof.Laws.Encoding.Statement (.cachectlL1inv x0) := ⟨rfl, fun h => nomatch h⟩
theorem Sys2Proof.Laws.Encoding.perfctlRd (x0 : Hdr) (x1 : BitVec 16) : Sys2Proof.Laws.Encoding.Statement (.perfctlRd x0 x1) := ⟨rfl, fun h => nomatch h⟩
theorem Sys2Proof.Laws.Encoding.perfctlCfg (x0 : Hdr) (x1 : BitVec 16) : Sys2Proof.Laws.Encoding.Statement (.perfctlCfg x0 x1) := ⟨rfl, fun h => nomatch h⟩
theorem Sys2Proof.Laws.Encoding.perfctlClr (x0 : Hdr) (x1 : BitVec 16) : Sys2Proof.Laws.Encoding.Statement (.perfctlClr x0 x1) := ⟨rfl, fun h => nomatch h⟩
theorem Sys2Proof.Laws.Encoding.ctxctlTrrd (x0 : Hdr) : Sys2Proof.Laws.Encoding.Statement (.ctxctlTrrd x0) := ⟨rfl, fun h => nomatch h⟩
theorem Sys2Proof.Laws.Encoding.ctxctlTret (x0 : Hdr) : Sys2Proof.Laws.Encoding.Statement (.ctxctlTret x0) := ⟨rfl, fun h => nomatch h⟩
theorem Sys2Proof.Laws.Encoding.eret (x0 : Hdr) : Sys2Proof.Laws.Encoding.Statement (.eret x0) := ⟨rfl, fun h => nomatch h⟩
theorem Sys2Proof.Laws.Encoding.hint (x0 : BitVec 4) (x1 : BitVec 4) (x2 : BitVec 29) : Sys2Proof.Laws.Encoding.Statement (.hint x0 x1 x2) := ⟨rfl, fun h => nomatch h⟩
theorem Sys2Proof.Laws.Encoding.blockFetch (x0 : Nat) : Sys2Proof.Laws.Encoding.Statement (.blockFetch x0) := ⟨rfl, fun _ => rfl⟩
theorem Sys2Proof.Laws.Encoding.blockCommit (x0 : Nat) : Sys2Proof.Laws.Encoding.Statement (.blockCommit x0) := ⟨rfl, fun _ => rfl⟩
theorem Sys2Proof.Laws.Encoding.blockQuiescent (x0 : Nat) : Sys2Proof.Laws.Encoding.Statement (.blockQuiescent x0) := ⟨rfl, fun _ => rfl⟩
theorem Sys2Proof.Laws.Encoding.barrierComplete (x0 : Scope) (x1 : Nat) (x2 : Nat) : Sys2Proof.Laws.Encoding.Statement (.barrierComplete x0 x1 x2) := ⟨rfl, fun _ => rfl⟩
theorem Sys2Proof.Laws.Encoding.tlwaitResume (x0 : Nat) : Sys2Proof.Laws.Encoding.Statement (.tlwaitResume x0) := ⟨rfl, fun _ => rfl⟩
theorem Sys2Proof.Laws.Encoding.strokeBoundaryExit (x0 : Nat) : Sys2Proof.Laws.Encoding.Statement (.strokeBoundaryExit x0) := ⟨rfl, fun _ => rfl⟩
theorem Sys2Proof.Laws.Encoding.seatHandover (x0 : Nat) (x1 : Nat) (x2 : Nat) : Sys2Proof.Laws.Encoding.Statement (.seatHandover x0 x1 x2) := ⟨rfl, fun _ => rfl⟩
theorem Sys2Proof.Laws.Encoding.accessHeldTimeout (x0 : Nat) : Sys2Proof.Laws.Encoding.Statement (.accessHeldTimeout x0) := ⟨rfl, fun _ => rfl⟩
theorem Sys2Proof.Laws.Encoding.seatTenureExpiry (x0 : Nat) : Sys2Proof.Laws.Encoding.Statement (.seatTenureExpiry x0) := ⟨rfl, fun _ => rfl⟩
theorem Sys2Proof.Laws.Encoding.warpAccessComplete (x0 : Nat) : Sys2Proof.Laws.Encoding.Statement (.warpAccessComplete x0) := ⟨rfl, fun _ => rfl⟩
theorem Sys2Proof.Laws.Encoding.launch (x0 : Nat) : Sys2Proof.Laws.Encoding.Statement (.launch x0) := ⟨rfl, fun _ => rfl⟩
theorem Sys2Proof.Laws.Encoding.submissionWindowWrite (x0 : Nat) (x1 : List (BitVec 64)) : Sys2Proof.Laws.Encoding.Statement (.submissionWindowWrite x0 x1) := ⟨rfl, fun _ => rfl⟩
theorem Sys2Proof.Laws.Encoding.launchPlacement : Sys2Proof.Laws.Encoding.Statement (.launchPlacement) := ⟨rfl, fun _ => rfl⟩
theorem Sys2Proof.Laws.Encoding.effectivePriorityRise (x0 : Nat) : Sys2Proof.Laws.Encoding.Statement (.effectivePriorityRise x0) := ⟨rfl, fun _ => rfl⟩
theorem Sys2Proof.Laws.Encoding.timedLaunchStart (x0 : Nat) : Sys2Proof.Laws.Encoding.Statement (.timedLaunchStart x0) := ⟨rfl, fun _ => rfl⟩
theorem Sys2Proof.Laws.Encoding.preemptGang (x0 : Nat) : Sys2Proof.Laws.Encoding.Statement (.preemptGang x0) := ⟨rfl, fun _ => rfl⟩
theorem Sys2Proof.Laws.Encoding.preemptBlockTimeout (x0 : Nat) : Sys2Proof.Laws.Encoding.Statement (.preemptBlockTimeout x0) := ⟨rfl, fun _ => rfl⟩
theorem Sys2Proof.Laws.Encoding.preemptDrained (x0 : Nat) : Sys2Proof.Laws.Encoding.Statement (.preemptDrained x0) := ⟨rfl, fun _ => rfl⟩
theorem Sys2Proof.Laws.Encoding.contextSwitch (x0 : Nat) (x1 : Nat) : Sys2Proof.Laws.Encoding.Statement (.contextSwitch x0 x1) := ⟨rfl, fun _ => rfl⟩
theorem Sys2Proof.Laws.Encoding.gangResume (x0 : Nat) : Sys2Proof.Laws.Encoding.Statement (.gangResume x0) := ⟨rfl, fun _ => rfl⟩
theorem Sys2Proof.Laws.Encoding.teamComplete (x0 : Nat) : Sys2Proof.Laws.Encoding.Statement (.teamComplete x0) := ⟨rfl, fun _ => rfl⟩
theorem Sys2Proof.Laws.Encoding.gridComplete (x0 : Nat) : Sys2Proof.Laws.Encoding.Statement (.gridComplete x0) := ⟨rfl, fun _ => rfl⟩
theorem Sys2Proof.Laws.Encoding.copy2d (x0 : Nat) : Sys2Proof.Laws.Encoding.Statement (.copy2d x0) := ⟨rfl, fun _ => rfl⟩
theorem Sys2Proof.Laws.Encoding.copy3d (x0 : Nat) : Sys2Proof.Laws.Encoding.Statement (.copy3d x0) := ⟨rfl, fun _ => rfl⟩
theorem Sys2Proof.Laws.Encoding.gather (x0 : Nat) : Sys2Proof.Laws.Encoding.Statement (.gather x0) := ⟨rfl, fun _ => rfl⟩
theorem Sys2Proof.Laws.Encoding.scatter (x0 : Nat) : Sys2Proof.Laws.Encoding.Statement (.scatter x0) := ⟨rfl, fun _ => rfl⟩
theorem Sys2Proof.Laws.Encoding.fill (x0 : Nat) : Sys2Proof.Laws.Encoding.Statement (.fill x0) := ⟨rfl, fun _ => rfl⟩
theorem Sys2Proof.Laws.Encoding.preloadL2 (x0 : Nat) : Sys2Proof.Laws.Encoding.Statement (.preloadL2 x0) := ⟨rfl, fun _ => rfl⟩
theorem Sys2Proof.Laws.Encoding.copyChunk (x0 : Nat) (x1 : Nat) : Sys2Proof.Laws.Encoding.Statement (.copyChunk x0 x1) := ⟨rfl, fun _ => rfl⟩
theorem Sys2Proof.Laws.Encoding.commandComplete (x0 : CtrRef) (x1 : Nat) : Sys2Proof.Laws.Encoding.Statement (.commandComplete x0 x1) := ⟨rfl, fun _ => rfl⟩
theorem Sys2Proof.Laws.Encoding.timedCopyStart (x0 : Nat) (x1 : Nat) : Sys2Proof.Laws.Encoding.Statement (.timedCopyStart x0 x1) := ⟨rfl, fun _ => rfl⟩
theorem Sys2Proof.Laws.Encoding.allreduce (x0 : Nat) : Sys2Proof.Laws.Encoding.Statement (.allreduce x0) := ⟨rfl, fun _ => rfl⟩
theorem Sys2Proof.Laws.Encoding.reducescatter (x0 : Nat) : Sys2Proof.Laws.Encoding.Statement (.reducescatter x0) := ⟨rfl, fun _ => rfl⟩
theorem Sys2Proof.Laws.Encoding.allgather (x0 : Nat) : Sys2Proof.Laws.Encoding.Statement (.allgather x0) := ⟨rfl, fun _ => rfl⟩
theorem Sys2Proof.Laws.Encoding.broadcast (x0 : Nat) : Sys2Proof.Laws.Encoding.Statement (.broadcast x0) := ⟨rfl, fun _ => rfl⟩
theorem Sys2Proof.Laws.Encoding.barrier (x0 : Nat) : Sys2Proof.Laws.Encoding.Statement (.barrier x0) := ⟨rfl, fun _ => rfl⟩
theorem Sys2Proof.Laws.Encoding.collectiveTimeout (x0 : Nat) (x1 : Nat) : Sys2Proof.Laws.Encoding.Statement (.collectiveTimeout x0 x1) := ⟨rfl, fun _ => rfl⟩
theorem Sys2Proof.Laws.Encoding.collectiveAbortReceived (x0 : Nat) (x1 : Nat) (x2 : Nat) : Sys2Proof.Laws.Encoding.Statement (.collectiveAbortReceived x0 x1 x2) := ⟨rfl, fun _ => rfl⟩
theorem Sys2Proof.Laws.Encoding.collectivePacketReceived (x0 : Nat) (x1 : Nat) (x2 : Nat) (x3 : Nat) (x4 : BitVec 64) (x5 : Nat) (x6 : Nat) (x7 : List (BitVec 32)) : Sys2Proof.Laws.Encoding.Statement (.collectivePacketReceived x0 x1 x2 x3 x4 x5 x6 x7) := ⟨rfl, fun _ => rfl⟩
theorem Sys2Proof.Laws.Encoding.groupEnd (x0 : Nat) (x1 : Nat) : Sys2Proof.Laws.Encoding.Statement (.groupEnd x0 x1) := ⟨rfl, fun _ => rfl⟩
theorem Sys2Proof.Laws.Encoding.groupWashComplete (x0 : Nat) (x1 : Nat) : Sys2Proof.Laws.Encoding.Statement (.groupWashComplete x0 x1) := ⟨rfl, fun _ => rfl⟩
theorem Sys2Proof.Laws.Encoding.groupDefine (x0 : Nat) (x1 : Nat) (x2 : BitVec 64) (x3 : BitVec 64) : Sys2Proof.Laws.Encoding.Statement (.groupDefine x0 x1 x2 x3) := ⟨rfl, fun _ => rfl⟩
theorem Sys2Proof.Laws.Encoding.remoteRequestTimeout (x0 : Nat) : Sys2Proof.Laws.Encoding.Statement (.remoteRequestTimeout x0) := ⟨rfl, fun _ => rfl⟩
theorem Sys2Proof.Laws.Encoding.tsendTransferStart (x0 : Nat) : Sys2Proof.Laws.Encoding.Statement (.tsendTransferStart x0) := ⟨rfl, fun _ => rfl⟩
theorem Sys2Proof.Laws.Encoding.transferLanded (x0 : Nat) : Sys2Proof.Laws.Encoding.Statement (.transferLanded x0) := ⟨rfl, fun _ => rfl⟩
theorem Sys2Proof.Laws.Encoding.trecvWindowMiss (x0 : Nat) (x1 : Nat) : Sys2Proof.Laws.Encoding.Statement (.trecvWindowMiss x0 x1) := ⟨rfl, fun _ => rfl⟩
theorem Sys2Proof.Laws.Encoding.trecvCopyDone (x0 : Nat) (x1 : Nat) : Sys2Proof.Laws.Encoding.Statement (.trecvCopyDone x0 x1) := ⟨rfl, fun _ => rfl⟩
theorem Sys2Proof.Laws.Encoding.loadDataReturn (x0 : Nat) (x1 : Nat) : Sys2Proof.Laws.Encoding.Statement (.loadDataReturn x0 x1) := ⟨rfl, fun _ => rfl⟩
theorem Sys2Proof.Laws.Encoding.dieCacheRequest (x0 : Nat) : Sys2Proof.Laws.Encoding.Statement (.dieCacheRequest x0) := ⟨rfl, fun _ => rfl⟩
theorem Sys2Proof.Laws.Encoding.dieCacheFillArrival (x0 : Nat) : Sys2Proof.Laws.Encoding.Statement (.dieCacheFillArrival x0) := ⟨rfl, fun _ => rfl⟩
theorem Sys2Proof.Laws.Encoding.storeAcknowledge (x0 : Nat) : Sys2Proof.Laws.Encoding.Statement (.storeAcknowledge x0) := ⟨rfl, fun _ => rfl⟩
theorem Sys2Proof.Laws.Encoding.l1ClockAdvance (x0 : Nat) (x1 : Nat) : Sys2Proof.Laws.Encoding.Statement (.l1ClockAdvance x0 x1) := ⟨rfl, fun _ => rfl⟩
theorem Sys2Proof.Laws.Encoding.throughLineExpiry (x0 : Nat) (x1 : Nat) (x2 : Nat) (x3 : Nat) : Sys2Proof.Laws.Encoding.Statement (.throughLineExpiry x0 x1 x2 x3) := ⟨rfl, fun _ => rfl⟩
theorem Sys2Proof.Laws.Encoding.leaseWrapAround (x0 : Nat) : Sys2Proof.Laws.Encoding.Statement (.leaseWrapAround x0) := ⟨rfl, fun _ => rfl⟩
theorem Sys2Proof.Laws.Encoding.promoteRequest (x0 : Nat) : Sys2Proof.Laws.Encoding.Statement (.promoteRequest x0) := ⟨rfl, fun _ => rfl⟩
theorem Sys2Proof.Laws.Encoding.gets (x0 : Nat) : Sys2Proof.Laws.Encoding.Statement (.gets x0) := ⟨rfl, fun _ => rfl⟩
theorem Sys2Proof.Laws.Encoding.getm (x0 : Nat) : Sys2Proof.Laws.Encoding.Statement (.getm x0) := ⟨rfl, fun _ => rfl⟩
theorem Sys2Proof.Laws.Encoding.putm (x0 : Nat) : Sys2Proof.Laws.Encoding.Statement (.putm x0) := ⟨rfl, fun _ => rfl⟩
theorem Sys2Proof.Laws.Encoding.puts (x0 : Nat) : Sys2Proof.Laws.Encoding.Statement (.puts x0) := ⟨rfl, fun _ => rfl⟩
theorem Sys2Proof.Laws.Encoding.fwdgets (x0 : Nat) : Sys2Proof.Laws.Encoding.Statement (.fwdgets x0) := ⟨rfl, fun _ => rfl⟩
theorem Sys2Proof.Laws.Encoding.fwdgetm (x0 : Nat) : Sys2Proof.Laws.Encoding.Statement (.fwdgetm x0) := ⟨rfl, fun _ => rfl⟩
theorem Sys2Proof.Laws.Encoding.inv (x0 : Nat) : Sys2Proof.Laws.Encoding.Statement (.inv x0) := ⟨rfl, fun _ => rfl⟩
theorem Sys2Proof.Laws.Encoding.resp (x0 : Nat) : Sys2Proof.Laws.Encoding.Statement (.resp x0) := ⟨rfl, fun _ => rfl⟩
theorem Sys2Proof.Laws.Encoding.invack (x0 : Nat) : Sys2Proof.Laws.Encoding.Statement (.invack x0) := ⟨rfl, fun _ => rfl⟩
theorem Sys2Proof.Laws.Encoding.data (x0 : Nat) : Sys2Proof.Laws.Encoding.Statement (.data x0) := ⟨rfl, fun _ => rfl⟩
theorem Sys2Proof.Laws.Encoding.wback (x0 : Nat) : Sys2Proof.Laws.Encoding.Statement (.wback x0) := ⟨rfl, fun _ => rfl⟩
theorem Sys2Proof.Laws.Encoding.coxRead (x0 : Nat) (x1 : Nat) : Sys2Proof.Laws.Encoding.Statement (.coxRead x0 x1) := ⟨rfl, fun _ => rfl⟩
theorem Sys2Proof.Laws.Encoding.coxEviction (x0 : Nat) (x1 : Nat) : Sys2Proof.Laws.Encoding.Statement (.coxEviction x0 x1) := ⟨rfl, fun _ => rfl⟩
theorem Sys2Proof.Laws.Encoding.coxWrite (x0 : Nat) (x1 : Nat) (x2 : List (BitVec 8)) : Sys2Proof.Laws.Encoding.Statement (.coxWrite x0 x1 x2) := ⟨rfl, fun _ => rfl⟩
theorem Sys2Proof.Laws.Encoding.refresh (x0 : Nat) : Sys2Proof.Laws.Encoding.Statement (.refresh x0) := ⟨rfl, fun _ => rfl⟩
theorem Sys2Proof.Laws.Encoding.tickExchangeSend (x0 : Nat) : Sys2Proof.Laws.Encoding.Statement (.tickExchangeSend x0) := ⟨rfl, fun _ => rfl⟩
theorem Sys2Proof.Laws.Encoding.tickExchangeReceive (x0 : Nat) : Sys2Proof.Laws.Encoding.Statement (.tickExchangeReceive x0) := ⟨rfl, fun _ => rfl⟩
theorem Sys2Proof.Laws.Encoding.timelineLost (x0 : Nat) : Sys2Proof.Laws.Encoding.Statement (.timelineLost x0) := ⟨rfl, fun _ => rfl⟩
theorem Sys2Proof.Laws.Encoding.clockStepChange : Sys2Proof.Laws.Encoding.Statement (.clockStepChange) := ⟨rfl, fun _ => rfl⟩
theorem Sys2Proof.Laws.Encoding.droopTickStretch (x0 : Nat) : Sys2Proof.Laws.Encoding.Statement (.droopTickStretch x0) := ⟨rfl, fun _ => rfl⟩
theorem Sys2Proof.Laws.Encoding.junctionHot : Sys2Proof.Laws.Encoding.Statement (.junctionHot) := ⟨rfl, fun _ => rfl⟩
theorem Sys2Proof.Laws.Encoding.junctionCool : Sys2Proof.Laws.Encoding.Statement (.junctionCool) := ⟨rfl, fun _ => rfl⟩
theorem Sys2Proof.Laws.Encoding.thermalTrip : Sys2Proof.Laws.Encoding.Statement (.thermalTrip) := ⟨rfl, fun _ => rfl⟩
theorem Sys2Proof.Laws.Encoding.powerOn (x0 : Bool) : Sys2Proof.Laws.Encoding.Statement (.powerOn x0) := ⟨rfl, fun _ => rfl⟩
theorem Sys2Proof.Laws.Encoding.bringUpStageComplete (x0 : Option (BitVec 8)) : Sys2Proof.Laws.Encoding.Statement (.bringUpStageComplete x0) := ⟨rfl, fun _ => rfl⟩
theorem Sys2Proof.Laws.Encoding.setPowerCap (x0 : Nat) : Sys2Proof.Laws.Encoding.Statement (.setPowerCap x0) := ⟨rfl, fun _ => rfl⟩
theorem Sys2Proof.Laws.Encoding.clearThermalTrip : Sys2Proof.Laws.Encoding.Statement (.clearThermalTrip) := ⟨rfl, fun _ => rfl⟩
theorem Sys2Proof.Laws.Encoding.stageFirmwareUpdate (x0 : Nat) : Sys2Proof.Laws.Encoding.Statement (.stageFirmwareUpdate x0) := ⟨rfl, fun _ => rfl⟩
theorem Sys2Proof.Laws.Encoding.misroutedPacket (x0 : Nat) : Sys2Proof.Laws.Encoding.Statement (.misroutedPacket x0) := ⟨rfl, fun _ => rfl⟩
theorem Sys2Proof.Laws.Encoding.lqctlWrite (x0 : Nat) (x1 : BitVec 64) : Sys2Proof.Laws.Encoding.Statement (.lqctlWrite x0 x1) := ⟨rfl, fun _ => rfl⟩
theorem Sys2Proof.Laws.Encoding.lqstatWrite (x0 : Nat) (x1 : BitVec 64) : Sys2Proof.Laws.Encoding.Statement (.lqstatWrite x0 x1) := ⟨rfl, fun _ => rfl⟩
theorem Sys2Proof.Laws.Encoding.lscfgWrite (x0 : Nat) (x1 : BitVec 64) : Sys2Proof.Laws.Encoding.Statement (.lscfgWrite x0 x1) := ⟨rfl, fun _ => rfl⟩
theorem Sys2Proof.Laws.Encoding.contextBlockWrite (x0 : Nat) (x1 : BitVec 64) : Sys2Proof.Laws.Encoding.Statement (.contextBlockWrite x0 x1) := ⟨rfl, fun _ => rfl⟩
theorem Sys2Proof.Laws.Encoding.blockTableSwap (x0 : Nat) (x1 : Nat) (x2 : Nat) (x3 : Nat) : Sys2Proof.Laws.Encoding.Statement (.blockTableSwap x0 x1 x2 x3) := ⟨rfl, fun _ => rfl⟩
theorem Sys2Proof.Laws.Encoding.systemRegisterWrite (x0 : SysReg) (x1 : BitVec 64) : Sys2Proof.Laws.Encoding.Statement (.systemRegisterWrite x0 x1) := ⟨rfl, fun _ => rfl⟩
theorem Sys2Proof.Laws.Encoding.map (x0 : Nat) (x1 : List (BitVec 64)) : Sys2Proof.Laws.Encoding.Statement (.map x0 x1) := ⟨rfl, fun _ => rfl⟩
theorem Sys2Proof.Laws.Encoding.unmap (x0 : Nat) (x1 : List (BitVec 64)) : Sys2Proof.Laws.Encoding.Statement (.unmap x0 x1) := ⟨rfl, fun _ => rfl⟩
theorem Sys2Proof.Laws.Encoding.protect (x0 : Nat) (x1 : List (BitVec 64)) : Sys2Proof.Laws.Encoding.Statement (.protect x0 x1) := ⟨rfl, fun _ => rfl⟩
theorem Sys2Proof.Laws.Encoding.pageWalk (x0 : Nat) (x1 : Nat) : Sys2Proof.Laws.Encoding.Statement (.pageWalk x0 x1) := ⟨rfl, fun _ => rfl⟩
theorem Sys2Proof.Laws.Encoding.ctxCreate (x0 : Nat) : Sys2Proof.Laws.Encoding.Statement (.ctxCreate x0) := ⟨rfl, fun _ => rfl⟩
theorem Sys2Proof.Laws.Encoding.ctxDestroy (x0 : Nat) : Sys2Proof.Laws.Encoding.Statement (.ctxDestroy x0) := ⟨rfl, fun _ => rfl⟩
theorem Sys2Proof.Laws.Encoding.frameAssign (x0 : Nat) (x1 : Nat) (x2 : Nat) (x3 : Nat) (x4 : Nat) : Sys2Proof.Laws.Encoding.Statement (.frameAssign x0 x1 x2 x3 x4) := ⟨rfl, fun _ => rfl⟩
theorem Sys2Proof.Laws.Encoding.frameReclaim (x0 : Nat) (x1 : Nat) (x2 : Nat) : Sys2Proof.Laws.Encoding.Statement (.frameReclaim x0 x1 x2) := ⟨rfl, fun _ => rfl⟩
theorem Sys2Proof.Laws.Encoding.homeSet (x0 : Nat) (x1 : Nat) (x2 : BitVec 64) : Sys2Proof.Laws.Encoding.Statement (.homeSet x0 x1 x2) := ⟨rfl, fun _ => rfl⟩
theorem Sys2Proof.Laws.Encoding.windowCreate (x0 : Nat) (x1 : List Nat) (x2 : List (BitVec 64)) : Sys2Proof.Laws.Encoding.Statement (.windowCreate x0 x1 x2) := ⟨rfl, fun _ => rfl⟩
theorem Sys2Proof.Laws.Encoding.windowJoin (x0 : Nat) (x1 : Nat) : Sys2Proof.Laws.Encoding.Statement (.windowJoin x0 x1) := ⟨rfl, fun _ => rfl⟩
theorem Sys2Proof.Laws.Encoding.windowLeave (x0 : Nat) (x1 : Nat) : Sys2Proof.Laws.Encoding.Statement (.windowLeave x0 x1) := ⟨rfl, fun _ => rfl⟩
theorem Sys2Proof.Laws.Encoding.exportSet (x0 : Nat) (x1 : List (Nat × Nat)) : Sys2Proof.Laws.Encoding.Statement (.exportSet x0 x1) := ⟨rfl, fun _ => rfl⟩
theorem Sys2Proof.Laws.Encoding.measureExtend (x0 : MeasReg) (x1 : BitVec 512) : Sys2Proof.Laws.Encoding.Statement (.measureExtend x0 x1) := ⟨rfl, fun _ => rfl⟩
theorem Sys2Proof.Laws.Encoding.attest (x0 : BitVec 512) (x1 : Option Nat) : Sys2Proof.Laws.Encoding.Statement (.attest x0 x1) := ⟨rfl, fun _ => rfl⟩
theorem Sys2Proof.Laws.Encoding.debugUnlock (x0 : BitVec 512) : Sys2Proof.Laws.Encoding.Statement (.debugUnlock x0) := ⟨rfl, fun _ => rfl⟩
theorem Sys2Proof.Laws.Encoding.faultRecordPost : Sys2Proof.Laws.Encoding.Statement (.faultRecordPost) := ⟨rfl, fun _ => rfl⟩
theorem Sys2Proof.Laws.Encoding.faultQueueRecheck (x0 : Nat) : Sys2Proof.Laws.Encoding.Statement (.faultQueueRecheck x0) := ⟨rfl, fun _ => rfl⟩
theorem Sys2Proof.Laws.Encoding.retry (x0 : Nat) (x1 : Nat) : Sys2Proof.Laws.Encoding.Statement (.retry x0 x1) := ⟨rfl, fun _ => rfl⟩
theorem Sys2Proof.Laws.Encoding.resumeAt (x0 : Nat) (x1 : Nat) (x2 : Nat) : Sys2Proof.Laws.Encoding.Statement (.resumeAt x0 x1 x2) := ⟨rfl, fun _ => rfl⟩
theorem Sys2Proof.Laws.Encoding.retire (x0 : Nat) (x1 : Nat) : Sys2Proof.Laws.Encoding.Statement (.retire x0 x1) := ⟨rfl, fun _ => rfl⟩
theorem Sys2Proof.Laws.Encoding.retryUnchecked (x0 : Nat) (x1 : Nat) : Sys2Proof.Laws.Encoding.Statement (.retryUnchecked x0 x1) := ⟨rfl, fun _ => rfl⟩
theorem Sys2Proof.Laws.Encoding.stop (x0 : Nat) (x1 : Nat) : Sys2Proof.Laws.Encoding.Statement (.stop x0 x1) := ⟨rfl, fun _ => rfl⟩
theorem Sys2Proof.Laws.Encoding.umpireHazard (x0 : Nat) (x1 : Nat) (x2 : Nat) (x3 : Nat) : Sys2Proof.Laws.Encoding.Statement (.umpireHazard x0 x1 x2 x3) := ⟨rfl, fun _ => rfl⟩
theorem Sys2Proof.Laws.Encoding.correctedError (x0 : ErrPlace) : Sys2Proof.Laws.Encoding.Statement (.correctedError x0) := ⟨rfl, fun _ => rfl⟩
theorem Sys2Proof.Laws.Encoding.uncorrectableError (x0 : ErrPlace) : Sys2Proof.Laws.Encoding.Statement (.uncorrectableError x0) := ⟨rfl, fun _ => rfl⟩
theorem Sys2Proof.Laws.Encoding.linkCrcError (x0 : LinkPlace) (x1 : Bool) : Sys2Proof.Laws.Encoding.Statement (.linkCrcError x0 x1) := ⟨rfl, fun _ => rfl⟩
theorem Sys2Proof.Laws.Encoding.coreFenced (x0 : Nat) (x1 : Nat) : Sys2Proof.Laws.Encoding.Statement (.coreFenced x0 x1) := ⟨rfl, fun _ => rfl⟩
theorem Sys2Proof.Laws.Encoding.frameMarked (x0 : Nat) (x1 : Nat) : Sys2Proof.Laws.Encoding.Statement (.frameMarked x0 x1) := ⟨rfl, fun _ => rfl⟩
theorem Sys2Proof.Laws.Encoding.linkHalfWidth (x0 : Nat) : Sys2Proof.Laws.Encoding.Statement (.linkHalfWidth x0) := ⟨rfl, fun _ => rfl⟩
theorem Sys2Proof.Laws.Encoding.dieFenced (x0 : Nat) : Sys2Proof.Laws.Encoding.Statement (.dieFenced x0) := ⟨rfl, fun _ => rfl⟩
theorem Sys2Proof.Laws.Encoding.pcieLinkDown : Sys2Proof.Laws.Encoding.Statement (.pcieLinkDown) := ⟨rfl, fun _ => rfl⟩
theorem Sys2Proof.Laws.Encoding.packagePowerAtCap (x0 : Bool) : Sys2Proof.Laws.Encoding.Statement (.packagePowerAtCap x0) := ⟨rfl, fun _ => rfl⟩
theorem Sys2Proof.Laws.Encoding.remoteRequestReceived (x0 : Nat) (x1 : Nat) (x2 : Nat) (x3 : Nat) (x4 : RemoteOp) : Sys2Proof.Laws.Encoding.Statement (.remoteRequestReceived x0 x1 x2 x3 x4) := ⟨rfl, fun _ => rfl⟩
theorem Sys2Proof.Laws.Encoding.timelineLostPersists (x0 : Nat) : Sys2Proof.Laws.Encoding.Statement (.timelineLostPersists x0) := ⟨rfl, fun _ => rfl⟩
theorem Sys2Proof.Laws.Encoding.codeObjectLoad (x0 : Nat) (x1 : Nat) (x2 : Nat) (x3 : List (BitVec 8)) (x4 : Nat) : Sys2Proof.Laws.Encoding.Statement (.codeObjectLoad x0 x1 x2 x3 x4) := ⟨rfl, fun _ => rfl⟩
theorem Sys2Proof.Laws.Encoding.codeObjectUnload (x0 : Nat) (x1 : Nat) : Sys2Proof.Laws.Encoding.Statement (.codeObjectUnload x0 x1) := ⟨rfl, fun _ => rfl⟩
end

