-- ==== Sys2Proof/Laws/Step.lean ====
section
/-! SUPPORT. What each activity of the agenda makes of a step, that time changes clocks only, and that a write to a scratchpad changes
no memory, warp or cache. -/

namespace Sys2Proof.Machine

/-! The step, activity by activity. -/

/-- What is due comes before a tick, and the agenda waits. -/
theorem State.pass_due (s t : State) (r : List Activity) (f : State → State) (h : s.due? = some t) : s.pass r f = .next t := by
  simp only [State.pass, h]

/-- With nothing due, the clocks go on. -/
theorem State.pass_clear (s : State) (r : List Activity) (f : State → State) (h : s.due? = none) :
    s.pass r f = .next (f { s.noteEligible with agenda := r }) := by
  simp only [State.pass, h]

theorem step_idle (s : State) (h : s.agenda = []) : step s = s.pass [] State.tick := by simp only [step, h]

theorem step_fire (s : State) (w i : Nat) (r : List Activity) (h : s.agenda = .fire w i :: r) :
    step s = State.fire { s with agenda := r } w i := by
  simp only [step, h]

theorem step_event (s : State) (i : Instr) (r : List Activity) (h : s.agenda = .event i :: r) (hi : i.isWord = false) :
    step s = exec i { s with agenda := r } := by
  simp only [step, h, hi, Bool.false_eq_true, if_false]

theorem step_spad (s : State) (t n : Nat) (part : List Nat) (r : List Activity) (h : s.agenda = .spad t n part :: r) :
    step s = .next (State.spadDrain { s with agenda := r } t n part) := by
  simp only [step, h]

/-- Firing in a block with that word runs the instruction that the word decodes to, where it may issue. -/
theorem State.fire_decodes (s : State) (w idx : Nat) (b : Blk) (x : BitVec 64) (i : Instr) (hb : s.blk? w = some b)
    (hx : b.words[idx]? = some x) (hd : decode x = .ok i) (hm : s.mayIssue w b idx = true) : s.fire w idx = exec i (s.focus w b idx) := by
  simp only [State.fire, hb, hx, hd, hm, Bool.not_true, Bool.false_eq_true, if_false]

/-- Outside the schedule of a timed launch every instruction may issue, and no class is taken. -/
theorem State.issue_free (s : State) (w : Nat) (b : Blk) (k : Nat) (h : s.scheduled w b = false) :
    s.mayIssue w b k = true ∧ s.focus w b k = { s with cur := w, curIdx := k } := by
  have e : State.scheduled { s with cur := w, curIdx := k } w b = false := h
  simp only [State.mayIssue, State.focus, h, e, Bool.not_false, Bool.true_or, Bool.false_eq_true, if_false, and_self]

/-! Time. -/

/-- One tick of every clock leaves all but the counts, the dies and the cores. -/
theorem State.tick_only (s : State) : ∃ k d c, s.tick = { s with stake := k, dies := d, cores := c } := by
  unfold State.tick
  split
  · exact ⟨_, _, _, rfl⟩
  · exact ⟨s.stake, s.dies, s.cores, rfl⟩

/-- So does one tick of one die. -/
theorem State.dieClock_only (s : State) (c : Nat) (y : Die) : ∃ d k, s.dieClock c y = { s with dies := d, cores := k } := by
  unfold State.dieClock
  split
  · exact ⟨s.dies, s.cores, rfl⟩
  · exact ⟨_, _, rfl⟩

/-- And one tick of one clock. -/
theorem State.clock_only (s : State) (c : Nat) : ∃ k d l, s.clock c = { s with stake := k, dies := d, cores := l } := by
  unfold State.clock
  split
  · exact ⟨s.stake, s.dies, s.cores, rfl⟩
  split
  · split
    · exact ⟨_, _, _, rfl⟩
    · exact ⟨s.stake, s.dies, s.cores, rfl⟩
  · obtain ⟨d, l, h⟩ := s.dieClock_only c ((s.die c).tick s.stake)
    exact ⟨s.stake, d, l, h⟩

/-- A tick in which a die steers leaves all but the dies and the cores. -/
theorem State.steer_only (s : State) (c : Nat) (up : Bool) : ∃ d l, s.steer c up = { s with dies := d, cores := l } := by
  unfold State.steer
  by_cases h : (s.pkg.up.clocked && decide (c < 8) && (s.die c).may && (s.die c).lost.isNone && decide (apart
      ((s.die c).advance (if up then 2 else 0)).recon s.stake ≤ max 1 (apart (s.die c).recon s.stake))) = true
  · simp only [h, if_true]
    exact s.dieClock_only c _
  · simp only [h]
    exact ⟨s.dies, s.cores, rfl⟩

/-! Writes to a scratchpad. -/

/-- A write to a scratchpad that takes place changes teams, and what a transfer under way sends. -/
theorem State.spadPut_only (s : State) (t : Nat) (e : SpPend) :
    ∃ x l n, s.spadPut t e = { s with teams := x, landings := l, fresh := n } := by
  unfold State.spadPut
  simp only
  split
  · exact ⟨_, s.landings, s.fresh, rfl⟩
  · exact ⟨_, _, _, rfl⟩

/-- So does one that is made. -/
theorem State.spadSend_only (s : State) (t : Nat) (e : SpPend) :
    ∃ x l n, s.spadSend t e = { s with teams := x, landings := l, fresh := n } := by
  unfold State.spadSend
  split
  · exact s.spadPut_only t e
  · exact ⟨_, s.landings, s.fresh, rfl⟩

/-- And one that becomes visible. -/
theorem State.spadDrain_only (s : State) (t n : Nat) (part : List Nat) :
    ∃ x l k, s.spadDrain t n part = { s with teams := x, landings := l, fresh := k } := by
  unfold State.spadDrain
  split
  · exact ⟨s.teams, s.landings, s.fresh, rfl⟩
  split
  · exact ⟨s.teams, s.landings, s.fresh, rfl⟩
  · simp only
    obtain ⟨x, l, k, h⟩ := s.spadPut_only t _
    exact ⟨_, l, k, (congrArg (State.modTeam · t _) h).trans rfl⟩

/-- In a launch that is not timed, a write waits at the end of its team's list (R212). -/
theorem State.spadSend_waits (s : State) (t : Nat) (e : SpPend) (h : (s.grid (s.teamPlace t).grid).launch.timed = false) :
    s.spadSend t e = s.modTeam t fun x => { x with pend := x.pend ++ [e] } := by
  simp only [State.spadSend, h, Bool.false_eq_true, if_false]

/-- In a timed launch it takes place at once (R182). -/
theorem State.spadSend_timed (s : State) (t : Nat) (e : SpPend) (h : (s.grid (s.teamPlace t).grid).launch.timed = true) :
    s.spadSend t e = s.spadPut t e := by
  simp only [State.spadSend, h, if_true]

end Sys2Proof.Machine
end

