-- ==== Sys2Proof/Tests/Slice0.lean ====
section
/-! SUPPORT. Tests: decoding by words written out from the encoding tables, ill-formed terms refused, single steps with results from the
spec, and for every statement with premises a state and operands that meet them. -/

namespace Sys2Proof.Tests

set_option Elab.async false

open Sys2Proof Sys2Proof.Machine

/-! States. -/

/-- A package that is up, with one warp of context 0 that has a block of one `nop`. -/
def up0 : State := { State.reset.withFetchWord 64 0 with agenda := [], pkg := { State.reset.pkg with up := .ready } }

/-- Page tables of context 0 at die 0: page 0 may be read and written, page 1 read and fetched, and frame 2 is free to map. -/
def mapped : State := { up0 with xl := {
  homeMap := [(0, 0x8000000000000000)],
  roots := [(0, 0, 0xFC0000000)],
  tables := [⟨0, 0, 0xFC0000000, 4096⟩, ⟨0, 0, 0xFC0001000, 4096⟩, ⟨0, 0, 0xFC0002000, 4096⟩, ⟨0, 0, 0xFC0003000, 256⟩],
  pte := [(0xFC0000000, 0x8000000FC0001000), (0xFC0001000, 0x8000000FC0002000), (0xFC0002000, 0x8000000FC0003000),
    (0xFC0003000, 0xF000000000000000), (0xFC0003008, 0xE800000000010000)],
  frames := [(0, 0xC0000000), (1, 0xC0000000), (2, 0x80000000)],
  tlb := [⟨0, 0, 0, 16, 0xF000000000000000⟩] } }

/-- `up0` with the words of a map request's mailbox left at 0. -/
def noReq : List Word := [0, 0, 0, 0]

/-- A window on granule 5. -/
def win1 : Window := ⟨1, [(5, 0x8100000000000000)], [3]⟩

/-- Context 3 has joined that window. -/
def windowed : State := { up0.modCtx 3 fun c => { c with st := .active } with xl := { windows := [win1] } }

/-! Firing one instruction. -/

/-- A header with one target, write slot 0. -/
def hd : Hdr := ⟨.always, .out 0, .none⟩

/-- A header without targets. -/
def hn : Hdr := ⟨.always, .none, .none⟩

/-- The fields of a plain access of kind `.wt`. -/
def m0 : MFields := ⟨0, .wt, .warp, .plain, 0⟩

/-- The fields of an atomic of core scope. -/
def mA : MFields := ⟨0, .wt, .core, .plain, 0⟩

/-- The fields of a scratchpad access. -/
def mS : MFields := ⟨0, .own, .warp, .plain, 0⟩

/-- A value of a shape. -/
def tok : Shape → Token
  | .scalar => .s 0
  | .vector => .v []
  | .mask => .k 1

/-- The values that an instruction waits for, where `a`, when given, is the one for its slot a. -/
def feed (i : Instr) (a : Option Token) : List (Nat × Slot × Token) :=
  (i.sig.a.map fun sh => (0, Slot.a, a.getD (tok sh))).toList ++ (i.sig.b.map fun sh => (0, Slot.b, tok sh)).toList ++
    (i.sig.c.map fun sh => (0, Slot.c, tok sh)).toList

/-- Warp 0 of `s` about to fire `i`, the only instruction of its block, with `a` in slot a. -/
def firingOn (s : State) (i : Instr) (a : Option Token) : State :=
  { s.modBlk 0 fun b => { b with words := [(encode i).getD 0], ops := feed i a } with cur := 0, curIdx := 0 }

/-- The same with ordinary operands. -/
def firing (s : State) (i : Instr) : State := firingOn s i none

/-- The block that the step issues from. -/
def blkOf (s : State) : Blk := (s.issuing?).getD default

/-- What it holds in the slots of instruction 0. -/
def argsOf (s : State) : Args := ⟨((blkOf s).opnd? 0 .a).getD .null, ((blkOf s).opnd? 0 .b).getD .null, ((blkOf s).opnd? 0 .c).getD .null⟩

/-- `i` is well formed and fires in the state that `firingOn` makes of `s`, and there `ok` holds of its block and operands. -/
def firesOn (s : State) (a : Option Token) (i : Instr) (ok : State → Blk → Args → Bool) : Bool :=
  let t := firingOn s i a
  decide (i.wf = true ∧ t.Fires i (blkOf t) (argsOf t)) && ok t (blkOf t) (argsOf t)

/-- The same with ordinary operands. -/
def fires (s : State) (i : Instr) (ok : State → Blk → Args → Bool) : Bool := firesOn s none i ok

/-- A state that passes that check meets the premises of a statement about firing. -/
theorem fires_sound {s : State} {a : Option Token} {i : Instr} {ok : State → Blk → Args → Bool} (h : firesOn s a i ok = true) :
    i.wf = true ∧ ∃ t b x, State.Fires t i b x ∧ ok t b x = true :=
  have h := Bool.and_eq_true_iff.mp h
  have g := of_decide_eq_true h.1
  ⟨g.1, _, _, _, g.2, h.2⟩

/-- The same in the tick of step `k` of a matrix instruction: in its first tick it fires, later ticks go on with it. -/
def ticks (s : State) (i : Instr) (k : Nat) (ok : State → Blk → Args → Bool) : Bool :=
  let t := (firing s i).modBlk 0 fun b => if k = 0 then b else { b with run := some (0, k) }
  let b := blkOf t
  decide (i.wf = true ∧ t.Ticks i b (argsOf t) k (if k = 0 then t.marked b else b)) && ok t b (argsOf t)

/-- The instruction takes effect whatever the block holds. -/
def always : State → Blk → Args → Bool := fun _ _ _ => true

/-- The targets of `i` are open. -/
def takes (i : Instr) : State → Blk → Args → Bool := fun _ b _ => decide (b.Takes (Instr.header i))

/-- Every instruction of `l` fires with open targets. -/
def delivers (l : List Instr) : Bool := l.all fun i => fires up0 i (takes i)

/-- The lanes of an access lie within 2^48, on multiples of `n`, and are translated. -/
def reach (s : State) (acc : Acc) (rqt : Rqt) (n : Nat) (l : List (Nat × Nat)) : Bool := l.all fun p =>
  decide (p.2 < 2 ^ 48 ∧ p.2 % n = 0) && match s.transWarp (s.place s.cur).ctx acc rqt p.2 with
    | .ok _ _ _ => true
    | _ => false

/-- Such lanes reach their words. -/
theorem reach_sound {s : State} {acc : Acc} {rqt : Rqt} {n : Nat} {l : List (Nat × Nat)} (h : reach s acc rqt n l = true) :
    s.Reaches acc rqt n l := by
  intro p hp
  have h := List.all_eq_true.mp h p hp
  rw [Bool.and_eq_true, decide_eq_true_eq] at h
  refine ⟨h.1.1, h.1.2, .inl ?_⟩
  have h := h.2
  split at h
  · exact ⟨_, _, _, by assumption⟩
  · exact absurd h (by simp)

/-- `up0` with its block changed. -/
def blkUp (f : Blk → Blk) : State := up0.modBlk 0 f

/-- `up0` with what its block has left for the commit changed. -/
def defUp (f : Deferred → Deferred) : State := blkUp fun b => { b with deferred := f b.deferred }

/-- `up0` with the launch in context 1. -/
def inCtx1 : State := { up0 with grids := up0.grids.map fun g => { g with ctx := 1 } }

/-- `mapped` with 1 KiB of scratchpad for team 0. -/
def spadded : State := mapped.modTeam 0 fun t => { t with alloc := 1024 }

/-- `mapped` with one live lane in the block. -/
def one1 : State := mapped.modBlk 0 fun b => { b with live0 := 1 }

/-- `up0` with the registers of two matrix windows. -/
def wide : State := up0.modWarp 0 fun x => { x with v := List.replicate 138 [] }

/-- A translation is a protection fault, a page fault at a home and space, or an address. -/
def isProt : TRes → Bool
  | .prot => true
  | _ => false

/-- The home and space of a page fault. -/
def pageOf : TRes → Option (Nat × Nat)
  | .page h sp => some (h, sp)
  | _ => none

/-- A translation is an address. -/
def isOk : TRes → Bool
  | .ok _ _ _ => true
  | _ => false

/-! Premises of the statements about instructions that fire. -/

/-- The premises of `Obligations.MovingAndBuildingValues` can be met. -/
theorem witness_MovingAndBuildingValues :
    delivers [.mov hd .scalar, .const hd 5, .consth hd false 5, .consth hd true 5, .null hd] = true ∧ fires up0 (.nop hn) always = true ∧
    fires up0 (.fan hd .scalar .none .none) (fun _ b _ => decide (b.Takes hd ∧ b.open .none = true ∧
      ∀ t ∈ [hd.t0, hd.t1, .none, .none], t = .none ∨ [hd.t0, hd.t1, .none, .none].count t = 1)) = true := by decide +kernel

/-- The premises of `Obligations.ScalarInstructions` can be met. -/
theorem witness_ScalarInstructions : delivers [.sadd hd none, .ssub hd none, .smul hd none, .smulh hd .i64 none, .smulh hd .n64 none,
    .sdiv hd .i64 none, .sdiv hd .n64 none, .srem hd .i64 none, .srem hd .n64 none, .sand hd none, .sor hd none, .sxor hd none,
    .sshl hd none, .sshr hd none, .ssra hd none, .smin hd .i64 none, .smin hd .n64 none, .smax hd .i64 none, .smax hd .n64 none,
    .lea hd 3 none, .scmp hd .lt none] = true := by decide +kernel

/-- The premises of `Obligations.MasksVoteAndSysrd` can be met. -/
theorem witness_MasksVoteAndSysrd : delivers [.kand hd none, .kor hd none, .kxor hd none, .kandn hd none, .kcnt hd, .kff hd, .vote hd .any,
    .vote hd .all, .vote hd .uni, .vote hd .ballot, .sysrd hd .laneid 0, .sysrd hd .warpid 0, .sysrd hd .live 0, .sysrd hd .tickl 0,
    .sysrd hd .tickr 0, .sysrd hd .wst 0, .sysrd hd .ctxid 0, .sysrd hd .feat3 0, .sysrd hd .linklat 7, .sysrd hd .wstclr 0,
    .ctxctlTrrd hd] = true := by decide +kernel

/-- The premises of `Obligations.ElementArithmetic` can be met. -/
theorem witness_ElementArithmetic : delivers [.vadd hd .i32 none, .vsub hd .i32 none, .vaddc hd none, .vsubb hd none, .vmul hd .i32 none,
    .vmulh hd .i32 none, .vmulw hd .i32 none, .vmad hd .i32 none, .vdiv hd .i32 none, .vrem hd .i32 none, .vsqrt hd, .vabs hd .i32,
    .vneg hd .i32, .vmin hd .i32 none, .vmax hd .i32 none, .vaddsat hd .i32 none, .vsubsat hd .i32 none, .vavg hd .i32 none,
    .vabsd hd .i32 none, .vdot4 hd .i8x4 none, .vscale hd none, .vrint hd 0, .vgetexp hd, .vclass hd] = true := by decide +kernel

/-- The premises of `Obligations.IntegerLanes` can be met. -/
theorem witness_IntegerLanes : (VTy.i32 = .i32 ∨ VTy.i32 = .n32) ∧ (1 : Word) ≠ 0 ∧ 63 < 64 := by decide

/-- The premises of `Obligations.FloatLanes` can be met: a NaN, zeros, small and large numbers of either sign, and operations of `vred`. -/
theorem witness_FloatLanes :
    (fpNan 0x7F800001 || fpNan 0) = true ∧ fpNan 0xFFFFFFFF = true ∧ fpFinite 0 = true ∧ (0 : Lane) &&& 0x7FFFFFFF = 0 ∧
    (fpFinite 0xFF7FFFFF = true ∧ (0xFF7FFFFF : Lane) &&& 0x7FFFFFFF ≠ 0 ∧ (0xFF7FFFFF : Lane) &&& 0x80000000 ≠ 0 ∧
      0 < ((0xFF7FFFFF : Lane).extractLsb' 23 8).toNat ∧ 0x4B000000 ≤ ((0xFF7FFFFF : Lane) &&& 0x7FFFFFFF).toNat ∧
      0xC3160000 < (0xFF7FFFFF : Lane).toNat) ∧
    (fpFinite 0x43000000 = true ∧ 0x43000000 ≤ (0x43000000 : Lane).toNat ∧ (0x43000000 : Lane).toNat < 0x80000000) ∧
    (fpFinite 0x80000001 = true ∧ 0x80000000 < (0x80000001 : Lane).toNat) ∧ (0xFF800000 : Lane) &&& 0x7FFFFFFF = 0x7F800000 ∧
    (-149 : ℤ) ≤ -149 ∧ (-149 : ℤ) ≤ 127 ∧ (1 : Word) ≠ 0 ∧
    ((RedOp.add = .add ∧ vaddLane .f32 0 = vaddLane .f32 0) ∨ (RedOp.add = .min ∧ vaddLane .f32 0 = minmaxLane .f32 false) ∨
      (RedOp.add = .max ∧ vaddLane .f32 0 = minmaxLane .f32 true)) := by
  refine ⟨by decide, by decide, by decide, by decide, by decide, by decide, by decide, by decide, by decide, by decide, by decide, .inl ⟨rfl, rfl⟩⟩

/-- The premises of `Obligations.FloatArithmeticRounds` can be met: the least numbers and the greatest one. -/
theorem witness_FloatArithmeticRounds : fpFinite 1 = true ∧ fpFinite 0x80000001 = true ∧ fpFinite 0x7F7FFFFF = true ∧
    fpVal 1 + fpVal 0x80000001 = 0 ∧ fpVal 1 - fpVal 1 = 0 ∧ fpVal 0 * fpVal 1 = 0 ∧ fpVal 0 * fpVal 1 + fpVal 0 = 0 := by
  refine ⟨by decide, by decide, by decide, ?_, by ring, ?_, ?_⟩ <;> simp [fpVal]

/-- The premises of `Obligations.QuotientsAndRootsRound` can be met. -/
theorem witness_QuotientsAndRootsRound : fpFinite 0 = true ∧ fpVal 0 = 0 ∧ fpFinite 0x3F800000 = true ∧ 0 < fpVal 0x3F800000 ∧
    fpVal 0x3F800000 ≠ 0 := by
  have h : fpVal 0x3F800000 = 1 := by simp [fpVal]
  exact ⟨by decide, by simp [fpVal], by decide, by rw [h]; norm_num, by rw [h]; norm_num⟩

/-- The premises of `Obligations.LogicAndLaneMovement` can be met. -/
theorem witness_LogicAndLaneMovement : delivers [.vand hd none, .vor hd none, .vxor hd none, .vnot hd, .vshl hd .b32 none,
    .vshr hd .n16x2 none, .vsra hd .i32 none, .vrotl hd none, .vclz hd, .vpopc hd, .vbrev hd, .vcmp hd .i32 .lt, .vsel hd none,
    .vsplat hd false, .vsplat hd true, .vshfl hd none, .vbcast hd none, .vlrot hd none, .vcompress hd, .vexpand hd, .vmatch hd] = true := by
  decide +kernel

/-- The premises of `Obligations.ConversionsAndReductions` can be met. -/
theorem witness_ConversionsAndReductions : delivers [.vcvt hd .f32 .i32 false 0, .vencb hd .mxfp4 none, .vdecb hd .bt4, .vexp2 hd, .vlog2 hd,
    .vrcp hd, .vrsqrt hd, .vsin hd true, .vcos hd false, .vred hd .i32 .max, .vscan hd .i32 true .add] = true := by decide +kernel

/-- The premises of `Obligations.EffectsWaitForCommit` about effects left to the commit can be met. -/
theorem witness_EffectsWaitForCommit :
    fires up0 (.fmtset hn .seed) (fun _ b _ => b.deferred.fmt == none) ∧ fires up0 (.bar hn .core 3) (fun _ b _ => b.deferred.bar == none) ∧
    fires up0 (.yield hn) always ∧ fires up0 (.trap hn 5 4660) (fun _ b _ => b.deferred.trap == none) ∧
    fires up0 (.brk hn 7) (fun _ b _ => b.deferred.trap == none) ∧ fires up0 (.tlwait hn .tlc) always ∧ fires up0 (.tlwait hn .tlk) always ∧
    fires up0 (.tlwait hn (.tll 63)) (fun s _ _ => fld (s.queue 63).ctl 0 8 == (s.place s.cur).ctx) ∧
    fires up0 (.mmode hn true true 0 72) (fun _ b _ => b.deferred.mmode == none) ∧
    fires up0 (.fence hn .die true) (fun _ b _ => b.deferred.fence == none) ∧
    fires (defUp fun d => { d with fence := some (.core, true) }) (.fence hn .die false) fun _ b _ => b.deferred.fence == some (.core, true) := by
  decide +kernel

/-- The premises of its clauses about system registers and branches can be met. -/
theorem witness_EffectsWaitForCommit_branches :
    fires up0 (.stroke hn true) (fun _ b _ => b.deferred.stroke == none) ∧
    fires up0 (.syswr hn (.lqctl 5)) (fun s _ _ => (s.place s.cur).ctx == 0) ∧
    fires up0 (.perfctlCfg hn 3) (fun s b _ => (s.place s.cur).ctx == 0 && b.deferred.perf.all (·.1 != 3)) ∧
    fires (defUp fun d => { d with perf := [(2, .rd)] }) (.perfctlClr hn 3) (fun s b _ => (s.place s.cur).ctx == 0 && b.deferred.perf.all (·.1 != 3)) ∧
    fires up0 (.perfctlRd hd 3) (fun _ b _ => decide (b.Takes hd) && b.deferred.perf.all (·.1 != 3)) ∧
    fires up0 (.ctxctlTret hn) (fun _ b _ => b.deferred.tret == none) ∧
    ([.bro hn 5, .brx hn, .brv hn 9, .call hn 5, .ret hn, .exit hn, .eret hn] : List Instr).all fun i => fires up0 i fun _ b _ => b.branch == none := by
  decide +kernel

/-- The premises of `Obligations.ConflictsAndProtection` about a second effect can be met. -/
theorem witness_ConflictsAndProtection :
    let twiceBy := fun (f : Blk → Blk) (i : Instr) (ok : Blk → Bool) => fires (blkUp f) i fun s b _ => decide s.shapeOk && ok b
    let after := fun (f : Deferred → Deferred) (i : Instr) (ok : Deferred → Bool) =>
      fires (defUp f) i fun s b _ => decide s.shapeOk && ok b.deferred
    (([.bro hn 5, .brx hn, .brv hn 9, .call hn 5, .ret hn, .exit hn, .eret hn] : List Instr).all fun i =>
      twiceBy (fun b => { b with branch := some (1, .exit) }) i fun b => b.branch != none) ∧
    after (fun d => { d with fmt := some (1, .all, 0) }) (.fmtset hn .seed) (fun d => d.fmt != none) ∧
    after (fun d => { d with bar := some (1, .core, 3) }) (.bar hn .core 3) (fun d => d.bar != none) ∧
    (([.trap hn 5 0, .brk hn 0] : List Instr).all fun i => after (fun d => { d with trap := some (1, 5, 0) }) i fun d => d.trap != none) ∧
    after (fun d => { d with mmode := some (1, true, false, 0, 0) }) (.mmode hn false false 0 0) (fun d => d.mmode != none) ∧
    after (fun d => { d with stroke := some (1, false) }) (.stroke hn true) (fun d => d.stroke != none) ∧
    after (fun d => { d with tret := some 4 }) (.ctxctlTret hn) (fun d => d.tret != none) ∧
    after (fun d => { d with perf := [(3, .rd)] }) (.perfctlRd hd 3) (fun d => d.perf.any (·.1 == 3)) ∧
    (([.perfctlCfg hn 3, .perfctlClr hn 3] : List Instr).all fun i => fires (defUp fun d => { d with perf := [(3, .rd)] }) i fun s b _ =>
      decide (s.shapeOk ∧ (s.place s.cur).ctx = 0) && b.deferred.perf.any (·.1 == 3)) ∧
    (∀ n ∈ [0, 7], ([(0, n)] : List (Nat × Nat)).find? (fun e => e.1 == 0) = some (0, n)) ∧ up0.localTick (up0.place 0).die = 0 ∧
    let s := blkUp fun b => { b with outs := [(0, .s 1)] }
    s.shapeOk ∧ s.blk? 0 = some (blkOf { s with cur := 0 }) ∧ (blkOf { s with cur := 0 }).open (.out 0) = false := by decide +kernel

/-- Its premises about protection can be met: the warp is of context 1, queue 63 is bound to context 0. -/
theorem witness_ConflictsAndProtection_2 :
    (([.syswr hn (.lscfg 7), .perfctlCfg hn 3, .perfctlClr hn 3] : List Instr).all fun i =>
      fires inCtx1 i fun s _ _ => decide (s.shapeOk ∧ (s.place s.cur).ctx ≠ 0)) ∧
    ([.tlwait hn (.tll 63), .tlrd hd .errclr (.tll 63), .push hd 0 (.launch 63)] : List Instr).all fun i =>
      fires inCtx1 i fun s _ _ => decide (s.shapeOk ∧ fld (s.queue 63).ctl 0 8 ≠ (s.place s.cur).ctx) := by decide +kernel

/-- The address that an access with immediate offset 0 starts from. -/
def base0 (x : Args) : Word := x.sa + m0.ofs.signExtend 64

/-- The lanes of an `add` on memory. -/
def addLanes (b : Blk) (x : Args) : List (Nat × Nat) := atomLanes .add b.live0 (base0 x) x.b.vec

/-- The premises of `Obligations.StoresWaitForCommit` can be met (`reach_sound`). -/
theorem witness_StoresWaitForCommit :
    fires mapped (.st hn m0 .i32) (fun s b x => decide (b.storeCount < b.nst) && reach s .wr .wt 4 (wordLanes (base0 x) (b.live0 &&& x.sc))) ∧
    fires mapped (.sts hn m0 .b64) (fun s b x => decide (b.storeCount < b.nst) && reach s .wr .wt 8 [(0, (base0 x).toNat)]) ∧
    fires one1 (.red hn mA .add) (fun s b x => decide (b.storeCount < b.nst ∧ laneConflicts (addLanes b x) = []) &&
      reach s .wr .wt 4 (addLanes b x)) ∧
    fires one1 (.atom hn mA .add) (fun s b x => decide (b.storeCount < b.nst ∧ b.mseqTurn 0 = true ∧ laneConflicts (addLanes b x) = []) &&
      reach s .rw .wt 4 (addLanes b x)) ∧ hdrReturns hn = false := by decide +kernel

/-- `mapped` with translation entries of page 1, which may not be written, and page 3, a driver page. -/
def fenced : State := { mapped with xl := { mapped.xl with
  tlb := [⟨0, 0, 0x10000, 16, 0xE800000000010000⟩, ⟨0, 0, 0x30000, 16, 0xF200000000030000⟩] } }

/-- The premises of `Obligations.AccessFaults` can be met: no room for a store, an address of 2^48, and one that is not a multiple of the width. -/
theorem witness_AccessFaults :
    let past := fun (s : State) (b : Blk) (_ : Args) => decide (s.shapeOk ∧ b.nst ≤ b.storeCount)
    let full := blkUp fun b => { b with nst := 0 }
    (([.st hn m0 .i32, .sts hn m0 .b64, .red hn mA .add, .spst hn mS .i32, .spstq hn mS .i32] : List Instr).all fun i => fires full i past) ∧
    (([.atom hn mA .add, .atom hd mA .add] : List Instr).all fun i => fires full i fun s b x =>
      past s b x && b.mseqTurn 0 && b.othersSettled s.curIdx) ∧
    firesOn up0 (some (.s 0x1000000000000)) (.lds hd m0 .b64) (fun s b x => decide (s.shapeOk ∧ b.mseqTurn 0 = true ∧ 2 ^ 48 ≤ (base0 x).toNat)) ∧
    firesOn up0 (some (.s 0xFFFFFFFFFFFF)) (.lds hd m0 .i16) (fun s b x =>
      decide (s.shapeOk ∧ b.mseqTurn 0 = true ∧ (base0 x).toNat < 2 ^ 48 ∧ (base0 x).toNat % 2 ≠ 0)) ∧
    firesOn up0 (some (.s 4)) (.sts hn m0 .b64) (fun s b x =>
      decide (s.shapeOk ∧ b.storeCount < b.nst ∧ (base0 x).toNat < 2 ^ 48 ∧ (base0 x).toNat % 8 ≠ 0)) ∧
    firesOn up0 (some (.s 0x1000000000000)) (.ld hd m0 .i32) (fun s b x =>
      decide (s.shapeOk ∧ b.mseqTurn 0 = true ∧ ∃ p ∈ wordLanes (base0 x) (b.live0 &&& x.sc), 2 ^ 48 ≤ p.2)) ∧
    (([.ld hd m0 .i32, .st hn m0 .i32] : List Instr).all fun i => firesOn up0 (some (.s 1)) i fun s b x =>
      decide (s.shapeOk ∧ b.mseqTurn 0 = true ∧ b.storeCount < b.nst ∧
        (∀ p ∈ wordLanes (base0 x) (b.live0 &&& x.sc), p.2 < 2 ^ 48) ∧ ∃ p ∈ wordLanes (base0 x) (b.live0 &&& x.sc), p.2 % 4 ≠ 0)) := by
  decide +kernel

/-- Its premises about pages and lanes can be met: a page that may not be written, a driver page, an address without a home, pages that are not
mapped, with and without a record posted for one, and two lanes at one word. -/
theorem witness_AccessFaults_2 :
    let at_ := fun (s : State) (x : Args) (r : TRes → Bool) => r (s.transWarp (s.place s.cur).ctx .rd .wt (base0 x).toNat)
    let lds := fun (s : State) (va : Word) (r : TRes → Bool) => firesOn s (some (.s va)) (.lds hd m0 .b64) fun s b x =>
      decide (s.shapeOk ∧ b.mseqTurn 0 = true ∧ (base0 x).toNat < 2 ^ 48 ∧ (base0 x).toNat % 8 = 0) && at_ s x r
    let waits := fun (posted : Bool) => { mapped with xl := { mapped.xl with pfaults := [⟨0, 0, 0x50000, [], [], posted⟩] } }
    firesOn fenced (some (.s 0x10000)) (.st hn m0 .i32) (fun s b x => decide (s.shapeOk ∧ b.storeCount < b.nst) &&
      let l := wordLanes (base0 x) (b.live0 &&& x.sc)
      !l.isEmpty && l.all fun p => decide (p.2 < 2 ^ 48 ∧ p.2 % 4 = 0) && isProt (s.transWarp (s.place s.cur).ctx .wr .wt p.2)) ∧
    lds fenced 0x30000 isProt ∧ lds mapped 0x40000000 (fun r => decide (r = .nohome)) ∧
    (∀ posted : Bool, lds (waits posted) 0x50000 (fun r => decide (pageOf r = some (0, 0))) ∧
      ((waits posted).xl.pfaults.find? fun q => q.home == 0 && q.space == 0 && q.va == 0x50000).map (·.posted) = some posted) ∧
    (([.red hn mA .add, .atom hn mA .add, .atom hd mA .add] : List Instr).all fun i => firesOn up0 (some (.s 0)) i fun s b x =>
      decide (s.shapeOk ∧ b.mseqTurn 0 = true ∧ b.othersSettled s.curIdx = true ∧ b.storeCount < b.nst ∧
        ∃ p ∈ addLanes b x, ∃ q ∈ addLanes b x, p.1 ≠ q.1 ∧ p.2 = q.2)) := by decide +kernel

/-- The premises of `Obligations.ScratchpadAccess` can be met. -/
theorem witness_ScratchpadAccess :
    let words := fun (s : State) (q : Bool) (b : Blk) (x : Args) => s.spLanes s.cur q mS (b.live0 &&& x.sc) x.va
    let own := fun (s : State) (q : Bool) (b : Blk) (x : Args) =>
      (words s q b x).filterMap fun p => p.2.bind fun r => if r.1 == (s.warp s.cur).team then some (r.2, 4) else none
    let all := fun (s : State) (q : Bool) (b : Blk) (x : Args) => (words s q b x).filterMap fun p => p.2.map fun r => (r.1, r.2, 4)
    let clean := fun (q : Bool) (s : State) (b : Blk) (x : Args) => decide (b.Takes hd ∧ b.mseqTurn 0 = true ∧
      s.spadHazard s.cur b (own s q b x) (all s q b x) [] = none) && (List.range 64).all fun l =>
        !(b.live0 &&& x.sc).getLsbD l || (s.spPlace s.cur q (spOffset mS (x.va.lane l))).all fun r => !(s.spWord b 0 r.1 r.2).2
    let free := fun (q : Bool) (s : State) (b : Blk) (x : Args) => decide (b.storeCount < b.nst ∧
      s.spadHazard s.cur b (own s q b x) [] (all s q b x) = none)
    fires spadded (.spld hd mS .i32) (clean false) ∧ fires spadded (.spldq hd mS .i32) (clean true) ∧
    fires spadded (.spst hn mS .i32) (free false) ∧ fires spadded (.spstq hn mS .i32) (free true) := by decide +kernel

/-- The premises of `Obligations.LoadsBecomeOutstanding` can be met (`reach_sound`). -/
theorem witness_LoadsBecomeOutstanding :
    fires mapped (.ld hd m0 .i32) (fun s b x => b.mseqTurn 0 && reach s .rd .wt 4 (wordLanes (base0 x) (b.live0 &&& x.sc))) ∧
    fires mapped (.lds hd m0 .b64) (fun s b x => b.mseqTurn 0 && reach s .rd .wt 8 [(0, (base0 x).toNat)]) ∧
    fires one1 (.atom hd mA .add) (fun s b x => decide (b.mseqTurn 0 = true ∧ b.othersSettled s.curIdx = true ∧ b.storeCount < b.nst ∧
      laneConflicts (addLanes b x) = []) && reach s .rw .wt 4 (addLanes b x)) ∧ hdrReturns hd = true ∧
    (∀ die : Bool, fires mapped (.prefetch hn m0 die) (fun s b x => b.mseqTurn 0 && decide ((base0 x).toNat < 2 ^ 48 ∧
      pteRow 0xF000000000000000 = false ∧ s.transWarp (s.place s.cur).ctx .rd .wt (base0 x).toNat = .ok 0 0 0xF000000000000000 ∧
      s.l1Load? (s.place s.cur).die (s.place s.cur).core (some s.cur) 0 0 .wt false [] (fun _ => false) = none))) ∧
    firesOn up0 (some (.s 0x1000000000000)) (.prefetch hn m0 true) (fun _ b x => b.mseqTurn 0 && decide (2 ^ 48 ≤ (base0 x).toNat)) := by
  decide +kernel

/-- The premises of `Obligations.CacheControl` can be met. -/
theorem witness_CacheControl :
    (([.cachectlWb hn, .cachectlWbinv hn] : List Instr).all fun i => fires mapped i fun s _ x => decide (x.sa.toNat < 2 ^ 48 ∧
      s.transWarp (s.place s.cur).ctx .rd .wt x.sa.toNat = .ok 0 0 0xF000000000000000 ∧ s.lineBusy 0 (x.sa.toNat / 128) = false ∧
      s.refreshing (s.lineHome 0 (x.sa.toNat / 128)) = false)) ∧ fires up0 (.cachectlL1inv hn) always := by decide +kernel

/-- The premises of `Obligations.MzeroClears` can be met. -/
theorem witness_MzeroClears : fires wide (.mzero hn true false) fun s b _ =>
    decide (b.run = none ∧ winBase b.mreg0 true + 66 ≤ (s.warp s.cur).v.length) := by decide +kernel

/-- The premises of `Obligations.MatrixSteps` can be met in the first tick and in a later one. -/
theorem witness_MatrixSteps : ∀ st ∈ [0, 1],
    ticks wide (.mma hn false 1) st (fun s b a =>
      let t := s.stepSees s.cur
      let k := codeK (fmtFA b.fmt0)
      let panels := panelRanges (fmtFA b.fmt0) a.sa k 2 ++ panelRanges (fmtFB b.fmt0) a.b.word k 2
      decide (s.spadHazard s.cur b panels (s.ofTeam s.cur panels) [] = none ∧ (s.warp s.cur).winPoison (winBase b.mreg0 false) 64 = false ∧
        ∀ o ∈ stepBytes (fmtFA b.fmt0) a.sa k st ++ stepBytes (fmtFB b.fmt0) a.b.word k st, spWordPoison t b o = false)) ∧
    ticks wide (.mmar hn 1 2) st fun s b a =>
      let t := s.stepSees s.cur
      let panels := panelRanges (fmtFB b.fmt0) a.sa 2 2
      decide (s.spadHazard s.cur b panels (s.ofTeam s.cur panels) [] = none ∧ (s.warp s.cur).winPoison (winBase b.mreg0 true) 64 = false ∧
        (s.warp s.cur).winPoison (winBase b.mreg0 false) 64 = false ∧ ∀ o ∈ stepBytes (fmtFB b.fmt0) a.sa 2 st, spWordPoison t b o = false) := by
  decide +kernel

/-- The premises of `Obligations.SoftmaxSteps` can be met. -/
theorem witness_SoftmaxSteps :
    fires wide (.mmax hn false) (fun s b _ => decide (b.run = none) && !(s.warp s.cur).winPoison (winBase b.mreg0 false) 65) ∧
    fires wide (.mexp hn true) (fun s b _ => decide (b.run = none) && !(s.warp s.cur).winPoison (winBase b.mreg0 true) 66 &&
      !(s.warp s.cur).latchPoison true) ∧
    ticks wide (.mexp hn true) 1 (fun s b _ => b.run == some (s.curIdx, 1)) ∧
    fires wide (.mrescale hn true) fun s b _ => decide (b.run = none) && !(s.warp s.cur).winPoison (winBase b.mreg0 true) 64 &&
      !(s.warp s.cur).winPoison (winBase b.mreg0 false + 64) 1 && !(s.warp s.cur).latchPoison false := by decide +kernel

/-- The premises of `Obligations.WindowMoves` can be met in the first tick and in a later one. -/
theorem witness_WindowMoves :
    (∀ st ∈ [0, 1], ticks wide (.mld hn false .stat) st fun s b a =>
      let t := s.stepSees s.cur
      let o := a.sa.toNat / 64 % 8192 * 64
      let r := [(o, 512)]
      decide (s.spadHazard s.cur b r (s.ofTeam s.cur r) [] = none) && (List.range 64).all fun i => !spWordPoison t b (o + 256 * st + 4 * i)) ∧
    fires wide (.mst hn true .all .bf16) (fun s b a =>
      let r := [(a.sa.toNat / 64 % 8192 * 64, mstBytes .all .bf16)]
      decide (b.run = none ∧ s.spadHazard s.cur b r [] (s.ofTeam s.cur r) = none)) ∧
    ticks wide (.mst hn true .all .bf16) 1 fun s b _ => b.run == some (s.curIdx, 1) := by decide +kernel

/-- The premises of `Obligations.PushAndTlrd` can be met. -/
theorem witness_PushAndTlrd :
    let own := fun (s : State) => (s.team (s.warp s.cur).team).queue.length + (s.team (s.warp s.cur).team).reserved
    let ctx := fun (s : State) => (s.ctx (s.place s.cur).ctx).coll.length + (s.ctx (s.place s.cur).ctx).collRes
    let room := fun (s : State) (t : Nat) => decide ((s.queue t).entries.length + (s.queue t).reserved < 256 ∧ (s.queue t).ctl.getLsbD 10 = true)
    let takes1 := fun (ok : State → Blk → Bool) (s : State) (b : Blk) (_ : Args) => decide (b.Takes hd) && ok s b
    fires (blkUp fun b => { b with cls := 0 }) (.push hd 0 (.copy 0)) (takes1 fun s b => decide (b.cls ≠ 2 ∧ own s < 32)) ∧
    fires (up0.modTeam 0 fun t => { t with queue := List.replicate 32 default }) (.push hd 0 (.copy 0))
      (takes1 fun s b => decide (b.cls ≠ 2 ∧ 32 ≤ own s)) ∧
    fires (blkUp fun b => { b with cls := 2 }) (.push hd 0 (.copy 3)) (fun s b _ => decide (s.shapeOk ∧ b.cls = 2 ∧ ¬ s.wPhase s.cur + 4 ≤ 3)) ∧
    fires up0 (.push hd 0 .coll) (takes1 fun s _ => decide (ctx s < 256)) ∧
    fires (up0.modCtx 0 fun c => { c with coll := List.replicate 256 default }) (.push hd 0 .coll) (takes1 fun s _ => decide (256 ≤ ctx s)) ∧
    fires ({ up0 with queues := up0.queues.modify 5 fun q => { q with ctl := 0x400 } }) (.push hd 6 (.launch 5))
      (takes1 fun s _ => fld (s.queue 5).ctl 0 8 == (s.place s.cur).ctx && room s 5) ∧
    fires up0 (.push hd 0 (.launch 63)) (takes1 fun s _ => fld (s.queue 63).ctl 0 8 == (s.place s.cur).ctx && !room s 63) ∧
    fires up0 (.tlrd hd .err .tlc) (takes1 fun s _ => decide (s.foreignCtr s.cur .tlc = false ∧ (s.counter (s.ctrOf s.cur .tlc)).status = 0)) := by
  decide +kernel

/-- The premises of `Obligations.TimedInstructions` can be met. -/
theorem witness_TimedInstructions :
    let range := fun (x : Args) => [(64 * (x.sa.toNat / 2 ^ 6 % 8192), 64 * (x.sa.toNat / 2 ^ 19 % 64 + 1))]
    let full := fun (s : State) => decide (0 ∈ (s.die (s.place s.cur).die).full ∨ ∃ l ∈ s.landings, l.die = (s.place s.cur).die ∧ l.slot = 0 ∧ l.at_ ≤ s.wRecon s.cur)
    delivers [.tkrd hd .phase, .tkrd hd .wait, .tkrd hd .work, .tkrd hd .stroke] = true ∧
    fires up0 (.tsend hn 4) (fun s b x => decide (s.wPhase s.cur + 4 ≤ 4 ∧ s.spadHazard s.cur b (range x) (s.ofTeam s.cur (range x)) [] = none)) ∧
    fires up0 (.tsend hn 3) (fun s _ _ => decide (s.shapeOk ∧ 3 < s.wPhase s.cur + 4)) ∧
    fires (up0.modDie 0 fun d => { d with full := [0] }) (.trecv hd 9) (fun s b x => decide (full s = true ∧
      s.spadHazard s.cur b (range x) [] (s.ofTeam s.cur (range x)) = none)) ∧
    fires up0 (.trecv hd 0) (fun s _ _ => decide (full s = false ∧ s.umpireOn s.cur = false ∧ s.wPhase s.cur ≤ 0)) ∧
    fires (up0.modDie 0 fun d => { d with recon := 5 }) (.trecv hd 4) (fun s _ _ =>
      decide (s.shapeOk ∧ full s = false ∧ s.umpireOn s.cur = false ∧ 4 < s.wPhase s.cur)) ∧
    fires (up0.modCtx 0 fun c => { c with block := [0, 0, 0, 0, 0, 0, 1, 0] }) (.trecv hd 4) fun s b x => decide (s.shapeOk ∧ full s = false ∧
      s.umpireOn s.cur = true ∧ s.spadHazard s.cur b (range x) [] (s.ofTeam s.cur (range x)) = none) := by decide +kernel

/-! States for the statements about events and steps. -/

/-- A record of warp 0 of `up0`. -/
def rec0 : FRec := { (default : FRec) with code := 3, index := 0, seq := 1, wid := some 0 }

/-- A state in which warp 0 is parked on a posted record. -/
def parkedOn (s : State) (f : FRec) : State :=
  (s.modWarp 0 fun x => { x with park := { x.park with fault := true } }).modCtx 0 fun c => { c with st := .active, posted := [f] }

/-- A state in which a record waits at the hub. -/
def waitsAtHub (s : State) (f : FRec) : State := s.modCtx 0 fun c => { c with hubq := [f] }

/-- The code object of `mapped`: blocks 0 and 1 are present. -/
def obj0 : CodeObj := { ctx := 0, oid := 0, code := 0x10000, btab := [2 ^ 63, 2 ^ 63 + 64], kernels := [⟨0, false, [], 0, 0⟩], preloads := [], chmap := [], unloading := false }

/-- `mapped` with a code object and an active context. -/
def coded : State := { mapped.modCtx 0 fun c => { c with st := .active } with objs := [obj0] }

/-- The handle table and group table of the states with engines, as their context block has them. -/
def tab0 : Word := 0x100000003000

/-- A copy command of team 0. -/
def job0 : CopyJob := { seq := 1, cmd := [], tab := tab0, pos := 0, paused := none, timed := none, warp := none, finished := none }

/-- `up0` with that command in progress. -/
def copying : State := up0.modTeam 0 fun t => { t with jobs := [job0] }

/-- A load of warp 0 that waits for another package, and a store of it. -/
def far0 (load : Bool) : RemoteReq := { w := 0, idx := 0, ctx := 0, va := 0, isLoad := load, at_ := 0 }

/-- An object file of one block of one `exit` (R412 to R414): version 3, sections for code, the block table and one kernel. -/
def objFile (feature block kernel : Nat) : List (BitVec 8) :=
  let pad (n : Nat) (l : List (BitVec 8)) : List (BitVec 8) := l ++ List.replicate (n - l.length) 0
  let sec (t o n : Nat) : List (BitVec 8) := leBytes 8 t ++ leBytes 8 o ++ leBytes 8 n
  pad 64 (leBytes 4 0x4E4D4331 ++ [1, 3] ++ leBytes 2 3 ++ leBytes 8 feature) ++
    pad 128 (sec 1 192 24 ++ sec 2 256 8 ++ sec 4 320 48) ++ pad 64 (leBytes 8 block ++ leBytes 8 0 ++ leBytes 8 0x2280000000000000) ++
    pad 64 (leBytes 8 (2 ^ 63)) ++ pad 48 (leBytes 8 kernel)

/-- What that file holds. -/
def readOf (feature block kernel : Nat) : ObjFile := (ObjFile.read (objFile feature block kernel)).getD default

/-- Umpire mode checks warp 0, and its team has 256 bytes of scratchpad. -/
def umpire0 : State :=
  ((up0.modCtx 0 fun c => { c with block := [0, 0, 0, 0, 0, 0, 1, 0] }).modTeam 0 fun t => { t with alloc := 256 }).modBlk 0 fun b => { b with live0 := 1 }

/-- The block of warp 0 has fired a scratchpad store of word 0. -/
def umpired : State := umpire0.modBlk 0 fun b => { b with sps := [{ mseq := 0, idx := 0, team := 0, ofs := 4, val := 0 }], fired := [0] }

/-- `coded` with block 0, one `exit`, in memory, and warp 0 between blocks. -/
def fetching : State := { coded.modWarp 0 fun x => { x with blk := none, next := 0, begin_ := 0 } with
  mem := [(0x10007, 0xB3), (0x10016, 0x80), (0x10017, 0x22)], cores := [{ die := 0, core := 0, primary := some 0 }] }

/-- What the warp reads of its next block. -/
def image0 : Img := match fetching.readImage 0 0 with
  | .got m _ => m
  | _ => []

/-- Whether block 0 reads as an image and an entry. -/
def reads0 (s : State) (m : Img) (e : Word) : Bool := match s.readImage 0 0 with
  | .got a b => a == m && b == e
  | _ => false

/-- An image of header word 0 with the fields `h`, and the words of slots and instructions. -/
def img (h : Word) (l : List Word) : Img := (0xB300000000000000 + h) :: 0 :: l

/-- The word of an `exit`. -/
def exitW : Word := 0x2280000000000000

/-- The word of an instruction. -/
def wordOf (i : Instr) : Word := (encode i).getD 0

/-- `coded` with the block of warp 0 complete and bound for block 1. -/
def committing (f : Blk → Blk) : State := coded.modBlk 0 fun b => f { b with nst := 0, branch := some (0, .goto 1), fired := [0] }

/-- The block of warp 0. -/
def blk0 (s : State) : Blk := (s.blk? 0).getD default

/-- The state in which the operand of `mov` is still awaited. -/
def awaiting : State := blkUp fun b => { b with words := [(encode (.mov hd .scalar)).getD 0], ops := [] }

/-- The state in which warp 0 has a `mov` whose predicate `p` and operand `v` have arrived. -/
def predicated (i : Instr) (p v : Token) : State :=
  { blkUp fun b => { b with words := [(encode i).getD 0], ops := [(0, .p, p), (0, .a, v), (0, .b, .null), (0, .c, .null)] } with cur := 0, curIdx := 0 }

/-- A record of one warp of eight vector registers that enters at block 0 of object 0 (Table 5-3). -/
def rec5 : LaunchRec := LaunchRec.ofWords [0x08030002, 0, 0x0001000001010101]

/-- A LAUNCH command that names a record at 128. -/
def cmd5 : List Word := [0x04010001, 128, 0, 0, 0, 0, 0, 0]

/-- `coded` with an entry at the head of queue 5, which is enabled and bound to context 0. -/
def queued (e : QEntry) (prio : Nat) : State :=
  { coded with queues := coded.queues.modify 5 fun q => { q with ctl := 0x400, entries := [e], prio := prio },
               mem := [(128, 2), (130, 3), (131, 8), (144, 1), (145, 1), (146, 1), (147, 1), (150, 1)] }

/-- An entry that is to be read, or has been. -/
def entry5 (r : Option LaunchRec) : QEntry := { seq := 1, cmd := cmd5, parent := none, verdict := (0, rec5), read := r }

/-- `s` as a core of context 0 sees it, its local count at `n` and its warp 0 changed. -/
def onCore (s : State) (n : Nat) (f : Warp → Warp) : State :=
  { (s.modWarp 0 f).modDie 0 fun d => { d with local_ := n } with cores := [{ die := 0, core := 0, primary := some 0 }] }

/-- `s` with its launch changed. -/
def launched (s : State) (f : LaunchRec → LaunchRec) : State := { s with grids := s.grids.map fun g => { g with launch := f g.launch } }

/-- `s` with its launch timed, in strokes of 65,536 ticks. -/
def timedOf (s : State) : State := launched s fun l => { l with flags := 1 }

/-- `up0` with a second warp of its team that is ready and has no seat. -/
def crowded : State := { up0 with warps := up0.warps ++ [{ (up0.warp 0) with blk := none, idx := 1, seat := { readyAt := some 3 } }] }

/-- `coded` whose context has a trap vector at block `v`, with the block of warp 0 complete. -/
def trapping (v : Word) (f : Blk → Blk) : State := (committing f).modCtx 0 fun c => { c with block := [0, 0, 0, v, 0, 0, 0, 0] }

/-- A `trap 1` has fired in that block. -/
def trap1 (b : Blk) : Blk := { b with deferred := { trap := some (0, 1, 7) } }

/-- Warp 0 is in trap mode, its block ends with `eret`. -/
def returning : State := (committing fun b => { b with branch := some (0, .eret) }).modWarp 0 fun x =>
  { x with trap := { on := true, tret := 1, tlive := 3 } }

/-- `coded` with the block of warp 0 complete and a branch `sel`; the warp's private memory begins at `base`, where its first two pages are mapped
for 0. -/
def branching (base : Word) (sel : BranchSel) (f : Warp → Warp) : State :=
  let s := ((committing fun b => { b with branch := some (0, sel) }).modWarp 0 f).modCtx 0 fun c => { c with block := [0, 0, base, 0, 0, 0, 0, 0] }
  { s with xl := { s.xl with pte := (0xFC0003008, 0xF000000000010000) :: s.xl.pte } }

/-- An entry of the reconvergence stack with half of the lanes, back to block 1. -/
def back1 (join : Bool) : REntry := { join := join, block := 1, mask := 0xFFFFFFFF, fmt := fmtReset }

/-- `coded` with a driver page 3 that holds one handle (memory from 0, 64 KiB, read and write) and group 0 with one member. -/
def engined : State :=
  { (spadded.modCtx 0 fun c => { c with st := .active, block := [tab0, 0x8000000000030800, 0, 0, 0, 0, 0, 0] }) with
    xl := { mapped.xl with pte := mapped.xl.pte ++ [(0xFC0003018, 0xF200000000030000)] },
    mem := [(0x30007, 0xE0), (0x3000A, 1), (0x30807, 0x80)] }

/-- Copy commands in progress at `engined`. -/
def engines (l : List CopyJob) : State := engined.modTeam 0 fun t => { t with jobs := l }

/-- A copy of four bytes from that handle to the scratchpad. -/
def load4 : CopyJob := { job0 with cmd := [0x101, 0, 0x4FFFFF000, 0, 1, 0, 0, 0] }

/-- A collective command of group 0 whose contribution is there. -/
def coll0 (c : List Word) : CollJob :=
  { seq := 1, cmd := c, tab := tab0, gtab := 0x8000000000030800, team := 0, gid := 0, gen := 0, k := 1, loaded := true, paused := none, issuedAt := 0,
    finished := none }

/-- A contribution of the one member of group 0. -/
def contrib0 : Contribution := { gid := 0, gen := 0, rank := 0, k := 1, hdr := 0, count := 1, root := 0, data := [5] }

/-- `engined` with a command and that contribution. -/
def combining (j : CollJob) : State := engined.modCtx 0 fun x => { x with jobs := [j], contrib := [contrib0] }

/-- The member of group 0. -/
def member0 : GroupE := { gen := 0, radix := 2, n := 1, rank := 0, route := 0 }

/-- `mapped` with caches. -/
def cached (c : Caches) : State := { mapped with cache := c }

/-- A store to the first word, on its way from core 0. -/
def store0 : DReq := { die := 0, core := 0, w := some 0, space := 0, line := 0, rqt := .wt, ord := .plain, scope := .warp, kind := .store [(0, 5)],
                       pts := 0, asked := false, performed := false, wts := 0 }

/-- A release-observing load of that word. -/
def racq0 : DReq := { store0 with ord := .racq, kind := .load 0 [] }

/-- Line 0 at die 1. -/
def line0 (h : HSt) : DieLine := { die := 1, space := 0, line := 0, hst := h, words := [⟨0, 5, true, false⟩], wts := 0, rts := 0, ownc := 255, rlsc := 255 }

/-- Line 0 at die 0. -/
def lineM : DieLine := { line0 .M with die := 0 }

/-- `cached`, where core 3 of die 0 is the last releaser of line 0. -/
def releasing (c : Caches) : State := (cached c).modDie 0 fun d => { d with rels := [(0, 0, 3, 1)] }

/-- A message about line 0 from or to die 1. -/
def msg0 (k : MsgKind) : Msg := { kind := k, node := 1, home := 0, space := 0, line := 0 }

/-- The directory's entry for line 0. -/
def dir0 (t : DirSt) (o : Nat) (l : List Nat) : DirEntry := { home := 0, space := 0, line := 0, st := t, owner := o, sharers := l }

/-- A transaction for line 0. -/
def tx0 : HomeTx := { home := 0, space := 0, line := 0, req := some 2, getM := true, hasS := false, needData := true, awaitResp := none, awaitAcks := [],
                      awaitPut := none, words := [], dirty := false }

/-- Line 0 at bridge 8. -/
def bridge0 : BridgeLine := { io := 8, space := 0, line := 0, permM := true, held := [0], dirty := [0], words := [], modified := true }

/-- A transfer of 64 bytes from team 0. -/
def send0 : TSend := { w := 0, idx := 0, team := 0, die := 0, ctx := 0, cslot := 0, lslot := 0, dests := [1], ofs := 0, len := 64, start := 0,
                       committed := true }

/-- Warp 0 with a `trecv` under way. -/
def receiving (copying : Bool) : State := (firing spadded (.trecv hd 9)).modBlk 0 fun b => { b with recv := [⟨0, 0, 64, 0, 0, copying, 0, false⟩] }

/-- Warp 0 with a load of word 0, which has the words `l`. -/
def loading (l : List (Nat × Lane × Bool)) : State := (firing up0 (.ld hd m0 .i32)).modBlk 0 fun b =>
  { b with loads := [{ (default : PLoad) with kind := .ld, lanes := [(0, 0)], need := [0], got := l }] }

/-- `up0` with its gang in a state. -/
def ganged (x : GangSt) : State := { up0 with gangs := up0.gangs.map fun g => { g with st := x } }

/-- The head of queue 5, of priority 3, needs the barriers of the gang of `up0`, and all other quads are fenced. -/
def contended : State :=
  let four (l : LaunchRec) : LaunchRec := { l with bars := 0x400 }
  let s := launched (queued (entry5 (some (four rec5))) 3) four
  { s with dies := s.dies.zipIdx.map fun p => { p.1 with fenced := p.2 != 0 },
           cores := { die := 0, core := 0, primary := some 0 } :: (List.range 188).map fun c => { die := 0, core := c + 4, fenced := true } }

/-- An outcome is a next state. -/
def answers : Host.Outcome State Fault Refusal → Bool
  | .next _ => true
  | _ => false

/-- An outcome that passes that check is a next state. -/
theorem next_of {o : Host.Outcome State Fault Refusal} (h : answers o = true) : ∃ t, o = .next t := by
  cases o with
  | next t => exact ⟨t, rfl⟩
  | _ => simp [answers] at h

/-- A row's index is at hand and leaves the command as it is. -/
def keepsJob (j : CopyJob) : Except Nat CopyJob → Bool
  | .ok i => i == j
  | .error _ => false

/-! Premises of the statements about events and steps. -/

/-- The premises of `Obligations.CountingShapeAndFormat` can be met. -/
theorem witness_CountingShapeAndFormat :
    (let s := fetching; let w := 0; let m := image0; let b := blk0 (s.startBlock w m)
     (s.startBlock w m).blk? w = some b) ∧
    (let r := (⟨0, 3, 0, 0, 0⟩ : RSlot)
     r.cls = 3 ∧ r.reg = 0) ∧
    (let w := (0x0F84000000000000 : Word)
     wOpc w = 0x01F ∧ 2 ≤ (wTy w).toNat) ∧
    (let w := (0x0B82000000000000 : Word)
     (wOpc w = 0x017 ∨ wOpc w = 0x018 ∨ wOpc w = 0x023) ∧ (wTy w ≠ 0 ∨ w.extractLsb' 0 28 ≠ 0)) := by decide +kernel

/-- The premises of `Obligations.StepRunsDecoded` can be met: part 1. -/
theorem witness_StepRunsDecoded :
    (let s : State := { onCore (State.reset.withFetchWord 64 0x2280000000000000) 0 id with agenda := [.fire 0 0] }; let w := 0
     let idx := 0; let r := []; let b := blk0 s; let x := (0x2280000000000000 : Word); let i := Instr.exit hn
     s.agenda = .fire w idx :: r ∧ s.blk? w = some b ∧ b.words[idx]? = some x ∧ decode x = .ok i ∧ s.mayIssue w b idx = true) ∧
    (let s : State := { (timedOf (up0.modBlk 0 fun b => { b with cls := 2, start := 9 })) with agenda := [.fire 0 0] }; let w := 0
     let idx := 0; let r := []; let b := blk0 s; let x := (0 : Word); let i := Instr.nop hn
     s.agenda = .fire w idx :: r ∧ s.blk? w = some b ∧ b.words[idx]? = some x ∧ decode x = .ok i ∧ s.mayIssue w b idx = false) ∧
    (let s := up0; let w := 0; let b := blk0 s
     s.scheduled w b = false) ∧
    (let s : State := onCore (timedOf (up0.modBlk 0 fun b => { b with cls := 2 })) 0 id; let w := 0; let b := blk0 s; let idx := 0
     s.scheduled w b = true ∧ s.mayIssue w b idx = true) ∧
    (let s : State := { up0 with agenda := [.event .launchPlacement] }; let i := Instr.launchPlacement; let r := []
     s.agenda = .event i :: r ∧ i.isWord = false) := by decide +kernel

/-- The premises of `Obligations.StepRunsDecoded` can be met: part 2. -/
theorem witness_StepRunsDecoded_2 :
    (let s : State := { up0 with agenda := [.tick] }; let r := []
     s.agenda = .tick :: r ∧ s.due? = none) ∧
    (let s : State := { up0 with agenda := [.clock 7] }; let c := 7; let r := []
     s.agenda = .clock c :: r ∧ s.due? = none) ∧
    (let s : State := { up0 with agenda := [.steer 7 true] }; let c := 7; let up := true; let r := []
     s.agenda = .steer c up :: r ∧ s.due? = none) ∧
    (let s := up0
     s.agenda = [] ∧ s.due? = none) ∧
    (let s : State := { up0 with stake := 1024 }
     s.due?.isSome = true ∧ s.agenda = []) ∧
    (let s : State := { up0 with stake := 1024 }
     s.due?.isSome = true) := by decide +kernel

/-- The premises of `Obligations.StepRunsDecoded` can be met: part 3. -/
theorem witness_StepRunsDecoded_3 :
    (let s : State := { up0 with agenda := [.smear 0 default] }; let w := 0; let x := default; let r := []
     s.agenda = .smear w x :: r) ∧
    (let s : State := { up0 with agenda := [.spad 0 0 []] }; let k := 0; let n := 0; let part := []; let r := []
     s.agenda = .spad k n part :: r) := by decide +kernel

/-- The premises of `Obligations.MemoryReadsWhatWasWritten` can be met. -/
theorem witness_MemoryReadsWhatWasWritten :
    (let m := ([(0, 7), (0xFFFFFFFFFFFF, 255)] : Memory)
     Memory.wf m = true) ∧
    (let m := ([(0, 7), (0xFFFFFFFFFFFF, 255)] : Memory)
     Memory.wf m = true) ∧
    (let m := ([(0, 7)] : Memory); let n := ([(0, 7)] : Memory)
     Memory.wf m = true ∧ Memory.wf n = true ∧ m = n) := by decide +kernel

/-- The premises of `Obligations.DecodeEncode` can be met. -/
theorem witness_DecodeEncode :
    (let i := Instr.ssub hd (some 1)
     i.wf = true ∧ i.isWord = true) ∧
    (let w := (0x0380824010000001 : Word); let i := Instr.ssub ⟨.always, .opnd 1 .a, .out 0⟩ (some 1)
     decode w = .ok i) := by decide +kernel

/-- The premises of `Obligations.BlockStartsAndStalls` can be met. -/
theorem witness_BlockStartsAndStalls :
    (let s := fetching; let u := (s.acquires 0).getD s; let w := 0; let m := image0; let e := (0x8000000000000000 : Word)
     s.mayFetch w = true ∧ s.fetchHeld w = false ∧ s.acquires w = some u ∧ (s.warp w).timed.owesMiss = false ∧ (s.warp w).refill = .none ∧
       (reads0 u m e) = true ∧ u.imageCheck w m e = none ∧
       readsPoison (s.warp w) m ((m.ins.filter fun i => wOpc i == 0x18E).map fun i => fld i 49 4) = false ∧ m.reads = []) ∧
    (let s := up0; let w := 0
     (s.mayFetch w = false ∨ s.fetchHeld w = true)) ∧
    (let s := awaiting; let w := 0; let b := blk0 s
     s.shapeOk ∧ s.blk? w = some b ∧ b.quiet = true ∧ b.complete = false) := by decide +kernel

/-- The premises of `Obligations.RefusedBlocksFault` can be met: part 1. -/
theorem witness_RefusedBlocksFault :
    let ready := fun (s u : State) w => u.shapeOk ∧ s.mayFetch w = true ∧ s.fetchHeld w = false ∧ s.acquires w = some u
    (let s : State := fetching.modWarp 0 fun x => { x with timed := { x.timed with owesMiss := true } }; let u := (s.acquires 0).getD s
     let w := 0
     ready s u w ∧ (s.warp w).timed.owesMiss = true) ∧
    (let s : State := { fetching.modWarp 0 (fun x => { x with refill := .group, spilled := 1 }) with memPoison := [0] }
     let u := (s.acquires 0).getD s; let w := 0; let q := match u.readGroup w 0 with | .error q => q | _ => default
     ready s u w ∧ (s.warp w).timed.owesMiss = false ∧ (s.warp w).refill = .group ∧
       (match u.readGroup w ((s.warp w).spilled - 1) with | .error y => y == q | _ => false) = true ∧ q.1.code ≠ 3) := by decide +kernel

/-- The premises of `Obligations.RefusedBlocksFault` can be met: part 2. -/
theorem witness_RefusedBlocksFault_2 :
    let ready := fun (s u : State) w => u.shapeOk ∧ s.mayFetch w = true ∧ s.fetchHeld w = false ∧ s.acquires w = some u
    (let s : State := fetching.modWarp 0 fun x => { x with next := 2 }; let u := (s.acquires 0).getD s; let w := 0
     let f := match u.readImage w 2 with | .bad f _ => f | _ => default
     ready s u w ∧ (s.warp w).timed.owesMiss = false ∧ (s.warp w).refill = .none ∧
       (match u.readImage w (s.warp w).next with | .bad g _ => g == f | _ => false) = true ∧ f.code ≠ 3) ∧
    (let s : State := { fetching with mem := [(0x10007, 0xA3)] }; let u := (s.acquires 0).getD s; let w := 0
     let m := (match u.readImage w 0 with | .got m _ => m | _ => []); let e := (0x8000000000000000 : Word)
     let f := (u.imageCheck w m e).getD default
     ready s u w ∧ (s.warp w).timed.owesMiss = false ∧ (s.warp w).refill = .none ∧
       (match u.readImage w (s.warp w).next with | .got a b => a == m && b == e | _ => false) = true ∧ u.imageCheck w m e = some f) := by decide +kernel

/-- The premises of `Obligations.RefusedBlocksFault` can be met: part 3. -/
theorem witness_RefusedBlocksFault_3 :
    let row := fun (s : State) w (m : Img) (e : Word) => firstRow (entryRows e ++ (m.fetchRow (s.launchOf w).vregs (s.launchOf w).bars (s.launchOf
      w).coresident (match s.objOf w with | some o => o.preloads.length | none => 0) (s.warp w).mreg).toList)
    let magic := fun (m : Img) => fld m.h0 60 4 = 0xB ∧ fld m.h0 56 4 = 3
    (let s := fetching; let w := 0; let n := 0xFFFFFF
     s.hasBlock w n = false) ∧
    (let s : State := { fetching with objs := [{ obj0 with code := 0 }] }; let w := 0; let n := 1; let o := { obj0 with code := 0 }
     let ofs := 64
     s.objOf w = some o ∧ o.offset? n = some ofs ∧ s.transNow (s.place w).ctx true .ex (o.code + ofs) = .prot) ∧
    (let s : State := fetching; let w := 0; let m := img 0 [0]; let e := (0x8000000000000000 : Word); let r := 21
     row s w m e = some r) ∧
    (let m := ([] : Img)
     (¬ magic m)) ∧
    (let m := img 0x800000 [exitW]; let e := (0x8000000000000000 : Word)
     magic m ∧ (fld m.h0 0 24 ≠ 0 ∨ fld m.h1 0 34 ≠ 0 ∨ fld e 40 23 ≠ 0)) ∧
    (let m := img 0x880000000000 [exitW]
     (16 < m.nrd ∨ 16 < m.nwr)) := by decide +kernel

/-- The premises of `Obligations.RefusedBlocksFault` can be met: part 4. -/
theorem witness_RefusedBlocksFault_4 :
    (let m := img 0x100000000 [exitW]
     (m.ins.filter fun q => opStore (wOpc q)).length < m.nst) ∧
    (let m := img 0x8000000000 [0x80008000, exitW]
     (¬ ((m.writes.filter (·.val)).map fun q => (q.cls, q.reg)).Nodup)) ∧
    (let s : State := fetching; let w := 0; let m := img 0x4000000000 [0x9FE0, exitW]
     ((∃ q ∈ m.writes, q.val = true ∧ q.cls = 0 ∧ (s.launchOf w).vregs ≤ q.reg) ∨ (∃ q ∈ m.reads, q.cls = 0 ∧ (s.launchOf w).vregs ≤ q.reg))) ∧
    (let m := img 0x80000000000 [0x40504000, exitW]; let r := m.reads.getD 0 default
     r ∈ m.reads ∧ (match decTarget r.t0 with | .ok (.opnd i _) => decide (m.nins ≤ i.toNat) | _ => false) = true) ∧
    (let m := img 0x4000000000000 [wordOf (.lds hn m0 .b64), wordOf (.lds hn m0 .b64)]
     (¬ ((m.ins.filter fun q => opM (wOpc q)).map fun q => fld q 24 5).Nodup)) ∧
    (let m := img 0 [0]
     m.ins.all (fun q => decide (¬ (0x40 ≤ wOpc q ∧ wOpc q ≤ 0x45) ∧ wOpc q ≠ 0x1C8)) = true) := by decide +kernel

/-- The premises of `Obligations.RefusedBlocksFault` can be met: part 5. -/
theorem witness_RefusedBlocksFault_5 :
    let row := fun (s : State) w (m : Img) (e : Word) => firstRow (entryRows e ++ (m.fetchRow (s.launchOf w).vregs (s.launchOf w).bars (s.launchOf
      w).coresident (match s.objOf w with | some o => o.preloads.length | none => 0) (s.warp w).mreg).toList)
    (let e := (0x8000000000000020 : Word)
     fld e 0 40 % 64 ≠ 0) ∧
    (let s : State := { fetching with grids := inCtx1.grids }; let w := 0; let m := img 0x3000000000000 [exitW]
     let e := (0x8000000000000000 : Word)
     row s w m e = none ∧ m.cls = 3 ∧ (s.warp w).trap.on = false ∧ (s.place w).ctx ≠ 0) ∧
    (let s : State := timedOf fetching; let w := 0; let m := img 0 [exitW]; let e := (0x8000000000000000 : Word)
     row s w m e = none ∧ m.cls = 0 ∧ (s.launchOf w).timed = true) := by decide +kernel

/-- The premises of `Obligations.RefusedBlocksFault` can be met: part 6. -/
theorem witness_RefusedBlocksFault_6 :
    let row := fun (s : State) w (m : Img) (e : Word) => firstRow (entryRows e ++ (m.fetchRow (s.launchOf w).vregs (s.launchOf w).bars (s.launchOf
      w).coresident (match s.objOf w with | some o => o.preloads.length | none => 0) (s.warp w).mreg).toList)
    (let s : State := timedOf (fetching.modWarp 0 fun x => { x with live := 1 }); let w := 0; let m := img 0x2000000000000 [exitW]
     let e := (0x8000000000000000 : Word)
     row s w m e = none ∧ m.cls = 2 ∧ (s.launchOf w).timed = true ∧ (s.warp w).live ≠ allLanes) ∧
    (let s : State := fetching.modWarp 0 fun x => { x with live := 1 }; let w := 0; let m := img 0x1000000000000 [exitW]
     let e := (0x8000000000000000 : Word)
     row s w m e = none ∧ m.cls = 1 ∧ (s.warp w).live ≠ allLanes) := by decide +kernel

/-- The premises of `Obligations.RefusedBlocksFault` can be met: part 7. -/
theorem witness_RefusedBlocksFault_7 :
    let row := fun (s : State) w (m : Img) (e : Word) => firstRow (entryRows e ++ (m.fetchRow (s.launchOf w).vregs (s.launchOf w).bars (s.launchOf
      w).coresident (match s.objOf w with | some o => o.preloads.length | none => 0) (s.warp w).mreg).toList)
    (let s : State := fetching; let w := 0; let m := img 0x5000000000000 [wordOf (.mmode hn true true 0 72), exitW]
     let e := (0x8000000000000000 : Word)
     row s w m e = none ∧ m.cls = 1 ∧ (s.warp w).live = allLanes ∧ m.ins.any (fun q => decide (wOpc q = 0x140 ∧
       (s.launchOf w).vregs < fld q 2 8 + 66)) = true) ∧
    (let s : State := fetching; let w := 0; let m := img 0x5000000000000 [wordOf (.mzero hn false false), exitW]
     let e := (0x8000000000000000 : Word)
     row s w m e = none ∧ m.cls = 1 ∧ (s.warp w).live = allLanes ∧ m.ins.all (fun q => decide (wOpc q ≠ 0x140)) = true ∧
       m.ins.any (fun q => decide (0x141 ≤ wOpc q ∧ wOpc q ≤ 0x148)) = true ∧ (s.warp w).mreg.getLsbD 0 = false) := by decide +kernel

/-- The premises of `Obligations.RefusedBlocksFault` can be met: part 8. -/
theorem witness_RefusedBlocksFault_8 :
    let row := fun (s : State) w (m : Img) (e : Word) => firstRow (entryRows e ++ (m.fetchRow (s.launchOf w).vregs (s.launchOf w).bars (s.launchOf
      w).coresident (match s.objOf w with | some o => o.preloads.length | none => 0) (s.warp w).mreg).toList)
    (let s : State := timedOf fetching; let w := 0; let m := img 0x6080008000000 [0x40500000, wordOf (.tsend hn 1), exitW]
     let e := (0x8000000000000000 : Word); let k := 0; let h := hn; let n : BitVec 25 := 1
     row s w m e = none ∧ m.cls = 2 ∧ (s.launchOf w).timed = true ∧ (s.warp w).live = allLanes ∧ s.umpireOn w = false ∧
       m.matrixFault (s.warp w).live (s.warp w).mreg (s.warp w).fmt (s.launchOf w).vregs = none ∧ m.instr? k = some (.tsend h n) ∧
       (n.toNat % 64 ≠ 0 ∨ n.toNat < (s.launchOf w).strokeD ∨ (s.launchOf w).strokeS < n.toNat + 128) ∧ k = 0) := by decide +kernel

/-- The premises of `Obligations.CommitWritesRegisters` can be met. -/
theorem witness_CommitWritesRegisters :
    (let s : State := committing fun b => { b with deferred := { fmt := some (0, .seed, 5), mmode := some (0, true, true, 0, 66), wstclr := true } }
     let w := 0; let b := blk0 s; let n := 1
     s.Commits w b ∧ s.GoesTo w b n ∧ s.commitFaults w b = [] ∧ b.deferred.trap = none ∧ b.deferred.stroke = none ∧ b.deferred.syswr = []) ∧
    (let s : State := timedOf (committing fun b => { b with cls := 2, deferred := { stroke := some (0, true) } }); let w := 0
     let b := blk0 s; let n := 1; let i := 0; let slip := true
     s.Commits w b ∧ s.GoesTo w b n ∧ s.commitFaults w b = [] ∧ b.deferred.trap = none ∧ b.deferred.stroke = some (i, slip) ∧
       (s.warp w).done = false ∧ b.deferred.syswr = []) := by decide +kernel

/-- The premises of `Obligations.CommitPerformsStoresAndPushes` can be met: part 1. -/
theorem witness_CommitPerformsStoresAndPushes :
    (let p := ({ mseq := 0, idx := 0, team := 0, ofs := 1020, val := 5 } : SpStore)
     let s : State := committing fun b => { b with nst := 1, storeCount := 1, sps := [p] }; let w := 0; let b := blk0 s; let n := 1
     s.Commits w b ∧ s.GoesTo w b n ∧ s.commitFaults w b = [] ∧ b.deferred = {} ∧ b.sps = [p] ∧ b.mst = [] ∧ p.team < s.teams.length ∧
       Memory.wf (s.team p.team).spad = true ∧ (s.teamLaunch p.team).timed = false) := by decide +kernel

/-- The premises of `Obligations.CommitPerformsStoresAndPushes` can be met: part 2. -/
theorem witness_CommitPerformsStoresAndPushes_2 :
    (let p := ({ mseq := 0, idx := 0, team := 0, ofs := 1020, val := 5 } : SpStore)
     let s : State := timedOf (committing fun b => { b with nst := 1, storeCount := 1, sps := [p] }); let w := 0; let b := blk0 s
     let n := 1
     s.Commits w b ∧ s.GoesTo w b n ∧ s.commitFaults w b = [] ∧ b.deferred = {} ∧ b.sps = [p] ∧ b.mst = [] ∧ p.team < s.teams.length ∧
       Memory.wf (s.team p.team).spad = true ∧ (s.teamLaunch p.team).timed = true) ∧
    (let e := (default : SpPend); let s : State := { up0.modTeam 0 (fun t => { t with pend := [e] }) with agenda := [.spad 0 0 []] }
     let k := 0; let n := 0; let r := []
     s.agenda = .spad k n [] :: r ∧ (s.team k).pend[n]? = some e ∧ s.spadMay k n e = true) ∧
    (let e := ({ (default : SpPend) with warp := some 0, stamp := 1, rel := some .core } : SpPend)
     let s : State := { up0.modTeam 0 (fun t => { t with pend := [{ e with stamp := 0, rel := none }, e] }) with agenda := [.spad 0 1 []] }
     let k := 0; let n := 1; let r := []; let part := []
     s.agenda = .spad k n part :: r ∧ (s.team k).pend[n]? = some e ∧ s.spadMay k n e = false) := by decide +kernel

/-- The premises of `Obligations.CommitPerformsStoresAndPushes` can be met: part 3. -/
theorem witness_CommitPerformsStoresAndPushes_3 :
    (let g := ({ mseq := 0, idx := 0, rqt := .wt, ord := .plain, scope := .warp, kind := .bytes [(127, 5)] } : GStore)
     let s : State := committing fun b => { b with nst := 1, storeCount := 1, stores := [g] }; let w := 0; let b := blk0 s; let n := 1
     let l := [(127, (5 : BitVec 8))]; let ln := 0
     s.Commits w b ∧ s.GoesTo w b n ∧ s.commitFaults w b = [] ∧ b.deferred = {} ∧ b.stores = [g] ∧ g.kind = .bytes l ∧ l ≠ [] ∧
       (∀ p ∈ l, p.1 / 128 = ln) ∧ s.homeOf (s.place w).ctx (ln * 128) = .loc 0 0) := by decide +kernel

/-- The premises of `Obligations.CommitPerformsStoresAndPushes` can be met: part 4. -/
theorem witness_CommitPerformsStoresAndPushes_4 :
    (let p := ({ idx := 0, dst := .copy 0, cmd := [] } : PushRes); let s : State := committing fun b => { b with pushes := [p] }
     let w := 0; let b := blk0 s; let n := 1; let k := 0
     s.Commits w b ∧ s.GoesTo w b n ∧ s.commitFaults w b = [] ∧ b.deferred = {} ∧ b.pushes = [p] ∧ p.dst = .copy k ∧
       (s.warp w).team < s.teams.length ∧ (∀ o, s.objOf w = some o → o.preloads = [])) := by decide +kernel

/-- The premises of `Obligations.TrapsAreTaken` can be met: part 1. -/
theorem witness_TrapsAreTaken :
    let calm := fun (s : State) w (b : Blk) => b.deferred.stroke = none ∧ (s.warp w).done = false ∧ b.deferred.syswr = []
    (let s := trapping 0x1000000 trap1; let w := 0; let b := blk0 s; let n := 1; let i := 0; let num := 1; let pay := 7; let v := 0
     s.Commits w b ∧ s.GoesTo w b n ∧ n < 2 ^ 24 ∧ s.commitFaults w b = [] ∧ b.deferred.trap = some (i, num, pay) ∧ calm s w b ∧
       s.trapVector (s.place w).ctx = (true, v) ∧ s.hasBlock w (v + num) = true) ∧
    (let s : State := trapping 0x1000000 fun b => { trap1 b with branch := some (0, .exit) }; let w := 0; let b := blk0 s; let j := 0
     let i := 0; let num := 1; let pay := 7; let v := 0
     s.Commits w b ∧ b.branch = some (j, .exit) ∧ s.commitFaults w b = [] ∧ b.deferred.trap = some (i, num, pay) ∧ calm s w b ∧
       s.trapVector (s.place w).ctx = (true, v) ∧ s.hasBlock w (v + num) = true) := by decide +kernel

/-- The premises of `Obligations.TrapsAreTaken` can be met: part 2. -/
theorem witness_TrapsAreTaken_2 :
    (let s := trapping 0x1FFFFFE trap1; let w := 0; let b := blk0 s; let n := 1; let i := 0; let num := 1; let pay := 7
     let v := 0xFFFFFE
     s.shapeOk ∧ s.Commits w b ∧ s.GoesTo w b n ∧ s.commitFaults w b = [] ∧ b.deferred.trap = some (i, num, pay) ∧ b.deferred.stroke = none ∧
       (s.warp w).done = false ∧ b.deferred.syswr = [] ∧ (s.trapVector (s.place w).ctx = (false, v) ∨ (s.trapVector (s.place w).ctx = (true, v) ∧
       s.hasBlock w (v + num) = false))) := by decide +kernel

/-- The premises of `Obligations.TrapsAreTaken` can be met: part 3. -/
theorem witness_TrapsAreTaken_3 :
    (let s : State := (trapping 0x1000000 trap1).modWarp 0 fun x => { x with trap := { on := true } }; let w := 0; let b := blk0 s
     let n := 1; let i := 0; let num := 1; let pay := 7
     s.shapeOk ∧ s.Commits w b ∧ s.GoesTo w b n ∧ b.deferred.trap = some (i, num, pay) ∧ (s.warp w).trap.on = true ∧ b.deferred.stroke = none ∧
       (∀ t ∈ s.tsends, t.w = w → t.committed = true) ∧ b.pushes = []) := by decide +kernel

/-- The premises of `Obligations.BranchesChooseSuccessors` can be met: part 1. -/
theorem witness_BranchesChooseSuccessors :
    let commits := fun (s : State) w (b : Blk) (sel : Nat × BranchSel) => s.Commits w b ∧ s.commitFaults w b = [] ∧ b.branch = some sel ∧
      b.deferred.trap = none ∧ b.deferred.stroke = none ∧ (s.warp w).done = false ∧ b.deferred.syswr = []
    let targets := fun (s : State) w (v : Vec) (j : Nat) (ts : List Nat) => s.hasBlock w j = true ∧ ts.Pairwise (· < ·) ∧ (∀ n ∈ ts, n ≠ j ∧ ∃ l <
      64, (s.warp w).live.getLsbD l = true ∧ (v.lane l).toNat = n) ∧ (∀ l < 64, (s.warp w).live.getLsbD l = true → (v.lane l).toNat = j ∨ (v.lane
      l).toNat ∈ ts) ∧ (∀ n ∈ ts, n < 2 ^ 24 ∧ s.hasBlock w n = true)
    let disagree := fun (s : State) w (v : Vec) => ∃ l < 64, ∃ m < 64, (s.warp w).live.getLsbD l = true ∧ (s.warp w).live.getLsbD m = true ∧ v.lane
      l ≠ v.lane m
    (let s := branching 0 (.lanes [] 1) id; let w := 0; let b := blk0 s; let i := 0; let v : Vec := []; let j := 1; let n := 0
     commits s w b (i, .lanes v j) ∧ targets s w v j (if n = j then [] else [n]) ∧ (¬ disagree s w v) ∧ (s.warp w).live ≠ 0 ∧
       (∃ l < 64, (s.warp w).live.getLsbD l = true ∧ (v.lane l).toNat = n) ∧ n < 2 ^ 24 ∧ (s.warp w).cj ≠ some n) := by decide +kernel

/-- The premises of `Obligations.BranchesChooseSuccessors` can be met: part 2. -/
theorem witness_BranchesChooseSuccessors_2 :
    let commits := fun (s : State) w (b : Blk) (sel : Nat × BranchSel) => s.Commits w b ∧ s.commitFaults w b = [] ∧ b.branch = some sel ∧
      b.deferred.trap = none ∧ b.deferred.stroke = none ∧ (s.warp w).done = false ∧ b.deferred.syswr = []
    let targets := fun (s : State) w (v : Vec) (j : Nat) (ts : List Nat) => s.hasBlock w j = true ∧ ts.Pairwise (· < ·) ∧ (∀ n ∈ ts, n ≠ j ∧ ∃ l <
      64, (s.warp w).live.getLsbD l = true ∧ (v.lane l).toNat = n) ∧ (∀ l < 64, (s.warp w).live.getLsbD l = true → (v.lane l).toNat = j ∨ (v.lane
      l).toNat ∈ ts) ∧ (∀ n ∈ ts, n < 2 ^ 24 ∧ s.hasBlock w n = true)
    let disagree := fun (s : State) w (v : Vec) => ∃ l < 64, ∃ m < 64, (s.warp w).live.getLsbD l = true ∧ (s.warp w).live.getLsbD m = true ∧ v.lane
      l ≠ v.lane m
    (let s := branching 0 (.lanes [1] 0) id; let w := 0; let b := blk0 s; let i := 0; let v : Vec := [1]; let j := 0; let ts := [1]
     commits s w b (i, .lanes v j) ∧ targets s w v j ts ∧ disagree s w v ∧ b.cls ≠ 1 ∧ b.cls ≠ 2 ∧ (s.warp w).stack.length + ts.length ≤ 32) := by decide +kernel

/-- The premises of `Obligations.BranchesChooseSuccessors` can be met: part 3. -/
theorem witness_BranchesChooseSuccessors_3 :
    let commits := fun (s : State) w (b : Blk) (sel : Nat × BranchSel) => s.Commits w b ∧ s.commitFaults w b = [] ∧ b.branch = some sel ∧
      b.deferred.trap = none ∧ b.deferred.stroke = none ∧ (s.warp w).done = false ∧ b.deferred.syswr = []
    let targets := fun (s : State) w (v : Vec) (j : Nat) (ts : List Nat) => s.hasBlock w j = true ∧ ts.Pairwise (· < ·) ∧ (∀ n ∈ ts, n ≠ j ∧ ∃ l <
      64, (s.warp w).live.getLsbD l = true ∧ (v.lane l).toNat = n) ∧ (∀ l < 64, (s.warp w).live.getLsbD l = true → (v.lane l).toNat = j ∨ (v.lane
      l).toNat ∈ ts) ∧ (∀ n ∈ ts, n < 2 ^ 24 ∧ s.hasBlock w n = true)
    let disagree := fun (s : State) w (v : Vec) => ∃ l < 64, ∃ m < 64, (s.warp w).live.getLsbD l = true ∧ (s.warp w).live.getLsbD m = true ∧ v.lane
      l ≠ v.lane m
    (let s : State := branching 0 (.lanes [1] 0) (fun x => { x with stack := List.replicate 32 (back1 false) }); let w := 0
     let b := blk0 s; let i := 0; let v : Vec := [1]; let j := 0; let n := 1; let ph := 0; let sp := 0
     let leaf := (0xF000000000000000 : Word)
     commits s w b (i, .lanes v j) ∧ targets s w v j [n] ∧ disagree s w v ∧ b.cls ≠ 1 ∧ b.cls ≠ 2 ∧ (s.warp w).stack.length = 32 ∧
       (s.warp w).spilled < 128 ∧ s.transNow (s.place w).ctx true .wr (s.privBase w + 512 * (s.warp w).spilled) = .ok ph sp leaf) := by decide +kernel

/-- The premises of `Obligations.BranchesChooseSuccessors` can be met: part 4. -/
theorem witness_BranchesChooseSuccessors_4 :
    let commits := fun (s : State) w (b : Blk) (sel : Nat × BranchSel) => s.Commits w b ∧ s.commitFaults w b = [] ∧ b.branch = some sel ∧
      b.deferred.trap = none ∧ b.deferred.stroke = none ∧ (s.warp w).done = false ∧ b.deferred.syswr = []
    let targets := fun (s : State) w (v : Vec) (j : Nat) (ts : List Nat) => s.hasBlock w j = true ∧ ts.Pairwise (· < ·) ∧ (∀ n ∈ ts, n ≠ j ∧ ∃ l <
      64, (s.warp w).live.getLsbD l = true ∧ (v.lane l).toNat = n) ∧ (∀ l < 64, (s.warp w).live.getLsbD l = true → (v.lane l).toNat = j ∨ (v.lane
      l).toNat ∈ ts) ∧ (∀ n ∈ ts, n < 2 ^ 24 ∧ s.hasBlock w n = true)
    let disagree := fun (s : State) w (v : Vec) => ∃ l < 64, ∃ m < 64, (s.warp w).live.getLsbD l = true ∧ (s.warp w).live.getLsbD m = true ∧ v.lane
      l ≠ v.lane m
    (let s : State := branching 0 (.lanes [1] 0) (fun x => { x with stack := List.replicate 32 (back1 false), spilled := 128 })
     let w := 0; let b := blk0 s; let i := 0; let v : Vec := [1]; let j := 0; let n := 1
     targets s w v j [n] ∧ disagree s w v ∧ b.cls ≠ 1 ∧ b.cls ≠ 2 ∧ (s.warp w).stack.length = 32 ∧ 128 ≤ (s.warp w).spilled ∧ s.shapeOk ∧
       commits s w b (i, .lanes v j)) := by decide +kernel

/-- The premises of `Obligations.BranchesChooseSuccessors` can be met: part 5. -/
theorem witness_BranchesChooseSuccessors_5 :
    let commits := fun (s : State) w (b : Blk) (sel : Nat × BranchSel) => s.Commits w b ∧ s.commitFaults w b = [] ∧ b.branch = some sel ∧
      b.deferred.trap = none ∧ b.deferred.stroke = none ∧ (s.warp w).done = false ∧ b.deferred.syswr = []
    let targets := fun (s : State) w (v : Vec) (j : Nat) (ts : List Nat) => s.hasBlock w j = true ∧ ts.Pairwise (· < ·) ∧ (∀ n ∈ ts, n ≠ j ∧ ∃ l <
      64, (s.warp w).live.getLsbD l = true ∧ (v.lane l).toNat = n) ∧ (∀ l < 64, (s.warp w).live.getLsbD l = true → (v.lane l).toNat = j ∨ (v.lane
      l).toNat ∈ ts) ∧ (∀ n ∈ ts, n < 2 ^ 24 ∧ s.hasBlock w n = true)
    let disagree := fun (s : State) w (v : Vec) => ∃ l < 64, ∃ m < 64, (s.warp w).live.getLsbD l = true ∧ (s.warp w).live.getLsbD m = true ∧ v.lane
      l ≠ v.lane m
    (let s : State := branching 0x20000 (.lanes [1] 0) (fun x => { x with stack := List.replicate 32 (back1 false) }); let w := 0
     let b := blk0 s; let i := 0; let v : Vec := [1]; let j := 0; let n := 1; let hm := 0; let sp := 0
     targets s w v j [n] ∧ disagree s w v ∧ b.cls ≠ 1 ∧ b.cls ≠ 2 ∧ (s.warp w).stack.length = 32 ∧ (s.warp w).spilled < 128 ∧
       s.transNow (s.place w).ctx true .wr (s.privBase w + 512 * (s.warp w).spilled) = .page hm sp ∧ s.shapeOk ∧ commits s w b (i, .lanes v j)) := by decide +kernel

/-- The premises of `Obligations.BranchesChooseSuccessors` can be met: part 6. -/
theorem witness_BranchesChooseSuccessors_6 :
    let commits := fun (s : State) w (b : Blk) (sel : Nat × BranchSel) => s.Commits w b ∧ s.commitFaults w b = [] ∧ b.branch = some sel ∧
      b.deferred.trap = none ∧ b.deferred.stroke = none ∧ (s.warp w).done = false ∧ b.deferred.syswr = []
    let targets := fun (s : State) w (v : Vec) (j : Nat) (ts : List Nat) => s.hasBlock w j = true ∧ ts.Pairwise (· < ·) ∧ (∀ n ∈ ts, n ≠ j ∧ ∃ l <
      64, (s.warp w).live.getLsbD l = true ∧ (v.lane l).toNat = n) ∧ (∀ l < 64, (s.warp w).live.getLsbD l = true → (v.lane l).toNat = j ∨ (v.lane
      l).toNat ∈ ts) ∧ (∀ n ∈ ts, n < 2 ^ 24 ∧ s.hasBlock w n = true)
    let disagree := fun (s : State) w (v : Vec) => ∃ l < 64, ∃ m < 64, (s.warp w).live.getLsbD l = true ∧ (s.warp w).live.getLsbD m = true ∧ v.lane
      l ≠ v.lane m
    (let s : State := (branching 0 (.lanes [1] 0) id).modBlk 0 fun b => { b with cls := 1 }; let w := 0; let b := blk0 s; let i := 0
     let v : Vec := [1]; let j := 0; let ts := [1]
     targets s w v j ts ∧ disagree s w v ∧ (b.cls = 1 ∨ b.cls = 2) ∧ s.shapeOk ∧ commits s w b (i, .lanes v j)) := by decide +kernel

/-- The premises of `Obligations.BranchesChooseSuccessors` can be met: part 7. -/
theorem witness_BranchesChooseSuccessors_7 :
    let commits := fun (s : State) w (b : Blk) (sel : Nat × BranchSel) => s.Commits w b ∧ s.commitFaults w b = [] ∧ b.branch = some sel ∧
      b.deferred.trap = none ∧ b.deferred.stroke = none ∧ (s.warp w).done = false ∧ b.deferred.syswr = []
    (let s := branching 0 (.lanes [1] 2) id; let w := 0; let b := blk0 s; let i := 0; let v : Vec := [1]; let j := 2; let l := 63
     l < 64 ∧ (s.warp w).live.getLsbD l = true ∧ (s.hasBlock w (v.lane l).toNat = false ∨ s.hasBlock w j = false) ∧ s.shapeOk ∧
       commits s w b (i, .lanes v j)) ∧
    (let s := branching 0 (.goto 2) id; let w := 0; let b := blk0 s; let i := 0; let n := 2
     s.hasBlock w n = false ∧ s.shapeOk ∧ commits s w b (i, .goto n)) := by decide +kernel

/-- The premises of `Obligations.BranchesChooseSuccessors` can be met: part 8. -/
theorem witness_BranchesChooseSuccessors_8 :
    let commits := fun (s : State) w (b : Blk) (sel : Nat × BranchSel) => s.Commits w b ∧ s.commitFaults w b = [] ∧ b.branch = some sel ∧
      b.deferred.trap = none ∧ b.deferred.stroke = none ∧ (s.warp w).done = false ∧ b.deferred.syswr = []
    (let s := branching 0 (.call 2) id; let w := 0; let b := blk0 s; let i := 0; let n := 2
     s.hasBlock w n = false ∧ s.shapeOk ∧ commits s w b (i, .call n)) ∧
    (let s := branching 0 (.reg 0x1000000) id; let w := 0; let b := blk0 s; let i := 0; let x := (0x1000000 : Word)
     (2 ^ 24 ≤ x.toNat ∨ s.hasBlock w x.toNat = false) ∧ s.shapeOk ∧ commits s w b (i, .reg x)) := by decide +kernel

/-- The premises of `Obligations.BranchesChooseSuccessors` can be met: part 9. -/
theorem witness_BranchesChooseSuccessors_9 :
    let commits := fun (s : State) w (b : Blk) (sel : Nat × BranchSel) => s.Commits w b ∧ s.commitFaults w b = [] ∧ b.branch = some sel ∧
      b.deferred.trap = none ∧ b.deferred.stroke = none ∧ (s.warp w).done = false ∧ b.deferred.syswr = []
    (let s := branching 0 (.reg 1) id; let w := 0; let b := blk0 s; let i := 0; let x := (1 : Word)
     commits s w b (i, .reg x) ∧ x.toNat < 2 ^ 24 ∧ s.hasBlock w x.toNat = true ∧ (s.warp w).live ≠ 0 ∧ (s.warp w).cj ≠ some x.toNat) := by decide +kernel

/-- The premises of `Obligations.BranchesChooseSuccessors` can be met: part 10. -/
theorem witness_BranchesChooseSuccessors_10 :
    let commits := fun (s : State) w (b : Blk) (sel : Nat × BranchSel) => s.Commits w b ∧ s.commitFaults w b = [] ∧ b.branch = some sel ∧
      b.deferred.trap = none ∧ b.deferred.stroke = none ∧ (s.warp w).done = false ∧ b.deferred.syswr = []
    let frame := fun (s : State) w (n : Nat) => s.privBase w + 0x10000 + 16 * n
    (let s := branching 0 (.call 1) id; let w := 0; let b := blk0 s; let i := 0; let n := 1; let ph := 0x10000; let sp := 0
     let leaf := (0xF000000000010000 : Word)
     commits s w b (i, .call n) ∧ s.hasBlock w n = true ∧ (s.warp w).live ≠ 0 ∧ (s.warp w).cj ≠ some n ∧ (s.warp w).calls < 65536 ∧
       s.transNow (s.place w).ctx true .wr (frame s w (s.warp w).calls) = .ok ph sp leaf) := by decide +kernel

/-- The premises of `Obligations.BranchesChooseSuccessors` can be met: part 11. -/
theorem witness_BranchesChooseSuccessors_11 :
    let commits := fun (s : State) w (b : Blk) (sel : Nat × BranchSel) => s.Commits w b ∧ s.commitFaults w b = [] ∧ b.branch = some sel ∧
      b.deferred.trap = none ∧ b.deferred.stroke = none ∧ (s.warp w).done = false ∧ b.deferred.syswr = []
    let frame := fun (s : State) w (n : Nat) => s.privBase w + 0x10000 + 16 * n
    (let s := branching 0x20000 (.call 1) id; let w := 0; let b := blk0 s; let i := 0; let n := 1; let hm := 0; let sp := 0
     s.hasBlock w n = true ∧ (s.warp w).calls < 65536 ∧ s.transNow (s.place w).ctx true .wr (frame s w (s.warp w).calls) = .page hm sp ∧
       s.shapeOk ∧ commits s w b (i, .call n)) := by decide +kernel

/-- The premises of `Obligations.BranchesChooseSuccessors` can be met: part 12. -/
theorem witness_BranchesChooseSuccessors_12 :
    let commits := fun (s : State) w (b : Blk) (sel : Nat × BranchSel) => s.Commits w b ∧ s.commitFaults w b = [] ∧ b.branch = some sel ∧
      b.deferred.trap = none ∧ b.deferred.stroke = none ∧ (s.warp w).done = false ∧ b.deferred.syswr = []
    let frame := fun (s : State) w (n : Nat) => s.privBase w + 0x10000 + 16 * n
    (let s : State := branching 0 (.ret) (fun x => { x with calls := 1 }); let w := 0; let b := blk0 s; let i := 0; let k := 0
     let ph := 0x10000; let sp := 0; let leaf := (0xF000000000010000 : Word); let l := s.ownBytes w sp (frame s w k) 16
     let n := leNat ((l.map (·.1)).take 8) / 2 ^ 32 % 2 ^ 24
     commits s w b (i, .ret) ∧ (s.warp w).calls = k + 1 ∧ (s.warp w).live ≠ 0 ∧
       s.transNow (s.place w).ctx true .rd (frame s w k) = .ok ph sp leaf ∧ l.any (·.2) = false ∧
       (s.warp w).depth ≤ leNat ((l.map (·.1)).drop 8) % 4096 ∧ s.hasBlock w n = true ∧ (s.warp w).cj ≠ some n) := by decide +kernel

/-- The premises of `Obligations.BranchesChooseSuccessors` can be met: part 13. -/
theorem witness_BranchesChooseSuccessors_13 :
    let commits := fun (s : State) w (b : Blk) (sel : Nat × BranchSel) => s.Commits w b ∧ s.commitFaults w b = [] ∧ b.branch = some sel ∧
      b.deferred.trap = none ∧ b.deferred.stroke = none ∧ (s.warp w).done = false ∧ b.deferred.syswr = []
    let frame := fun (s : State) w (n : Nat) => s.privBase w + 0x10000 + 16 * n
    (let s : State := branching 0 (.ret) (fun x => { x with calls := 1, stack := [back1 true] }); let w := 0; let b := blk0 s
     let i := 0; let k := 0; let ph := 0x10000; let sp := 0; let leaf := (0xF000000000010000 : Word)
     (s.warp w).calls = k + 1 ∧ s.transNow (s.place w).ctx true .rd (frame s w k) = .ok ph sp leaf ∧
       (s.ownBytes w sp (frame s w k) 16).any (·.2) = false ∧
       leNat (((s.ownBytes w sp (frame s w k) 16).map (·.1)).drop 8) % 4096 < (s.warp w).depth ∧ s.shapeOk ∧ commits s w b (i, .ret)) ∧
    (let s := branching 0 (.ret) id; let w := 0; let b := blk0 s; let i := 0
     (s.warp w).calls = 0 ∧ s.shapeOk ∧ commits s w b (i, .ret)) := by decide +kernel

/-- The premises of `Obligations.BranchesChooseSuccessors` can be met: part 14. -/
theorem witness_BranchesChooseSuccessors_14 :
    let commits := fun (s : State) w (b : Blk) (sel : Nat × BranchSel) => s.Commits w b ∧ s.commitFaults w b = [] ∧ b.branch = some sel ∧
      b.deferred.trap = none ∧ b.deferred.stroke = none ∧ (s.warp w).done = false ∧ b.deferred.syswr = []
    (let s := branching 0 (.exit) id; let w := 0; let b := blk0 s; let i := 0
     s.shapeOk ∧ commits s w b (i, .exit) ∧ (s.warp w).retired ||| (s.warp w).live = allLanes) := by decide +kernel

/-- The premises of `Obligations.BranchesChooseSuccessors` can be met: part 15. -/
theorem witness_BranchesChooseSuccessors_15 :
    let commits := fun (s : State) w (b : Blk) (sel : Nat × BranchSel) => s.Commits w b ∧ s.commitFaults w b = [] ∧ b.branch = some sel ∧
      b.deferred.trap = none ∧ b.deferred.stroke = none ∧ (s.warp w).done = false ∧ b.deferred.syswr = []
    (let s : State := branching 0 (.exit) (fun x => { x with live := 0xFFFFFFFF00000000, cj := some 0, stack := [back1 false, { back1 true with block := 0 }] })
     let w := 0; let b := blk0 s; let i := 0; let j := 0; let e := back1 false; let r := [{ back1 true with block := 0 }]
     commits s w b (i, .exit) ∧ (s.warp w).retired ||| (s.warp w).live ≠ allLanes ∧ (s.warp w).cj = some j ∧ (s.warp w).stack = e :: r ∧
       e.join = false ∧ e.mask &&& ~~~((s.warp w).retired ||| (s.warp w).live) ≠ 0 ∧ e.block ≠ j) := by decide +kernel

/-- The premises of `Obligations.BranchesChooseSuccessors` can be met: part 16. -/
theorem witness_BranchesChooseSuccessors_16 :
    let commits := fun (s : State) w (b : Blk) (sel : Nat × BranchSel) => s.Commits w b ∧ s.commitFaults w b = [] ∧ b.branch = some sel ∧
      b.deferred.trap = none ∧ b.deferred.stroke = none ∧ (s.warp w).done = false ∧ b.deferred.syswr = []
    (let s : State := branching 0 (.goto 0) (fun x => { x with live := 0xFFFFFFFF00000000, cj := some 0, stack := [back1 false, { back1 true with block := 0 }] })
     let w := 0; let b := blk0 s; let i := 0; let n := 0; let e := back1 false; let r := [{ back1 true with block := 0 }]
     commits s w b (i, .goto n) ∧ s.hasBlock w n = true ∧ (s.warp w).cj = some n ∧ (s.warp w).stack = e :: r ∧
       e.mask &&& ~~~(s.warp w).retired ≠ 0 ∧ (e.join = false → e.block ≠ n) ∧
       (e.join = true → (r.find? fun x => x.join).map (·.block) ≠ some e.block ∧ ((r.find? fun x => x.join) = none → (s.warp w).spilled = 0))) := by decide +kernel

/-- The premises of `Obligations.BranchesChooseSuccessors` can be met: part 17. -/
theorem witness_BranchesChooseSuccessors_17 :
    let commits := fun (s : State) w (b : Blk) (sel : Nat × BranchSel) => s.Commits w b ∧ s.commitFaults w b = [] ∧ b.branch = some sel ∧
      b.deferred.trap = none ∧ b.deferred.stroke = none ∧ (s.warp w).done = false ∧ b.deferred.syswr = []
    (let s : State := branching 0 (.goto 1) (fun x => { x with live := 0xFFFFFFFF00000000, cj := some 1, stack := [back1 true] })
     let w := 0; let b := blk0 s; let i := 0; let n := 1; let e := back1 true; let r := ([] : List REntry)
     commits s w b (i, .goto n) ∧ s.hasBlock w n = true ∧ (s.warp w).cj = some n ∧ (s.warp w).stack = e :: r ∧
       e.mask &&& ~~~(s.warp w).retired ≠ 0 ∧ (e.join = false → e.block ≠ n) ∧
       (e.join = true → (r.find? fun x => x.join).map (·.block) ≠ some e.block ∧ ((r.find? fun x => x.join) = none → (s.warp w).spilled = 0))) := by decide +kernel

/-- The premises of `Obligations.BranchesChooseSuccessors` can be met: part 18. -/
theorem witness_BranchesChooseSuccessors_18 :
    (let s := returning; let w := 0; let b := blk0 s; let i := 0
     s.Commits w b ∧ s.commitFaults w b = [] ∧ b.branch = some (i, .eret) ∧ b.deferred = {} ∧ b.pushes = [] ∧
       (s.objOf w).all (fun o => o.preloads == []) = true ∧ (s.warp w).done = false ∧ (s.warp w).trap.on = true ∧
       (s.warp w).depth = (s.warp w).trap.tdepth ∧ (s.warp w).trap.pexit = false ∧ (s.warp w).trap.tlive &&& ~~~(s.warp w).retired ≠ 0 ∧
       s.hasBlock w (fld (s.warp w).trap.tret 0 24) = true ∧ (s.warp w).cj ≠ some (fld (s.warp w).trap.tret 0 24)) := by decide +kernel

/-- The premises of `Obligations.BranchesChooseSuccessors` can be met: part 19. -/
theorem witness_BranchesChooseSuccessors_19 :
    (let s : State := returning.modWarp 0 fun x => { x with trap := { x.trap with tlive := allLanes, pexit := true } }; let w := 0
     let b := blk0 s; let i := 0
     s.Commits w b ∧ s.commitFaults w b = [] ∧ b.branch = some (i, .eret) ∧ b.deferred = {} ∧ (s.warp w).trap.on = true ∧
       (s.warp w).depth = (s.warp w).trap.tdepth ∧ (s.warp w).trap.pexit = true ∧ (s.warp w).retired ||| (s.warp w).trap.tlive = allLanes) := by decide +kernel

/-- The premises of `Obligations.BranchesChooseSuccessors` can be met: part 20. -/
theorem witness_BranchesChooseSuccessors_20 :
    let commits := fun (s : State) w (b : Blk) (sel : Nat × BranchSel) => s.Commits w b ∧ s.commitFaults w b = [] ∧ b.branch = some sel ∧
      b.deferred.trap = none ∧ b.deferred.stroke = none ∧ (s.warp w).done = false ∧ b.deferred.syswr = []
    (let s := branching 0 (.eret) id; let w := 0; let b := blk0 s; let i := 0
     ((s.warp w).trap.on = false ∨ (s.warp w).depth ≠ (s.warp w).trap.tdepth) ∧ s.shapeOk ∧ commits s w b (i, .eret)) := by decide +kernel

/-- The premises of `Obligations.SeatsAreShared` can be met: part 1. -/
theorem witness_SeatsAreShared :
    let since := fun (s : State) v => (s.warp v).seat.readyAt.getD 0
    (let s : State := onCore coded 0 fun x => { x with seat := { readyAt := some 3 }, blk := none }; let die := 0; let core := 0
     let seat := 7; let w := 0
     seat < 8 ∧ (∀ v ∈ s.coreWarps die core, (s.warp v).seat.seat ≠ some seat) ∧ w ∈ s.coreWarps die core ∧ s.waiting w = true ∧
       (∀ v ∈ s.coreWarps die core, s.waiting v = true → since s w < since s v ∨ (since s w = since s v ∧ w ≤ v))) ∧
    (let s : State := onCore up0 0 fun x => { x with seat := { left := some (7, 3) } }
     0 ∈ s.coreWarps 0 0 ∧ (s.warp 0).seat.left = some (7, 3)) ∧
    (let s : State := (onCore up0 16385 id).modBlk 0 fun b => { b with loads := [default] }; let w := 0; let b := blk0 s
     let l := default
     s.blk? w = some b ∧ (s.warp w).seat.seat.isSome = true ∧ (s.launchOf w).timed = false ∧ l ∈ b.loads ∧
       l.at_ + 16384 < s.localTick (s.place w).die) ∧
    (let s : State := (onCore up0 16384 fun x => { x with seat := { heldAt := some 16384 } }).modBlk 0 fun b => { b with loads := [default] }
     let w := 0; let b := blk0 s; let n := 16384
     s.blk? w = some b ∧ (s.warp w).seat.heldAt = some n ∧ (s.warp w).seat.seat = none ∧ (∀ l ∈ b.loads, n ≤ l.at_ + 16384)) := by decide +kernel

/-- The premises of `Obligations.SeatsAreShared` can be met: part 2. -/
theorem witness_SeatsAreShared_2 :
    (let s : State := (onCore up0 16385 fun x => { x with seat := { heldAt := some 16385 } }).modBlk 0 fun b => { b with loads := [default] }
     let w := 0; let b := blk0 s; let n := 16385; let l := default
     s.blk? w = some b ∧ (s.warp w).seat.heldAt = some n ∧ l ∈ b.loads ∧ l.at_ + 16384 < n) ∧
    (let s : State := onCore crowded 65536 fun x => { x with blk := none, seat := { x.seat with ended := some 65536 } }; let w := 0
     s.blk? w = none ∧ (s.warp w).seat.seatedAt + 65536 ≤ s.localTick (s.place w).die ∧ (s.warp w).seat.seat.isSome = true ∧
       (s.warp w).seat.ended = some (s.localTick (s.place w).die) ∧ (s.launchOf w).timed = false ∧ s.hasWaiter w = true) ∧
    (let x := ({ seat := some 7 } : SeatW)
     x.seat = some 7) ∧
    (let s := up0; let w := 0
     ((s.launchOf w).timed = true ∨ s.hasWaiter w = false ∨ (s.warp w).seat.ended ≠ some (s.localTick (s.place w).die))) := by decide +kernel

/-- The premises of `Obligations.ParkedWarpsResume` can be met: part 1. -/
theorem witness_ParkedWarpsResume :
    (let s : State := up0.modWarp 0 fun x => { x with park := { x.park with bar := some (.core, 15), arr := some 5 } }
     let sc := Scope.core; let u := 0; let n := 15
     (∃ w ∈ s.unitWarps sc u, (s.warp w).done = false) ∧ (∀ w ∈ s.unitWarps sc u, (s.warp w).done = false → s.arrived w sc n = true)) ∧
    (let q := (Scope.core, 0); let r := (Scope.core, 1)
     q ≠ r) ∧
    (let s := up0; let sc := Scope.core; let u := 0; let n := 15; let w := 0
     w ∈ s.unitWarps sc u ∧ (s.warp w).done = false ∧ s.arrived w sc n = false) ∧
    (let s : State := up0.modWarp 0 fun x => { x with park := { x.park with bar := some (.core, 15) } }; let w := 0
     let q := (Scope.core, 15)
     w < s.warps.length ∧ (s.warp w).park.bar = some q ∧ (s.warp w).park.arr = none) ∧
    (let s : State := up0.modWarp 0 fun x => { x with park := { x.park with bar := some (.core, 15), arr := some 5 } }; let w := 0
     let q := (Scope.core, 15); let n := 5
     (s.warp w).park.bar = some q ∧ (s.warp w).park.arr = some n) ∧
    (let s : State := up0.modWarp 0 fun x => { x with park := { x.park with waits := [{ ctr := .tlc 0, n := 0 }] } }; let w := 0
     (s.warp w).park.waits ≠ [] ∧ (∀ x ∈ (s.warp w).park.waits, x.n ≤ (s.counter x.ctr).val)) := by decide +kernel

/-- The premises of `Obligations.ParkedWarpsResume` can be met: part 2. -/
theorem witness_ParkedWarpsResume_2 :
    (let x := ({ ctr := .tlc 0, n := 1 } : WaitOn)
     let s : State := up0.modWarp 0 fun y => { y with park := { y.park with waits := [x] } }; let w := 0
     x ∈ (s.warp w).park.waits ∧ (s.counter x.ctr).val < x.n) ∧
    (let s : State := { up0 with landings := [default] }; let w := 0
     s.landingDue (s.place w).die (fun _ => true) = true) ∧
    (let s := up0; let w := 0
     s.landingDue (s.place w).die (fun _ => true) = false) := by decide +kernel

/-- The premises of `Obligations.LaunchQueues` can be met: part 1. -/
theorem witness_LaunchQueues :
    let idle := fun (s : State) q => (s.queue q).ctl.getLsbD 10 = false ∧ (s.queue q).entries = [] ∧ (s.queue q).reserved = 0 ∧ ∀ g ∈ s.grids,
      g.queue = q → g.done = true
    let up := fun (s : State) => s.pkg.up = .ready ∨ s.pkg.up = .degraded
    (let s : State := up0.modCtx 255 fun c => { c with st := .active }; let q := 63; let v := (0xFFFFFFFFFFFFFFFF : Word)
     q < s.queues.length ∧ idle s q ∧ fld v 0 8 ≠ fld (s.queue q).ctl 0 8 ∧ (s.ctx (fld v 0 8)).st = .active) ∧
    (let s := up0; let q := 63; let v := (0xFFFFFFFFFFFFFFFF : Word)
     q < s.queues.length ∧ (¬ idle s q ∨ fld v 0 8 = fld (s.queue q).ctl 0 8 ∨ (s.ctx (fld v 0 8)).st ≠ .active)) ∧
    (let s : State := { up0 with queues := up0.queues.modify 5 fun q => { q with ctl := 0x400 } }; let q := 5
     let cmd : List Word := cmd5
     up s ∧ (s.queue q).ctl.getLsbD 10 = true ∧ (s.queue q).entries.length + (s.queue q).reserved < 256 ∧
       s.homeBusy (fld (s.queue q).ctl 0 8) (cmd.getD 1 0).toNat 128 = false) ∧
    (let s := State.reset
     (¬ up s)) ∧
    (let s := up0; let q := 63
     up s ∧ q < s.queues.length ∧ ((s.queue q).ctl.getLsbD 10 = false ∨ 256 ≤ (s.queue q).entries.length + (s.queue q).reserved)) := by decide +kernel

/-- The premises of `Obligations.LaunchQueues` can be met: part 2. -/
theorem witness_LaunchQueues_2 :
    let up := fun (s : State) => s.pkg.up = .ready ∨ s.pkg.up = .degraded
    (let e := entry5 none; let s := queued e 0; let q := 5; let l := rec5
     up s ∧ (s.queue q).entries.find? (fun e => e.read.isNone) = some e ∧ e.parent = none ∧ e.verdict = (0, l)) ∧
    (let l := rec5; let c := 3; let e := { entry5 none with verdict := (c, l) }; let s := queued e 0; let q := 5
     up s ∧ (s.queue q).entries.find? (fun e => e.read.isNone) = some e ∧ e.verdict = (c, l) ∧ c ≠ 0 ∧ q < s.queues.length) ∧
    (let q := 5
     launchCmdOk [] = false ∧ launchCmdOk cmd5 = true ∧ launchCmdOk [0x04010001, 0x1000000000000, 0, 0, 0, 0, 0, 0] = true ∧
       ((queued (entry5 none) 0).launchCheck q (entry5 none) none).1 = 0) ∧
    (let s : State := { (queued (entry5 (some rec5)) 0).modQueue 5 fun q => { q with eligAt := some 0 } with stake := 14000000 }
     let q := 5; let n := 0
     (s.queue q).eligAt = some n ∧ s.eligible q = true ∧ n + 14000000 ≤ s.stake) := by decide +kernel

/-- The premises of `Obligations.LaunchesRunAndComplete` can be met: part 1. -/
theorem witness_LaunchesRunAndComplete :
    let up := fun (s : State) => s.pkg.up = .ready ∨ s.pkg.up = .degraded
    (let s := queued (entry5 (some rec5)) 0; let e := { entry5 (some rec5) with skip := some false }; let q := 5; let l := rec5
     up s ∧ s.noteEligible.heads.find? s.noteEligible.skips = none ∧ s.noteEligible.nextHead? = some q ∧ s.noteEligible.head? q = some (e, l) ∧
       s.noteEligible.headGrid? q e = none ∧ l.coresident = false) ∧
    (let l := { rec5 with flags := 16, waits := [0x8000000000000000] }
     let s : State := (queued (entry5 (some l)) 0).modCtx 0 fun c => { c with tlk := { c.tlk with status := 0x8000000000000000 } }
     let q := 5; let e := ((s.noteEligible.queue 5).entries.head?).getD default
     up s ∧ s.noteEligible.heads.find? s.noteEligible.skips = some q ∧ s.noteEligible.head? q = some (e, l) ∧ q < s.queues.length) ∧
    (let s := State.reset
     (¬ up s)) ∧
    (let s : State := { timedOf up0 with grids := (timedOf up0).grids.map fun g => { g with started := false, placed := 1 }, dies := up0.dies.map fun d => { d with recon := 65536 } }
     let g := 0; let len := (s.grid g).launch.strokeS
     g < s.grids.length ∧ (s.grid g).launch.timed = true ∧ (s.grid g).done = false ∧ (s.grid g).launch.nRegions ≤ (s.grid g).placed ∧
       (∃ r ∈ s.regionsOf g, (s.region r).begun = false ∧ ((s.grid g).placedAt + 4096 + len - 1) / len * len ≤ s.reconTick (s.region r).die)) := by decide +kernel

/-- The premises of `Obligations.LaunchesRunAndComplete` can be met: part 2. -/
theorem witness_LaunchesRunAndComplete_2 :
    (let s := up0; let g := 0
     s.starting g = []) ∧
    (let s : State := up0.modWarp 0 fun x => { x with done := true, blk := none }; let k := 0
     k < s.teams.length ∧ (s.team k).done = false ∧ (∀ w ∈ s.warpsOf k, (s.warp w).done = true ∧ s.unseen w = false) ∧
       (s.team k).tlc.val = (s.team k).tlc.issued ∧ (s.team k).gang < s.gangs.length) ∧
    (let s := up0; let k := 0; let w := 0
     w ∈ s.warpsOf k ∧ (s.warp w).done = false) := by decide +kernel

/-- The premises of `Obligations.LaunchesRunAndComplete` can be met: part 3. -/
theorem witness_LaunchesRunAndComplete_3 :
    (let s : State := { up0 with regions := up0.regions.map fun r => { r with done := true } }; let g := 0
     g < s.grids.length ∧ (s.grid g).queue < s.queues.length ∧ (s.grid g).done = false ∧ (s.grid g).launch.nRegions ≤ (s.grid g).placed ∧
       (∀ r ∈ s.regionsOf g, (s.region r).done = true) ∧ (s.grid g).children = 0 ∧ (∀ n ∈ (s.grid g).colls, n ≤ (s.ctx (s.grid g).ctx).tlk.val) ∧
       (∀ w ∈ s.gridWarps g, s.unacked w = false) ∧ s.homeBusy (s.grid g).ctx (s.grid g).launch.doneVA.toNat 8 = false) ∧
    (let s := up0; let g := 0; let r := 0
     r ∈ s.regionsOf g ∧ (s.region r).done = false) := by decide +kernel

/-- The premises of `Obligations.GangsArePreempted` can be met: part 1. -/
theorem witness_GangsArePreempted :
    (let s := up0; let g := 0
     g < s.gangs.length ∧ (s.grid (s.gangGrid g)).launch.timed = false ∧ ((s.gang g).st = .resident ∨ (s.causeOf g).isSome = true)) ∧
    (let s := contended; let g := 0
     g < s.gangs.length ∧ (s.grid (s.gangGrid g)).launch.timed = false ∧ ((s.gang g).st = .resident ∨ (s.causeOf g).isSome = true)) ∧
    (let s := up0; let g := 0
     s.causeOf g = none) ∧
    (let s := contended; let g := 0; let q := 5
     s.causeOf g = some q) ∧
    (let s := contended; let q := 5; let k := 0
     k ∈ s.plan q) ∧
    (let s := timedOf up0; let g := 0
     (s.grid (s.gangGrid g)).launch.timed = true) := by decide +kernel

/-- The premises of `Obligations.GangsArePreempted` can be met: part 2. -/
theorem witness_GangsArePreempted_2 :
    let die := fun (s : State) g => (s.region (s.gang g).region).die
    let ctx := fun (s : State) g => (s.grid (s.gangGrid g)).ctx
    (let s := onCore (ganged (.stopping 0 none)) 16384 id; let w := 0; let b := blk0 s; let n := 0; let h := none
     s.blk? w = some b ∧ b.cls = 0 ∧ b.atomDone = none ∧ (s.gang (s.place w).gang).st = .stopping n h ∧ n + 16384 ≤ s.localTick (s.place w).die) ∧
    (let s : State := (ganged (.stopping 0 none)).modWarp 0 fun x => { x with blk := none }; let g := 0; let n := 0; let h := none
     g < s.gangs.length ∧ (s.gang g).st = .stopping n h ∧ (∀ w ∈ s.gangWarps g, (s.warp w).blk = none ∧ s.unsettled w = false) ∧
       (∀ k ∈ s.teamsOf g, (s.team k).tlc.val = (s.team k).tlc.issued) ∧ s.saveHeld g = false ∧
       (let l := s.savedTeams g h; ∀ p ∈ s.saveRecords l, s.homeBusy (ctx s g) p.1 128 = false)) ∧
    (let s := ganged (.stopping 0 none); let g := 0; let n := 0; let h := none; let w := 0
     (s.gang g).st = .stopping n h ∧ w ∈ s.gangWarps g ∧ ((s.warp w).blk ≠ none ∨ s.unsettled w = true)) ∧
    (let s : State := { up0 with cores := [{ die := 0, core := 0, switchAt := some 0 }] }; let d := 0; let core := 0; let n := 0
     (s.core d core).switchAt = some n ∧ n ≤ s.localTick d) := by decide +kernel

/-- The premises of `Obligations.GangsArePreempted` can be met: part 3. -/
theorem witness_GangsArePreempted_3 :
    let die := fun (s : State) g => (s.region (s.gang g).region).die
    let ctx := fun (s : State) g => (s.grid (s.gangGrid g)).ctx
    (let s : State := (onCore (ganged .reserve) 0 id).modTeam 0 fun t => { t with kept := true }; let g := 0
     (s.gang g).st = .reserve ∧ (∀ k ∈ s.teamsOf g, (s.team k).kept = true ∧ (s.core (die s g) (s.team k).core).fenced = false ∧
       (s.core (die s g) (s.team k).core).primary.all (· == ctx s g) = true ∧
       (s.core (die s g) (s.team k).core).bound.all (fun n => decide (n + 64 ≤ s.localTick (die s g))) = true)) ∧
    (let s : State := ((onCore (ganged .reserve) 0 id).modTeam 0 fun t => { t with kept := true }).modCore 0 0 fun c => { c with fenced := true }
     let g := 0; let k := 0
     (s.gang g).st = .reserve ∧ k ∈ s.teamsOf g ∧ (s.team k).kept = true ∧ (s.core (die s g) (s.team k).core).fenced = true) ∧
    (let s : State := ((onCore (ganged .reserve) 0 id).modTeam 0 fun t => { t with kept := true }).modCore 0 0 fun c => { c with bound := some 0 }
     let g := 0; let k := 0
     (s.gang g).st = .reserve ∧ k ∈ s.teamsOf g ∧ (s.team k).kept = true ∧
       (s.core (die s g) (s.team k).core).bound.any (fun n => decide (s.localTick (die s g) < n + 64)) = true) ∧
    (let s := ganged .saved; let g := 0
     (s.gang g).st = .saved) := by decide +kernel

/-- The premises of `Obligations.GangsArePreempted` can be met: part 4. -/
theorem witness_GangsArePreempted_4 :
    let ctx := fun (s : State) g => (s.grid (s.gangGrid g)).ctx
    let out := fun (s : State) g k => s.gridPrio (s.gangGrid k) ≤ s.gridPrio (s.gangGrid g) ∧ (s.gridPrio (s.gangGrid k) = s.gridPrio (s.gangGrid g)
      → (s.gang g).stoppedAt ≤ (s.gang k).stoppedAt)
    (let s := onCore (ganged .saved) 0 id; let g := 0; let n := 0
     g < s.gangs.length ∧ (s.grid (s.gangGrid g)).launch.coresident = false ∧ s.resumeQuad g = some n ∧
       (∀ w ∈ s.gangWarps g, (s.team (s.warp w).team).kept = true ∨ s.homeBusy (ctx s g) (s.warpRec w) 128 = false) ∧
       (∀ k ∈ s.waitingGangs, out s g k) ∧ (∀ q ∈ s.heads, (s.queue q).prio ≤ s.gridPrio (s.gangGrid g) ∨ (s.placeHead q = none ∧
       s.urgent q = false))) ∧
    (let s : State := (onCore (ganged .reserve) 0 id).modTeam 0 fun t => { t with kept := true }; let g := 0; let n := 0
     g < s.gangs.length ∧ (s.grid (s.gangGrid g)).launch.coresident = false ∧ s.resumeQuad g = some n ∧
       (∀ w ∈ s.gangWarps g, (s.team (s.warp w).team).kept = true ∨ s.homeBusy (ctx s g) (s.warpRec w) 128 = false) ∧
       (∀ k ∈ s.waitingGangs, out s g k) ∧ (∀ q ∈ s.heads, (s.queue q).prio ≤ s.gridPrio (s.gangGrid g) ∨ (s.placeHead q = none ∧
       s.urgent q = false))) ∧
    (let s : State := { queued (entry5 (some rec5)) 3 with gangs := (ganged .reserve).gangs }; let g := 0; let q := 5
     q ∈ s.heads ∧ s.gridPrio (s.gangGrid g) < (s.queue q).prio ∧ ((s.placeHead q).isSome = true ∨ s.urgent q = true)) := by decide +kernel

/-- The premises of `Obligations.CopiesMoveBytes` can be met: part 1. -/
theorem witness_CopiesMoveBytes :
    let src := fun (s : State) k (j : CopyJob) => if (CopyArgs.of j.cmd).hasSrc then s.handle (s.teamPlace k).ctx j.tab (CopyArgs.of j.cmd).srcH
      else none
    let dst := fun (s : State) k (j : CopyJob) => s.handle (s.teamPlace k).ctx j.tab (CopyArgs.of j.cmd).dstH
    let live := fun (s : State) k n (j : CopyJob) => s.job? k n = some j ∧ j.finished = none ∧ j.paused = none ∧ (s.ctx (s.teamPlace k).ctx).st =
      .active
    let moving := fun (s : State) k n (j : CopyJob) => live s k n j ∧ j.timed = none ∧ (CopyArgs.of j.cmd).code ≠ 0x106
    (let c := ({ (default : CopyCmd) with xwarp := none } : CopyCmd)
     let q := fun (p : Nat) => engined.modTeam 0 fun t => { t with queue := [{ c with cmd := [BitVec.ofNat 64 p] }] }
     ∀ p ∈ [0x101, 0x102, 0x103, 0x104, 0x105, 0x106], ((q p).team 0).queue = [{ c with cmd := [BitVec.ofNat 64 p] }] ∧
       ((q p).team 0).jobs = [] ∧ c.xwarp = none ∧ cmdCode [BitVec.ofNat 64 p] = p) ∧
    (let j := load4; let s := engines [j]; let k := 0; let n := 1; let a := CopyArgs.of j.cmd
     moving s k n j ∧ j.asked = false ∧ s.copyTurn k = true ∧ keepsJob j (s.rowIndex k a j (src s k j) (dst s k j)) = true ∧
       (s.chunkStop k a j (chunkOf a j) (src s k j) (dst s k j)).isNone = true) ∧
    (let j := load4; let s : State := engines [j, { j with seq := 2, asked := true }]; let k := 0; let n := 1
     moving s k n j ∧ j.asked = false ∧ s.copyTurn k = false) ∧
    (let j := { load4 with asked := true, need := [0], got := [(0, 5, false)] }; let s := engines [j]; let k := 0; let n := 1
     let a := CopyArgs.of j.cmd
     moving s k n j ∧ j.asked = true ∧ (∀ x ∈ j.need, ∃ g ∈ j.got, g.1 = x) ∧ (∀ g ∈ j.got, g.2.2 = false) ∧
       (s.chunkStop k a j (chunkOf a j) (src s k j) (dst s k j)).isNone = true) := by decide +kernel

/-- The premises of `Obligations.CopiesMoveBytes` can be met: part 2. -/
theorem witness_CopiesMoveBytes_2 :
    let ctxOf := fun (s : State) k => (s.teamPlace k).ctx
    let dst := fun (s : State) k (j : CopyJob) => s.handle (s.teamPlace k).ctx j.tab (CopyArgs.of j.cmd).dstH
    let live := fun (s : State) k n (j : CopyJob) => s.job? k n = some j ∧ j.finished = none ∧ j.paused = none ∧ (s.ctx (s.teamPlace k).ctx).st =
      .active
    let moving := fun (s : State) k n (j : CopyJob) => live s k n j ∧ j.timed = none ∧ (CopyArgs.of j.cmd).code ≠ 0x106
    (let j := { load4 with got := [(0, 5, false)] }; let a := CopyArgs.of j.cmd; let b := some (Buf.mem 0 65536 true true)
     a.code ≠ 0x105 ∧ b = some (.mem 0 65536 true true) ∧ j.got.find? (fun g => g.1 == 0 / 4) = some (0, 5, false)) ∧
    (let j := { job0 with cmd := [0x105, 0, 0x400000000, 0x20000, 1, 0, 0, 0] }; let s := engines [j]; let k := 0; let n := 1
     let base := 0; let len := 65536; let rd := true; let wr := true; let va := 0x20000; let h := 0; let sp := 0
     let c := chunkOf (CopyArgs.of j.cmd) j
     moving s k n j ∧ (CopyArgs.of j.cmd).code = 0x105 ∧ dst s k j = some (.mem base len rd wr) ∧ ((j.asked = false ∧
       s.copyTurn k = true) ∨ (j.asked = true ∧ j.need = [])) ∧ s.engineMiss (ctxOf s k) .wr (base + c.dst.toNat) c.n = some (va, .page h sp)) ∧
    (let j := { job0 with cmd := [0x106, 0, 0x400000000, 0, 1, 0, 0, 0] }; let s := engines [j]; let k := 0; let n := 1; let base := 0
     let len := 65536; let rd := true; let wr := true
     live s k n j ∧ j.timed = none ∧ (CopyArgs.of j.cmd).code = 0x106 ∧ s.copyTurn k = true ∧
       s.handle (ctxOf s k) j.tab (CopyArgs.of j.cmd).srcH = some (.mem base len rd wr)) := by decide +kernel

/-- The premises of `Obligations.CopiesMoveBytes` can be met: part 3. -/
theorem witness_CopiesMoveBytes_3 :
    let ctxOf := fun (s : State) k => (s.teamPlace k).ctx
    let live := fun (s : State) k n (j : CopyJob) => s.job? k n = some j ∧ j.finished = none ∧ j.paused = none ∧ (s.ctx (s.teamPlace k).ctx).st =
      .active
    (let j := { load4 with timed := some 0 }; let s := engines [j]; let k := 0; let n := 1; let t0 := 0
     s.job? k n = some j ∧ j.timed = some t0 ∧ j.begun = false ∧ j.finished = none ∧ t0 ≤ s.reconTick (s.teamPlace k).die) ∧
    (let j := { job0 with cmd := [0xFFFFF00000000106, 0, 0x400000000, 0, 1, 0, 0, 0] }; let s := engines [j]; let k := 0; let n := 1
     live s k n j ∧ j.timed = none ∧ (CopyArgs.of j.cmd).code = 0x106 ∧ s.copyTurn k = true ∧
       s.handle (ctxOf s k) j.tab (CopyArgs.of j.cmd).srcH = some .spad) ∧
    (let j := { load4 with timed := some 0, begun := true }; let s := engines [j]; let k := 0; let n := 1; let t0 := 0
     live s k n j ∧ j.timed = some t0 ∧ j.begun = true ∧ (CopyArgs.of j.cmd).code ≠ 0x106) := by decide +kernel

/-- The premises of `Obligations.CopiesMoveBytes` can be met: part 4. -/
theorem witness_CopiesMoveBytes_4 :
    let live := fun (s : State) k n (j : CopyJob) => s.job? k n = some j ∧ j.finished = none ∧ j.paused = none ∧ (s.ctx (s.teamPlace k).ctx).st =
      .active
    (let j := { load4 with timed := some 0, begun := true, got := [(0, 5, false)] }; let s := engines [j]; let k := 0; let n := 1
     let base := 0; let c := chunkOf (CopyArgs.of j.cmd) j
     live s k n j ∧ j.asked = false ∧ Memory.wf (s.team k).spad = true ∧ (∀ g ∈ j.got, g.2.2 = false) ∧
       (∀ g ∈ j.got, g.1 / 32 = (base + c.src.toNat) / 128)) ∧
    (let j := load4; let s := engines [j]; let k := 0; let n := 1
     s.job? k n = some j) ∧
    (let c := 9; let j := { load4 with finished := some c }; let s := engines [j]; let k := 0; let n := 1
     s.job? k n = some j ∧ j.finished = some c ∧ s.jobQuiet k n = true) ∧
    (let s : State := cached { dreqs := [{ store0 with job := some (0, 1) }] }; let k := 0; let n := 1
     s.jobQuiet k n = false) ∧
    (let c := 6; let j := { coll0 [] with finished := some c }; let s : State := up0.modCtx 255 fun x => { x with jobs := [j] }
     let x := 255; let n := 1
     x < s.ctxs.length ∧ (s.ctx x).jobs.find? (fun j => j.seq == n) = some j ∧ j.finished = some c ∧
       (∀ y ∈ s.teams, ∀ e ∈ y.pend, e.coll ≠ some (x, n))) ∧
    (let s : State := up0.modTeam 0 fun t => { t with pend := [{ (default : SpPend) with coll := some (255, 1) }] }; let x := 255
     let n := 1
     (∃ y ∈ s.teams, ∃ e ∈ y.pend, e.coll = some (x, n))) := by decide +kernel

/-- The premises of `Obligations.CollectivesCombine` can be met: part 1. -/
theorem witness_CollectivesCombine :
    let only := fun (s : State) x (j : CollJob) e => x < s.ctxs.length ∧ (s.ctx x).st = .active ∧ (s.ctx x).jobs = [j] ∧ j.finished = none ∧
      j.paused = none ∧ s.memberOf x j = some e
    (let j := fun (p : Nat) => coll0 [BitVec.ofNat 64 p, 0, 0xFFFFF000FFFFF000, 0, 64, 1, 0, 0]
     ∀ p ∈ [0x201, 0x202, 0x203, 0x204, 0x205], only (combining (j p)) 0 (j p) member0 ∧ cmdCode (j p).cmd = p ∧ (j p).loaded = true ∧
       (combining (j p)).gathered 0 (j p) member0 = some [contrib0]) ∧
    (let j := fun (p : Nat) => { coll0 [BitVec.ofNat 64 p, 0, 0xFFFFF000FFFFF000, 0, 64, 1, 0, 0] with loaded := false }
     ∀ p ∈ [0x201, 0x202, 0x203, 0x204, 0x205], only (combining (j p)) 0 (j p) member0 ∧ cmdCode (j p).cmd = p ∧ (j p).loaded = false) ∧
    (let c := ({ seq := 1, cmd := [0x205], team := 0, xwarp := some 0 } : CollCmd)
     let s : State := { engined.modCtx 0 (fun x => { x with coll := [c] }) with cache := { dreqs := [store0] } }
     (s.ctx 0).jobs = [] ∧ (s.ctx 0).coll = [c] ∧ c.xwarp = some 0 ∧ s.unsettled 0 = true) ∧
    (let radix := 2
     2 ≤ radix) ∧
    (let a := CollArgs.of [0x204, 0, 0, 0, 0, 0, 0, 0]
     a.code = 0x204) ∧
    (let j := coll0 [0x205, 1, 0, 0, 0, 0, 0, 0]; let s : State := { combining j with stake := 1024 }; let x := 0; let n := 1
     (s.ctx x).jobs.find? (fun j => j.seq == n) = some j ∧ j.finished = none ∧ (CollArgs.of j.cmd).timeout ≠ 0 ∧
       j.issuedAt + 1024 * (CollArgs.of j.cmd).timeout ≤ s.stake ∧ s.members j.gid j.gen = [x]) := by decide +kernel

/-- The premises of `Obligations.CollectivesCombine` can be met: part 2. -/
theorem witness_CollectivesCombine_2 :
    (let s := up0; let x := 0
     (∀ j ∈ (s.ctx x).jobs, (CollArgs.of j.cmd).timeout = 0)) ∧
    (let s := engined; let x := 0; let gid := 0; let gen := 0; let e := member0; let y := 0
     y < s.ctxs.length ∧ s.member x gid gen = some e ∧ (s.membersOn gid gen e.route).Nodup) ∧
    (let s := up0; let gid := 0; let gen := 0
     s.members gid gen = []) ∧
    (let s := engined; let gid := 0; let gen := 0; let x := 0
     s.members gid gen = [x]) ∧
    (let s := up0; let gid := 0; let gen := 0
     s.members gid gen = []) ∧
    (let s := engined; let gid := 0; let gen := 0; let x := 0; let m := contrib0
     s.members gid gen = [x] ∧ ∀ y ∈ (s.ctx x).contrib, m.matched y = true → m.agrees y = true) := by decide +kernel

/-- The premises of `Obligations.CollectivesCombine` can be met: part 3. -/
theorem witness_CollectivesCombine_3 :
    let entry := fun (s : State) x gid => s.groupAddr x (s.gtabOf x) gid .wr
    (let s := engined; let x := 0; let gid := 0; let w0 := (0x8001000000000000 : Word); let a := 0x30800
     x < s.ctxs.length ∧ entry s x gid = some a ∧ (s.ctx x).st = .active ∧ w0.getLsbD 63 = true ∧ gid < 4096 ∧
       (∀ q ∈ (s.ctx x).active, q.1 ≠ gid) ∧ (∀ q ∈ (s.ctx x).washing, ¬ (q.1 = gid ∧ q.2.1 = fld w0 48 4))) ∧
    (let s : State := engined.modCtx 0 fun c => { c with washing := [(0, 0, 0)] }; let x := 0; let gid := 0
     let w0 := (0x8000000000000000 : Word); let a := 0x30800
     x < s.ctxs.length ∧ entry s x gid = some a ∧ (s.ctx x).st = .active ∧ w0.getLsbD 63 = true ∧ gid < 4096 ∧
       (∃ q ∈ (s.ctx x).washing, q.1 = gid ∧ q.2.1 = fld w0 48 4)) ∧
    (let s := engined; let x := 0; let gid := 0; let e := member0; let a := 0x30800
     x < s.ctxs.length ∧ s.groupE x (s.gtabOf x) gid = some e ∧ entry s x gid = some a) := by decide +kernel

/-- The premises of `Obligations.CollectivesCombine` can be met: part 4. -/
theorem witness_CollectivesCombine_4 :
    (let s : State := { (engined.modCtx 0 fun c => { c with washing := [(0, 0, 0)] }) with stake := 70000 }; let x := 0; let gid := 0
     let gen := 0; let n := 0
     x < s.ctxs.length ∧ (s.ctx x).washing = [(gid, gen, n)] ∧ n + 70000 ≤ s.stake ∧ (∀ j ∈ (s.ctx x).jobs, ¬ (j.gid = gid ∧ j.gen = gen)) ∧
       (∀ c ∈ (s.ctx x).coll, ¬ ((CollArgs.of c.cmd).gid = gid ∧ (CollArgs.of c.cmd).gen = gen))) ∧
    (let s : State := engined.modCtx 0 fun c => { c with washing := [(0, 0, 0)], coll := [{ seq := 1, cmd := [0x205], team := 0, xwarp := none }] }
     let x := 0; let gid := 0; let gen := 0; let n := 0
     (s.ctx x).washing = [(gid, gen, n)] ∧ (∃ c ∈ (s.ctx x).coll, (CollArgs.of c.cmd).gid = gid ∧ (CollArgs.of c.cmd).gen = gen)) := by decide +kernel

/-- The premises of `Obligations.TimedTransfersMove` can be met: part 1. -/
theorem witness_TimedTransfersMove :
    (let x := send0; let s : State := { spadded with tsends := [x] }; let n := 0
     s.tsends[n]? = some x ∧ x.start ≤ s.reconTick x.die ∧ x.sent = false ∧ x.committed = true ∧ s.tsends.all (fun y => !y.sent) = true) ∧
    (let s : State := { spadded with landings := [default] }; let n := 0; let e := (default : SpPend)
     n < s.teams.length ∧ Memory.wf (s.team n).spad = true ∧ s.landings[0]? = some default ∧ (s.spadPut n e).landings[0]? = some default) ∧
    (let x := { send0 with committed := false }; let s : State := { spadded with tsends := [x] }; let n := 0; let b := blk0 s
     s.shapeOk ∧ s.tsends[n]? = some x ∧ x.start ≤ s.reconTick x.die ∧ x.sent = false ∧ x.committed = false ∧ s.blk? x.w = some b) := by decide +kernel

/-- The premises of `Obligations.TimedTransfersMove` can be met: part 2. -/
theorem witness_TimedTransfersMove_2 :
    (let x := { (default : Landing) with bytes := [7] }; let s : State := { up0 with landings := [x] }; let n := 0
     s.landings[n]? = some x ∧ x.at_ ≤ s.reconTick x.die ∧ x.die < s.dies.length ∧ Memory.wf (s.die x.die).landing = true) ∧
    (let s := onCore (receiving true) 7 id; let w := 0; let b := blk0 s; let i := Instr.trecv hd 9; let idx := 0
     let r := (⟨0, 0, 64, 0, 0, true, 0, false⟩ : TRecv)
     s.blk? w = some b ∧ b.recv = [r] ∧ r.idx = idx ∧ r.copying = true ∧ r.breach = false ∧ decode (b.words.getD idx 0) = .ok i ∧
       b.Takes (Instr.header i) ∧ (s.warp w).team < s.teams.length ∧ (s.place w).die < s.dies.length ∧
       Memory.wf (s.team (s.warp w).team).spad = true ∧ s.landingDue (s.place w).die (· == r.slot) = false ∧
       r.endsAt ≤ s.localTick (s.place w).die) := by decide +kernel

/-- The premises of `Obligations.TimedTransfersMove` can be met: part 3. -/
theorem witness_TimedTransfersMove_3 :
    (let s : State := { receiving true with landings := [default] }; let w := 0; let b := blk0 s; let idx := 0
     let r := (⟨0, 0, 64, 0, 0, true, 0, false⟩ : TRecv)
     s.blk? w = some b ∧ b.recv = [r] ∧ r.idx = idx ∧ r.copying = true ∧
       (s.landingDue (s.place w).die (· == r.slot) = true ∨ s.localTick (s.place w).die < r.at_ + 6 + r.len / 64)) ∧
    (let s : State := (receiving false).modDie 0 fun d => { d with recon := 5 }; let w := 0; let b := blk0 s; let idx := 0
     let r := (⟨0, 0, 64, 0, 0, false, 0, false⟩ : TRecv)
     s.shapeOk ∧ s.blk? w = some b ∧ b.recv = [r] ∧ r.idx = idx ∧ r.copying = false ∧ r.until_ < s.wRecon w) := by decide +kernel

/-- The premises of `Obligations.CachesServe` can be met: part 1. -/
theorem witness_CachesServe :
    (let l := { (default : PLoad) with kind := .ld, lanes := [(0, 0)], need := [0], got := [(0, 7, false)] }; let s := loading l.got
     let w := 0; let b := blk0 s; let i := Instr.ld hd m0 .i32; let idx := 0
     s.blk? w = some b ∧ b.loads = [l] ∧ l.idx = idx ∧ (∀ k ∈ l.need, (l.word? k).isSome = true) ∧ decode (b.words.getD idx 0) = .ok i ∧
       b.Takes (Instr.header i) ∧ (l.result (b.ownBytes l.mseq) s.fresh).2 = [] ∧ s.farWaits w idx = false ∧
       (∀ q ∈ l.lanes, s.isFar (s.place w).ctx q.2 = false)) ∧
    (let l := { (default : PLoad) with kind := .ld, lanes := [(0, 0)], need := [0], got := [(0, 7, false)] }; let p := (0, 0)
     let v := (7 : Lane)
     l.kind = .ld ∧ p ∈ l.lanes ∧ p.1 < 64 ∧ (l.lanes.map (·.1)).Nodup ∧ p.2 % 4 = 0 ∧ l.word? (p.2 / 4) = some (v, false)) := by decide +kernel

/-- The premises of `Obligations.CachesServe` can be met: part 2. -/
theorem witness_CachesServe_2 :
    (let l := { { (default : PLoad) with kind := .ld, lanes := [(0, 0)], need := [0], got := [(0, 7, false)] } with got := [] }
     let s := loading []; let w := 0; let b := blk0 s; let k := 0
     s.blk? w = some b ∧ b.loads = [l] ∧ k ∈ l.need ∧ l.word? k = none) ∧
    (let d := store0; let s : State := cached { dreqs := [d] }; let n := 0
     s.cache.dreqs[n]? = some d ∧ s.reqWaits n d = false ∧ (s.lineLeaf? d.space d.line).any pteRow = false ∧ d.atHome = false ∧
       s.dc? d.die d.space d.line = none) := by decide +kernel

/-- The premises of `Obligations.CachesServe` can be met: part 3. -/
theorem witness_CachesServe_3 :
    (let d := store0; let x := lineM; let s : State := cached { dreqs := [d], dc := [x] }; let n := 0; let l := [(0, (5 : BitVec 8))]
     s.cache.dreqs[n]? = some d ∧ s.reqWaits n d = false ∧ (s.lineLeaf? d.space d.line).any pteRow = false ∧ d.rqt = .wt ∧ d.kind = .store l ∧
       s.dc? d.die d.space d.line = some x ∧ x.ownc = 255 ∧ (x.hst = .M ∨ x.hst = .E) ∧ d.ord = .plain ∧ s.l1? d.die 255 d.space d.line = none ∧
       d.core ≠ 255 ∧ (∀ i ∈ d.readsWords, (wordAt? x.words i).isSome = true) ∧ max d.pts (x.rts + 1) ≤ (s.die d.die).tsTop) := by decide +kernel

/-- The premises of `Obligations.CachesServe` can be met: part 4. -/
theorem witness_CachesServe_4 :
    (let m := { msg0 .data with inFlight := true }; let s : State := cached { msgs := [m] }; let n := 0
     s.cache.msgs[n]? = some m ∧ m.kind = .data ∧ m.inFlight = true ∧ m.node < s.dies.length ∧ m.node < 8 ∧
       (s.die m.node).tsmax + 1 ≤ (s.die m.node).tsTop ∧ s.dc? m.node m.space m.line = none ∧ (∀ d ∈ s.cache.dreqs, ¬ (d.die = m.node ∧
       d.space = m.space ∧ d.line = m.line))) ∧
    (let d := { store0 with performed := true }; let s : State := cached { dreqs := [d] }; let n := 0
     s.cache.dreqs[n]? = some d ∧ d.performed = true ∧ (∀ e ∈ s.cache.dreqs.take n, ¬ (e.die = d.die ∧ e.core = d.core ∧ e.space = d.space ∧
       e.line = d.line ∧ e.performed = true))) := by decide +kernel

/-- The premises of `Obligations.CachesServe` can be met: part 5. -/
theorem witness_CachesServe_5 :
    (let d := { store0 with performed := true }; let s : State := cached { dreqs := [d, d] }; let n := 1; let e := d
     s.cache.dreqs[n]? = some d ∧ e ∈ s.cache.dreqs.take n ∧ e.die = d.die ∧ e.core = d.core ∧ e.space = d.space ∧ e.line = d.line ∧
       e.performed = true) ∧
    (let r := far0 false; let s : State := { up0 with remote := [r] }; let n := 0
     s.remote[n - s.cache.dreqs.length]? = some r ∧ s.cache.dreqs.length ≤ n ∧ r.isLoad = false ∧ r.rel = none) ∧
    (let r := { far0 false with rel := some .die, stamp := 1 }; let s : State := { up0 with remote := [r, far0 false] }; let n := 0
     let sc := Scope.die
     s.remote[n - s.cache.dreqs.length]? = some r ∧ s.cache.dreqs.length ≤ n ∧ r.rel = some sc ∧ s.relWaits r.w r.stamp sc = true) := by decide +kernel

/-- The premises of `Obligations.CachesServe` can be met: part 6. -/
theorem witness_CachesServe_6 :
    (let x := ({ die := 0, core := 0, space := 0, line := 0, st := .leased 9, words := [] } : L1Line); let r := 9
     let s : State := cached { l1 := [x] }
     x.st = .leased r ∧ (s.core x.die x.core).pts + 1 ≤ (s.die x.die).tsTop) ∧
    (let s : State := { up0 with cores := [{ die := 0, core := 5, hits := 256 }] }; let die := 0; let core := 5
     256 ≤ (s.core die core).hits ∧ (s.core die core).pts + 1 ≤ (s.die die).tsTop) ∧
    (let x := ({ die := 0, core := 0, space := 0, line := 0, st := .through 0, words := [] } : L1Line)
     let s : State := (cached { l1 := [x] }).modDie 0 fun d => { d with local_ := 1024 }; let die := 0; let core := 0; let sp := 0
     let ln := 0; let f := 0
     s.l1? die core sp ln = some x ∧ x.st = .through f ∧ f + 1024 ≤ s.localTick die) ∧
    (let s : State := (cached { dreqs := [{ store0 with die := 7, performed := true }] }).modDie 7 fun d => { d with wrapAt := some 0 }
     let die := 7
     (s.die die).wrapAt.isSome = true ∧ s.wrapReady die = false) ∧
    (let s : State := (cached { dreqs := [store0] }).modDie 7 fun d => { d with wrapAt := some 0 }; let die := 7
     s.wrapReady die = true) ∧
    (let s : State := up0.modDie 7 fun d => { d with wrapAt := some 0 }; let die := 7
     die < s.dies.length ∧ (s.die die).wrapAt.isSome = true ∧ s.wrapReady die = true) := by decide +kernel

/-- The premises of `Obligations.CachesServe` can be met: part 7. -/
theorem witness_CachesServe_7 :
    (let d := racq0; let s : State := releasing { dreqs := [d] }; let sp := 0; let ln := 0; let core := 3; let num := 1
     s.promotes d = some (sp, ln, core, num)) ∧
    (let d := { racq0 with core := 3 }; let s : State := releasing { dreqs := [d] }; let core := 3; let num := 1
     d.ord = .racq ∧ s.promotes d = none ∧ (d.space, d.line, core, num) ∈ (s.die d.die).rels) ∧
    (let d := racq0; let x := lineM; let s : State := releasing { dreqs := [d], dc := [x] }; let n := 0; let core := 3; let num := 1
     s.cache.dreqs[n]? = some d ∧ s.dc? d.die d.space d.line = some x ∧ s.promotes d = some (d.space, d.line, core, num) ∧ d.performed = false ∧
       (∀ y ∈ s.cache.dc, y.die = d.die → y.ownc ≠ core) ∧ (∀ e ∈ s.cache.dreqs, e.die = d.die → e.core = core → e.stores = true → num ≤ e.num)) := by decide +kernel

/-- The premises of `Obligations.CachesServe` can be met: part 8. -/
theorem witness_CachesServe_8 :
    (let d := racq0; let y := { lineM with line := 1, ownc := 3 }
     let z := ({ die := 0, core := 3, space := 0, line := 1, st := .owned, words := [] } : L1Line)
     let s : State := releasing { dreqs := [d], dc := [lineM, y], l1 := [z] }; let n := 0; let core := 3; let num := 1
     s.cache.dreqs[n]? = some d ∧ (s.dc? d.die d.space d.line).isSome = true ∧ s.promotes d = some (d.space, d.line, core, num) ∧
       d.performed = false ∧ (s.cache.dc.filter fun y => y.die == d.die && y.ownc == core) = [y] ∧ s.dc? y.die y.space y.line = some y ∧
       (¬ (y.space = d.space ∧ y.line = d.line)) ∧ s.l1? d.die core y.space y.line = some z ∧
       (∀ e ∈ s.cache.dreqs, e.die = d.die → e.core = core → e.stores = true → num ≤ e.num)) ∧
    (let d := racq0; let e := { store0 with core := 3 }; let s : State := releasing { dreqs := [d, e] }; let n := 0; let sp := 0
     let ln := 0; let core := 3; let num := 1
     s.cache.dreqs[n]? = some d ∧ s.promotes d = some (sp, ln, core, num) ∧ e ∈ s.cache.dreqs ∧ e.die = d.die ∧ e.core = core ∧ e.stores = true ∧
       e.num < num) := by decide +kernel

/-- The premises of `Obligations.DirectoryServes` can be met: part 1. -/
theorem witness_DirectoryServes :
    let may := fun (s : State) n (m : Msg) => s.firstAsk n m = true ∧ s.tx? m.space m.line = none ∧ s.refreshing m.home = false
    let room := fun (s : State) (m : Msg) => (s.cache.dir.filter fun e => e.home == m.home && filterSet e.line == filterSet m.line).length < 16
    (let m := msg0 .getS; let s : State := cached { msgs := [m] }; let n := 0
     s.msg? n .getS = some m ∧ may s n m ∧ s.dir? m.space m.line = none ∧ room s m) ∧
    (let m := msg0 .getS; let e := dir0 .S 0 [2]; let s : State := cached { msgs := [m], dir := [e] }; let n := 0
     s.msg? n .getS = some m ∧ may s n m ∧ s.dir? m.space m.line = some e ∧ e.st = .S) ∧
    (let m := msg0 .getS; let e := dir0 .M 2 []; let s : State := cached { msgs := [m], dir := [e] }; let n := 0
     s.msg? n .getS = some m ∧ may s n m ∧ s.dir? m.space m.line = some e ∧ e.st ≠ .S) ∧
    (let m := msg0 .getM; let s : State := cached { msgs := [m] }; let n := 0
     s.msg? n .getM = some m ∧ may s n m ∧ s.dir? m.space m.line = none ∧ room s m) := by decide +kernel

/-- The premises of `Obligations.DirectoryServes` can be met: part 2. -/
theorem witness_DirectoryServes_2 :
    let may := fun (s : State) n (m : Msg) => s.firstAsk n m = true ∧ s.tx? m.space m.line = none ∧ s.refreshing m.home = false
    (let s : State := cached {}; let sp := 0; let ln := 0
     (∀ h ∈ s.cache.hub, ¬ (h.space = sp ∧ h.line = ln))) ∧
    (let h := ({ space := 0, line := 0, row := false, words := [] } : HubLine)
     let s : State := { cached { hub := [h] } with xl := { mapped.xl with homeMap := [(0, 0x9000000000000000)] } }; let sp := 0
     let ln := 0; let c := 0
     s.homeOfSpace sp (ln * 128) = .loc 8 c ∧ h ∈ s.cache.hub ∧ h.space = sp ∧ h.line = ln ∧
       (∀ y ∈ s.cache.hub, y.space = sp → y.line = ln → y = h)) ∧
    (let m := msg0 .getM; let e := dir0 .M 2 []; let s : State := cached { msgs := [m], dir := [e] }; let n := 0
     s.msg? n .getM = some m ∧ may s n m ∧ s.dir? m.space m.line = some e ∧ e.st ≠ .S ∧ e.owner ≠ m.node ∧
       (∀ k ∈ e.sharers, k = m.node ∨ k = e.owner)) := by decide +kernel

/-- The premises of `Obligations.DirectoryServes` can be met: part 3. -/
theorem witness_DirectoryServes_3 :
    let may := fun (s : State) n (m : Msg) => s.firstAsk n m = true ∧ s.tx? m.space m.line = none ∧ s.refreshing m.home = false
    (let m := msg0 .getM; let e := dir0 .S 0 [2, 1]; let s : State := cached { msgs := [m], dir := [e] }; let n := 0
     s.msg? n .getM = some m ∧ may s n m ∧ s.dir? m.space m.line = some e ∧ e.st = .S ∧ (∃ k ∈ e.sharers, k ≠ m.node)) ∧
    (let m := msg0 .putM; let e := dir0 .M 1 []; let s : State := cached { msgs := [m], dir := [e] }; let n := 0
     s.msg? n .putM = some m ∧ s.firstAsk n m = true ∧ s.tx? m.space m.line = none ∧ s.refreshing m.home = false ∧
       s.dir? m.space m.line = some e ∧ e.st ≠ .S ∧ e.owner = m.node ∧ (∀ k ∈ e.sharers, k = m.node)) := by decide +kernel

/-- The premises of `Obligations.DirectoryServes` can be met: part 4. -/
theorem witness_DirectoryServes_4 :
    (let m := msg0 .putM; let e := dir0 .O 1 [2]; let s : State := cached { msgs := [m], dir := [e] }; let n := 0
     s.msg? n .putM = some m ∧ s.firstAsk n m = true ∧ s.tx? m.space m.line = none ∧ s.refreshing m.home = false ∧
       s.dir? m.space m.line = some e ∧ e.st ≠ .S ∧ e.owner = m.node ∧ (∃ k ∈ e.sharers, k ≠ m.node)) ∧
    (let m := msg0 .putM; let e := dir0 .S 0 []; let s : State := cached { msgs := [m], dir := [e] }; let n := 0
     s.msg? n .putM = some m ∧ s.firstAsk n m = true ∧ s.tx? m.space m.line = none ∧ s.refreshing m.home = false ∧
       s.dir? m.space m.line = some e ∧ e.st = .S) := by decide +kernel

/-- The premises of `Obligations.DirectoryServes` can be met: part 5. -/
theorem witness_DirectoryServes_5 :
    (let m := msg0 .putM; let s : State := cached { msgs := [m] }; let n := 0
     s.msg? n .putM = some m ∧ s.firstAsk n m = true ∧ s.tx? m.space m.line = none ∧ s.refreshing m.home = false ∧
       (s.dir? m.space m.line).isNone = true) ∧
    (let m := msg0 .putS; let e := dir0 .S 0 [1]; let s : State := cached { msgs := [m], dir := [e] }; let n := 0
     s.msg? n .putS = some m ∧ s.firstAsk n m = true ∧ s.tx? m.space m.line = none ∧ s.dir? m.space m.line = some e ∧
       (e.st = .S ∨ e.owner = m.node) ∧ (∀ k ∈ e.sharers, k = m.node)) ∧
    (let m := msg0 .putS; let e := dir0 .S 0 [1, 2]; let s : State := cached { msgs := [m], dir := [e] }; let n := 0
     s.msg? n .putS = some m ∧ s.firstAsk n m = true ∧ s.tx? m.space m.line = none ∧ s.dir? m.space m.line = some e ∧
       (∃ k ∈ e.sharers, k ≠ m.node)) := by decide +kernel

/-- The premises of `Obligations.DirectoryServes` can be met: part 6. -/
theorem witness_DirectoryServes_6 :
    let held := fun (s : State) n (m : Msg) x => s.behind n m = false ∧ s.writingBack m = false ∧ m.node < 8 ∧ s.dc? m.node m.space m.line = some x
      ∧ x.ownc = 255
    (let m := msg0 .fwdGetS; let x := line0 .M; let s : State := cached { msgs := [m], dc := [x] }; let n := 0
     s.msg? n .fwdGetS = some m ∧ held s n m x) ∧
    (let m := msg0 .fwdGetM; let x := line0 .E; let s : State := cached { msgs := [m], dc := [x] }; let n := 0
     s.msg? n .fwdGetM = some m ∧ held s n m x) ∧
    (let m := msg0 .fwdGetM; let s : State := cached { msgs := [m], pwb := [(1, 0, 0)] }; let n := 0
     s.msg? n .fwdGetM = some m ∧ s.behind n m = false ∧ s.writingBack m = true) ∧
    (let m := msg0 .inv; let x := line0 .S; let s : State := cached { msgs := [m], dc := [x] }; let n := 0
     s.msg? n .inv = some m ∧ held s n m x) ∧
    (let m := msg0 .getS; let s : State := (cached { msgs := [m] }).modDie 0 fun d => { d with recon := 3776 }; let n := 0
     s.refreshing m.home = true ∧ s.msg? n .getS = some m) := by decide +kernel

/-- The premises of `Obligations.DirectoryServes` can be met: part 7. -/
theorem witness_DirectoryServes_7 :
    (let m := msg0 .resp; let e := dir0 .M 1 []; let T := { tx0 with getM := false, awaitResp := some 1 }; let r := 2
     let s : State := cached { msgs := [m], dir := [e], txs := [T] }; let n := 0
     s.msg? n .resp = some m ∧ s.refreshing m.home = false ∧ s.tx? m.space m.line = some T ∧ T.getM = false ∧ T.req = some r ∧
       T.awaitResp = some m.node ∧ T.awaitAcks = [] ∧ T.awaitPut = none ∧ T.words = [] ∧ m.inFlight = false ∧ s.dir? m.space m.line = some e ∧
       e.st ≠ .S) := by decide +kernel

/-- The premises of `Obligations.DirectoryServes` can be met: part 8. -/
theorem witness_DirectoryServes_8 :
    (let m := msg0 .resp; let e := dir0 .M 1 []; let T := { tx0 with awaitResp := some 1 }; let r := 2
     let s : State := cached { msgs := [m], dir := [e], txs := [T] }; let n := 0
     s.msg? n .resp = some m ∧ s.refreshing m.home = false ∧ s.tx? m.space m.line = some T ∧ T.getM = true ∧ T.req = some r ∧
       T.awaitResp = some m.node ∧ T.awaitAcks = [] ∧ T.awaitPut = none ∧ m.inFlight = false ∧ s.dir? m.space m.line = some e ∧ e.st ≠ .S) := by decide +kernel

/-- The premises of `Obligations.DirectoryServes` can be met: part 9. -/
theorem witness_DirectoryServes_9 :
    (let m := msg0 .invAck; let e := dir0 .S 0 [1, 2]; let T := { tx0 with awaitAcks := [1] }; let r := 2
     let s : State := cached { msgs := [m], dir := [e], txs := [T] }; let n := 0
     s.msg? n .invAck = some m ∧ s.refreshing m.home = false ∧ s.tx? m.space m.line = some T ∧ T.getM = true ∧ T.req = some r ∧
       T.awaitResp = none ∧ T.awaitAcks = [m.node] ∧ T.awaitPut = none ∧ s.dir? m.space m.line = some e ∧ e.st = .S ∧
       (∀ y ∈ s.cache.msgs.take n, ¬ (y.kind = .resp ∧ y.node = m.node ∧ y.space = m.space ∧ y.line = m.line))) ∧
    (let m := msg0 .data; let s : State := cached { msgs := [m] }; let n := 0
     s.msg? n .data = some m ∧ m.inFlight = false ∧ s.behind n m = false ∧ m.node < 8) := by decide +kernel

/-- The premises of `Obligations.DirectoryServes` can be met: part 10. -/
theorem witness_DirectoryServes_10 :
    (let m := { msg0 .data with node := 9 }; let s : State := cached { msgs := [m] }; let n := 0
     s.msg? n .data = some m ∧ m.inFlight = false ∧ s.behind n m = false ∧ 8 ≤ m.node ∧ s.refreshing m.home = false ∧
       s.bridge? m.node m.space m.line = none) ∧
    (let m := msg0 .wbAck; let s : State := cached { msgs := [m] }; let n := 0
     s.msg? n .wbAck = some m) := by decide +kernel

/-- The premises of `Obligations.BridgesServeCoxes` can be met: part 1. -/
theorem witness_BridgesServeCoxes :
    let quiet := fun (s : State) io sp ln => (∀ m ∈ s.cache.msgs, ¬ (m.node = io ∧ m.space = sp ∧ m.line = ln)) ∧ ∀ t ∈ s.cache.txs, ¬ (t.space = sp
      ∧ t.line = ln ∧ t.req = some io)
    (let b := bridge0; let s : State := cached { bridge := [b] }; let x := 0; let va := 127; let p := 127; let sp := 0
     let leaf := (0xF000000000000000 : Word)
     s.transNow x false .rd va = .ok p sp leaf ∧ pteRow leaf = false ∧ s.bridge? (bridgeOf va) sp (va / 128) = some b ∧
       s.shutTo 8 0 none sp (va / 128) = false) ∧
    (let i := 63
     i < 64) ∧
    (let leaf := (0xE400000000000000 : Word)
     let s : State := { up0 with xl := { mapped.xl with pte := (0xFC0003000, leaf) :: mapped.xl.pte, tlb := [] } }; let x := 0
     let va := 0; let p := 0; let sp := 0
     s.transNow x false .rd va = .ok p sp leaf ∧ pteRow leaf = true ∧ s.shutTo 8 0 none sp (va / 128) = false ∧ s.homeBusy x va 1 = false) ∧
    (let s := up0; let x := 0; let va := 0
     isOk (s.transNow x false .rd va) = false) ∧
    (let s : State := cached {}; let x := 0; let va := 65535; let p := 65535; let sp := 0; let leaf := (0xF000000000000000 : Word)
     s.transNow x false .rd va = .ok p sp leaf ∧ pteRow leaf = false ∧ s.bridge? (bridgeOf va) sp (va / 128) = none ∧
       quiet s (bridgeOf va) sp (va / 128) ∧ s.shutTo 8 0 none sp (va / 128) = false) := by decide +kernel

/-- The premises of `Obligations.BridgesServeCoxes` can be met: part 2. -/
theorem witness_BridgesServeCoxes_2 :
    let quiet := fun (s : State) io sp ln => (∀ m ∈ s.cache.msgs, ¬ (m.node = io ∧ m.space = sp ∧ m.line = ln)) ∧ ∀ t ∈ s.cache.txs, ¬ (t.space = sp
      ∧ t.line = ln ∧ t.req = some io)
    (let b := bridge0; let s : State := cached { bridge := [b] }; let x := 0; let va := 0; let p := 0; let sp := 0
     let leaf := (0xF000000000000000 : Word)
     s.transNow x false .wr va = .ok p sp leaf ∧ pteRow leaf = false ∧ s.bridge? (bridgeOf va) sp (va / 128) = some b ∧ b.permM = true) ∧
    (let s : State := cached { bridge := [{ bridge0 with permM := false }] }; let x := 0; let va := 0; let p := 0; let sp := 0
     let leaf := (0xF000000000000000 : Word)
     s.transNow x false .wr va = .ok p sp leaf ∧ pteRow leaf = false ∧ (s.bridge? (bridgeOf va) sp (va / 128)).all (fun b => !b.permM) = true ∧
       quiet s (bridgeOf va) sp (va / 128)) ∧
    (let b := bridge0; let s : State := cached { bridge := [b] }; let x := 0; let va := 63
     s.bridge? (bridgeOf va) (s.spaceOf x va) (va / 128) = some b ∧ halfOf va ∈ b.dirty) ∧
    (let b := { bridge0 with dirty := [] }; let s : State := cached { bridge := [b] }; let x := 0; let va := 0
     s.bridge? (bridgeOf va) (s.spaceOf x va) (va / 128) = some b ∧ halfOf va ∉ b.dirty ∧ (∀ h ∈ b.held, h = halfOf va)) := by decide +kernel

/-- The premises of `Obligations.ClocksKeepTime` can be met: part 1. -/
theorem witness_ClocksKeepTime :
    (let s := up0; let d := 0; let x := ({} : Die)
     s.pkg.up.clocked = true ∧ s.dies[d]? = some x) ∧
    (let s := up0; let d := 0; let e := 7
     s.reconciled = true ∧ d ≠ e ∧ d < s.dies.length ∧ e < s.dies.length ∧ (s.die d).promised = true ∧ (s.die e).promised = true) ∧
    (let s := up0; let c := 8; let d := 7
     8 ≤ c ∧ d < s.dies.length ∧ (s.die d).stopped = false) ∧
    (let s := up0; let c := 7; let d := 7
     c < 8 ∧ d < s.dies.length) := by decide +kernel

/-- The premises of `Obligations.ClocksKeepTime` can be met: part 2. -/
theorem witness_ClocksKeepTime_2 :
    (let s : State := up0.modDie 0 fun d => { d with local_ := 1024 }; let d := 0
     d < 8 ∧ s.dies.length = 8 ∧ (s.die d).local_ % 1024 = 0 ∧ 0 < (s.die d).local_ ∧ (s.die d).exchanged ≠ (s.die d).local_ / 1024) ∧
    (let s : State := { up0 with stake := 1024 }
     s.stake % 1024 = 0 ∧ 0 < s.stake ∧ s.pkg.exchanged ≠ s.stake / 1024) ∧
    (let m := ({ src := 8, dst := 7, loc := 0, rec_ := 0, relay := 0 } : TickMsg); let s : State := { up0 with ticks := [m] }
     let n := 0
     s.dies.length = 8 ∧ s.ticks[n]? = some m ∧ m.dst < 8 ∧ m.src = 8) := by decide +kernel

/-- The premises of `Obligations.ClocksKeepTime` can be met: part 3. -/
theorem witness_ClocksKeepTime_3 :
    (let m := ({ src := 1, dst := 0, loc := 5, rec_ := 5, relay := 5 } : TickMsg)
     let s : State := { up0.modDie 0 (fun d => { d with awaiting := true }) with ticks := [m] }; let n := 0
     s.dies.length = 8 ∧ s.ticks[n]? = some m ∧ m.dst < 8 ∧ m.src < 8 ∧ 0 < m.relay ∧ m.relay ≤ m.rec_ ∧
       (m.src, m.relay) ∉ (s.die m.dst).relays ∧ (s.die m.dst).awaiting = true) ∧
    (let m := ({ src := 1, dst := 0, loc := 5, rec_ := 5, relay := 0 } : TickMsg); let s : State := { up0 with ticks := [m] }
     let n := 0
     s.dies.length = 8 ∧ s.ticks[n]? = some m ∧ m.dst < 8 ∧ m.src < 8 ∧
       (m.relay = 0 ∨ (m.src, m.relay) ∈ (s.die m.dst).relays ∨ (s.die m.dst).awaiting = false)) := by decide +kernel

/-- The premises of `Obligations.ClocksKeepTime` can be met: part 4. -/
theorem witness_ClocksKeepTime_4 :
    (let s : State := up0.modDie 7 fun d => { d with missed := 8 }; let d := 7
     d < 8 ∧ s.dies.length = 8 ∧ 8 ≤ (s.die d).missed ∧ (s.die d).lost = none) ∧
    (let s : State := { up0.modDie 0 (fun d => { d with lost := some 0 }) with stake := 2 ^ 30 }; let d := 0; let n := 0
     (s.die d).lost = some n ∧ n + 2 ^ 30 ≤ s.stake ∧ s.pkg.up = .ready) ∧
    (let s : State := up0.modDie 0 fun d => { d with recon := 3776 }; let d := 0
     s.dies.length = 8 ∧ d < 8 ∧ 3776 ≤ (s.die d).recon % 4096 ∧ (s.die d).refreshed ≠ (s.die d).recon / 4096 + 1) ∧
    (let d := 7
     d < 8) ∧
    (let s : State := up0.modPkg fun p => { p with clockPend := some 1 }; let n := 1
     s.pkg.clockPend = some n ∧ s.stake % s.stepBoundary = 0) ∧
    (let s : State := { up0.modPkg (fun p => { p with clockPend := some 1 }) with stake := 1 }; let n := 1
     s.pkg.clockPend = some n ∧ s.stake % s.stepBoundary ≠ 0) := by decide +kernel

/-- The premises of `Obligations.ClocksKeepTime` can be met: part 5. -/
theorem witness_ClocksKeepTime_5 :
    (let s := up0
     s.pkg.up.clocked = true) ∧
    (let s := up0
     s.pkg.up.clocked = true) ∧
    (let s := up0
     s.pkg.up.clocked = true) ∧
    (let s := up0
     s.pkg.up.clocked = true) := by decide +kernel

/-- The premises of `Obligations.PackageComesUp` can be met: part 1. -/
theorem witness_PackageComesUp :
    (let s := up0
     s.pkg.up ≠ .off) ∧
    (let s := State.reset
     s.pkg.up = .off ∧ s.pkg.trip = false) ∧
    (let s : State := up0.modPkg fun p => { p with trip := true }
     s.pkg.trip = true) ∧
    (let s : State := up0.modPkg fun p => { p with up := .standby }
     s.pkg.up = .standby) ∧
    (let s : State := up0.modPkg fun p => { p with up := .secureBoot }
     s.pkg.up = .secureBoot) ∧
    (let s : State := up0.modPkg fun p => { p with up := .runtimeLoad }
     s.pkg.up = .runtimeLoad ∧ s.ctxs.length = 256) := by decide +kernel

/-- The premises of `Obligations.PackageComesUp` can be met: part 2. -/
theorem witness_PackageComesUp_2 :
    (let s : State := up0.modPkg fun p => { p with up := .memoryInit }
     s.pkg.up = .memoryInit) ∧
    (let s : State := up0.modPkg fun p => { p with up := .linkInit }
     s.pkg.up = .linkInit) ∧
    (let s : State := up0.modPkg fun p => { p with up := .linkInit }
     s.pkg.up ∈ [.standby, .secureBoot, .runtimeLoad, .memoryInit, .linkInit]) ∧
    (let w := 4500
     3000 ≤ w ∧ w ≤ 4500 ∧ w % 50 = 0) ∧
    (let w := 2950
     (w < 3000 ∨ 4500 < w ∨ w % 50 ≠ 0)) ∧
    (let n := 15
     11 ≤ n ∧ n ≤ 15) := by decide +kernel

/-- The premises of `Obligations.PackageComesUp` can be met: part 3. -/
theorem witness_PackageComesUp_3 :
    (let n := 10
     n < 11) := by decide +kernel

/-- The premises of `Obligations.DriverRegistersTakeWrites` can be met. -/
theorem witness_DriverRegistersTakeWrites :
    (let s := State.reset; let d := 7; let v := (0x1400 : Word)
     d < s.dies.length ∧ (∀ r ∈ s.regions, r.die = d → r.done = true) ∧ 8 ≤ fld v 8 5 ∧ fld v 8 5 ≤ 20) ∧
    (let s := State.reset; let d := 0; let v := (0x1500 : Word)
     d < s.dies.length ∧ (s.die d).lsPend = none ∧ (∀ r ∈ s.regions, r.die = d → r.done = true) ∧ (fld v 8 5 < 8 ∨ 20 < fld v 8 5)) ∧
    (let s := up0; let d := 0; let v := (0x800 : Word); let r := { grid := 0, idx := 0, die := 0, done := false }
     d < s.dies.length ∧ r ∈ s.regions ∧ r.die = d ∧ r.done = false ∧ 8 ≤ fld v 8 5 ∧ fld v 8 5 ≤ 20) ∧
    (let s := up0; let n := 2047
     n / 8 < s.ctxs.length ∧ (s.ctx (n / 8)).block.length = 8) := by decide +kernel

/-- The premises of `Obligations.PagesAreMapped` can be met: part 1. -/
theorem witness_PagesAreMapped :
    (let s := mapped; let home := 0; let req := ([0x30001, 0x20000, 0x20000, 1] : List Word)
     home < 9 ∧ s.mapCheck home 1 (MapReq.of req) = 0 ∧ (s.mapPages home (MapReq.of req) (MapReq.of req).pages).isSome = true) ∧
    (let s : State := { mapped with xl := { mapped.xl with roots := [] } }; let home := 0
     let req := ([0x30001, 0x20000, 0x20000, 1] : List Word)
     home < 9 ∧ s.mapCheck home 1 (MapReq.of req) = 0 ∧ (s.mapPages home (MapReq.of req) (MapReq.of req).pages).isNone = true) ∧
    (let s := up0; let home := 0; let req := ([0x30001, 0x20000, 0x20000, 1] : List Word)
     s.root? home (MapReq.of req).space = none ∧ 0 < (MapReq.of req).count) ∧
    (let s : State := mapped.modBlk 0 fun b => { b with stores := [{ mseq := 0, idx := 0, rqt := .wt, ord := .plain, scope := .warp, kind := .bytes [(127, 5)] }] }
     let req := ([2, 0, 0, 1] : List Word)
     s.pagesBusy (MapReq.of req) = true ∧ s.mapCheck 0 2 (MapReq.of req) = 0) ∧
    (let x := ({ mseq := 0, idx := 0, rqt := .wt, ord := .plain, scope := .warp, kind := .bytes [(127, 5)] } : GStore)
     let s : State := mapped.modBlk 0 fun b => { b with stores := [x] }; let r := MapReq.of ([2, 0, 0, 1] : List Word); let w := 0
     let b := blk0 s; let a := 127
     s.blk? w = some b ∧ x ∈ b.stores ∧ a ∈ x.addrs ∧ r.covers a = true ∧ s.spaceOf (s.place w).ctx a = r.space) := by decide +kernel

/-- The premises of `Obligations.PagesAreMapped` can be met: part 2. -/
theorem witness_PagesAreMapped_2 :
    (let s := mapped; let home := 0; let req := ([0x30001, 0x20000, 0x20000, 1] : List Word)
     home < 9 ∧ s.mapCheck home 1 (MapReq.of req) = 0 ∧ (MapReq.of req).size = 0 ∧ (MapReq.of req).count = 1 ∧
       s.hasPath home (MapReq.of req).space (MapReq.of req).va) ∧
    (let s := up0; let home := 8; let req := noReq
     home < 9 ∧ s.mapCheck home 1 (MapReq.of req) ≠ 0) ∧
    (let s := mapped; let home := 0; let req := ([2, 0, 0, 1] : List Word)
     home < 9 ∧ s.mapCheck home 2 (MapReq.of req) = 0 ∧ s.pagesBusy (MapReq.of req) = false) ∧
    (let s := up0; let home := 0; let req := noReq
     home < 9 ∧ s.mapCheck home 2 (MapReq.of req) ≠ 0) := by decide +kernel

/-- The premises of `Obligations.PagesAreMapped` can be met: part 3. -/
theorem witness_PagesAreMapped_3 :
    let turn := fun (s : State) home n (w : Walk) page => s.xl.walks[n]? = some w ∧ w.home = home ∧ w.asks = [page] ∧ s.refreshing home = false ∧
      ((s.xl.walks.take n).filter fun x => x.home == home).length < 512
    (let s := mapped; let home := 0; let req := ([0x10003, 0, 0, 1] : List Word); let leaf := (0xF000000000000000 : Word)
     home < 9 ∧ s.mapCheck home 3 (MapReq.of req) = 0 ∧ s.pagesBusy (MapReq.of req) = false ∧ (MapReq.of req).size = 0 ∧
       (MapReq.of req).count = 1 ∧ s.hasPath home (MapReq.of req).space (MapReq.of req).va ∧
       s.walk home (MapReq.of req).space (MapReq.of req).va = some (leaf, 16)) ∧
    (let s := up0; let home := 0; let req := noReq
     home < 9 ∧ s.mapCheck home 3 (MapReq.of req) ≠ 0) ∧
    (let s : State := up0.modDie 0 fun d => { d with recon := 3776 }; let home := 0
     s.refreshing home = true) ∧
    (let w : Walk := { home := 0, space := 0, va := 0, asks := [0] }
     let s : State := { mapped with xl := { mapped.xl with walks := [w] } }; let home := 0; let n := 0; let page := 0; let bits := 16
     let leaf := (0xF000000000000000 : Word)
     turn s home n w page ∧ s.walk home w.space page = some (leaf, bits) ∧ (bits = 16 ∨ bits = 21 ∨ bits = 30)) ∧
    (let w : Walk := { home := 0, space := 0, va := 0x50000, asks := [0x50000] }
     let s : State := { mapped with xl := { mapped.xl with walks := [w] } }; let home := 0; let n := 0; let page := 0x50000
     turn s home n w page ∧ s.walk home w.space page = none ∧ (∀ p ∈ s.xl.pfaults, ¬ (p.home = home ∧ p.space = w.space ∧ p.va = page))) := by decide +kernel

/-- The premises of `Obligations.BexaServes` can be met: part 1. -/
theorem witness_BexaServes :
    (let s := up0; let c := 255
     c < s.ctxs.length ∧ (s.ctx c).st = .free) ∧
    (let s : State := { up0 with ctxs := [] }
     (∀ x ∈ s.ctxs, x.st ≠ .free)) ∧
    (let s := up0; let c := 3
     (s.ctx c).st ≠ .active) ∧
    (let s : State := up0.modCtx 3 fun c => { c with st := .active }; let c := 3
     c < s.ctxs.length ∧ (s.ctx c).st = .active ∧ (s.ctx c).active = [] ∧ s.openGrids c = [] ∧ (∀ q < 64, fld (s.queue q).ctl 0 8 ≠ c)) := by decide +kernel

/-- The premises of `Obligations.BexaServes` can be met: part 2. -/
theorem witness_BexaServes_2 :
    (let s : State := { up0.modCtx 3 (fun c => { c with st := .active }) with queues := up0.queues.modify 5 fun q => { q with ctl := 0x403 } }
     let c := 3; let q := 5
     (s.ctx c).st = .active ∧ (s.ctx c).active = [] ∧ s.openGrids c = [] ∧ q < 64 ∧ fld (s.queue q).ctl 0 8 = c ∧
       (s.queue q).ctl.getLsbD 10 = true ∧ (s.queue q).entries = [] ∧ (∀ p < 64, p ≠ q → fld (s.queue p).ctl 0 8 ≠ c)) ∧
    (let s : State := { up0.modCtx 3 (fun c => { c with st := .dying }) with queues := up0.queues.modify 5 fun q => { q with ctl := 0x403 } }
     let c := 3
     (s.ctx c).st = .dying ∧ s.queueOn c = true) ∧
    (let s : State := up0.modCtx 3 fun c => { c with st := .dying }; let c := 3
     c < s.ctxs.length ∧ (s.ctx c).st = .dying ∧ s.queueOn c = false) := by decide +kernel

/-- The premises of `Obligations.BexaServes` can be met: part 3. -/
theorem witness_BexaServes_3 :
    let keptOut := fun (s : State) home f => frameKept home f = true ∨ frUsed (s.frame home f) = true ∨ (home, f) ∈ s.pkg.marked ∨ (home, f) ∈
      s.pkg.retiredFrames
    (let s := up0; let h := 0; let sp := 256; let w := 255
     h ≤ 8 ∧ sp ≤ 256 ∧ w ≤ 255 ∧ ∀ x ∈ [5, 6, 7], ¬ keptOut s h x) ∧
    (let s := mapped; let h := 0; let f := 0; let n := 3; let x := 2
     f ≤ x ∧ x < f + n ∧ keptOut s h x) ∧
    (let s := mapped; let h := 0
     ∀ x ∈ [2], frUsed (s.frame h x) = true → frMapped (s.frame h x) = false) ∧
    (let s := mapped; let h := 0; let f := 0; let n := 1; let x := 0
     f ≤ x ∧ x < f + n ∧ frUsed (s.frame h x) = true ∧ frMapped (s.frame h x) = true) ∧
    (let s : State := { mapped with ctxs := mapped.ctxs.map fun c => { c with st := .active } }; let c := 3; let g := 262143
     let v := (0x8000000000000000 : Word)
     s.granuleMapped c g = false ∧ v.getLsbD 56 = false ∧ g < 262144 ∧ (s.ctx c).st ≠ .free) := by decide +kernel

/-- The premises of `Obligations.BexaServes` can be met: part 4. -/
theorem witness_BexaServes_4 :
    (let s : State := { mapped with ctxs := mapped.ctxs.map fun c => { c with st := .active } }; let c := 0; let g := 0
     let v := (0x8000000000000000 : Word)
     s.granuleMapped c g = true ∧ v &&& 0xFFFFFFC000000000 = s.homeEntry c g ∧ v.getLsbD 56 = false ∧ g < 262144 ∧ (s.ctx c).st ≠ .free) ∧
    (let s := mapped; let c := 0; let g := 0; let v := (0x8800000000000000 : Word)
     s.granuleMapped c g = true ∧ v &&& 0xFFFFFFC000000000 ≠ s.homeEntry c g) ∧
    (let s := up0; let w := 255; let l := [0, 1]; let v := ([0, 1] : List Word)
     w ≤ 255 ∧ l.Nodup ∧ v.length = l.length ∧ (∀ x ∈ s.xl.windows, x.win ≠ w ∧ ∀ g ∈ x.granules, g ∉ l)) ∧
    (let s := windowed; let l := [4, 5]; let x := win1; let g := 5
     x ∈ s.xl.windows ∧ g ∈ x.granules ∧ g ∈ l) := by decide +kernel

/-- The premises of `Obligations.BexaServes` can be met: part 5. -/
theorem witness_BexaServes_5 :
    (let s := windowed; let n := 1; let c := 3; let w := win1
     s.xl.windows.find? (fun w => w.win == n) = some w ∧ (s.ctx c).st = .active ∧
       (∀ g ∈ w.granules, (s.homeEntry c g).getLsbD 63 = true → s.homeEntry c g = w.entry g)) ∧
    (let s := windowed; let n := 1; let c := 3; let w := win1
     s.xl.windows = [w] ∧ w.win = n ∧ c ∈ w.members) ∧
    (let s := up0; let c := 255; let l := List.replicate 64 (0, 0)
     c < s.ctxs.length ∧ l.length ≤ 64) ∧
    (let l := List.replicate 65 (0, 0)
     64 < l.length) ∧
    (let s := up0; let n := 7
     2 ≤ n ∧ n ≤ 7 ∧ s.pkg.mr.length = 8) ∧
    (let n := 1
     n < 2) := by decide +kernel

/-- The premises of `Obligations.BexaServes` can be met: part 6. -/
theorem witness_BexaServes_6 :
    (let s := up0; let c := 255
     c < s.ctxs.length) ∧
    (let s := up0
     s.pkg.mr.length = 8) := by decide +kernel

/-- The premises of `Obligations.FaultQueueResolves` can be met: part 1. -/
theorem witness_FaultQueueResolves :
    (let s := up0; let c := 255
     c < s.ctxs.length) ∧
    (let f := rec0; let s := waitsAtHub mapped f; let c := 0; let r := []
     c < s.ctxs.length ∧ (s.ctx c).hubq = f :: r ∧ f.held = false ∧ (∀ b < c, ∀ g ∈ (s.ctx b).hubq.head?, g.held = true) ∧ s.fqBusy c f = false ∧
       s.fqRoom c f = true) ∧
    (let f := rec0; let s := waitsAtHub up0 f; let c := 0; let r := []
     c < s.ctxs.length ∧ (s.ctx c).hubq = f :: r ∧ f.held = false ∧ (∀ b < c, ∀ g ∈ (s.ctx b).hubq.head?, g.held = true) ∧ s.fqBusy c f = false ∧
       s.fqRoom c f = false) := by decide +kernel

/-- The premises of `Obligations.FaultQueueResolves` can be met: part 2. -/
theorem witness_FaultQueueResolves_2 :
    (let f := rec0; let s : State := waitsAtHub (mapped.modDie 0 fun d => { d with recon := 3776 }) f; let c := 0; let r := []
     c < s.ctxs.length ∧ (s.ctx c).hubq = f :: r ∧ s.fqBusy c f = true ∧ (∀ b < c, ∀ g ∈ (s.ctx b).hubq.head?, g.held = true)) ∧
    (let f := { rec0 with held := true }; let s := waitsAtHub mapped f; let c := 0; let r := []
     c < s.ctxs.length ∧ (s.ctx c).hubq = f :: r ∧ f.held = true ∧ s.fqBusy c f = false ∧ s.fqRoom c f = true) := by decide +kernel

/-- The premises of `Obligations.FaultQueueResolves` can be met: part 3. -/
theorem witness_FaultQueueResolves_3 :
    let free := fun (s : State) c => s.homeBusy c (s.fqCtl c + 16) 8 = false
    let found := fun (s : State) c n f => (s.ctx c).posted.find? (fun r => r.seq % 2 ^ 32 == n % 2 ^ 32) = some f ∧ c < s.ctxs.length ∧ free s c
    (let f := rec0; let s := parkedOn up0 f; let c := 0; let n := 1; let w := 0
     found s c n f ∧ f.src = 0 ∧ f.atom = false ∧ f.mmod = false ∧ f.code ≠ 16 ∧ s.entryOf f = none ∧ f.job = none ∧ f.coll = none ∧
       s.recWarps f = [w] ∧ (s.warp w).park.fault = true ∧ w < s.warps.length) ∧
    (let f := { rec0 with atom := true }; let s := parkedOn up0 f; let c := 0; let n := 1
     found s c n f ∧ (f.atom = true ∨ f.mmod = true ∨ f.code = 16)) := by decide +kernel

/-- The premises of `Obligations.FaultQueueResolves` can be met: part 4. -/
theorem witness_FaultQueueResolves_4 :
    let free := fun (s : State) c => s.homeBusy c (s.fqCtl c + 16) 8 = false
    let found := fun (s : State) c n f => (s.ctx c).posted.find? (fun r => r.seq % 2 ^ 32 == n % 2 ^ 32) = some f ∧ c < s.ctxs.length ∧ free s c
    (let f := rec0; let s := parkedOn coded f; let c := 0; let n := 1; let w := 0; let b := 1
     found s c n f ∧ f.src = 0 ∧ s.entryOf f = none ∧ s.recWarps f = [w] ∧ (s.warp w).park.fault = true ∧ w < s.warps.length ∧ b < 2 ^ 24 ∧
       s.hasBlock w b = true) ∧
    (let f := rec0; let s := parkedOn coded f; let c := 0; let n := 1; let w := 0; let b := 2
     found s c n f ∧ s.recWarps f = [w] ∧ b < 2 ^ 24 ∧ s.hasBlock w b = false) := by decide +kernel

/-- The premises of `Obligations.FaultQueueResolves` can be met: part 5. -/
theorem witness_FaultQueueResolves_5 :
    let free := fun (s : State) c => s.homeBusy c (s.fqCtl c + 16) 8 = false
    let found := fun (s : State) c n f => (s.ctx c).posted.find? (fun r => r.seq % 2 ^ 32 == n % 2 ^ 32) = some f ∧ c < s.ctxs.length ∧ free s c
    (let f := rec0; let s := parkedOn (ganged .saved) f; let c := 0; let n := 1; let w := 0
     found s c n f ∧ f.src = 0 ∧ s.entryOf f = none ∧ s.recWarps f = [w] ∧ w < s.warps.length ∧ (s.gang (s.place w).gang).st.out = true ∧
       (s.team (s.warp w).team).kept = false) ∧
    (let f := rec0; let s := parkedOn up0 f; let c := 0; let n := 1; let w := 0
     found s c n f ∧ f.src = 0 ∧ s.entryOf f = none ∧ s.recWarps f = [w] ∧ w < s.warps.length ∧
       ((s.gang (s.place w).gang).st.out = false ∨ (s.team (s.warp w).team).kept = true)) := by decide +kernel

/-- The premises of `Obligations.FaultQueueResolves` can be met: part 6. -/
theorem witness_FaultQueueResolves_6 :
    let free := fun (s : State) c => s.homeBusy c (s.fqCtl c + 16) 8 = false
    let found := fun (s : State) c n f => (s.ctx c).posted.find? (fun r => r.seq % 2 ^ 32 == n % 2 ^ 32) = some f ∧ c < s.ctxs.length ∧ free s c
    (let f := { rec0 with code := 16 }; let s := parkedOn up0 f; let c := 0; let n := 1; let w := 0
     found s c n f ∧ f.src = 0 ∧ f.code = 16 ∧ f.atom = false ∧ f.mmod = false ∧ s.recWarps f = [w] ∧ (s.warp w).park.fault = true ∧
       w < s.warps.length) ∧
    (let f := rec0; let s := parkedOn up0 f; let c := 0; let n := 1
     found s c n f ∧ f.code ≠ 16) ∧
    (let f := { rec0 with src := 2, wid := none, job := some (0, 1) }; let s := parkedOn copying f; let c := 0; let n := 1; let k := 0
     let m := 1; let j := job0
     found s c n f ∧ f.src = 2 ∧ s.entryOf f = none ∧ f.job = some (k, m) ∧ f.coll = none ∧ s.job? k m = some j) := by decide +kernel

/-- The premises of `Obligations.FaultQueueResolves` can be met: part 7. -/
theorem witness_FaultQueueResolves_7 :
    let free := fun (s : State) c => s.homeBusy c (s.fqCtl c + 16) 8 = false
    let found := fun (s : State) c n f => (s.ctx c).posted.find? (fun r => r.seq % 2 ^ 32 == n % 2 ^ 32) = some f ∧ c < s.ctxs.length ∧ free s c
    (let f := rec0; let s := parkedOn up0 f; let c := 0; let n := 1
     found s c n f ∧ f.src ≠ 2) ∧
    (let s : State := mapped.modDie 0 fun d => { d with recon := 3776 }; let c := 0
     (¬ free s c)) ∧
    (let s := up0; let c := 0; let n := 1
     (s.ctx c).posted.find? (fun r => r.seq % 2 ^ 32 == n % 2 ^ 32) = none ∧ free s c) := by decide +kernel

/-- The premises of `Obligations.ErrorsAreContained` can be met: part 1. -/
theorem witness_ErrorsAreContained :
    let errs := fun (s : State) h f => (s.pkg.frameErrs.filter fun e => e.1 == h && e.2.1 == f && decide (s.stake < e.2.2 + errWindow)).length
    (let s : State := up0.modDie 7 fun d => { d with ctrs := [default] }; let d := 7; let e := (s.die 7).ctrs.getD 0 default
     s.dies.length = 8 ∧ d < 8 ∧ e ∈ (s.die d).ctrs) ∧
    (let s : State := up0.modPkg fun p => { p with ctrs := [[default]] }; let e := (default : EvCtr)
     e ∈ s.pkg.ctrs.getD 0 []) ∧
    (let s : State := up0.modPkg fun p => { p with ctrs := [[], [], [default]] }; let p := 17; let e := (default : EvCtr)
     p < 18 ∧ e ∈ s.pkg.ctrs.getD (1 + p / 9) []) ∧
    (let s := up0; let h := 0; let a := 0
     errs s h (a / 65536) < 15) ∧
    (let s := up0; let w := 0
     w < s.warps.length) ∧
    (let s := up0; let w := 0
     w < s.warps.length) := by decide +kernel

/-- The premises of `Obligations.ErrorsAreContained` can be met: part 2. -/
theorem witness_ErrorsAreContained_2 :
    (let s := up0; let w := 0
     w < s.warps.length) ∧
    (let s := up0; let w := 0
     w < s.warps.length) ∧
    (let s := up0; let d := 7
     d < s.dies.length ∧ d < 8) ∧
    (let s := up0; let k := 0
     k < s.teams.length) ∧
    (let s := mapped; let h := 0; let a := 65536
     frUsed (s.frame h (a / 65536)) = true) ∧
    (let s := up0
     s.pkg.up ≠ .off) := by decide +kernel

/-- The premises of `Obligations.ErrorsAreContained` can be met: part 3. -/
theorem witness_ErrorsAreContained_3 :
    let errs := fun (s : State) h f => (s.pkg.frameErrs.filter fun e => e.1 == h && e.2.1 == f && decide (s.stake < e.2.2 + errWindow)).length
    (let s := State.reset
     s.pkg.up = .off) ∧
    (let s := up0; let d := 10
     (d = 9 ∨ d = 10) ∧ d ∉ s.pkg.fencedIo) ∧
    (let s := up0; let d := 7
     s.dies.length = 8 ∧ d < 8 ∧ (s.die d).fenced = false) ∧
    (let s := up0; let d := 0
     s.dies.length = 8 ∧ d < 8 ∧ (s.die d).fenced = false) ∧
    (let s : State := { up0 with cores := [{ die := 0, core := 5, errs := [0, 0, 0] }] }; let d := 0; let c := 5
     (s.core d c).worn s.stake = true ∧ (s.core d c).fenced = false) ∧
    (let s : State := { mapped.modPkg (fun p => { p with frameErrs := List.replicate 16 (0, 2, 0) }) with stake := 1 }; let h := 0
     let f := 2
     16 ≤ errs s h f ∧ frUsed (s.frame h f) = true ∧ (h, f) ∉ s.pkg.retiredFrames) := by decide +kernel

/-- The premises of `Obligations.ErrorsAreContained` can be met: part 4. -/
theorem witness_ErrorsAreContained_4 :
    let errs := fun (s : State) h f => (s.pkg.frameErrs.filter fun e => e.1 == h && e.2.1 == f && decide (s.stake < e.2.2 + errWindow)).length
    (let s := up0; let h := 0; let f := 0
     errs s h f < 16) ∧
    (let s := up0; let p := 17
     p < 18 ∧ p ∉ s.pkg.halfLinks) ∧
    (let s : State := { up0 with cores := (List.range 24).map fun c => { die := 3, core := c, fenced := true } }; let d := 3
     s.dies.length = 8 ∧ d < 8 ∧ 24 ≤ (s.cores.filter fun c => c.die == d && c.fenced).length ∧ (s.die d).fenced = false) ∧
    (let r := far0 true; let s : State := { up0 with remote := [r], stake := 1000000 }; let n := 0; let b := blk0 s
     s.shapeOk ∧ s.remote[n]? = some r ∧ r.at_ + 1000000 ≤ s.stake ∧ r.isLoad = true ∧ s.blk? r.w = some b) ∧
    (let r := far0 false; let s : State := { up0 with remote := [r], stake := 1000000 }; let n := 0
     s.remote[n]? = some r ∧ r.at_ + 1000000 ≤ s.stake ∧ r.isLoad = false ∧ r.ctx < s.ctxs.length) := by decide +kernel

/-- The premises of `Obligations.ErrorsAreContained` can be met: part 5. -/
theorem witness_ErrorsAreContained_5 :
    let listed := fun (s : State) c p r va => (p, r) ∈ (s.ctx c).exports ∧ va % 4 = 0
    (let r := far0 true; let s : State := { up0 with remote := [r], stake := 999999 }; let n := 0
     s.remote[n]? = some r ∧ s.stake < r.at_ + 1000000) ∧
    (let s : State := mapped.modCtx 0 fun c => { c with exports := [(1, 2)] }; let p := 1; let r := 2; let c := 0; let va := 4
     let ph := 4; let sp := 0; let leaf := (0xF000000000000000 : Word)
     listed s c p r va ∧ s.transNow c true .wr va = .ok ph sp leaf ∧ s.lineBusy sp (va / 128) = false ∧ s.homeBusy c va 4 = false) ∧
    (let s : State := mapped.modCtx 0 fun c => { c with exports := [(1, 2)] }; let p := 1; let r := 2; let c := 0; let va := 4
     let ph := 4; let sp := 0; let ret := true; let leaf := (0xF000000000000000 : Word)
     listed s c p r va ∧ s.transNow c true (if ret = true then .rw else .wr) va = .ok ph sp leaf ∧ s.lineBusy sp (va / 128) = false ∧
       s.homeBusy c va 4 = false) ∧
    (let s : State := (mapped.modCtx 0 fun c => { c with exports := [(1, 2)] }).modDie 0 fun d => { d with recon := 3776 }; let p := 1
     let r := 2; let c := 0; let va := 4; let ph := 4; let sp := 0; let leaf := (0xF000000000000000 : Word)
     listed s c p r va ∧ s.transNow c true .rw va = .ok ph sp leaf ∧ s.homeBusy c va 4 = true) ∧
    (let s := up0; let p := 1; let r := 2; let c := 0
     (p, r) ∉ (s.ctx c).exports) ∧
    (let s : State := mapped.modCtx 0 fun c => { c with exports := [(1, 2)] }; let p := 1; let r := 2; let c := 0; let va := 65536
     listed s c p r va ∧ isProt (s.transNow c true .wr va) = true) := by decide +kernel

/-- The premises of `Obligations.ErrorsAreContained` can be met: part 6. -/
theorem witness_ErrorsAreContained_6 :
    let listed := fun (s : State) c p r va => (p, r) ∈ (s.ctx c).exports ∧ va % 4 = 0
    (let s : State := mapped.modCtx 0 fun c => { c with exports := [(1, 2)] }; let p := 1; let r := 2; let c := 0; let va := 0x50000
     let h := 0; let sp := 0
     c < s.ctxs.length ∧ listed s c p r va ∧ pageOf (s.transNow c true .wr va) = some (h, sp) ∧ (∀ q ∈ s.xl.pfaults, ¬ (q.home = h ∧
       q.space = sp ∧ q.va = va / 65536 * 65536)) ∧ s.pfaultsFull h = false) ∧
    (let s : State := { umpired with tsends := [{ (default : TSend) with start := 1, len := 64 }] }; let w := 0; let b := blk0 s
     let i := 0; let x := 4
     s.shapeOk ∧ s.blk? w = some b ∧ s.umpireOn w = true ∧ s.tsendHazard (s.spadWrites w i b) = some x) ∧
    (let s : State := { umpired with tsends := [{ (default : TSend) with start := 1, len := 64 }] }; let w := 0; let b := blk0 s
     let own := []; let writes := [(0, 4, 4)]; let o := 4
     s.umpireOn w = true ∧ s.rangeHazard w b own = none ∧ s.tsendHazard writes = some o) ∧
    (let quad := false; let h := hd; let m := mS; let i := Instr.spld h m .i32
     let s : State := firing (umpire0.modTeam 0 fun t => { t with filling := [(1, 0, 4)] }) i; let b := blkOf s; let x := argsOf s
     let lanes := s.spLanes s.cur quad m (b.live0 &&& x.sc) x.va; let k := 5; let o := 0
     s.shapeOk ∧ s.Fires i b x ∧ b.mseqTurn m.mseq.toNat = true ∧
       s.spadHazard s.cur b (lanes.filterMap fun p => p.2.bind fun q => if q.1 = (s.warp s.cur).team then some (q.2, 4) else none) (lanes.filterMap fun p => p.2.map fun q => (q.1, q.2, 4)) [] = some (k, o)) := by decide +kernel

/-- The premises of `Obligations.CodeObjectsLoad` can be met: part 1. -/
theorem witness_CodeObjectsLoad :
    (let s := coded; let c := 0; let l := ([] : List (BitVec 8))
     (s.ctx c).st = .active ∧ ObjFile.read l = none) ∧
    (let s := coded; let c := 0; let l := objFile 0x200 0xB300000000000000 0; let o := readOf 0x200 0xB300000000000000 0
     (s.ctx c).st = .active ∧ ObjFile.read l = some o ∧ o.featuresOk = false) ∧
    (let s := coded; let c := 0; let l := objFile 0 0xA300000000000000 0; let o := readOf 0 0xA300000000000000 0
     (s.ctx c).st = .active ∧ ObjFile.read l = some o ∧ o.featuresOk = true ∧ o.badBlocks ≠ []) := by decide +kernel

/-- The premises of `Obligations.CodeObjectsLoad` can be met: part 2. -/
theorem witness_CodeObjectsLoad_2 :
    (let s := coded; let c := 0; let h := 0; let va := 0x10000; let n := 1; let l := objFile 0 0xB300000000000000 0
     let o := readOf 0 0xB300000000000000 0
     (s.ctx c).st = .active ∧ ObjFile.read l = some o ∧ o.featuresOk = true ∧ o.badBlocks = [] ∧ va % 64 = 0 ∧ s.homeOf c va = .loc h c ∧
       s.nativePages c va o.native.length = true ∧ (∀ k ∈ o.kernels, o.timedOk k = true) ∧ o.strayOk = true ∧ s.obj? c n = none ∧ n < 2 ^ 32) ∧
    (let s := coded; let c := 0; let h := 0; let va := 0x10001; let l := objFile 0 0xB300000000000000 0
     let o := readOf 0 0xB300000000000000 0
     (s.ctx c).st = .active ∧ ObjFile.read l = some o ∧ o.featuresOk = true ∧ o.badBlocks = [] ∧
       (va % 64 ≠ 0 ∨ s.homeOf c va ≠ .loc h c ∨ s.nativePages c va o.native.length = false)) := by decide +kernel

/-- The premises of `Obligations.CodeObjectsLoad` can be met: part 3. -/
theorem witness_CodeObjectsLoad_3 :
    (let s := coded; let c := 0; let h := 0; let va := 0x10000; let l := objFile 0 0xB300000000000000 0x300000000000000
     let o := readOf 0 0xB300000000000000 0x300000000000000
     (s.ctx c).st = .active ∧ ObjFile.read l = some o ∧ o.featuresOk = true ∧ o.badBlocks = [] ∧ va % 64 = 0 ∧ s.homeOf c va = .loc h c ∧
       s.nativePages c va o.native.length = true ∧ (∃ k ∈ o.kernels, o.timedOk k = false)) ∧
    (let s := coded; let c := 0; let h := 0; let va := 0x10000; let n := 0; let l := objFile 0 0xB300000000000000 0
     let o := readOf 0 0xB300000000000000 0
     (s.ctx c).st = .active ∧ ObjFile.read l = some o ∧ o.featuresOk = true ∧ o.badBlocks = [] ∧ va % 64 = 0 ∧ s.homeOf c va = .loc h c ∧
       s.nativePages c va o.native.length = true ∧ (∀ k ∈ o.kernels, o.timedOk k = true) ∧ o.strayOk = true ∧ s.obj? c n ≠ none) := by decide +kernel

/-- The premises of `Obligations.CodeObjectsLoad` can be met: part 4. -/
theorem witness_CodeObjectsLoad_4 :
    let table := fun (s : State) (o : CodeObj) c a => (List.range o.btab.length).map fun i => s.peek64 c (a + 8 * i)
    (let s := coded; let c := 0; let n := 1
     s.held c n = false) ∧
    (let s := coded; let c := 0; let n := 0; let o := obj0
     s.held c n = true ∧ s.obj? c n = some o) ∧
    (let s : State := { fetching with mem := [(7, 0x80), (8, 64), (15, 0x80)] ++ fetching.mem }; let c := 0; let n := 0; let o := obj0
     let a := 0; let b := 0x10000
     s.obj? c n = some o ∧ (∀ i < o.btab.length, present (table s o c a) i = present o.btab i ∧
       (present o.btab i = true → s.mayStandFor o b (table s o c a) i = true)) ∧
       (∀ g ∈ s.grids, g.ctx = c → g.done = false → g.launch.object = n → g.launch.timed = false)) ∧
    (let s := fetching; let c := 0; let n := 0; let o := obj0; let a := 0; let b := 0; let i := 1
     s.obj? c n = some o ∧ i < o.btab.length ∧ (present (table s o c a) i ≠ present o.btab i ∨ (present o.btab i = true ∧
       s.mayStandFor o b (table s o c a) i = false))) ∧
    (let s : State := { fetching with mem := [(7, 0x80), (8, 64), (15, 0x80)] ++ fetching.mem }; let c := 0; let n := 0; let o := obj0
     let a := 0; let b := 0; let i := 0
     s.obj? c n = some o ∧ i < o.btab.length ∧ present (table s o c a) i = present o.btab i ∧ present o.btab i = true ∧
       s.mayStandFor o b (table s o c a) i = false) := by decide +kernel

/-- The premises of `Obligations.CodeObjectsLoad` can be met: part 5. -/
theorem witness_CodeObjectsLoad_5 :
    (let s := timedOf fetching; let c := 0; let n := 0; let o := obj0; let g := s.grid 0
     s.obj? c n = some o ∧ g ∈ s.grids ∧ g.ctx = c ∧ g.done = false ∧ g.launch.object = n ∧ g.launch.timed = true) ∧
    (let s := up0; let c := 0; let n := 0
     s.obj? c n = none) := by decide +kernel

/-! Premises of further statements. -/

/-- The premises of `Obligations.ScalarInstructions` about `ssel` and those of `Obligations.CountingShapeAndFormat` about firing can be met. -/
theorem witness_ScalarHelpers :
    delivers [.ssel hd, .sclz hd, .spopc hd, .kmov hd false, .kmov hd true, .fmtrd hd] = true ∧
    (wOpc 0x0B00000010000000 = 0x016 ∧ (0x0B00000010000000 : Word).getLsbD 28 = true) ∧
    (awaiting.issuing? = some (blkOf awaiting) ∧ (blkOf awaiting).opnd? awaiting.curIdx .b = none) ∧
    (wOpc 0x0C00000000000001 = 0x018 ∧ (0x0C00000000000001 : Word).extractLsb' 0 28 ≠ 0) ∧
    (wOpc 0x119E000000000000 = 0x023 ∧ wTy 0x119E000000000000 ≠ 0) := by decide +kernel

/-- The premises of `Obligations.UnfiredWordsProduceNothing` about an instruction that waits and one whose predicate fails can be met. -/
theorem witness_UnfiredWordsProduceNothing :
    (let i := Instr.mov hd .scalar
     i.hdr? = some hd ∧ awaiting.issuing? = some (blkOf awaiting) ∧ (blkOf awaiting).idle i ∧
       readiness (blkOf awaiting) awaiting.curIdx hd.pm i.sig = .waits) ∧
    (([.mov ⟨.onTrue, .out 0, .none⟩ .scalar, .push ⟨.onTrue, .out 0, .none⟩ 0 .coll, .red ⟨.onTrue, .none, .none⟩ mA .add,
        .exit ⟨.onTrue, .none, .none⟩, .spst ⟨.onTrue, .none, .none⟩ mS .i32] : List Instr).all fun i =>
      let s := predicated i (.s 0) (.s 7)
      decide (i.hdr? = some (Instr.header i) ∧ s.issuing? = some (blkOf s) ∧ (blkOf s).idle i ∧
        readiness (blkOf s) s.curIdx (Instr.header i).pm i.sig = .skips)) = true := by decide +kernel

/-- Its premises about null tokens can be met, whether or not the instruction is of store class. -/
theorem witness_UnfiredWordsProduceNothing_2 : ([.mov hd .vector, .sadd hd none, .scmp hd .eq none, .kand hd none, .vadd hd .f32 none,
    .vsel hd none, .vred hd .i32 .add, .vcvt hd .f32 .i32 false 0, .consth hd false 0, .st hn m0 .b32, .sts hn m0 .b64, .spst hn mS .i32,
    .spstq hn mS .i32, .red hn mA .add, .atom hd mA .add, .fan hd .scalar (.out 1) .none, .brx hn] : List Instr).all (fun i =>
      let s := predicated i (.s 0) .null
      let b := blkOf s
      decide (i.wf = true ∧ i.hdr? = some (Instr.header i) ∧ s.issuing? = some b ∧ b.idle i ∧
        readiness b s.curIdx (Instr.header i).pm i.sig = .nulls ∧
        (∀ t ∈ Instr.targets i, b.open t = true ∧ (t = .none ∨ (Instr.targets i).count t = 1)) ∧
        (Instr.storeClass i = true → b.storeCount < b.nst))) = true := by decide +kernel

/-- The premises of `Obligations.StepKeepsMemoryForm`, `.StepKeepsFixedRegistersAndShape` and `.RegistersChangeOnlyAtCommit` can be met. -/
theorem witness_StepKeeps : let s := State.reset.withFetchWord 64 0x2280000000000000
    (s.memOk ∧ s.fixedOk ∧ s.shapeOk ∧ s.warps[0]? = some (s.warp 0)) ∧ ∃ t, step s = .next t :=
  ⟨by decide +kernel, next_of (by decide +kernel)⟩

/-- The premises of `Obligations.WordsWriteNoMemory` can be met. -/
theorem witness_WordsWriteNoMemory : (Instr.exit hn).isWord = true ∧ (∀ h, Instr.exit hn ≠ .cachectlWb h ∧ Instr.exit hn ≠ .cachectlWbinv h) ∧
    ∃ t, exec (.exit hn) (firing up0 (.exit hn)) = .next t :=
  ⟨rfl, fun h => ⟨by simp, by simp⟩, next_of (by decide +kernel)⟩

/-- The premises of `Obligations.WriteSlotsWrite` can be met. -/
theorem witness_WriteSlotsWrite : let x := up0.warp 0
    x.s.length = 64 ∧ x.k.length = 16 ∧ 7 < x.v.length ∧ Token.s 5 ≠ .null := by decide +kernel

/-- A bring-up whose image does not verify meets the premise of the last clause of `Obligations.PackageComesUp` about SECURE BOOT: whether image
`i` verifies is a free value. -/
theorem witness_PackageComesUp_refused (i : Nat) (h : Config.imageSigned i = false) :
    let s := up0.modPkg fun p => { p with up := .secureBoot, booting := some i }
    s.pkg.up = .secureBoot ∧ s.pkg.bootRefused = true :=
  ⟨rfl, by simp [State.modPkg, Package.bootRefused, imageOk, h]⟩

/-- A timed object of one block of one `stroke`. -/
def strokeObj : ObjFile :=
  { hver := 3, req1 := 0, req2 := 0, btab := [2 ^ 63], kernels := [⟨0, true, [0], 0, 0⟩], preloads := [], chmap := [],
    code := leBytes 8 0xB302000000000000 ++ leBytes 8 0 ++ leBytes 8 ((encode (.stroke hn true)).getD 0).toNat }

/-- The premises of the clauses of `Obligations.CodeObjectsLoad` about object files can be met. -/
theorem witness_CodeObjectsLoad_files :
    let k : Kernel := ⟨0, true, [0], 0, 0⟩
    (k.timed = true ∧ strokeObj.timedOk k = true ∧ (0 : Word) ∈ k.strokes ∧ (strokeObj.segment strokeObj.btab.length k.entry 0).isSome = true) ∧
    (let o := readOf 0 0xB200000000000000 0
     (o.btab.getD 0 0).getLsbD 63 = true ∧ fld (o.image 0).h0 56 4 ≠ o.hver) ∧
    (let o := { strokeObj with kernels := [⟨0, true, [0], 0, 0⟩], code := leBytes 8 0xB300000000000000 }
     ∃ k ∈ o.kernels, o.timedOk k = false) := by decide +kernel

/-! Decoding: words from the specification's own encoded programs (chapters 3, 4, 8, 14, 15, 16, 18, 21), or put together by hand
from its encoding tables. -/

/-- Chapter 4, the encoded loop: `ssub` 0x007, `T0` 0x104, `T1` 0x200, `IMMB`, `IMM` 1. -/
theorem test_decode_ssub : decode 0x0380824010000001 = .ok (.ssub ⟨.always, .opnd 1 .a, .out 0⟩ (some 1)) := by decide +kernel

/-- Group 1, `bro` 0x040 with `PM` 01 and block 5 at [28:5]. -/
theorem test_decode_bro : decode 0x20200000000000A0 = .ok (.bro ⟨.onTrue, .none, .none⟩ 5) := by decide +kernel

/-- `trap` 0x048, number 5 at [23:16] and payload at [15:0]. -/
theorem test_decode_trap : decode 0x2400000000051234 = .ok (.trap ⟨.always, .none, .none⟩ 5 0x1234) := by decide +kernel

/-- Chapter 14: `vaddc` 0x082, `TYPE` 1, `T0` 0x200, `T1` 0x106. -/
theorem test_decode_vaddc : decode 0x41030020C0000000 = .ok (.vaddc ⟨.always, .out 0, .opnd 1 .c⟩ none) := by decide +kernel

/-- Chapter 14: `vsplat` 0x0CD, `TYPE` 0, `T0` 0x102. -/
theorem test_decode_vsplat : decode 0x6680810000000000 = .ok (.vsplat ⟨.always, .opnd 0 .c, .none⟩ false) := by decide +kernel

/-- Chapter 15: `mma` 0x142, `STEPS` 15. -/
theorem test_decode_mma : decode 0xA100000001E00000 = .ok (.mma ⟨.always, .none, .none⟩ false 15) := by decide +kernel

/-- Chapter 8: `fence` 0x18C, `SEL` 9. -/
theorem test_decode_fence : decode 0xC600000000090000 = .ok (.fence ⟨.always, .none, .none⟩ .core true) := by decide +kernel

/-- Group 7: `eret` 0x1C8. -/
theorem test_decode_eret : decode 0xE400000000000000 = .ok (.eret ⟨.always, .none, .none⟩) := by decide +kernel

/-- `ssel` 0x016 has no immediate (R111). -/
theorem test_decode_ssel_imm : (decode 0x0B00000010000000).toBool = false := by decide +kernel

/-! Ill-formed terms. Each clause is one check that refuses the term; the value next to it, in range, passes. -/

/-- `consth` of the top byte takes 8 bits; `sysrd` has an immediate for `linklat` alone (R118). -/
theorem test_wf_values : (Instr.consth hd true 256).wf = false ∧ (Instr.consth hd true 255).wf = true ∧
    (Instr.sysrd hd .live 1).wf = false ∧ (Instr.sysrd hd .linklat 1).wf = true := by decide

/-- Barrier ids stay below the limit of their unit (Table 2-1). -/
theorem test_wf_bar : (Instr.bar hn .core 16).wf = false ∧ (Instr.bar hn .core 15).wf = true ∧ (Instr.bar hn .pkg 2).wf = false ∧
    (Instr.bar hn .pkg 1).wf = true := by decide

/-- Types of groups 2 and 3 (Tables 14-3 and 14-5). -/
theorem test_wf_types : (Instr.vadd hd .b32 none).wf = false ∧ (Instr.vmulh hd .f32 none).wf = false ∧ (Instr.vrem hd .f32 none).wf = false ∧
    (Instr.vdiv hd .i16x2 none).wf = false ∧ (Instr.vaddsat hd .f32 none).wf = false ∧ (Instr.vdot4 hd .i32 none).wf = false ∧
    (Instr.vshl hd .i32 none).wf = false ∧ (Instr.vsra hd .b32 none).wf = false ∧ (Instr.vabs hd .n32).wf = false := by decide

/-- An immediate of a packed type fits one element (R82). -/
theorem test_wf_vimm : (Instr.vadd hd .i16x2 (some 65536)).wf = false ∧ (Instr.vadd hd .i16x2 (some 65535)).wf = true ∧
    (Instr.vadd hd .i8x4 (some 256)).wf = false := by decide

/-- Pairings of `vcmp`, `vcvt` and `vred` (R331, R333, R341). -/
theorem test_wf_pairs : (Instr.vcmp hd .b32 .lt).wf = false ∧ (Instr.vcvt hd .f32 .f32 false 0).wf = false ∧
    (Instr.vcvt hd .f32 .i32 true 0).wf = false ∧ (Instr.vred hd .b32 .add).wf = false ∧ (Instr.vscan hd .i32 false .xor).wf = false ∧
    (Instr.vencb hd .mxfp4 (some .int4)).wf = false := by decide

/-- `mmode` and `mmar` (Table 15-7, R366): windows are multiples of 8 and 72 apart, and steps stay within 32. -/
theorem test_wf_matrix : (Instr.mmode hn true false 4 0).wf = false ∧ (Instr.mmode hn true true 0 64).wf = false ∧
    (Instr.mmode hn true true 0 72).wf = true ∧ (Instr.mmar hn 31 1).wf = false ∧ (Instr.mmar hn 31 0).wf = true := by decide

/-- Orderings and scopes of group 6 (Table 8-1). -/
theorem test_wf_memory : (Instr.ld hd ⟨0, .wt, .core, .rel, 0⟩ .i32).wf = false ∧ (Instr.st hn ⟨0, .wt, .core, .acq, 0⟩ .b32).wf = false ∧
    (Instr.spld hd m0 .b32).wf = false ∧ (Instr.atom hd m0 .add).wf = false ∧ (Instr.red hn mA .cas).wf = false ∧
    (Instr.prefetch hn ⟨0, .wt, .core, .acq, 0⟩ true).wf = false ∧ (Instr.fence hn .warp false).wf = false := by decide

/-- Targets: `exit` has no result, and counters of `perfctl` are 0 to 7 and 16 to 31 (R453). -/
theorem test_wf_targets : (Instr.exit hd).wf = false ∧ (Instr.perfctlRd hd 8).wf = false ∧ (Instr.perfctlRd hd 31).wf = true := by decide

/-! One step. -/

/-- The value that write slot 0 has received after `i` fired with `a` in slot a; slot b holds 0. -/
def result (i : Instr) (a : Token) : Option Token := match step { firingOn up0 i (some a) with agenda := [.fire 0 0] } with
  | .next t => (blk0 t).out? 0
  | _ => none

/-- R107: sums wrap at 64 bits. -/
theorem test_sadd_wraps : result (.sadd hd (some 1)) (.s 0xFFFFFFFFFFFFFFFF) = some (.s 0) := by decide +kernel

/-- R107: a division by zero gives all ones. -/
theorem test_sdiv_zero : result (.sdiv hd .i64 none) (.s 7) = some (.s 0xFFFFFFFFFFFFFFFF) := by decide +kernel

/-- R108: a right shift of a negative number by 63 gives its sign in every bit. -/
theorem test_ssra_sign : result (.ssra hd (some 63)) (.s 0x8000000000000000) = some (.s 0xFFFFFFFFFFFFFFFF) := by decide +kernel

/-- R112: zero has 64 leading zeros. -/
theorem test_sclz_zero : result (.sclz hd) (.s 0) = some (.s 64) := by decide +kernel

/-- Table 4-7: `sysrd.laneid` gives each lane its number. -/
theorem test_sysrd_laneid : (result (.sysrd hd .laneid 0) .null).map (fun t => t.vec.lane 63) = some 63 := by decide +kernel

/-- The absolute value of the most negative 32-bit number is itself (R327). -/
theorem test_vabs_min : (result (.vabs hd .i32) (.v [0x80000000])).map (fun t => t.vec.lane 0) = some 0x80000000 := by decide +kernel

/-- R325: sums of `.i32` lanes wrap; slot b is the immediate. -/
theorem test_vadd_wraps : (result (.vadd hd .i32 (some 1)) (.v [0xFFFFFFFF])).map (fun t => t.vec.lane 0) = some 0 := by decide +kernel

/-- Table 18-7 gives the words of block 13 of `xchg`, and Table 18-8 the tick in which it commits: its branch issues in tick 1, the others in tick 0. -/
theorem test_send_schedule :
    Img.commitTick [0xB30A080008000000, 0, 0x41100000, 0xE100000000000CC0, 0xE000000000000000, 0x2000000000000280] = 1 := by decide

/-- A step of a machine with an empty agenda lets one tick pass. -/
theorem test_tick : (match step up0 with
    | .next t => t.stake
    | _ => 0) = up0.stake + 1 := by decide +kernel

/-- The next step after `withFetchWord` runs the word it is given (`exit` gives its block a branch). -/
theorem test_withFetchWord : (match step (State.reset.withFetchWord 64 0x2280000000000000) with
    | .next t => (blk0 t).branch
    | _ => none) = some (0, .exit) := by decide +kernel

end Sys2Proof.Tests
end

section
/-! What a canonical memory holds after a write, and when two of them are the same (R4). -/

namespace Sys2Proof.Machine

/-- Below the bound of its form a memory reads 0. -/
theorem getByte_of_lt_bound {m : Memory} {lo x : Nat} (h : wfFrom lo m = true) (hx : x < lo) : getByte m x = 0 := by
  induction m generalizing lo with
  | nil => rfl
  | cons c r ih =>
    obtain ⟨b, y⟩ := c
    simp only [wfFrom, Bool.and_eq_true, decide_eq_true_eq] at h
    rw [getByte, if_neg (by omega)]
    exact ih h.2 (by omega)

theorem getByte_setByte_of_wfFrom {m : Memory} {lo : Nat} (a x : Nat) (v : BitVec 8) (h : wfFrom lo m = true) :
    getByte (setByte m a v) x = if x = a then v else getByte m x := by
  induction m generalizing lo with
  | nil =>
    rw [setByte]
    split <;> grind [getByte]
  | cons c r ih =>
    obtain ⟨b, y⟩ := c
    simp only [wfFrom, Bool.and_eq_true, decide_eq_true_eq] at h
    have below : x ≤ b → getByte r x = 0 := fun hx => getByte_of_lt_bound h.2 (by omega)
    rw [setByte]
    split
    · simp only [getByte, ih h.2]
      grind
    · split
      · split <;> grind [getByte]
      · split <;> grind [getByte]

/-- A byte reads as last written, and a write leaves every other byte alone. -/
theorem getByte_setByte {m : Memory} (a x : Nat) (v : BitVec 8) (h : Memory.wf m = true) :
    getByte (setByte m a v) x = if x = a then v else getByte m x :=
  getByte_setByte_of_wfFrom a x v h

/-- After bytes are written from `a` on, those addresses hold them and every other byte is as before. -/
theorem getByte_setBytes_placeBytes {m : Memory} (a x : Nat) (l : List (BitVec 8)) (h : Memory.wf m = true) :
    getByte (setBytes m (placeBytes a l)) x = if a ≤ x ∧ x < a + l.length then l.getD (x - a) 0 else getByte m x := by
  induction l generalizing m a with
  | nil => simp [placeBytes, setBytes, show ¬(a ≤ x ∧ x < a) by omega]
  | cons b r ih =>
    change getByte (setBytes (setByte m a b) (placeBytes (a + 1) r)) x = _
    rw [ih (a + 1) (Memory.wf_setByte m a b h), getByte_setByte a x b h]
    by_cases hx : x = a
    · simp [hx, show ¬(a + 1 ≤ a) by omega]
    · by_cases hr : a + 1 ≤ x ∧ x < a + 1 + r.length
      · rw [if_pos hr, if_pos (by simp only [List.length_cons]; omega), show x - a = x - (a + 1) + 1 by omega, List.getD_cons_succ]
      · rw [if_neg hr, if_neg hx, if_neg (by simp only [List.length_cons]; omega)]

/-- Reading back the bytes that were written gives them. -/
theorem getBytes_setBytes_placeBytes {m : Memory} (a : Nat) (l : List (BitVec 8)) (h : Memory.wf m = true) :
    getBytes (setBytes m (placeBytes a l)) a l.length = l := by
  refine List.ext_getElem (by simp [getBytes]) fun i _ hi => ?_
  simp [getBytes, getByte_setBytes_placeBytes _ _ _ h, hi]

@[simp] theorem length_leBytes (n x : Nat) : (leBytes n x).length = n := by
  induction n generalizing x with
  | zero => rfl
  | succ n ih => simp [leBytes, ih]

/-- The byte at place `i` holds the bits from `8 i` on. -/
theorem leBytes_getD {n x i : Nat} (h : i < n) : (leBytes n x).getD i 0 = BitVec.ofNat 8 (x / 2 ^ (8 * i)) := by
  induction n generalizing x i with
  | zero => omega
  | succ n ih =>
    cases i with
    | zero => simp [leBytes]
    | succ i =>
      rw [leBytes, List.getD_cons_succ, ih (by omega), Nat.div_div_eq_div_mul, show 8 * (i + 1) = 8 * i + 8 by omega, Nat.pow_add,
        Nat.mul_comm 256]

theorem leNat_leBytes (n x : Nat) : leNat (leBytes n x) = x % 256 ^ n := by
  induction n generalizing x with
  | zero => simp [leBytes, leNat, Nat.mod_one]
  | succ n ih => simp [leBytes, leNat, ih, Nat.pow_succ', Nat.mod_mul]

/-- A word reads as written. -/
theorem getW64_setW64 {m : Memory} (a : Nat) (v : Word) (h : Memory.wf m = true) : getW64 (setW64 m a v) a = v := by
  have hb := getBytes_setBytes_placeBytes a (leBytes 8 v.toNat) h
  rw [length_leBytes] at hb
  rw [getW64, setW64, hb, leNat_leBytes, Nat.mod_eq_of_lt (by have := v.isLt; omega), BitVec.ofNat_toNat, BitVec.setWidth_eq]

/-- The bytes of a written word, and those around it. -/
theorem getByte_setW64 {m : Memory} (a x : Nat) (v : Word) (h : Memory.wf m = true) :
    getByte (setW64 m a v) x = if a ≤ x ∧ x < a + 8 then v.extractLsb' (8 * (x - a)) 8 else getByte m x := by
  rw [setW64, getByte_setBytes_placeBytes _ _ _ h, length_leBytes]
  refine ite_congr rfl (fun hx => ?_) fun _ => rfl
  rw [leBytes_getD (by omega), ← Nat.shiftRight_eq_div_pow]
  rfl

/-- Canonical memories that read the same are the same. -/
theorem wfFrom_ext {m n : Memory} {lo : Nat} (hm : wfFrom lo m = true) (hn : wfFrom lo n = true) (h : ∀ x, getByte m x = getByte n x) :
    m = n := by
  induction m generalizing n lo with
  | nil =>
    cases n with
    | nil => rfl
    | cons c r =>
      have hb := h c.1
      simp_all [wfFrom, getByte]
  | cons c r ih =>
    obtain ⟨a, x⟩ := c
    simp only [wfFrom, Bool.and_eq_true, decide_eq_true_eq, bne_iff_ne, ne_eq] at hm
    have ha : getByte ((a, x) :: r) a = x := by simp [getByte]
    cases n with
    | nil => exact absurd ((ha.symm.trans (h a))) hm.1.2
    | cons c' r' =>
      obtain ⟨b, y⟩ := c'
      simp only [wfFrom, Bool.and_eq_true, decide_eq_true_eq, bne_iff_ne, ne_eq] at hn
      have hb : getByte ((b, y) :: r') b = y := by simp [getByte]
      have below : ∀ z ≤ a, getByte r z = 0 := fun z hz => getByte_of_lt_bound hm.2 (by omega)
      have below' : ∀ z ≤ b, getByte r' z = 0 := fun z hz => getByte_of_lt_bound hn.2 (by omega)
      have hab : a = b := by
        rcases Nat.lt_trichotomy a b with hlt | heq | hgt
        · refine absurd (ha.symm.trans (h a)) ?_
          rw [getByte, if_neg (by omega), below' a (by omega)]
          exact hm.1.2
        · exact heq
        · refine absurd (hb.symm.trans (h b).symm) ?_
          rw [getByte, if_neg (by omega), below b (by omega)]
          exact hn.1.2
      subst hab
      have hxy : x = y := ha.symm.trans ((h a).trans hb)
      subst hxy
      refine congrArg _ (ih hm.2 hn.2 fun z => ?_)
      by_cases hz : a = z
      · rw [below z (by omega), below' z (by omega)]
      · simpa [getByte, hz] using h z

/-- Settles O29: reads after writes, byte by byte, and extensionality of the canonical form. -/
theorem memoryReadsWhatWasWritten : Obligations.MemoryReadsWhatWasWritten := by
  unfold Obligations.MemoryReadsWhatWasWritten
  refine ⟨fun m a x v h => getByte_setByte a x v h, fun m a v h => ⟨getW64_setW64 a v h, fun i hi => ?_, fun x hx => ?_⟩,
    fun m n => wfFrom_ext⟩
  · rw [getByte_setW64 _ _ _ h, if_pos (by omega), Nat.add_sub_cancel_left]
  · rw [getByte_setW64 _ _ _ h, if_neg (by omega)]

end Sys2Proof.Machine
end

section
/-! What a step keeps (R4, R30, R45): the relation `Kept`, and the ways of changing one part of the state that keep it. -/

namespace Sys2Proof.Machine

/-- How much of a warp's registers is to be kept: all of them, all but `fmt`, or none. -/
inductive Hold where
  | all
  | butFmt
  | any
deriving DecidableEq

/-- The registers of a warp but `fmt`. -/
def Warp.regsButFmt (x : Warp) : List Vec × List Word × List Word × Word × Word := (x.v, x.s, x.k, x.mreg, x.wst)

/-- A warp has its 64 scalar and 16 mask registers, with `s0` and `k0` at their fixed values (Table 2-2). -/
def Warp.fixedOk (x : Warp) : Prop := x.s.length = 64 ∧ x.s.getD 0 0 = 0 ∧ x.k.length = 16 ∧ x.k.getD 0 0 = allLanes

/-- `t` comes from `s` by what a step may do: the canonical form of memories, the fixed registers and the shape of the machine are kept, and of the
registers of each warp what `k` says. -/
structure Kept (k : Nat → Hold) (s t : State) : Prop where
  mem : s.memOk → t.memOk
  fixed : s.fixedOk → t.fixedOk
  shape : s.shapeOk → t.shapeOk
  regs : ∀ w x, k w ≠ .any → s.warps[w]? = some x →
    ∃ y, t.warps[w]? = some y ∧ y.regsButFmt = x.regsButFmt ∧ (k w = .all → y.fmt = x.fmt)

/-- Every next state of an outcome comes from `s` by what a step may do. -/
def KeptOut (k : Nat → Hold) (s : State) (o : Out) : Prop := ∀ t, o = .next t → Kept k s t

section
variable {k : Nat → Hold} {s0 s t : State}

theorem Kept.refl (k : Nat → Hold) (s : State) : Kept k s s :=
  ⟨id, id, id, fun _ x _ hx => ⟨x, hx, rfl, fun _ => rfl⟩⟩

theorem Kept.trans (h : Kept k s0 s) (g : Kept k s t) : Kept k s0 t where
  mem := g.mem ∘ h.mem
  fixed := g.fixed ∘ h.fixed
  shape := g.shape ∘ h.shape
  regs w x hk hx := by
    obtain ⟨y, hy, hr, hf⟩ := h.regs w x hk hx
    obtain ⟨z, hz, hr', hf'⟩ := g.regs w y hk hy
    exact ⟨z, hz, hr'.trans hr, fun e => (hf' e).trans (hf e)⟩

theorem KeptOut.next (h : Kept k s0 t) : KeptOut k s0 (.next t) := by
  rintro _ ⟨⟩
  exact h

/-- What lies outside of memories, warps and the parts that the shape speaks of is free. -/
theorem Kept.fields {pkg stake cores gangs regions served objs memPoison xl cache tsends landings ticks remote agenda cur curIdx fresh}
    (h : Kept k s0 s) : Kept k s0 { s with
      pkg := pkg, stake := stake, cores := cores, gangs := gangs, regions := regions, served := served, objs := objs,
      memPoison := memPoison, xl := xl, cache := cache, tsends := tsends, landings := landings, ticks := ticks, remote := remote,
      agenda := agenda, cur := cur, curIdx := curIdx, fresh := fresh } :=
  ⟨h.mem, h.fixed, h.shape, h.regs⟩

theorem Kept.ite {c : Prop} [Decidable c] {a b : State} (ha : Kept k s0 a) (hb : Kept k s0 b) : Kept k s0 (if c then a else b) := by
  split
  · exact ha
  · exact hb

theorem Kept.foldl {α : Type} {f : State → α → State} {l : List α} (h : Kept k s0 s) (hf : ∀ s x, Kept k s0 s → Kept k s0 (f s x)) :
    Kept k s0 (l.foldl f s) :=
  List.foldlRecOn l f h fun s hs x _ => hf s x hs

/-! The parts of the state. -/

theorem Kept.modGang {n f} (h : Kept k s0 s) : Kept k s0 (s.modGang n f) := h.fields
theorem Kept.modRegion {n f} (h : Kept k s0 s) : Kept k s0 (s.modRegion n f) := h.fields
theorem Kept.modCache {f} (h : Kept k s0 s) : Kept k s0 (s.modCache f) := h.fields
theorem Kept.modXl {f} (h : Kept k s0 s) : Kept k s0 (s.modXl f) := h.fields
theorem Kept.modPkg {f} (h : Kept k s0 s) : Kept k s0 (s.modPkg f) := h.fields

theorem Kept.modCore {d c f} (h : Kept k s0 s) : Kept k s0 (s.modCore d c f) := by
  unfold State.modCore
  exact .ite h.fields h.fields

/-- Memory may become another of canonical form. -/
theorem Kept.setMem {m} (h : Kept k s0 s) (hm : Memory.wf s.mem = true → Memory.wf m = true) : Kept k s0 { s with mem := m } :=
  ⟨fun o => ⟨hm (h.mem o).1, (h.mem o).2⟩, h.fixed, h.shape, h.regs⟩

/-- A member of a list in which one place was changed is that of the list, changed or not. -/
theorem mem_modify_cases {α : Type} {l : List α} {n : Nat} {f : α → α} {y : α} (h : y ∈ l.modify n f) : ∃ x ∈ l, y = x ∨ y = f x := by
  obtain ⟨i, hi, rfl⟩ := List.mem_iff_getElem.mp h
  rw [List.getElem_modify]
  refine ⟨l[i]'(by simpa using hi), List.getElem_mem _, ?_⟩
  split
  · exact .inr rfl
  · exact .inl rfl

/-- Teams may change where their scratchpads keep the canonical form. -/
theorem Kept.setTeams {l} (h : Kept k s0 s) (hl : (∀ t ∈ s.teams, Memory.wf t.spad = true) → ∀ t ∈ l, Memory.wf t.spad = true) :
    Kept k s0 { s with teams := l } :=
  ⟨fun o => ⟨(h.mem o).1, hl (h.mem o).2.1, (h.mem o).2.2⟩, h.fixed, h.shape, h.regs⟩

theorem Kept.modTeam {n f} (h : Kept k s0 s)
    (hf : ∀ t : Team, Memory.wf t.spad = true → Memory.wf (f t).spad = true := by intro _ h; exact h) : Kept k s0 (s.modTeam n f) := by
  refine h.setTeams fun o t ht => ?_
  obtain ⟨x, hx, rfl | rfl⟩ := mem_modify_cases ht
  · exact o _ hx
  · exact hf x (o x hx)

/-- Dies may change where there are as many as before and their landing buffers keep the canonical form. -/
theorem Kept.setDies {l} (h : Kept k s0 s) (hn : l.length = s.dies.length)
    (hl : (∀ d ∈ s.dies, Memory.wf d.landing = true) → ∀ d ∈ l, Memory.wf d.landing = true) : Kept k s0 { s with dies := l } :=
  ⟨fun o => ⟨(h.mem o).1, (h.mem o).2.1, hl (h.mem o).2.2⟩, h.fixed, fun o => ⟨hn.trans (h.shape o).1, (h.shape o).2⟩, h.regs⟩

theorem Kept.modDie {n f} (h : Kept k s0 s)
    (hf : ∀ d : Die, Memory.wf d.landing = true → Memory.wf (f d).landing = true := by intro _ h; exact h) : Kept k s0 (s.modDie n f) := by
  refine h.setDies (List.length_modify ..) fun o d hd => ?_
  obtain ⟨x, hx, rfl | rfl⟩ := mem_modify_cases hd
  · exact o _ hx
  · exact hf x (o x hx)

theorem Kept.mapDies {f} (h : Kept k s0 s)
    (hf : ∀ d : Die, Memory.wf d.landing = true → Memory.wf (f d).landing = true := by intro _ h; exact h) :
    Kept k s0 { s with dies := s.dies.map f } := by
  refine h.setDies (List.length_map ..) fun o d hd => ?_
  obtain ⟨x, hx, rfl⟩ := List.mem_map.mp hd
  exact hf x (o x hx)

/-- Queues may change where there are as many as before. -/
theorem Kept.setQueues {l} (h : Kept k s0 s) (hn : l.length = s.queues.length) : Kept k s0 { s with queues := l } :=
  ⟨h.mem, h.fixed, fun o => ⟨(h.shape o).1, hn.trans (h.shape o).2.1, (h.shape o).2.2⟩, h.regs⟩

theorem Kept.modQueue {n f} (h : Kept k s0 s) : Kept k s0 (s.modQueue n f) := h.setQueues (List.length_modify ..)

/-- Contexts may change where there are as many as before. -/
theorem Kept.setCtxs {l} (h : Kept k s0 s) (hn : l.length = s.ctxs.length) : Kept k s0 { s with ctxs := l } :=
  ⟨h.mem, h.fixed, fun o => ⟨(h.shape o).1, (h.shape o).2.1, hn.trans (h.shape o).2.2.1, (h.shape o).2.2.2⟩, h.regs⟩

theorem Kept.modCtx {n f} (h : Kept k s0 s) : Kept k s0 (s.modCtx n f) := h.setCtxs (List.length_modify ..)

/-- Grids may change where each is in one of the contexts. -/
theorem Kept.setGrids {l} (h : Kept k s0 s) (hl : s.shapeOk → ∀ g ∈ l, g.ctx < 256) : Kept k s0 { s with grids := l } :=
  ⟨h.mem, h.fixed, fun o => ⟨(h.shape o).1, (h.shape o).2.1, (h.shape o).2.2.1, hl (h.shape o)⟩, h.regs⟩

theorem Kept.modGrid {n f} (h : Kept k s0 s) (hf : ∀ g : Grid, (f g).ctx = g.ctx := by intro _; rfl) : Kept k s0 (s.modGrid n f) := by
  refine h.setGrids fun o g hg => ?_
  obtain ⟨x, hx, rfl | rfl⟩ := mem_modify_cases hg
  · exact o.2.2.2 _ hx
  · exact hf x ▸ o.2.2.2 x hx

/-! Warps. -/

/-- A warp with the registers of another has its fixed registers. -/
theorem Warp.fixedOk_of_regsButFmt {x y : Warp} (h : y.regsButFmt = x.regsButFmt) (hx : x.fixedOk) : y.fixedOk := by
  simp only [Warp.regsButFmt, Prod.mk.injEq] at h
  obtain ⟨-, hs, hk, -⟩ := h
  unfold Warp.fixedOk
  rwa [hs, hk]

/-- Warps may change as `k` allows, each in its place, where their fixed registers are kept; warps that have theirs may be added. -/
theorem Kept.setWarps {l} (h : Kept k s0 s) (hl : (∀ x ∈ s.warps, x.fixedOk) → ∀ x ∈ l, x.fixedOk)
    (hr : ∀ w x, k w ≠ .any → s.warps[w]? = some x →
      ∃ y, l[w]? = some y ∧ y.regsButFmt = x.regsButFmt ∧ (k w = .all → y.fmt = x.fmt)) :
    Kept k s0 { s with warps := l } :=
  h.trans ⟨id, hl, id, hr⟩

/-- Warps may change each in its place and keep their registers. -/
theorem Kept.mapIdxWarps {f} (h : Kept k s0 s) (hf : ∀ n x, (f n x : Warp).regs = x.regs) : Kept k s0 { s with warps := s.warps.mapIdx f } := by
  have hb : ∀ n x, (f n x).regsButFmt = x.regsButFmt ∧ (f n x).fmt = x.fmt := fun n x => by
    have := hf n x
    simp only [Warp.regs, Prod.mk.injEq] at this
    simp [Warp.regsButFmt, this]
  refine h.setWarps (fun o y hy => ?_) fun w x _ hx => ⟨f w x, by simp [hx], (hb w x).1, fun _ => (hb w x).2⟩
  obtain ⟨i, hi, rfl⟩ := List.mem_mapIdx.mp hy
  exact Warp.fixedOk_of_regsButFmt (hb i _).1 (o _ (List.getElem_mem _))

/-- One warp changes, as `k` allows. -/
theorem Kept.modWarpAs {w f} (h : Kept k s0 s) (hx : ∀ x, x.fixedOk → (f x : Warp).fixedOk)
    (hr : k w ≠ .any → ∀ x, (f x).regsButFmt = x.regsButFmt ∧ (k w = .all → (f x).fmt = x.fmt)) : Kept k s0 (s.modWarp w f) := by
  refine h.setWarps (fun o y hy => ?_) fun n x hn hx => ?_
  · obtain ⟨x, hm, rfl | rfl⟩ := mem_modify_cases hy
    · exact o _ hm
    · exact hx x (o x hm)
  · rw [List.getElem?_modify]
    by_cases e : w = n
    · subst e
      exact ⟨f x, by simp [hx], hr hn x⟩
    · exact ⟨x, by simp [hx, e], rfl, fun _ => rfl⟩

theorem Kept.modWarp {w f} (h : Kept k s0 s) (hf : ∀ x, (f x : Warp).regs = x.regs := by intro _; rfl) : Kept k s0 (s.modWarp w f) := by
  have hb : ∀ x, (f x).regsButFmt = x.regsButFmt ∧ (f x).fmt = x.fmt := fun x => by
    have := hf x
    simp only [Warp.regs, Prod.mk.injEq] at this
    simp [Warp.regsButFmt, this]
  exact h.modWarpAs (fun x => Warp.fixedOk_of_regsButFmt (hb x).1) fun _ x => ⟨(hb x).1, fun _ => (hb x).2⟩

theorem Kept.modBlk {w f} (h : Kept k s0 s) : Kept k s0 (s.modBlk w f) := h.modWarp

end
end Sys2Proof.Machine
end

section
/-! What each function of the model keeps (`Kept`, `KeptOut`): one lemma per function, in the model's order. -/

namespace Sys2Proof.Machine
section
-- One declaration at a time: elaborated at once, these lemmas need more memory than the check gives.
set_option Elab.async false
variable {k : Nat → Hold} {s0 s t : State}

theorem Warp.fixedOk_of_eq {x y : Warp} (hs : y.s = x.s) (hk : y.k = x.k) (h : x.fixedOk) : y.fixedOk := by
  unfold Warp.fixedOk
  rwa [hs, hk]

/-! Outcomes that may be missing. -/

theorem Kept.getD {o : Option State} (h : Kept k s0 s) (ho : ∀ t, o = some t → Kept k s0 t) : Kept k s0 (o.getD s) := by
  cases o with
  | none => exact h
  | some t => exact ho t rfl

theorem Kept.foldlBind {α : Type} {f : State → α → Option State} {l : List α} (h : Kept k s0 s)
    (hf : ∀ s x t, Kept k s0 s → f s x = some t → Kept k s0 t) (e : l.foldl (fun o x => o.bind fun s => f s x) (some s) = some t) :
    Kept k s0 t := by
  induction l generalizing s with
  | nil => exact Option.some.inj e ▸ h
  | cons x r ih =>
    rw [List.foldl_cons, Option.bind_some] at e
    cases hx : f s x with
    | none =>
      rw [hx] at e
      have hn : ∀ l : List α, l.foldl (fun o x => o.bind fun s => f s x) none = none := fun l => by
        induction l with
        | nil => rfl
        | cons _ _ ih => exact ih
      cases (hn r).symm.trans e
    | some u =>
      rw [hx] at e
      exact ih (hf s x u h hx) e

theorem State.reset_shapeOk : State.reset.shapeOk :=
  ⟨List.length_replicate, List.length_replicate, List.length_replicate, fun _ h => absurd h List.not_mem_nil⟩

theorem State.reset_landing_wf : ∀ d ∈ State.reset.dies, Memory.wf d.landing = true := fun d hd => by
  obtain ⟨-, rfl⟩ := List.mem_replicate.mp hd
  rfl

theorem Kept.countCore {die core src ctx n} (h : Kept k s0 s) : Kept k s0 (State.countCore s die core src ctx n) := by
  unfold State.countCore
  exact .ite h h.modCore

theorem Kept.countDie {die src ctx n} (h : Kept k s0 s) : Kept k s0 (State.countDie s die src ctx n) := by
  unfold State.countDie
  exact .ite h.modPkg (.ite h h.modDie)

theorem Kept.countW {w src n} (h : Kept k s0 s) : Kept k s0 (State.countW s w src n) := by
  unfold State.countW
  exact .ite h h.countCore

/-! Faults, delivery and firing. -/

theorem Kept.freeSeat {w} (h : Kept k s0 s) : Kept k s0 (State.freeSeat s w) := by
  unfold State.freeSeat
  exact .ite h h.modWarp

theorem Kept.releasePush {w p} (h : Kept k s0 s) : Kept k s0 (State.releasePush s w p) := by
  unfold State.releasePush
  split
  · exact h.modTeam
  · exact h.modCtx
  · exact h.modQueue

theorem Kept.abortBlock {w} (h : Kept k s0 s) : Kept k s0 (State.abortBlock s w) := by
  unfold State.abortBlock
  dsimp only
  split
  · exact h
  · exact (h.foldl (fun _ _ h => h.releasePush)).fields.modCache.countW.modWarp

theorem Kept.postRec {ctx f} (h : Kept k s0 s) : Kept k s0 (State.postRec s ctx f) := by
  unfold State.postRec
  exact h.modCtx

theorem Kept.fault {w f} (h : Kept k s0 s) : Kept k s0 (State.fault s w f) := by
  unfold State.fault
  exact h.abortBlock.freeSeat.modWarp.postRec

theorem Kept.faultAt {w idx code detail} (h : Kept k s0 s) : Kept k s0 (State.faultAt s w idx code detail) := by
  unfold State.faultAt
  exact h.fault

theorem Kept.stamp {w idx} (h : Kept k s0 s) : Kept k s0 (State.stamp s w idx) := by
  unfold State.stamp
  exact h.modBlk

theorem Kept.deliver {w producer u v} (h : Kept k s0 s) : Kept k s0 (State.deliver s w producer u v) := by
  unfold State.deliver
  split
  · exact h
  · split
    · exact h
    · exact .ite h.faultAt h.modBlk
    · exact .ite h.faultAt h.modBlk

theorem Kept.deliver2 {w producer hd v0 v1} (h : Kept k s0 s) : Kept k s0 (State.deliver2 s w producer hd v0 v1) := by
  unfold State.deliver2
  exact h.deliver.deliver

theorem Kept.hazard {w idx code aux} (h : Kept k s0 s) : Kept k s0 (State.hazard s w idx code aux) := by
  unfold State.hazard
  exact h.fault

theorem Kept.markFired (h : Kept k s0 s) : Kept k s0 (State.markFired s) := by
  unfold State.markFired
  exact h.modBlk

/-- An instruction that the step issues acts where it has been noted as fired. -/
theorem Kept.issueFired {i gate onNull onFire} (h : Kept k s0 s) (hn : Kept k s0 (onNull s.markFired))
    (hf : ∀ b x, Kept k s0 (onFire b x s.markFired)) : Kept k s0 (State.issue s i gate onNull onFire) := by
  unfold State.issue
  split
  · split
    · exact h
    · exact h.modBlk
    · exact hn
    · exact .ite (hf _ _) h
  · exact h

theorem Kept.issue {i gate onNull onFire} (h : Kept k s0 s) (hn : ∀ s, Kept k s0 s → Kept k s0 (onNull s))
    (hf : ∀ b x s, Kept k s0 s → Kept k s0 (onFire b x s)) : Kept k s0 (State.issue s i gate onNull onFire) :=
  h.issueFired (hn _ h.markFired) fun _ _ => hf _ _ _ h.markFired

theorem Kept.deliverNull {i} (h : Kept k s0 s) : Kept k s0 (State.deliverNull s i) := by
  unfold State.deliverNull
  exact h.deliver2

theorem Kept.execValue {i lane f} (h : Kept k s0 s) : KeptOut k s0 (execValue i lane f s) := by
  unfold Machine.execValue
  exact KeptOut.next (h.issue (fun _ h => h.deliverNull) (fun _ _ _ h => h.countW.deliver2))

theorem Kept.execS {i f} (h : Kept k s0 s) : KeptOut k s0 (execS i f s) := by
  unfold Machine.execS
  exact h.execValue

theorem Kept.execK {i f} (h : Kept k s0 s) : KeptOut k s0 (execK i f s) := by
  unfold Machine.execK
  exact h.execValue

theorem Kept.execV {i f} (h : Kept k s0 s) : KeptOut k s0 (execV i f s) := by
  unfold Machine.execV
  exact h.execValue

theorem Kept.execQuiet {i onFire} (h : Kept k s0 s) (honFire : ∀ a0 a1 s, Kept k s0 s → Kept k s0 (onFire a0 a1 s)) :
    KeptOut k s0 (execQuiet i onFire s) := by
  unfold Machine.execQuiet
  exact KeptOut.next (h.issue (fun _ h => h) (fun _ _ _ h => honFire _ _ _ h))

/-- What an activity makes of the state comes from it where its outcome does. -/
theorem Kept.acted {f : State → Out} (h : KeptOut k s0 (f s)) (e : s.acted f = some t) : Kept k s0 t := by
  unfold State.acted at e
  split at e
  next u hu =>
    split at e
    · cases e
    · exact Option.some.inj e ▸ h u hu
  · cases e

/-! Homes, translation and the checks on a global access. -/

theorem Kept.tlbUse {home space va} (h : Kept k s0 s) : Kept k s0 (State.tlbUse s home space va) := by
  unfold State.tlbUse
  split
  · exact h.modXl
  · exact h

theorem Kept.tlbAdd {e} (h : Kept k s0 s) : Kept k s0 (State.tlbAdd s e) := by
  unfold State.tlbAdd
  exact h.modXl

theorem Kept.askWalk {home space va} (h : Kept k s0 s) : Kept k s0 (State.askWalk s home space va) := by
  unfold State.askWalk
  exact h.modXl

theorem Kept.pageFault {w f at_} (h : Kept k s0 s) : Kept k s0 (State.pageFault s w f at_) := by
  unfold State.pageFault
  dsimp only
  split
  · exact h.fault
  · split
    · exact h
    · split
      · exact .ite h.fault.modXl.modCtx h.fault.modXl
      · exact h.fault.modXl

theorem Kept.checkFault {w idx perLane acc c l} (h : Kept k s0 s) : Kept k s0 (State.checkFault s w idx perLane acc c l) := by
  unfold State.checkFault
  exact .ite h.pageFault h.fault

/-! The caches. -/

theorem Kept.writeHome {space line l} (h : Kept k s0 s) : Kept k s0 (State.writeHome s space line l) := by
  unfold State.writeHome
  split
  · exact h
  · exact h.modCache.foldl fun _ _ h => (h.setMem (Memory.wf_setW32 _ _ _)).fields

theorem Kept.homeRead {space line row} (h : Kept k s0 s) : Kept k s0 (State.homeRead s space line row).2 := by
  unfold State.homeRead
  dsimp only
  split
  · split
    · exact h
    · dsimp only
      exact h.modCache
  · exact h

theorem Kept.l1Drop {die core space line} (h : Kept k s0 s) : Kept k s0 (State.l1Drop s die core space line) := by
  unfold State.l1Drop
  exact h.modCache

theorem Kept.dcSet {x} (h : Kept k s0 s) : Kept k s0 (State.dcSet s x) := by
  unfold State.dcSet
  exact h.modCache

theorem Kept.dcDrop {die space line} (h : Kept k s0 s) : Kept k s0 (State.dcDrop s die space line) := by
  unfold State.dcDrop
  exact h.modCache

theorem Kept.modDieWarps {die f} (h : Kept k s0 s) (hf : ∀ x, (f x : Warp).regs = x.regs := by intro _; rfl) :
    Kept k s0 (State.modDieWarps s die f) := by
  refine h.mapIdxWarps fun w x => ?_
  split
  · exact hf x
  · rfl

theorem Kept.wrapDie {die} (h : Kept k s0 s) : Kept k s0 (State.wrapDie s die) := by
  unfold State.wrapDie
  exact h.modCache.fields.modDieWarps.modDie.countDie

theorem Kept.setPts {die core pts} (h : Kept k s0 s) : Kept k s0 (State.setPts s die core pts) := by
  unfold State.setPts
  exact h.modCore.modCache

theorem Kept.ptsUp {die core wts} (h : Kept k s0 s) : Kept k s0 (State.ptsUp s die core wts) := by
  unfold State.ptsUp
  exact h.setPts

theorem Kept.startWrap {die} (h : Kept k s0 s) : Kept k s0 (State.startWrap s die) := by
  unfold State.startWrap
  exact h.modDie

theorem Kept.recall {die space line} (h : Kept k s0 s) : Kept k s0 (State.recall s die space line) := by
  unfold State.recall
  dsimp only
  split
  · exact h
  · exact .ite h h.l1Drop.dcSet.modDie

theorem Kept.l1Evict {x} (h : Kept k s0 s) : Kept k s0 (State.l1Evict s x) := by
  unfold State.l1Evict
  exact .ite h.recall h.l1Drop

theorem Kept.l1Use {die core line way} (h : Kept k s0 s) : Kept k s0 (State.l1Use s die core line way) := by
  unfold State.l1Use
  exact h.modCore

theorem Kept.l1Put {x} (h : Kept k s0 s) : Kept k s0 (State.l1Put s x) := by
  unfold State.l1Put
  dsimp only
  refine .l1Use (.modCache ?_)
  split
  · exact h.l1Drop.l1Evict
  · exact h.l1Drop

theorem Kept.dropThrough {die core} (h : Kept k s0 s) : Kept k s0 (State.dropThrough s die core) := by
  unfold State.dropThrough
  exact h.modCache

theorem Kept.dropCopies {die core} (h : Kept k s0 s) : Kept k s0 (State.dropCopies s die core) := by
  unfold State.dropCopies
  exact h.modCache

theorem Kept.clockAcquire {die core} (h : Kept k s0 s) : Kept k s0 (State.clockAcquire s die core) := by
  unfold State.clockAcquire
  exact h.setPts.modDie

theorem Kept.acquire {w sc} (h : Kept k s0 s) : Kept k s0 (State.acquire s w sc) := by
  unfold State.acquire
  exact h.modWarp

theorem Kept.payAcquire {w} (h : Kept k s0 s) : Kept k s0 (State.payAcquire s w) := by
  unfold State.payAcquire
  dsimp only
  split
  · exact h
  · exact .ite ((Kept.ite h.modWarp.dropThrough h.modWarp).clockAcquire) (.ite h.modWarp.dropThrough h.modWarp)

theorem Kept.send {m} (h : Kept k s0 s) : Kept k s0 (State.send s m) := by
  unfold State.send
  exact h.modCache

theorem Kept.dcEvict {x} (h : Kept k s0 s) : Kept k s0 (State.dcEvict s x) := by
  unfold State.dcEvict
  exact .ite h.recall.dcDrop (.ite h.recall.dcDrop.send.modCache h.recall.dcDrop.send)

theorem Kept.dcPut {x} (h : Kept k s0 s) : Kept k s0 (State.dcPut s x) := by
  unfold State.dcPut
  dsimp only
  refine .modCache ?_
  split
  · split
    · exact h.dcDrop.dcEvict
    · exact h.dcDrop
  · exact h.dcDrop

theorem Kept.dirSet {home space line e} (h : Kept k s0 s) : Kept k s0 (State.dirSet s home space line e) := by
  unfold State.dirSet
  exact h.modCache

theorem Kept.topOut {die} (h : Kept k s0 s) : Kept k s0 (State.topOut s die) := by
  unfold State.topOut
  exact h.modCache.startWrap

theorem Kept.freshen {die space line} (h : Kept k s0 s) : Kept k s0 (State.freshen s die space line) := by
  unfold State.freshen
  dsimp only
  split
  · exact h
  · split
    · exact h
    · split
      · exact .ite h.recall.topOut h.recall
      · exact (Kept.ite h.recall.topOut h.recall).dcSet.modDie

theorem Kept.pokeWord {space line i v p} (h : Kept k s0 s) : Kept k s0 (State.pokeWord s space line i v p) := by
  unfold State.pokeWord
  exact h.modCache.writeHome

theorem Kept.pokeBytes {space bytes} (h : Kept k s0 s) : Kept k s0 (State.pokeBytes s space bytes) := by
  unfold State.pokeBytes
  exact (h.foldl (fun _ _ h => h.foldl (fun _ _ h1 => h1.freshen))).foldl (fun _ _ h => h.pokeWord)

theorem Kept.pokeCtx {ctx va l} (h : Kept k s0 s) : Kept k s0 (State.pokeCtx s ctx va l) := by
  unfold State.pokeCtx
  exact h.foldl (fun _ _ h => h.pokeBytes)

theorem Kept.cleanLine {space line} (h : Kept k s0 s) : Kept k s0 (State.cleanLine s space line) := by
  unfold State.cleanLine
  exact h.writeHome.modCache

theorem Kept.flushLine {space line} (h : Kept k s0 s) : Kept k s0 (State.flushLine s space line) := by
  unfold State.flushLine
  exact h.cleanLine.modCache

theorem Kept.purgeSpace {space} (h : Kept k s0 s) : Kept k s0 (State.purgeSpace s space) := by
  unfold State.purgeSpace
  exact h.mapDies.modCache

theorem Kept.flashWeights {ctx} (h : Kept k s0 s) : Kept k s0 (State.flashWeights s ctx) := by
  unfold State.flashWeights
  exact h.modCache

/-! Group 1. -/

theorem Kept.fireBranch {b sel} (h : Kept k s0 s) : Kept k s0 (State.fireBranch s b sel) := by
  unfold State.fireBranch
  split
  · exact h.faultAt
  · exact h.modBlk

theorem Kept.defer {f} (h : Kept k s0 s) : Kept k s0 (State.defer s f) := by
  unfold State.defer
  exact h.modBlk

theorem Kept.fireTrap {b num payload} (h : Kept k s0 s) : Kept k s0 (State.fireTrap s b num payload) := by
  unfold State.fireTrap
  exact .ite h.faultAt h.defer

theorem Kept.modCounter {c f} (h : Kept k s0 s) : Kept k s0 (State.modCounter s c f) := by
  unfold State.modCounter
  split
  · exact h.modTeam
  · exact h.modCtx
  · exact h.modQueue

/-! Group 6, global memory. -/

theorem Kept.unmark (h : Kept k s0 s) : Kept k s0 (State.unmark s) := by
  unfold State.unmark
  exact h.modBlk

theorem Kept.tlbUses {l} (h : Kept k s0 s) : Kept k s0 (State.tlbUses s l) := by
  unfold State.tlbUses
  exact h.foldl (fun _ _ h => by
      split
      · exact h.tlbUse
      · exact h)

theorem Kept.granted {perLane acc l go} (h : Kept k s0 s) (hgo : ∀ a0 s, Kept k s0 s → Kept k s0 (go a0 s)) :
    Kept k s0 (State.granted s perLane acc l go) := by
  unfold State.granted
  exact .ite ((Kept.ite h.fields h).checkFault) (hgo _ _ ((Kept.ite h.fields h).tlbUses))

theorem Kept.access {perLane acc rqt width lanes go} (h : Kept k s0 s) (hgo : ∀ a0 s, Kept k s0 s → Kept k s0 (go a0 s)) :
    Kept k s0 (State.access s perLane acc rqt width lanes go) := by
  unfold State.access
  dsimp only
  split
  · exact .ite h.checkFault (h.unmark.foldl (fun _ _ h => h.askWalk))
  · exact .ite (h.granted (fun _ _ h => hgo _ _ h)) (h.unmark.foldl (fun _ _ h => h.askWalk))

theorem Kept.addReqs {l} (h : Kept k s0 s) : Kept k s0 (State.addReqs s l) := by
  unfold State.addReqs
  exact h.modCache

theorem Kept.ackReq {d} (h : Kept k s0 s) : Kept k s0 (State.ackReq s d) := by
  unfold State.ackReq
  exact h.modCache.ptsUp

theorem Kept.ackCore {die core} (h : Kept k s0 s) : Kept k s0 (State.ackCore s die core) := by
  unfold State.ackCore
  exact h.foldl fun _ _ h => h.ackReq

theorem Kept.gotWords {w idx space line ws words} (h : Kept k s0 s) : Kept k s0 (State.gotWords s w idx space line ws words) := by
  unfold State.gotWords
  exact h.modBlk

theorem Kept.l1Hit {x} (h : Kept k s0 s) : Kept k s0 (State.l1Hit s x) := by
  unfold State.l1Hit
  dsimp only
  split
  · exact .ite h.l1Use.modCore (.ite h.l1Use.modCore.startWrap h.l1Use.modCore.setPts)
  · exact h.l1Use

theorem Kept.readLine {w idx space line ws rqt ord scope} (h : Kept k s0 s) : Kept k s0 (State.readLine s w idx space line ws rqt ord scope) := by
  unfold State.readLine
  dsimp only
  split
  · exact h.countW.gotWords.l1Hit
  · exact h.countW.addReqs

theorem Kept.askRemote {idx m va} (h : Kept k s0 s) : Kept k s0 (State.askRemote s idx m va) := by
  unfold State.askRemote
  exact h.fields

theorem Kept.startLoad {m kind width l} (h : Kept k s0 s) : Kept k s0 (State.startLoad s m kind width l) := by
  unfold State.startLoad
  dsimp only
  split
  · refine .addReqs ?_
    split
    · exact h.modBlk.askRemote
    · exact h.modBlk
  · refine .foldl ?_ (fun _ _ h => h.readLine)
    split
    · exact h.modBlk.askRemote
    · exact h.modBlk

theorem Kept.bufferStore {m kind} (h : Kept k s0 s) : Kept k s0 (State.bufferStore s m kind) := by
  unfold State.bufferStore
  exact h.modBlk

theorem Kept.countStore {go} (h : Kept k s0 s) (hgo : ∀ s, Kept k s0 s → Kept k s0 (go s)) : Kept k s0 (State.countStore s go) := by
  unfold State.countStore
  split
  · exact h
  · exact .ite h.faultAt (hgo _ h.modBlk)

theorem Kept.nullStore {i} (h : Kept k s0 s) : Kept k s0 (State.nullStore s i) := by
  unfold State.nullStore
  exact h.countStore (fun _ h => h.deliverNull)

theorem Kept.uncountStore (h : Kept k s0 s) : Kept k s0 (State.uncountStore s) := by
  unfold State.uncountStore
  exact h.modBlk

theorem Kept.execPrefetch {hd m die} (h : Kept k s0 s) : KeptOut k s0 (execPrefetch hd m die s) := by
  unfold Machine.execPrefetch
  dsimp only
  exact KeptOut.next (h.issue (fun _ h => h) (fun _ _ _ h => by
      split
      · exact h
      · split
        · exact .ite h (.ite h h.addReqs)
        · exact h))

theorem Kept.fireAtomic {b x m op acc returns} (h : Kept k s0 s) : Kept k s0 (State.fireAtomic s b x m op acc returns) := by
  unfold State.fireAtomic
  dsimp only
  split
  · exact h.fault
  · exact (h.access (fun _ _ h => .ite h.startLoad h.bufferStore)).uncountStore

theorem Kept.loadAcquires {w l far} (h : Kept k s0 s) : Kept k s0 (State.loadAcquires s w l far) := by
  unfold State.loadAcquires
  exact .ite (.ite h.dropThrough.clockAcquire h.dropThrough) h

theorem Kept.execLoadDataReturn {w idx} (h : Kept k s0 s) : KeptOut k s0 (execLoadDataReturn w idx s) := by
  unfold Machine.execLoadDataReturn
  dsimp only
  refine KeptOut.next ?_
  split
  · exact h
  · split
    · exact h
    · split
      · exact h
      · split
        · exact h.startWrap
        · split
          · exact h.fields.fault
          · split
            · exact h.fields.modBlk.loadAcquires.stamp.deliver2
            · exact h.fields.modBlk.loadAcquires

/-- A write to a team's scratchpad keeps its canonical form. -/
theorem Team.wf_put {x : Team} {e} (h : Memory.wf x.spad = true) : Memory.wf (x.put e).spad = true :=
  Memory.wf_setBytes _ _ h

/-! Group 6, scratchpad. -/

theorem Kept.spadPut {x e} (h : Kept k s0 s) : Kept k s0 (State.spadPut s x e) := by
  unfold State.spadPut
  have hp := h.modTeam (n := x) (f := fun y => y.put e) fun _ => Team.wf_put
  dsimp only
  split
  · exact hp
  · exact hp.fields

theorem Kept.spadDrain {u n part} (h : Kept k s0 s) : Kept k s0 (State.spadDrain s u n part) := by
  unfold State.spadDrain
  dsimp only
  split
  · exact h
  · exact .ite h h.spadPut.modTeam

theorem Kept.spadSend {u e} (h : Kept k s0 s) : Kept k s0 (State.spadSend s u e) := by
  unfold State.spadSend
  exact .ite h.spadPut h.modTeam

theorem Kept.spadNow {u w e} (h : Kept k s0 s) : Kept k s0 (State.spadNow s u w e) := by
  unfold State.spadNow
  exact h.spadPut.modTeam

theorem Kept.fireSpld {b x quad i m} (h : Kept k s0 s) : Kept k s0 (State.fireSpld s b x quad i m) := by
  unfold State.fireSpld
  dsimp only
  split
  · exact h.hazard
  · split
    · exact h.countW.fault
    · exact (Kept.ite h.countW.dropCopies h.countW).countW.deliver2

theorem Kept.fireSpst {b x quad m} (h : Kept k s0 s) : Kept k s0 (State.fireSpst s b x quad m) := by
  unfold State.fireSpst
  dsimp only
  split
  · exact h.hazard
  · exact h.countW.countW.modBlk

/-! Group 6, engines. -/

theorem Kept.execTlrd {hd form ctr} (h : Kept k s0 s) : KeptOut k s0 (execTlrd hd form ctr s) := by
  unfold Machine.execTlrd
  exact KeptOut.next (h.issue (fun _ h => h.deliverNull) (fun _ _ _ h => .ite h.faultAt ((Kept.ite h.defer h).deliver2)))

theorem Kept.reservePush {dst} (h : Kept k s0 s) (e : State.reservePush s dst = some t) : Kept k s0 t := by
  unfold State.reservePush at e
  dsimp only at e
  split at e <;> split at e <;> cases e
  · exact h.modTeam
  · exact h.modCtx
  · exact h.modQueue

theorem Kept.execPush {h grp q} (hs : Kept k s0 s) : KeptOut k s0 (Machine.execPush h grp q s) := by
  unfold Machine.execPush
  refine .next (hs.issue (fun _ h => h.deliverNull) fun b _ s h => ?_)
  extract_lets w dst foreign late
  refine .ite h.faultAt (.ite h.faultAt ?_)
  split
  · exact h.deliver2
  next e => exact (h.reservePush e).modBlk.deliver2

/-! Group 7, timed. -/

theorem Kept.breachIf {w b} (h : Kept k s0 s) : Kept k s0 (State.breachIf s w b) := by
  unfold State.breachIf
  exact .ite h.modWarp h

/-- A list whose head is kept by a write elsewhere. -/
theorem getD_zero_set_of_ne {l : List Word} {n : Nat} {v : Word} (h : n ≠ 0) : (l.set n v).getD 0 0 = l.getD 0 0 := by
  simp [List.getD, h]

/-- An unspecified value leaves `s0` and `k0` (R30). -/
theorem Warp.fixedOk_smearReg {x : Warp} (h : x.fixedOk) (r : PReg) (v : Word) : (x.smearReg r v).fixedOk := by
  obtain ⟨hs, hs0, hk, hk0⟩ := h
  cases r with
  | v => exact ⟨hs, hs0, hk, hk0⟩
  | s r =>
    unfold Warp.smearReg
    dsimp only
    split
    · exact ⟨hs, hs0, hk, hk0⟩
    next h => exact ⟨List.length_set.trans hs, (getD_zero_set_of_ne h).trans hs0, hk, hk0⟩
  | k r =>
    unfold Warp.smearReg
    dsimp only
    split
    · exact ⟨hs, hs0, hk, hk0⟩
    next h => exact ⟨hs, hs0, List.length_set.trans hk, (getD_zero_set_of_ne h).trans hk0⟩
  | x r =>
    unfold Warp.smearReg
    dsimp only
    split <;> exact ⟨hs, hs0, hk, hk0⟩
  | l win r =>
    unfold Warp.smearReg
    dsimp only
    split <;> exact ⟨hs, hs0, hk, hk0⟩

theorem Warp.fixedOk_smearPath {x : Warp} (h : x.fixedOk) (m : Smear) (v : Nat → Word) : (x.smearPath m v).fixedOk := by
  cases m <;> exact h

/-- Only the registers of a warp in breach take unspecified values. -/
theorem Kept.smear {w x} (h : Kept k s0 s) (hk : (s.warp w).breached = true → k w = .any) : Kept k s0 (State.smear s w x) := by
  unfold State.smear
  dsimp only
  split
  · exact h
  next hb =>
    have hw : k w = .any := by
      simp only [Bool.or_eq_true, Bool.not_eq_true', not_or, Bool.not_eq_false] at hb
      exact hk hb.1
    split
    · exact h.fields.modWarpAs (fun _ hx => Warp.fixedOk_smearReg hx _ _) fun hn => absurd hw hn
    · split
      · exact h.fields.spadPut
      · exact h.fields
    · split
      · exact h.fields.pokeCtx
      · exact h.fields
    · exact h.fields.modWarpAs (fun _ hx => Warp.fixedOk_smearPath hx _ _) fun hn => absurd hw hn

theorem Kept.execTsend {hd tick} (h : Kept k s0 s) : KeptOut k s0 (execTsend hd tick s) := by
  unfold Machine.execTsend
  dsimp only
  exact h.execQuiet (fun _ _ _ h => by
      split
      · exact h.faultAt
      · split
        · exact h.hazard
        · exact h.fields.breachIf)

theorem Kept.execTrecv {hd tick} (h : Kept k s0 s) : KeptOut k s0 (execTrecv hd tick s) := by
  unfold Machine.execTrecv
  dsimp only
  exact KeptOut.next (h.issue (fun _ h => h.deliverNull) (fun _ _ _ h => by
      split
      · exact h.hazard
      · exact .ite h.hazard (.ite h.faultAt h.modBlk.breachIf)))

theorem Kept.landingHazard {u cslot lslot} (h : Kept k s0 s) : Kept k s0 (State.landingHazard s u cslot lslot) := by
  unfold State.landingHazard
  exact .ite h.postRec h

theorem Kept.countChan {d ctx} (h : Kept k s0 s) : Kept k s0 (State.countChan s d ctx) := by
  unfold State.countChan
  exact h.modDie.countDie

theorem Kept.execTsendTransferStart {n} (h : Kept k s0 s) : KeptOut k s0 (execTsendTransferStart n s) := by
  unfold Machine.execTsendTransferStart
  dsimp only
  refine KeptOut.next ?_
  split
  · exact h
  · exact .ite h (.ite h.fields.faultAt (.ite h.fields.countChan.landingHazard h.fields))

theorem startRecv_regs (s : State) (die slot w : Nat) (x : Warp) : (startRecv s die slot w x).regs = x.regs := by
  unfold startRecv
  split <;> rfl

theorem Kept.execTransferLanded {n} (h : Kept k s0 s) : KeptOut k s0 (Machine.execTransferLanded n s) := by
  unfold Machine.execTransferLanded
  refine .next ?_
  split
  · exact h
  split
  · exact h
  next x _ _ =>
    have hd : Kept k s0 (if ((s.die x.die).full.contains x.slot) = true then
        (({ s with landings := s.landings.eraseIdx n } : State).countChan x.die (s.teamPlace x.team).ctx).landingHazard x.team x.cslot x.slot
      else { s with landings := s.landings.eraseIdx n }) := .ite h.fields.countChan.landingHazard h.fields
    exact Kept.mapIdxWarps (hd.modDie fun d hd => Memory.wf_setBytes _ _ hd) fun _ _ => startRecv_regs ..

theorem Kept.execTrecvCopyDone {w idx} (h : Kept k s0 s) : KeptOut k s0 (execTrecvCopyDone w idx s) := by
  unfold Machine.execTrecvCopyDone
  dsimp only
  refine KeptOut.next ?_
  split
  · exact h
  · split
    · exact h
    · split
      · exact h
      · split
        · exact h.fields.spadPut.modDie.fields.modBlk.stamp.deliver2
        · exact h.fields.spadPut.modDie.fields.modBlk

theorem Kept.execTrecvWindowMiss {w idx} (h : Kept k s0 s) : KeptOut k s0 (execTrecvWindowMiss w idx s) := by
  unfold Machine.execTrecvWindowMiss
  refine KeptOut.next ?_
  split
  · exact h
  · split
    · exact h
    · exact .ite h.faultAt h

/-! Group 7, system. -/

theorem Kept.cacheOp {va f} (h : Kept k s0 s) (hf : ∀ s a1 a2, Kept k s0 s → Kept k s0 (f s a1 a2)) : Kept k s0 (State.cacheOp s va f) := by
  unfold State.cacheOp
  exact h.access (fun _ _ h => by
      split
      · exact .ite h.unmark (hf _ _ _ h)
      · exact h)

theorem Kept.execCachectlWb {h} (hs : Kept k s0 s) : KeptOut k s0 (Machine.execCachectlWb h s) := by
  unfold Machine.execCachectlWb
  exact hs.execQuiet fun _ _ _ h => h.cacheOp fun _ _ _ h => h.cleanLine

theorem Kept.execCachectlWbinv {h} (hs : Kept k s0 s) : KeptOut k s0 (Machine.execCachectlWbinv h s) := by
  unfold Machine.execCachectlWbinv
  exact hs.execQuiet fun _ _ _ h => h.cacheOp fun _ _ _ h => h.flushLine

theorem Kept.execCachectlL1inv {hd} (h : Kept k s0 s) : KeptOut k s0 (execCachectlL1inv hd s) := by
  unfold Machine.execCachectlL1inv
  exact h.execQuiet (fun _ _ _ h => h.modCache)

theorem Kept.modPerf {w n f} (h : Kept k s0 s) : Kept k s0 (State.modPerf s w n f) := by
  unfold State.modPerf
  exact .ite h.modCore h.modDie

theorem Kept.perfNote {b n op go} (h : Kept k s0 s) (hgo : ∀ s, Kept k s0 s → Kept k s0 (go s)) : Kept k s0 (State.perfNote s b n op go) := by
  unfold State.perfNote
  exact .ite h.faultAt (hgo _ h.defer)

theorem Kept.execPerfctlRd {hd n} (h : Kept k s0 s) : KeptOut k s0 (execPerfctlRd hd n s) := by
  unfold Machine.execPerfctlRd
  exact KeptOut.next (h.issue (fun _ h => h.deliverNull) (fun _ _ _ h => h.perfNote (fun _ h1 => h1.deliver2)))

theorem Kept.perfSet {b n op} (h : Kept k s0 s) : Kept k s0 (State.perfSet s b n op) := by
  unfold State.perfSet
  exact .ite h.faultAt (h.perfNote (fun _ h => h))

/-! Divergence, calls and private memory. -/

theorem Kept.ownStore {w space va l} (h : Kept k s0 s) : Kept k s0 (State.ownStore s w space va l) := by
  unfold State.ownStore
  exact h.addReqs

theorem Kept.ownTake {w va n} (h : Kept k s0 s) : Kept k s0 (State.ownTake s w va n) := by
  unfold State.ownTake
  exact h.addReqs

theorem Kept.privWrite {w va l} (h : Kept k s0 s) (e : State.privWrite s w va l = .ok t) : Kept k s0 t := by
  unfold State.privWrite at e
  split at e <;> cases e
  exact h.ownStore

theorem Kept.pushEntry {w x} (h : Kept k s0 s) (hk : k w = .any) (e : State.pushEntry s w x = .ok t) : Kept k s0 t := by
  unfold State.pushEntry at e
  dsimp only at e
  split at e
  · cases e
    exact h.modWarp
  split at e
  · cases e
  split at e
  · cases e
  next hp =>
    cases e
    exact (h.privWrite hp).modWarpAs (fun _ hx => hx) fun hn => absurd hk hn

/-- What may change of a warp when `k` lets go of `fmt` at most. -/
theorem Warp.pathEnd_regsButFmt (x : Warp) (n : Nat) : (x.pathEnd n).regsButFmt = x.regsButFmt := by
  induction n generalizing x with
  | zero => rfl
  | succ n ih =>
    have hp : ∀ e r, (x.popped e r).regsButFmt = x.regsButFmt := fun e r => by
      unfold Warp.popped
      dsimp only
      split <;> rfl
    unfold Warp.pathEnd
    split
    · rfl
    split
    · split <;> rfl
    · dsimp only
      split
      · exact hp _ _
      · exact (ih _).trans (hp _ _)

theorem Kept.retireWarp {w} (h : Kept k s0 s) : Kept k s0 (State.retireWarp s w) := by
  unfold State.retireWarp
  exact h.modCtx.modWarp

/-- The end of a path restores `fmt` and no other register. -/
theorem Kept.finishPath {w} (h : Kept k s0 s) (hk : k w ≠ .all) : Kept k s0 (State.finishPath s w) := by
  have he : ∀ x : Warp, (({ x with refill := .none } : Warp).pathEnd maxDepth).regsButFmt = x.regsButFmt :=
    fun x => Warp.pathEnd_regsButFmt _ maxDepth
  have hw := h.modWarpAs (w := w) (fun x => Warp.fixedOk_of_regsButFmt (he x)) fun _ x => ⟨he x, fun e => absurd e hk⟩
  unfold State.finishPath
  exact .ite hw.retireWarp hw

theorem Kept.exitLanes {w} (h : Kept k s0 s) (hk : k w ≠ .all) : Kept k s0 (State.exitLanes s w) := by
  unfold State.exitLanes
  exact .ite h.modWarp.retireWarp (h.modWarp.finishPath hk)

theorem Kept.goTo {w idx b u} (h : Kept k s0 s) (hk : k w = .any) (e : State.goTo s w idx b = .ok u) : Kept k s0 u.st := by
  unfold State.goTo at e
  split at e
  · cases e
  · cases e
    exact h.modWarp.finishPath (by simp [hk])

theorem Kept.pushPaths {w fmt l} (h : Kept k s0 s) (hk : k w = .any) (e : State.pushPaths s w fmt l = .ok t) : Kept k s0 t := by
  induction l generalizing s with
  | nil =>
    cases e
    exact h
  | cons q r ih =>
    unfold State.pushPaths at e
    split at e
    · cases e
    next hp => exact ih (h.pushEntry hk hp) e

theorem Kept.branchLanes {w idx cls v join u} (h : Kept k s0 s) (hk : k w = .any) (e : State.branchLanes s w idx cls v join = .ok u) :
    Kept k s0 u.st := by
  unfold State.branchLanes at e
  dsimp only at e
  split at e
  · cases e
  split at e
  · exact h.goTo hk e
  split at e
  · cases e
  split at e
  · cases e
  next hp =>
    split at e
    · cases e
    next hq =>
      cases e
      exact ((h.pushEntry hk hp).pushPaths hk hq).modWarp.finishPath (by simp [hk])

theorem Kept.doCall {w idx b u} (h : Kept k s0 s) (hk : k w = .any) (e : State.doCall s w idx b = .ok u) : Kept k s0 u.st := by
  unfold State.doCall at e
  dsimp only at e
  split at e
  · cases e
  split at e
  · cases e
  split at e
  · cases e
  next hp => exact (h.privWrite hp).modWarp.goTo hk e

theorem Kept.doRet {w idx u} (h : Kept k s0 s) (hk : k w = .any) (e : State.doRet s w idx = .ok u) : Kept k s0 u.st := by
  unfold State.doRet at e
  dsimp only at e
  split at e
  · cases e
  split at e
  · split at e
    · cases e
    split at e
    · cases e
    · exact h.ownTake.modWarp.goTo hk e
  all_goals cases e

theorem Kept.doExit {w} (h : Kept k s0 s) (hk : k w = .any) : Kept k s0 (State.doExit s w).st := h.exitLanes (by simp [hk])

theorem State.modWarp_warp (s : State) (w : Nat) (f : Warp → Warp) : (s.modWarp w fun _ => f (s.warp w)) = s.modWarp w f := by
  unfold State.modWarp State.warp
  congr 1
  refine List.ext_getElem? fun i => ?_
  rw [List.getElem?_modify, List.getElem?_modify]
  by_cases hi : w = i
  · subst hi
    cases hx : s.warps[w]? <;> simp [List.getD, hx]
  · simp [hi]

theorem Kept.doEret {w idx u} (h : Kept k s0 s) (hk : k w = .any) (e : State.doEret s w idx = .ok u) : Kept k s0 u.st := by
  unfold State.doEret at e
  dsimp only at e
  rw [State.modWarp_warp s w trapReturn] at e
  split at e
  · cases e
  split at e
  · cases e
    exact h.modWarp.doExit hk
  · exact h.modWarp.goTo hk e

/-- What a branch does to the registers it does to those of its own warp. -/
theorem Kept.branch {w idx cls b u} (h : Kept k s0 s) (hk : k w = .any) (e : State.branch s w idx cls b = .ok u) : Kept k s0 u.st := by
  unfold State.branch at e
  split at e
  · exact h.goTo hk e
  · split at e
    · cases e
    · exact h.goTo hk e
  · exact h.branchLanes hk e
  · exact h.doCall hk e
  · exact h.doRet hk e
  · cases e
    exact h.doExit hk
  · exact h.doEret hk e

/-! The crew, barriers and parks. -/

theorem Kept.nowReady {w} (h : Kept k s0 s) : Kept k s0 (State.nowReady s w) := by
  unfold State.nowReady
  exact h.modWarp fun x => by split <;> rfl

theorem Kept.execSeatHandover {die core seat} (h : Kept k s0 s) : KeptOut k s0 (execSeatHandover die core seat s) := by
  unfold Machine.execSeatHandover
  dsimp only
  refine KeptOut.next ?_
  split
  · exact h
  · split
    · exact h
    · exact h.countW.modWarp

theorem Kept.execAccessHeldTimeout {w} (h : Kept k s0 s) : KeptOut k s0 (execAccessHeldTimeout w s) := by
  unfold Machine.execAccessHeldTimeout
  dsimp only
  refine KeptOut.next ?_
  split
  · exact h
  · exact .ite h.modWarp h

theorem Kept.execWarpAccessComplete {w} (h : Kept k s0 s) : KeptOut k s0 (execWarpAccessComplete w s) := by
  unfold Machine.execWarpAccessComplete
  dsimp only
  refine KeptOut.next ?_
  split
  · exact h
  · exact .ite h.modWarp.nowReady h

theorem Kept.leaveSeat {w} (h : Kept k s0 s) : Kept k s0 (State.leaveSeat s w) := by
  unfold State.leaveSeat
  exact .ite h.freeSeat.nowReady h

theorem Kept.execSeatTenureExpiry {w} (h : Kept k s0 s) : KeptOut k s0 (execSeatTenureExpiry w s) := by
  unfold Machine.execSeatTenureExpiry
  exact KeptOut.next (.ite h.leaveSeat h)

theorem Kept.arrive {w} (h : Kept k s0 s) : Kept k s0 (State.arrive s w) := by
  unfold State.arrive
  exact h.modWarp

theorem Kept.execBarrierComplete {scope unit id} (h : Kept k s0 s) : KeptOut k s0 (execBarrierComplete scope unit id s) := by
  unfold Machine.execBarrierComplete
  exact KeptOut.next (.ite h ((Kept.ite (h.foldl (fun _ _ h => h.ptsUp)) h).foldl (fun _ _ h => h.modWarp.acquire.nowReady)))

theorem Kept.acquireWaits {w l} (h : Kept k s0 s) : Kept k s0 (State.acquireWaits s w l) := by
  unfold State.acquireWaits
  exact (h.foldl (fun _ _ h => h.acquire)).modWarp

theorem Kept.execTlwaitResume {w} (h : Kept k s0 s) : KeptOut k s0 (execTlwaitResume w s) := by
  unfold Machine.execTlwaitResume
  exact KeptOut.next (.ite h h.modWarp.acquireWaits.nowReady)

theorem Kept.execStrokeBoundaryExit {w} (h : Kept k s0 s) : KeptOut k s0 (execStrokeBoundaryExit w s) := by
  unfold Machine.execStrokeBoundaryExit
  exact KeptOut.next (.ite h (h.foldl (fun _ _ h => h.modWarp.nowReady)))

/-! The fault queue and resolution. -/

theorem Kept.postHead {c} (h : Kept k s0 s) : Kept k s0 (State.postHead s c) := by
  unfold State.postHead
  dsimp only
  split
  · exact h
  · exact h.pokeCtx.pokeCtx.modCtx

theorem Kept.tryPost {c} (h : Kept k s0 s) : Kept k s0 (State.tryPost s c) := by
  unfold State.tryPost
  exact .ite h (.ite h.postHead h.modCtx)

theorem Kept.execFaultRecordPost (h : Kept k s0 s) : KeptOut k s0 (execFaultRecordPost s) := by
  unfold Machine.execFaultRecordPost
  refine KeptOut.next ?_
  split
  · exact h.tryPost
  · exact h

theorem Kept.execFaultQueueRecheck {ctx} (h : Kept k s0 s) : KeptOut k s0 (execFaultQueueRecheck ctx s) := by
  unfold Machine.execFaultQueueRecheck
  refine KeptOut.next ?_
  split
  · exact .ite h.tryPost h
  · exact h

theorem Kept.unpark {w} (h : Kept k s0 s) : Kept k s0 (State.unpark s w) := by
  unfold State.unpark
  exact .ite h.modWarp.nowReady h

theorem Kept.modJob {u seq f} (h : Kept k s0 s) : Kept k s0 (State.modJob s u seq f) := by
  unfold State.modJob
  exact h.modTeam

theorem Kept.resumeJob {j} (h : Kept k s0 s) : Kept k s0 (State.resumeJob s j) := by
  unfold State.resumeJob
  exact h.modJob

theorem Kept.modColl {ctx seq f} (h : Kept k s0 s) : Kept k s0 (State.modColl s ctx seq f) := by
  unfold State.modColl
  exact h.modCtx

theorem Kept.resumeRec {f} (h : Kept k s0 s) : Kept k s0 (State.resumeRec s f) := by
  unfold State.resumeRec
  dsimp only
  split
  · refine .modColl ?_
    split
    · exact h.resumeJob
    · exact h
  · split
    · exact h.resumeJob
    · exact h

theorem Kept.postPage {ctx va f page} (h : Kept k s0 s) : Kept k s0 (State.postPage s ctx va f page) := by
  unfold State.postPage
  dsimp only
  split
  · exact h.postRec
  · split
    · exact (Kept.ite h h.postRec).modXl
    · exact h.postRec.modXl

theorem Kept.releaseEntry {p} (h : Kept k s0 s) : Kept k s0 (State.releaseEntry s p) := by
  unfold State.releaseEntry
  exact (((h.foldl fun _ _ h => h.unpark).foldl fun _ _ h => h.resumeRec).setCtxs (List.length_map ..)).modXl

theorem Kept.freeEntry {f} (h : Kept k s0 s) : Kept k s0 (State.freeEntry s f) := by
  unfold State.freeEntry
  split
  · exact h.modXl
  · exact h

theorem Kept.stopRec {f} (h : Kept k s0 s) : Kept k s0 (State.stopRec s f) := by
  unfold State.stopRec
  dsimp only
  split
  · refine .modColl ?_
    split
    · exact h.modJob
    · exact h
  · split
    · exact h.modJob
    · exact h

theorem Kept.settle {f} (h : Kept k s0 s) : Kept k s0 (State.settle s f) := by
  unfold State.settle
  split
  · exact (h.foldl (fun _ _ h => h.resumeRec)).freeEntry
  · exact h

theorem Kept.retireOne {w} (h : Kept k s0 s) : Kept k s0 (State.retireOne s w) := by
  unfold State.retireOne
  exact .ite h.modWarp h.retireWarp

theorem Kept.act {f a b} (h : Kept k s0 s) : Kept k s0 (State.act s f a b).2 := by
  have hu : ∀ l : List Nat, ∀ s, Kept k s0 s → Kept k s0 (l.foldl (fun s w => s.unpark w) s) := fun _ _ h => h.foldl fun _ _ h => h.unpark
  unfold State.act
  dsimp only
  split
  · split
    · exact h
    · exact (hu _ _ h).resumeRec.settle
  · split
    · exact h
    · exact Kept.settle (h.foldl fun _ _ h => h.modWarp.unpark)
  · split
    · exact h
    · exact Kept.settle (h.foldl fun _ _ h => h.retireOne)
  · split
    · exact h
    · exact h.foldl fun _ _ h => h.modWarp.unpark
  · split
    · exact h
    · exact (hu _ _ h.stopRec).settle
  · exact h

theorem Kept.resolve {c v} (h : Kept k s0 s) : Kept k s0 (State.resolve s c v) := by
  unfold State.resolve
  extract_lets seq r s' a
  refine .ite h ?_
  have hr : Kept k s0 s' := by
    unfold s' r
    split
    · exact h
    split
    · exact h
    next f _ =>
      have ha := h.act (f := f) (a := fld v 0 8) (b := fld v 8 24)
      split
      next e =>
        rw [e] at ha
        exact ha.modCtx
      · exact ha
  exact .ite hr.pokeCtx hr

/-! Clocks, refresh and droop. -/

theorem Kept.degrade (h : Kept k s0 s) : Kept k s0 (State.degrade s) := by
  unfold State.degrade
  exact .ite h.modPkg h

theorem Kept.health {code socket addr} (h : Kept k s0 s) : Kept k s0 (State.health s code socket addr) := by
  unfold State.health
  exact h.modPkg.fields.postRec.degrade

theorem Die.landing_advance (d : Die) (n : Nat) : (d.advance n).landing = d.landing := by
  unfold Die.advance
  rfl

theorem Die.landing_tick (d : Die) (n : Nat) : (d.tick n).landing = d.landing := by
  unfold Die.tick
  split
  · rfl
  extract_lets e nearer
  have he : e.landing = d.landing := by
    unfold e
    split <;> rfl
  rw [← he]
  split
  · exact Die.landing_advance ..
  split <;> exact Die.landing_advance ..

theorem Die.landing_paced (d : Die) (a b : Bool) : (d.paced a b).landing = d.landing := rfl

theorem Die.landing_settle (d : Die) (n : Nat) : (d.settle n).landing = d.landing := by
  unfold Die.settle
  split <;> rfl

theorem Kept.tick (h : Kept k s0 s) : Kept k s0 (State.tick s) := by
  unfold State.tick
  refine .ite (Kept.fields (h.mapDies fun d hd => (congrArg (Memory.wf · = true) ?_).mpr hd)) h
  split
  · rfl
  · rw [Die.landing_settle]
    split
    · exact Die.landing_paced ..
    · exact (Die.landing_paced ..).trans (Die.landing_tick ..)

theorem Kept.dieClock {c y} (h : Kept k s0 s) (hy : y.landing = (s.die c).landing) : Kept k s0 (State.dieClock s c y) := by
  unfold State.dieClock
  refine .ite h (Kept.fields (h.setDies (List.length_set ..) fun o d hd => ?_))
  rcases List.mem_or_eq_of_mem_set hd with hd | rfl
  · exact o d hd
  · rw [Die.landing_paced, hy, State.die, List.getD_eq_getElem?_getD]
    cases hx : s.dies[c]? with
    | none => rfl
    | some d => exact o d (List.mem_of_getElem? hx)

theorem Kept.clock {c} (h : Kept k s0 s) : Kept k s0 (State.clock s c) := by
  unfold State.clock
  refine .ite h (.ite (.ite (Kept.fields (h.mapDies fun d hd => (congrArg (Memory.wf · = true) ?_).mpr hd)) h)
    (h.dieClock (Die.landing_tick ..)))
  split
  · rfl
  · exact (Die.landing_settle ..).trans (Die.landing_paced ..)

theorem Kept.steer {c up} (h : Kept k s0 s) : Kept k s0 (State.steer s c up) := by
  unfold State.steer
  exact .ite (h.dieClock (Die.landing_advance ..)) h

theorem Kept.execTickExchangeSend {die} (h : Kept k s0 s) : KeptOut k s0 (execTickExchangeSend die s) := by
  unfold Machine.execTickExchangeSend
  exact KeptOut.next (.ite h (.ite (.ite h h.fields) (.ite h h.fields.modDie)))

theorem Kept.execTickExchangeReceive {n} (h : Kept k s0 s) : KeptOut k s0 (execTickExchangeReceive n s) := by
  unfold Machine.execTickExchangeReceive
  refine KeptOut.next ?_
  split
  · exact h
  · extract_lets s1 d transit count new s2
    have h1 : Kept k s0 s1 := h.fields
    have h2 : Kept k s0 s2 := .ite h1 h1.modDie
    exact .ite h1 (.ite (.ite h2.modDie.health h2.modDie) h2)

theorem Kept.execTimelineLost {die} (h : Kept k s0 s) : KeptOut k s0 (execTimelineLost die s) := by
  unfold Machine.execTimelineLost
  exact KeptOut.next (.ite h.modDie.health h)

theorem Kept.execTimelineLostPersists {die} (h : Kept k s0 s) : KeptOut k s0 (execTimelineLostPersists die s) := by
  unfold Machine.execTimelineLostPersists
  refine KeptOut.next ?_
  split
  · exact .ite h.degrade h
  · exact h

theorem Kept.execRefresh {die} (h : Kept k s0 s) : KeptOut k s0 (execRefresh die s) := by
  unfold Machine.execRefresh
  exact KeptOut.next (.ite h.modDie.countDie h)

theorem Kept.askSteps {cap heat} (h : Kept k s0 s) : Kept k s0 (State.askSteps s cap heat) := by
  unfold State.askSteps
  exact h.modPkg

theorem Kept.execClockStepChange (h : Kept k s0 s) : KeptOut k s0 (execClockStepChange s) := by
  unfold Machine.execClockStepChange
  refine KeptOut.next ?_
  split
  · exact h
  · exact .ite h.modPkg h

/-! The driver's registers. -/

theorem Kept.writeLqctl {q v} (h : Kept k s0 s) : Kept k s0 (State.writeLqctl s q v) := by
  unfold State.writeLqctl
  exact h.modQueue

theorem Kept.writeLscfg {die v} (h : Kept k s0 s) : Kept k s0 (State.writeLscfg s die v) := by
  unfold State.writeLscfg
  refine h.modDie fun d hd => ?_
  dsimp only
  split <;> exact hd

theorem Kept.writeCtxWord {n v} (h : Kept k s0 s) : Kept k s0 (State.writeCtxWord s n v) := by
  unfold State.writeCtxWord
  exact h.modCtx

theorem Kept.sysWrite {r v} (h : Kept k s0 s) : Kept k s0 (State.sysWrite s r v) := by
  unfold State.sysWrite
  split
  · exact h.writeLqctl
  · exact h.writeLscfg
  · exact h.writeCtxWord
  · exact h.resolve

theorem Kept.execLqctlWrite {q v} (h : Kept k s0 s) : KeptOut k s0 (execLqctlWrite q v s) := by
  unfold Machine.execLqctlWrite
  exact KeptOut.next h.writeLqctl

theorem Kept.execLscfgWrite {die v} (h : Kept k s0 s) : KeptOut k s0 (execLscfgWrite die v s) := by
  unfold Machine.execLscfgWrite
  exact KeptOut.next h.writeLscfg

theorem Kept.execContextBlockWrite {word v} (h : Kept k s0 s) : KeptOut k s0 (execContextBlockWrite word v s) := by
  unfold Machine.execContextBlockWrite
  exact KeptOut.next h.writeCtxWord

theorem Kept.execSystemRegisterWrite {reg v} (h : Kept k s0 s) : KeptOut k s0 (execSystemRegisterWrite reg v s) := by
  unfold Machine.execSystemRegisterWrite
  exact KeptOut.next h.sysWrite

/-! Groups 2 and 3. -/

theorem Kept.execV2 {i f} (h : Kept k s0 s) : KeptOut k s0 (execV2 i f s) := by
  unfold Machine.execV2
  exact h.execValue

/-! Group 4. -/

theorem Kept.fireTrig {i turns isSin} (h : Kept k s0 s) : KeptOut k s0 (fireTrig i turns isSin s) := by
  unfold Machine.fireTrig
  exact KeptOut.next (h.issue (fun _ h => h.deliverNull) (fun _ _ _ h => (Kept.ite h.modBlk h).countW.deliver2))

/-! Group 5. -/

theorem Warp.fixedOk_putRegs {x : Warp} (h : x.fixedOk) (b : Nat) (l : List Vec) : (x.putRegs b l).fixedOk := h

theorem Warp.fixedOk_putLatch {x : Warp} (h : x.fixedOk) (win : Bool) (l : Vec) : (x.putLatch win l).fixedOk := by
  unfold Warp.putLatch
  dsimp only
  split <;> exact h

theorem Kept.postPoison (h : Kept k s0 s) : Kept k s0 (State.postPoison s) := by
  unfold State.postPoison
  exact h.postRec

/-- A lane-array tick acts for the issuing warp. -/
theorem Kept.laneStep {n j step} (h : Kept k s0 s) (hstep : ∀ a u, u.cur = s.cur → Kept k s0 u → Kept k s0 (step a u)) :
    Kept k s0 (State.laneStep s n j step) := by
  unfold State.laneStep
  exact hstep _ _ (State.countW_cur ..) h.countW.modBlk

theorem Kept.execSteps {i n hazard step} (h : Kept k s0 s)
    (hstep : ∀ b a j u, u.cur = s.cur → Kept k s0 u → Kept k s0 (step b a j u)) : KeptOut k s0 (Machine.execSteps i n hazard step s) := by
  unfold Machine.execSteps
  refine .next ?_
  split
  · exact .ite (h.laneStep fun _ _ => hstep _ _ _ _) h
  · refine h.issueFired h.markFired fun b x => ?_
    split
    · exact h.markFired.hazard
    · exact h.markFired.laneStep fun _ _ => hstep _ _ _ _

theorem Kept.execMatrix {i n onFire} (h : Kept k s0 s) (hf : ∀ b a u, u.cur = s.cur → Kept k s0 u → Kept k s0 (onFire b a u)) :
    KeptOut k s0 (Machine.execMatrix i n onFire s) := by
  unfold Machine.execMatrix
  exact h.execSteps fun _ _ _ _ hc h => .ite (hf _ _ _ hc h) h

/-- A matrix step may change any register but the fixed ones of the issuing warp. -/
theorem Kept.onWarp {f} (h : Kept k s0 s) (hx : ∀ x, x.fixedOk → (f x : Warp).fixedOk) (hk : k s.cur = .any) :
    Kept k s0 (State.onWarp s f) := by
  unfold State.onWarp
  exact h.modWarpAs hx fun hn => absurd hk hn

theorem Kept.execMzero {h win tile} (hs : Kept k s0 s) (hk : k s.cur = .any) : KeptOut k s0 (Machine.execMzero h win tile s) := by
  unfold Machine.execMzero
  refine hs.execMatrix fun _ _ _ hc h => h.onWarp (fun x hx => ?_) (hc ▸ hk)
  dsimp only
  split
  · exact hx
  · exact Warp.fixedOk_putLatch (Warp.fixedOk_putRegs (Warp.fixedOk_putRegs hx _ _) _ _) _ _

theorem Kept.gridAct {x b base bytes bad C} (h : Kept k s0 s) (hk : k s.cur = .any) :
    Kept k s0 (State.gridAct s x b base bytes bad C) := by
  unfold State.gridAct
  extract_lets u v
  have hv : Kept k s0 v := h.countW.countW.fields
  have hc : k v.cur = .any := by simpa [v, u] using hk
  exact .ite (hv.onWarp (fun _ hx => Warp.fixedOk_putRegs hx _ _) hc).postPoison (hv.onWarp (fun _ hx => Warp.fixedOk_putRegs hx _ _) hc)

theorem Kept.execMma {h win steps} (hs : Kept k s0 s) (hk : k s.cur = .any) : KeptOut k s0 (Machine.execMma h win steps s) := by
  unfold Machine.execMma
  exact hs.execSteps fun _ _ _ _ hc h => h.gridAct (hc ▸ hk)

theorem Kept.execMmar {h steps s1} (hs : Kept k s0 s) (hk : k s.cur = .any) : KeptOut k s0 (Machine.execMmar h steps s1 s) := by
  unfold Machine.execMmar
  exact hs.execSteps fun _ _ _ _ hc h => h.gridAct (hc ▸ hk)

theorem Kept.execMmax {h win} (hs : Kept k s0 s) (hk : k s.cur = .any) : KeptOut k s0 (Machine.execMmax h win s) := by
  unfold Machine.execMmax
  refine hs.execMatrix fun _ _ _ hc h => ?_
  have put : ∀ b l, ∀ m : Warp → Vec, Kept k s0 (State.onWarp _ fun x => (x.putRegs b l).putLatch win (m x)) := fun b l m =>
    h.onWarp (fun _ hx => Warp.fixedOk_putLatch (Warp.fixedOk_putRegs hx _ _) _ _) (hc ▸ hk)
  exact .ite (put _ _ _).postPoison (put _ _ _)

theorem Kept.execMexp {h win} (hs : Kept k s0 s) (hk : k s.cur = .any) : KeptOut k s0 (Machine.execMexp h win s) := by
  unfold Machine.execMexp
  refine hs.execMatrix fun _ _ _ hc h => ?_
  have put : ∀ b l c m, Kept k s0 (State.onWarp _ fun x => (x.putRegs b l).putRegs c m) := fun b l c m =>
    h.onWarp (fun _ hx => Warp.fixedOk_putRegs (Warp.fixedOk_putRegs hx _ _) _ _) (hc ▸ hk)
  exact .ite (put _ _ _ _).postPoison (put _ _ _ _)

theorem Kept.execMrescale {h win} (hs : Kept k s0 s) (hk : k s.cur = .any) : KeptOut k s0 (Machine.execMrescale h win s) := by
  unfold Machine.execMrescale
  refine hs.execMatrix fun _ _ _ hc h => ?_
  have put : ∀ b l, Kept k s0 (State.onWarp _ fun x => x.putRegs b l) := fun b l =>
    h.onWarp (fun _ hx => Warp.fixedOk_putRegs hx _ _) (hc ▸ hk)
  exact .ite (put _ _).postPoison (put _ _)

theorem Kept.execMld {h win part} (hs : Kept k s0 s) (hk : k s.cur = .any) : KeptOut k s0 (Machine.execMld h win part s) := by
  unfold Machine.execMld
  refine hs.execSteps fun _ _ _ _ hc h => ?_
  have put : ∀ b l, Kept k s0 (State.onWarp _ fun x => x.putRegs b l) := fun b l =>
    h.onWarp (fun _ hx => Warp.fixedOk_putRegs hx _ _) (hc ▸ hk)
  exact .ite (put _ _).countW.fields.postPoison (put _ _).countW.fields

theorem Kept.execMst {h win part sfmt} (hs : Kept k s0 s) : KeptOut k s0 (Machine.execMst h win part sfmt s) := by
  unfold Machine.execMst
  exact hs.execSteps fun _ _ _ _ _ h => .ite h h.modBlk.countW

/-! The fetch of a block. -/

theorem Kept.startBlock {w m} (h : Kept k s0 s) : Kept k s0 (State.startBlock s w m) := by
  unfold State.startBlock
  dsimp only
  exact .ite h.countW.fault (h.modWarp.foldl (fun _ _ h => h.foldl (fun _ _ h1 => by
      split
      · exact h1.deliver
      · exact h1)))

/-- The registers change at the next fetch only where a path-end loop waits for a spilled group. -/
theorem Kept.refill {w go n} (h : Kept k s0 s) (hk : (s.warp w).refill ≠ .none → k w ≠ .all) (hgo : ∀ s, Kept k s0 s → Kept k s0 (go s)) :
    Kept k s0 (State.refill s w go n) := by
  induction n generalizing s with
  | zero => exact h
  | succ n ih =>
    have bad : ∀ q : BackFault, Kept k s0 (if q.1.code = 3 then s.pageFault w q.1 q.2 else s.fault w q.1) :=
      fun q => .ite h.pageFault h.fault
    unfold State.refill
    dsimp only
    split
    · exact hgo s h
    next hr =>
      have hw : k w ≠ .all := hk (by rw [hr]; exact Refill.noConfusion)
      split
      · exact bad _
      · exact .ite (h.modWarp.finishPath hw) (ih (h.modWarp.finishPath hw) fun _ => hw)
    next hr _ =>
      have hw : k w ≠ .all := hk hr
      split
      · exact bad _
      · exact .ite (hgo _ h.ownTake.modWarp) (.ite (h.ownTake.modWarp.finishPath hw) (ih (h.ownTake.modWarp.finishPath hw) fun _ => hw))

/-- A change of warps that leaves what they owe the next fetch of their stack. -/
theorem State.refill_modWarp {s : State} {w v : Nat} {f : Warp → Warp} (hf : ∀ x, (f x).refill = x.refill := by intro _; rfl) :
    ((s.modWarp w f).warp v).refill = (s.warp v).refill := by
  unfold State.warp
  rw [State.modWarp_warps, List.getD_eq_getElem?_getD, List.getD_eq_getElem?_getD, List.getElem?_modify]
  cases s.warps[v]? with
  | none => rfl
  | some x =>
    by_cases h : w = v
    · simp [h, hf]
    · simp [h]

theorem State.warp_of_warps {w} (h : t.warps = s.warps) : t.warp w = s.warp w := by
  unfold State.warp
  rw [h]

theorem State.warps_modCore (s : State) (d c : Nat) (f : Core → Core) : (s.modCore d c f).warps = s.warps := by
  unfold State.modCore
  split <;> rfl

theorem State.warps_ackCore (s : State) (d c : Nat) : (s.ackCore d c).warps = s.warps :=
  foldl_field (fun s => s.warps) State.ackReq (fun _ _ => State.warps_modCore ..) _ s

theorem State.refill_payAcquire (s : State) (w : Nat) : ((s.payAcquire w).warp w).refill = (s.warp w).refill := by
  unfold State.payAcquire
  split
  · rfl
  · extract_lets p u v
    have hv : v.warps = u.warps := by
      unfold v
      split <;> rfl
    have hu : (v.warp w).refill = (s.warp w).refill := (congrArg Warp.refill (State.warp_of_warps hv)).trans State.refill_modWarp
    split
    · exact (congrArg Warp.refill (State.warp_of_warps (State.warps_modCore ..))).trans hu
    · exact hu

/-- The acquires before a fetch leave what a warp owes of its stack. -/
theorem State.refill_acquires {w} (e : State.acquires s w = some t) : (t.warp w).refill = (s.warp w).refill := by
  unfold State.acquires at e
  extract_lets p u v at e
  have hu : (u.warp w).refill = (s.warp w).refill := by
    unfold u
    split
    · exact (State.refill_modWarp).trans ((State.refill_modWarp).trans (by split <;> rfl))
    · rfl
  have hv : (v.warp w).refill = (s.warp w).refill := (congrArg Warp.refill (State.warp_of_warps (State.warps_ackCore ..))).trans hu
  split at e
  · rw [← Option.some.inj e]
    exact hu
  split at e
  · rw [← Option.some.inj e]
    exact (State.refill_payAcquire v w).trans hv
  split at e
  · rw [← Option.some.inj e]
    exact (State.refill_modWarp).trans hv
  · cases e

theorem Kept.acquires {w} (h : Kept k s0 s) (e : State.acquires s w = some t) : Kept k s0 t := by
  unfold State.acquires at e
  extract_lets p u v at e
  have hu : Kept k s0 u := by
    unfold u
    split
    · exact (Kept.acquire (.ite h.dropCopies h)).modWarp
    · exact h
  split at e
  · rw [← Option.some.inj e]
    exact hu
  split at e
  · rw [← Option.some.inj e]
    exact hu.ackCore.payAcquire
  split at e
  · rw [← Option.some.inj e]
    exact hu.ackCore.dropCopies.modWarp.startWrap
  · cases e

theorem Kept.execBlockFetch {w} (h : Kept k s0 s) (hk : (s.warp w).refill ≠ .none → k w ≠ .all) :
    KeptOut k s0 (Machine.execBlockFetch w s) := by
  unfold Machine.execBlockFetch
  refine .next (.ite h ?_)
  split
  · exact h.startWrap
  next u e =>
    have hu := h.acquires e
    refine .ite hu.modWarp.fault (hu.refill (State.refill_acquires e ▸ hk) fun s h => ?_)
    split
    · exact .ite h.pageFault h.fault
    · split
      · exact h.fields.fault
      · exact h.startBlock

/-! Issue in a timed launch. -/

theorem Kept.focus {w b kx} (h : Kept k s0 s) : Kept k s0 (State.focus s w b kx) := by
  unfold State.focus
  exact .ite h.fields.modCore h.fields

/-! Placement. -/

theorem Kept.setPrimary {die core ctx} (h : Kept k s0 s) : Kept k s0 (State.setPrimary s die core ctx) := by
  unfold State.setPrimary
  exact h.modCore

theorem Kept.addTeam {g i ctx die core l slots} (h : Kept k s0 s) : Kept k s0 (State.addTeam s g i ctx die core l slots) := by
  unfold State.addTeam
  extract_lets n now team warp s1
  have ht : Kept k s0 { s with teams := s.teams ++ [team] } := h.setTeams fun o x hx => by
    rcases List.mem_append.mp hx with hx | hx
    · exact o x hx
    · rw [List.mem_singleton.mp hx]
      rfl
  have hw : Kept k s0 s1 := ht.setWarps (fun o x hx => by
      rcases List.mem_append.mp hx with hx | hx
      · exact o x hx
      · obtain ⟨j, -, rfl⟩ := List.mem_map.mp hx
        exact ⟨rfl, rfl, rfl, rfl⟩)
    fun w x _ hx => ⟨x, (List.getElem?_append_left (List.getElem?_eq_some_iff.mp hx).1).trans hx, rfl, fun _ => rfl⟩
  exact hw.setPrimary

theorem Kept.takeSlots {ctx n l} (h : Kept k s0 s) (e : State.takeSlots s ctx n = some (l, t)) : Kept k s0 t := by
  unfold State.takeSlots at e
  dsimp only at e
  split at e <;> cases e
  exact h.modCtx

theorem Kept.placeGang {r i ctx die l} (h : Kept k s0 s) (e : State.placeGang s r i ctx die l = some t) : Kept k s0 t := by
  unfold State.placeGang at e
  split at e
  · cases e
  split at e
  · cases e
  next hs =>
    cases e
    exact Kept.foldl (h.takeSlots hs).fields fun _ _ h => h.addTeam

theorem Kept.placeOn {g i die} (h : Kept k s0 s) (e : State.placeOn s g i die = some t) : Kept k s0 t :=
  Kept.foldlBind (h.fields.modGrid) (fun _ _ _ h => h.placeGang) e

theorem Kept.placeRegion {g i} (h : Kept k s0 s) (e : State.placeRegion s g i = some t) : Kept k s0 t := by
  obtain ⟨_, _, hd⟩ := List.exists_of_findSome?_eq_some e
  exact h.placeOn hd

theorem Kept.placeNext {g} (h : Kept k s0 s) (e : State.placeNext s g = some t) : Kept k s0 t := by
  unfold State.placeNext at e
  dsimp only at e
  split at e
  · exact h.foldlBind (fun _ _ _ h => h.placeRegion) e
  · exact h.placeRegion e

theorem Kept.newGrid {q e l} (h : Kept k s0 s) : Kept k s0 (State.newGrid s q e l) := by
  unfold State.newGrid
  refine h.setGrids fun o g hg => ?_
  rcases List.mem_append.mp hg with hg | hg
  · exact o.2.2.2 g hg
  · rw [List.mem_singleton.mp hg]
    exact Nat.mod_lt _ (by decide)

theorem Kept.enterQueue {q cmd parent push} (h : Kept k s0 s) : Kept k s0 (State.enterQueue s q cmd parent push) := by
  unfold State.enterQueue
  exact h.modQueue.fields

/-! The end of a block. -/

/-- A write slot leaves `s0` and `k0` (R30). -/
theorem Warp.fixedOk_writeReg {x : Warp} (h : x.fixedOk) (live : Word) (r : Nat × Nat) (v : Token) : (x.writeReg live r v).fixedOk := by
  obtain ⟨hs, hs0, hk, hk0⟩ := h
  unfold Warp.writeReg
  split
  · exact ⟨hs, hs0, hk, hk0⟩
  split
  · exact ⟨hs, hs0, hk, hk0⟩
  · split
    · exact ⟨hs, hs0, hk, hk0⟩
    next hr => exact ⟨List.length_set.trans hs, (getD_zero_set_of_ne hr).trans hs0, hk, hk0⟩
  · split
    · exact ⟨hs, hs0, hk, hk0⟩
    next hr => exact ⟨hs, hs0, List.length_set.trans hk, (getD_zero_set_of_ne hr).trans hk0⟩
  · exact ⟨hs, hs0, hk, hk0⟩

theorem Warp.fixedOk_writeSlots {x : Warp} (h : x.fixedOk) (b : Blk) : (x.writeSlots b).fixedOk := by
  refine List.foldlRecOn _ _ h fun y hy n _ => ?_
  split
  · exact Warp.fixedOk_writeReg hy _ _ _
  · exact hy

theorem Warp.fixedOk_commitRegs {x : Warp} (h : x.fixedOk) (b : Blk) : (x.commitRegs b).fixedOk := by
  unfold Warp.commitRegs
  extract_lets d y fmt wst wst' gone y1 y2
  have h1 : y1.fixedOk := Warp.fixedOk_writeSlots h b
  have h2 : y2.fixedOk := by
    unfold y2
    split
    · dsimp only
      split <;> exact h1
    · exact h1
  split
  · split <;> exact h2
  · exact h2

theorem Kept.commitSpad {w b} (h : Kept k s0 s) : Kept k s0 (State.commitSpad s w b) := by
  unfold State.commitSpad
  exact h.foldl (fun _ _ h => h.foldl (fun _ _ h1 => .ite h1.spadNow h1.spadSend))

theorem Kept.remoteStores {w b} (h : Kept k s0 s) : Kept k s0 (State.remoteStores s w b) := by
  unfold State.remoteStores
  exact h.fields

theorem Kept.commitStores {w b} (h : Kept k s0 s) : Kept k s0 (State.commitStores s w b) := by
  unfold State.commitStores
  exact h.remoteStores.addReqs

theorem Kept.sendPush {w fence p} (h : Kept k s0 s) : Kept k s0 (State.sendPush s w fence p) := by
  unfold State.sendPush
  dsimp only
  split
  · exact h.modTeam
  · exact h.modCtx.modGrid
  · exact h.modQueue.enterQueue.modGrid

theorem Kept.sendPushes {w b} (h : Kept k s0 s) : Kept k s0 (State.sendPushes s w b) := by
  unfold State.sendPushes
  exact h.foldl (fun _ _ h => h.sendPush)

theorem Kept.preload {w n x} (h : Kept k s0 s) : Kept k s0 (State.preload s w n x) := by
  unfold State.preload
  split
  · refine .ite h (h.modTeam fun y hy => ?_)
    dsimp only
    split <;> exact hy
  · exact h

/-- The commit of a `stroke` leaves the scalar and mask registers. -/
theorem strokeCommit_scalars (l : LaunchRec) (c now : Nat) (slip : Bool) (x : Warp) :
    (strokeCommit l c now slip x).s = x.s ∧ (strokeCommit l c now slip x).k = x.k := by
  unfold strokeCommit
  extract_lets len nb park y z
  split
  · exact ⟨rfl, rfl⟩
  split
  · exact ⟨rfl, rfl⟩
  split <;> exact ⟨rfl, rfl⟩

theorem Kept.parkOn {w bars waits} (h : Kept k s0 s) : Kept k s0 (State.parkOn s w bars waits) := by
  unfold State.parkOn
  exact .ite (.ite h h.modWarp) (.ite ((Kept.ite h h.modWarp).acquireWaits) ((Kept.ite h h.modWarp).modWarp))

theorem Kept.seatAfter {w yield} (h : Kept k s0 s) : Kept k s0 (State.seatAfter s w yield) := by
  unfold State.seatAfter
  exact .ite h (.ite h.freeSeat (.ite h.leaveSeat h))

theorem Kept.noHandler {w num idx} (h : Kept k s0 s) : Kept k s0 (State.noHandler s w num idx) := by
  unfold State.noHandler
  exact h.freeSeat.modWarp.postRec

theorem Kept.commitEffects {w b} (h : Kept k s0 s) : Kept k s0 (State.commitEffects s w b) := by
  unfold State.commitEffects
  extract_lets d s1 sent s2 s3 s4 s5 s6
  have h3 : Kept k s0 s3 := h.commitSpad.commitStores.sendPushes.fields.foldl fun _ _ h => h.modCounter
  have h4 : Kept k s0 s4 := h3.foldl fun _ _ h => h.sysWrite
  have h5 : Kept k s0 s5 := h4.foldl fun _ _ h => h.modPerf
  have h6 : Kept k s0 s6 := h5.foldl fun _ _ h => h.acquire
  split
  · exact h6.modWarp
  · exact h6

theorem Kept.finishCommit {u w b uniform trap} (h : Kept k s0 u) (hk : k w = .any) :
    Kept k s0 (State.finishCommit s u w b uniform trap) := by
  unfold State.finishCommit
  extract_lets old d p now u1 u2 isExit isEret bar next u3 bars waits u4 u5 u6 u7
  have h2 : Kept k s0 u2 := h.commitEffects.countW.modWarp
  have h3 : Kept k s0 u3 := .ite h2.preload h2
  have h4 : Kept k s0 u4 := by
    refine .ite h3 ?_
    split
    · exact h3.modWarp
    · exact h3.parkOn
  have h5 : Kept k s0 u5 := .ite h4.fields h4
  have h6 : Kept k s0 u6 := by
    unfold u6
    split
    · exact .ite h5 (h5.modWarpAs (fun x => Warp.fixedOk_of_eq (strokeCommit_scalars ..).1 (strokeCommit_scalars ..).2) fun hn => absurd hk hn)
    · exact h5
  have h7 : Kept k s0 u7 := by
    unfold u7
    split
    · exact .ite h6 h6.noHandler
    · exact h6
  exact h7.seatAfter

/-- At the commit of its block any register of a warp may change. -/
theorem Kept.commit {w b} (h : Kept k s0 s) (hk : k w = .any) : Kept k s0 (State.commit s w b) := by
  have h1 : Kept k s0 (s.modWarp w fun x => x.commitRegs b) := h.modWarpAs (fun _ hx => Warp.fixedOk_commitRegs hx b) fun hn => absurd hk hn
  unfold State.commit
  extract_lets taken s1 succ flaws
  have hsucc : ∀ u, succ = .ok u → Kept k s0 u.st := fun u e => by
    unfold succ at e
    split at e
    · cases e
      exact h1
    split at e
    · cases e
      exact h1
    · exact h1.branch hk e
  split
  · exact h.fault
  next u _ e => exact (hsucc u e).finishCommit hk
  · exact h.fault

theorem Kept.execBlockCommit {w} (h : Kept k s0 s) (hk : k w = .any) : KeptOut k s0 (Machine.execBlockCommit w s) := by
  unfold Machine.execBlockCommit
  refine .next ?_
  split
  · exact h
  · exact .ite (h.commit hk) h

theorem Kept.execBlockQuiescent {w} (h : Kept k s0 s) : KeptOut k s0 (execBlockQuiescent w s) := by
  unfold Machine.execBlockQuiescent
  refine KeptOut.next ?_
  split
  · exact h
  · exact .ite h.faultAt h

/-! The save area. -/

theorem Kept.writeRecords {ctx ts} (h : Kept k s0 s) : Kept k s0 (State.writeRecords s ctx ts) := by
  unfold State.writeRecords
  exact (h.foldl (fun _ _ h => h.pokeCtx)).foldl (fun _ _ h => h.pokeWord)

theorem Kept.readMarks {w} (h : Kept k s0 s) : Kept k s0 (State.readMarks s w) := by
  unfold State.readMarks
  exact .ite h h.modWarp

theorem Kept.readSpadMarks {u} (h : Kept k s0 s) : Kept k s0 (State.readSpadMarks s u) := by
  unfold State.readSpadMarks
  exact h.modTeam

/-! Launches. -/

theorem Kept.sweep (h : Kept k s0 s) : Kept k s0 (State.sweep s) := by
  unfold State.sweep
  exact h.fields

theorem Kept.endLaunch {q seq cause} (h : Kept k s0 s) : Kept k s0 (State.endLaunch s q seq cause) := by
  unfold State.endLaunch
  exact h.modQueue.sweep

theorem Kept.childEntered {e} (h : Kept k s0 s) : Kept k s0 (State.childEntered s e) := by
  unfold State.childEntered
  split
  · exact h.modGrid
  · exact h

theorem Kept.execLaunch {q} (h : Kept k s0 s) : KeptOut k s0 (execLaunch q s) := by
  unfold Machine.execLaunch
  dsimp only
  refine KeptOut.next ?_
  split
  · exact h
  · exact .ite h (.ite h.childEntered.endLaunch h.childEntered.modQueue)

theorem Kept.execSubmissionWindowWrite {q cmd} (h : Kept k s0 s) : KeptOut k s0 (execSubmissionWindowWrite q cmd s) := by
  unfold Machine.execSubmissionWindowWrite
  exact KeptOut.next (.ite h (.ite h.modQueue (.ite h h.enterQueue)))

theorem Kept.placeHead {q} (h : Kept k s0 s) (e : State.placeHead s q = some t) : Kept k s0 t := by
  unfold State.placeHead at e
  split at e
  · cases e
  next x l _ =>
    split at e
    · cases e
    extract_lets u g at e
    have hu : Kept k s0 u := by
      unfold u
      split
      · exact h
      · exact (Kept.ite h h.flashWeights).newGrid
    obtain ⟨y, hy, rfl⟩ := Option.map_eq_some_iff.mp e
    exact .ite (hu.placeNext hy).fields.modGrid (hu.placeNext hy).fields.modGrid.modQueue

theorem Kept.wake {w} (h : Kept k s0 s) : Kept k s0 (State.wake s w) := by
  unfold State.wake
  exact .ite h.retireWarp h.nowReady

theorem Kept.resumeGang {g} (h : Kept k s0 s) (e : State.resumeGang s g = some t) : Kept k s0 t := by
  obtain ⟨q, -, rfl⟩ := Option.map_eq_some_iff.mp e
  have h1 : Kept k s0 ((s.gangWarps g).foldl (fun s w => if (s.team (s.warp w).team).kept then s else s.readMarks w) s) :=
    h.foldl fun _ _ h => .ite h h.readMarks
  exact Kept.foldl (Kept.modGang (h1.foldl fun _ _ h => (Kept.ite h h.readSpadMarks).modTeam.modCore)) fun _ _ h => h.wake

theorem Kept.resume {g} (h : Kept k s0 s) (e : State.resume s g = some t) : Kept k s0 t := by
  unfold State.resume at e
  dsimp only at e
  split at e
  · split at e
    · exact h.foldlBind (fun _ _ _ h => h.resumeGang) e
    · cases e
  · exact h.resumeGang e

theorem Kept.noteEligible (h : Kept k s0 s) : Kept k s0 (State.noteEligible s) := by
  unfold State.noteEligible
  exact h.setQueues List.length_mapIdx

theorem Kept.execLaunchPlacement (h : Kept k s0 s) : KeptOut k s0 (Machine.execLaunchPlacement s) := by
  have h := h.noteEligible
  unfold Machine.execLaunchPlacement
  refine .next (.ite h ?_)
  split
  · split
    · exact h.endLaunch
    · exact h
  · split
    · exact h.getD fun _ => h.placeHead
    · exact h

theorem Kept.execEffectivePriorityRise {q} (h : Kept k s0 s) : KeptOut k s0 (execEffectivePriorityRise q s) := by
  unfold Machine.execEffectivePriorityRise
  refine KeptOut.next ?_
  split
  · exact .ite h.modQueue h
  · exact h

theorem Kept.startRegion {b0 len r} (h : Kept k s0 s) : Kept k s0 (State.startRegion s b0 len r) := by
  unfold State.startRegion
  exact (h.modDie fun _ _ => rfl).modRegion.foldl fun _ _ h => h.modWarp

theorem Kept.execTimedLaunchStart {g} (h : Kept k s0 s) : KeptOut k s0 (execTimedLaunchStart g s) := by
  unfold Machine.execTimedLaunchStart
  dsimp only
  refine KeptOut.next ?_
  split
  · exact h
  · exact (h.foldl (fun _ _ h => h.startRegion)).modGrid

theorem Kept.tidyCore {die core} (h : Kept k s0 s) : Kept k s0 (State.tidyCore s die core) := by
  unfold State.tidyCore
  exact h.modCore

theorem Kept.execTeamComplete {u} (h : Kept k s0 s) : KeptOut k s0 (execTeamComplete u s) := by
  unfold Machine.execTeamComplete
  extract_lets x p s1 s2 s3
  have h1 : Kept k s0 s1 := h.modTeam
  have h2 : Kept k s0 s2 := .ite h1.modGang h1
  have h3 : Kept k s0 s3 := .ite h2.modRegion h2
  exact .next (.ite h (h3.foldl fun _ _ h => h.tidyCore))

theorem Kept.writeDone {g} (h : Kept k s0 s) : Kept k s0 (State.writeDone s g).2 := by
  unfold State.writeDone
  dsimp only
  split
  · exact h
  split
  · exact h.pokeCtx
  · exact h.fields
  · exact h

theorem Kept.execGridComplete {g} (h : Kept k s0 s) : KeptOut k s0 (execGridComplete g s) := by
  unfold Machine.execGridComplete
  exact KeptOut.next (.ite h h.modGrid.writeDone.endLaunch)

/-! Pre-emption. -/

theorem Kept.stopGangs {l head all} (h : Kept k s0 s) : Kept k s0 (State.stopGangs s l head all) := by
  unfold State.stopGangs
  exact h.foldl (fun _ _ h => h.modGang)

theorem Kept.execPreemptGang {g} (h : Kept k s0 s) : KeptOut k s0 (execPreemptGang g s) := by
  unfold Machine.execPreemptGang
  dsimp only
  refine KeptOut.next ?_
  split
  · exact h
  · refine .stopGangs ?_
    split
    · exact h.modQueue
    · exact h

theorem Kept.execPreemptBlockTimeout {w} (h : Kept k s0 s) : KeptOut k s0 (execPreemptBlockTimeout w s) := by
  unfold Machine.execPreemptBlockTimeout
  refine KeptOut.next ?_
  split
  · exact .ite h.abortBlock h
  · exact h

theorem Kept.leaveCores {g saved} (h : Kept k s0 s) : Kept k s0 (State.leaveCores s g saved) := by
  unfold State.leaveCores
  extract_lets die now all b s1 s2 s3
  have h1 : Kept k s0 s1 := h.foldl fun _ _ h => h.freeSeat
  have h3 : Kept k s0 s3 := Kept.foldl h1.modGang fun _ _ h => h.modTeam.modCore
  exact h3.foldl fun _ _ h => .ite h.tidyCore.modCore h.tidyCore

theorem Kept.execPreemptDrained {g} (h : Kept k s0 s) : KeptOut k s0 (execPreemptDrained g s) := by
  unfold Machine.execPreemptDrained
  dsimp only
  refine KeptOut.next ?_
  split
  · split
    · exact h
    · split
      · exact h.postRec
      · exact h
      · exact h.writeRecords.fields.leaveCores
  · exact h

theorem Kept.noteBound {g} (h : Kept k s0 s) : Kept k s0 (State.noteBound s g) := by
  unfold State.noteBound
  exact .ite h.modGang h

theorem Kept.execContextSwitch {die core} (h : Kept k s0 s) : KeptOut k s0 (execContextSwitch die core s) := by
  unfold Machine.execContextSwitch
  dsimp only
  refine KeptOut.next ?_
  split
  · exact .ite h.modCore h
  · exact h

theorem Kept.execGangResume {g} (h : Kept k s0 s) : KeptOut k s0 (Machine.execGangResume g s) := by
  unfold Machine.execGangResume
  exact .next (.ite h (h.getD fun _ => h.resume))

theorem Kept.reconsider {q} (h : Kept k s0 s) : Kept k s0 (State.reconsider s q) := by
  unfold State.reconsider
  extract_lets victim o
  have ho : KeptOut k s0 o := by
    unfold o
    split
    · exact h.execLaunchPlacement
    · generalize victim = v
      cases v with
      | none => exact .next h.modQueue
      | some g => exact h.execPreemptGang
  clear_value o
  cases o with
  | next u => exact ho u rfl
  | _ => exact h

/-! The copy engine. -/

theorem Kept.oweMiss {w} (h : Kept k s0 s) : Kept k s0 (State.oweMiss s w) := by
  unfold State.oweMiss
  dsimp only
  split
  · exact h.modWarp
  · exact h

theorem Kept.takeCopy {u} (h : Kept k s0 s) : Kept k s0 (State.takeCopy s u) := by
  unfold State.takeCopy
  dsimp only
  split
  · exact h
  · exact .ite h (.ite h.modTeam.oweMiss h.modTeam)

theorem Kept.issueCopy {u code} (h : Kept k s0 s) : Kept k s0 (State.issueCopy s u code) := by
  unfold State.issueCopy
  dsimp only
  split
  · exact h
  · exact .ite h h.takeCopy

theorem Kept.endCopy {u j cause} (h : Kept k s0 s) : Kept k s0 (State.endCopy s u j cause) := by
  unfold State.endCopy
  exact .ite ((Kept.ite h.modJob.modTeam h.modJob).oweMiss) (.ite h.modJob.modTeam h.modJob)

theorem Kept.pauseCopy {u j va wr page} (h : Kept k s0 s) : Kept k s0 (State.pauseCopy s u j va wr page) := by
  unfold State.pauseCopy
  exact .ite h h.postPage.modJob

theorem Kept.copyRecord {u seq detail aux} (h : Kept k s0 s) : Kept k s0 (State.copyRecord s u seq detail aux) := by
  unfold State.copyRecord
  exact .ite h.postRec h

theorem Kept.chunkHazards {u a j kx src dst} (h : Kept k s0 s) : Kept k s0 (State.chunkHazards s u a j kx src dst) := by
  unfold State.chunkHazards
  dsimp only
  split
  · refine .copyRecord ?_
    split
    · exact h.copyRecord
    · exact h
  · split
    · exact h.copyRecord
    · exact h

theorem Kept.chunkStop {n a j c src dst} (h : Kept k s0 s) (e : State.chunkStop s n a j c src dst = some t) : Kept k s0 t := by
  unfold State.chunkStop at e
  extract_lets ctx miss far stop poison at e
  have hstop : ∀ wr m, Kept k s0 (stop wr m) := fun wr m => by
    unfold stop
    split
    · exact .ite h.endCopy h.pauseCopy
    · exact .ite h.endCopy h.pauseCopy
    · exact h.endCopy
  split at e
  · exact Option.some.inj e ▸ h.endCopy
  split at e
  · exact Option.some.inj e ▸ hstop _ _
  · exact Option.some.inj e ▸ hstop _ _
  split at e
  · exact Option.some.inj e ▸ h.endCopy
  split at e
  · exact Option.some.inj e ▸ h.fields.endCopy
  · cases e

theorem Kept.chunkDone {u a j n} (h : Kept k s0 s) : Kept k s0 (State.chunkDone s u a j n) := by
  unfold State.chunkDone
  exact .ite h.modJob.endCopy h.modJob

theorem Kept.serveTeam {u} (h : Kept k s0 s) : Kept k s0 (State.serveTeam s u) := by
  unfold State.serveTeam
  exact h.modCore

theorem Kept.gotJob {u seq line ws words} (h : Kept k s0 s) : Kept k s0 (State.gotJob s u seq line ws words) := by
  unfold State.gotJob
  exact h.modJob

theorem Kept.askLine {u seq q ws} (h : Kept k s0 s) : Kept k s0 (State.askLine s u seq q ws) := by
  unfold State.askLine
  dsimp only
  split
  · exact h.gotJob.l1Use
  · exact h.addReqs

theorem Kept.askChunk {u a j kx src} (h : Kept k s0 s) : Kept k s0 (State.askChunk s u a j kx src) := by
  unfold State.askChunk
  exact h.fields.serveTeam.modJob.foldl (fun _ _ h => h.askLine)

theorem Kept.putChunk {u a j kx src dst} (h : Kept k s0 s) : Kept k s0 (State.putChunk s u a j kx src dst) := by
  unfold State.putChunk
  dsimp only
  split
  · exact h.endCopy
  · refine .chunkDone (.fields ?_)
    split
    · exact h.chunkHazards.addReqs
    · exact h.chunkHazards.fields.spadSend

theorem Kept.preloadLine {u a j} (h : Kept k s0 s) : Kept k s0 (State.preloadLine s u a j) := by
  unfold State.preloadLine
  dsimp only
  split
  · exact h.endCopy
  · exact h.endCopy
  · split
    · refine .endCopy ?_
      split
      · exact .ite h.serveTeam.modJob h.serveTeam.modJob.addReqs
      · exact h.serveTeam.modJob
    · split
      · exact .ite h.serveTeam.modJob h.serveTeam.modJob.addReqs
      · exact h.serveTeam.modJob

theorem Kept.copyStep {n a j src dst} (h : Kept k s0 s) : Kept k s0 (State.copyStep s n a j src dst) := by
  unfold State.copyStep
  exact .ite (.ite h (h.putChunk.getD fun _ => h.chunkStop)) (.ite (h.askChunk.getD fun _ => h.chunkStop) h)

theorem Kept.execCommandComplete {ctr seq} (h : Kept k s0 s) : KeptOut k s0 (execCommandComplete ctr seq s) := by
  unfold Machine.execCommandComplete
  dsimp only
  refine KeptOut.next ?_
  split
  · split
    · exact h
    · split
      · exact h
      · exact h.modCtx.modTeam
  · split
    · exact h
    · split
      · exact h
      · exact .ite h h.modCtx
  · exact h

/-! The collective engine. -/

theorem Kept.writeBuf {ctx j b o l} (h : Kept k s0 s) : Kept k s0 (State.writeBuf s ctx j b o l) := by
  unfold State.writeBuf
  split
  · exact h.spadSend
  · exact h.pokeCtx

theorem Kept.freeBytes {n} (h : Kept k s0 s) : Kept k s0 (State.freeBytes s n).2 := h.fields

theorem Kept.scramble {ctx j} (h : Kept k s0 s) : Kept k s0 (State.scramble s ctx j) := by
  unfold State.scramble
  dsimp only
  split
  · exact h.freeBytes.writeBuf
  · exact h

theorem Kept.abortMember {ctx gid gen cause} (h : Kept k s0 s) : Kept k s0 (State.abortMember s ctx gid gen cause) := by
  unfold State.abortMember
  exact (h.foldl (fun _ _ h => h.scramble)).modCtx

theorem Kept.abortGroup {ctx gid gen cause} (h : Kept k s0 s) : Kept k s0 (State.abortGroup s ctx gid gen cause) := by
  unfold State.abortGroup
  split
  · exact h
  · exact h.foldl (fun _ _ h => h.abortMember)

theorem Kept.strayPacket (h : Kept k s0 s) : Kept k s0 (State.strayPacket s) := by
  unfold State.strayPacket
  exact h.setCtxs (List.length_map ..)

theorem Kept.execCollectiveAbortReceived {gid gen cause} (h : Kept k s0 s) : KeptOut k s0 (execCollectiveAbortReceived gid gen cause s) := by
  unfold Machine.execCollectiveAbortReceived
  refine KeptOut.next ?_
  split
  · exact h.strayPacket
  · exact h.foldl (fun _ _ h => h.abortMember)

theorem Kept.execCollectiveTimeout {ctx seq} (h : Kept k s0 s) : KeptOut k s0 (execCollectiveTimeout ctx seq s) := by
  unfold Machine.execCollectiveTimeout
  dsimp only
  refine KeptOut.next ?_
  split
  · exact h
  · exact .ite h.abortGroup h

theorem Kept.contribute {ctx x} (h : Kept k s0 s) : Kept k s0 (State.contribute s ctx x) := by
  unfold State.contribute
  exact .ite h.abortGroup h.modCtx

theorem Kept.execCollectivePacketReceived {gid gen rank kx hdr count root data} (h : Kept k s0 s) :
    KeptOut k s0 (execCollectivePacketReceived gid gen rank kx hdr count root data s) := by
  unfold Machine.execCollectivePacketReceived
  dsimp only
  refine KeptOut.next ?_
  split
  · exact h.strayPacket
  · exact h.foldl (fun _ _ h => h.contribute)

theorem Kept.endColl {ctx j cause} (h : Kept k s0 s) : Kept k s0 (State.endColl s ctx j cause) := by
  unfold State.endColl
  exact h.modColl

theorem Kept.collStop {ctx j wr m} (h : Kept k s0 s) : Kept k s0 (State.collStop s ctx j wr m) := by
  unfold State.collStop
  dsimp only
  split
  · exact .ite h h.postPage.modColl
  · exact .ite h h.postPage.modColl
  · exact h.endColl

theorem Kept.sendColl {ctx j e l} (h : Kept k s0 s) : Kept k s0 (State.sendColl s ctx j e l) := by
  unfold State.sendColl
  exact h.modColl.foldl (fun _ _ h => h.contribute)

theorem Kept.loadColl {ctx j} (h : Kept k s0 s) : Kept k s0 (State.loadColl s ctx j) := by
  unfold State.loadColl
  dsimp only
  split
  · exact h.endColl
  · split
    · exact h.sendColl
    · split
      · exact h.endColl
      · split
        · exact h.endColl
        · split
          · exact h.collStop
          · exact .ite h (.ite h.fields.endColl h.fields.modColl)

theorem Kept.collDone {ctx j} (h : Kept k s0 s) : Kept k s0 (State.collDone s ctx j) := by
  unfold State.collDone
  exact h.endColl.modCtx

theorem Kept.performColl {ctx j e l} (h : Kept k s0 s) : Kept k s0 (State.performColl s ctx j e l) := by
  unfold State.performColl
  dsimp only
  split
  · exact h.collDone
  · split
    · exact h.endColl
    · split
      · exact h.endColl
      · split
        · exact h.collStop
        · exact .ite h (.ite h.fields.endColl h.freeBytes.fields.writeBuf.modColl)

theorem Kept.issueColl {ctx c} (h : Kept k s0 s) : Kept k s0 (State.issueColl s ctx c) := by
  unfold State.issueColl
  dsimp only
  split
  · exact h.modCtx.endColl
  · split
    · exact h.modCtx.scramble.endColl
    · exact .ite h.modCtx.endColl (.ite h.modCtx.abortGroup (.ite h.modCtx.loadColl h.modCtx.endColl))

theorem Kept.collStep {ctx code} (h : Kept k s0 s) : Kept k s0 (State.collStep s ctx code) := by
  unfold State.collStep
  dsimp only
  split
  · exact h
  · split
    · exact h.performColl
    · split
      · exact h.loadColl
      · split
        · exact h
        · split
          · exact h.issueColl
          · exact h

theorem Kept.execGroupDefine {ctx gid w0 w1} (h : Kept k s0 s) : KeptOut k s0 (execGroupDefine ctx gid w0 w1 s) := by
  unfold Machine.execGroupDefine
  dsimp only
  refine KeptOut.next ?_
  split
  · exact h
  · exact .ite h (.ite h.modCtx (.ite h h.pokeCtx.modCtx))

theorem Kept.execGroupEnd {ctx gid} (h : Kept k s0 s) : KeptOut k s0 (execGroupEnd ctx gid s) := by
  unfold Machine.execGroupEnd
  dsimp only
  refine KeptOut.next ?_
  split
  · exact h.pokeCtx.modCtx
  · exact h

theorem Kept.execGroupWashComplete {ctx gid} (h : Kept k s0 s) : KeptOut k s0 (execGroupWashComplete ctx gid s) := by
  unfold Machine.execGroupWashComplete
  dsimp only
  refine KeptOut.next ?_
  split
  · exact h
  · exact h.modCtx

/-! The L1s and the die cache. -/

theorem Kept.modReq {d f} (h : Kept k s0 s) : Kept k s0 (State.modReq s d f) := by
  unfold State.modReq
  exact h.modCache

theorem Kept.dropReq {d} (h : Kept k s0 s) : Kept k s0 (State.dropReq s d) := by
  unfold State.dropReq
  exact h.modCache

theorem Kept.capture {x} (h : Kept k s0 s) : Kept k s0 (State.capture s x) := by
  unfold State.capture
  dsimp only
  split
  · exact h
  · exact h.dcSet.modCache

theorem Kept.modL1 {die core space line f} (h : Kept k s0 s) : Kept k s0 (State.modL1 s die core space line f) := by
  unfold State.modL1
  exact h.modCache

theorem Kept.l1Fill {d x} (h : Kept k s0 s) : Kept k s0 (State.l1Fill s d x) := by
  unfold State.l1Fill
  dsimp only
  split
  · exact h
  · exact h.l1Put

theorem Kept.atomGot {w idx old} (h : Kept k s0 s) : Kept k s0 (State.atomGot s w idx old) := by
  unfold State.atomGot
  exact h.modBlk

theorem Kept.atomFault {w idx q} (h : Kept k s0 s) : Kept k s0 (State.atomFault s w idx q) := by
  unfold State.atomFault
  exact h.fault

theorem Kept.atomL1 {d returns l words} (h : Kept k s0 s) : Kept k s0 (State.atomL1 s d returns l words) := by
  unfold State.atomL1
  exact h.modL1

theorem Kept.reply {d idx ws words} (h : Kept k s0 s) : Kept k s0 (State.reply s d idx ws words) := by
  unfold State.reply
  dsimp only
  split
  · exact h.gotWords
  · exact h.gotJob
  · exact h

theorem Kept.serveAt {d x} (h : Kept k s0 s) : Kept k s0 (State.serveAt s d x) := by
  unfold State.serveAt
  dsimp only
  split
  · exact h.modDie.ackCore.dcSet.l1Fill.ptsUp.reply.dropReq
  · exact (Kept.ite h.modDie.ackCore.dcSet.l1Fill.ptsUp h.modDie.ackCore.dcSet).dropReq
  · exact (Kept.ite h.modDie.dcSet.l1Fill.modL1 h.modDie.dcSet.modL1).modReq
  · split
    · split
      · exact h.modDie.atomFault
      · exact h.modDie.ackCore.dcSet.atomL1.ptsUp.atomGot.dropReq
    · exact h.modDie.dcSet.atomL1.modReq

theorem Kept.toHome {d words} (h : Kept k s0 s) : Kept k s0 (State.toHome s d words) := by
  unfold State.toHome
  exact .ite h.cleanLine.flushLine.modCache.dirSet h.cleanLine.flushLine.modCache

theorem Kept.serveHome {d} (h : Kept k s0 s) : Kept k s0 (State.serveHome s d) := by
  unfold State.serveHome
  dsimp only
  split
  · split
    · exact h.startWrap
    · split
      · split
        · exact h.toHome.homeRead.atomFault
        · exact h.toHome.homeRead.ackCore.writeHome.atomL1.modDie.ptsUp.atomGot.dropReq
      · exact h.toHome.homeRead.writeHome.atomL1.modDie.modReq
  · exact h

theorem Kept.askHome {d hasS} (h : Kept k s0 s) : Kept k s0 (State.askHome s d hasS) := by
  unfold State.askHome
  exact h.send.modReq

theorem Kept.countReq {d row} (h : Kept k s0 s) : Kept k s0 (State.countReq s d row) := by
  unfold State.countReq
  exact .ite h h.countDie

theorem Kept.serve {d} (h : Kept k s0 s) : Kept k s0 (State.serve s d) := by
  unfold State.serve
  extract_lets home row e e' s1 d' go s2 far new
  have hgo : ∀ u x, Kept k s0 u → Kept k s0 (go u x) := fun u x hu => .ite hu.startWrap hu.serveAt
  have h1 : Kept k s0 s1 := h.countReq.modReq
  have h2 : Kept k s0 s2 := by
    refine .ite (Kept.l1Drop ?_) h1
    split
    · exact .ite h1.recall h1
    · exact h1
  refine .ite ?_ (.ite (.ite h2 h2.serveHome) ?_)
  · split
    · exact h2.serveAt
    · exact .ite h2 h2.homeRead.dcPut.serveAt
  · split
    · exact h2.askHome
    next x _ =>
      extract_lets s3 y got new'
      have h3 : Kept k s0 s3 := .ite h2.recall h2.capture
      exact .ite h3.askHome (.ite h3 (.ite (hgo _ _ h3) (.ite h3 (hgo _ _ h3.homeRead.dcSet))))

theorem Kept.execDieCacheRequest {n} (h : Kept k s0 s) : KeptOut k s0 (execDieCacheRequest n s) := by
  unfold Machine.execDieCacheRequest
  refine KeptOut.next ?_
  split
  · exact h
  · exact .ite h h.serve

theorem Kept.serveWaiting {l} (h : Kept k s0 s) : Kept k s0 (State.serveWaiting s l) := by
  induction l generalizing s with
  | nil => exact h
  | cons d r ih =>
    refine ih ?_
    split
    · exact .ite h h.serve
    · exact h

theorem Kept.execDieCacheFillArrival {n} (h : Kept k s0 s) : KeptOut k s0 (execDieCacheFillArrival n s) := by
  unfold Machine.execDieCacheFillArrival
  dsimp only
  refine KeptOut.next ?_
  split
  · exact h
  · split
    · exact h
    · split
      · exact h.startWrap
      · refine .serveWaiting ?_
        refine .fields (.modCache ?_)
        split
        · exact h.modCache.dcSet
        · exact h.modCache.dcPut.modDie

theorem Kept.execStoreAcknowledge {n} (h : Kept k s0 s) : KeptOut k s0 (execStoreAcknowledge n s) := by
  unfold Machine.execStoreAcknowledge
  dsimp only
  refine KeptOut.next ?_
  split
  · exact .ite h.ackReq h
  · split
    · exact .ite h h.fields
    · exact h

theorem Kept.execL1ClockAdvance {die core} (h : Kept k s0 s) : KeptOut k s0 (execL1ClockAdvance die core s) := by
  unfold Machine.execL1ClockAdvance
  exact KeptOut.next (.ite h (.ite h.startWrap h.modCore.setPts))

theorem Kept.execThroughLineExpiry {die core space line} (h : Kept k s0 s) : KeptOut k s0 (execThroughLineExpiry die core space line s) := by
  unfold Machine.execThroughLineExpiry
  refine KeptOut.next ?_
  split
  · split
    · exact .ite h.l1Drop h
    · exact h
  · exact h

theorem Kept.execLeaseWrapAround {die} (h : Kept k s0 s) : KeptOut k s0 (execLeaseWrapAround die s) := by
  unfold Machine.execLeaseWrapAround
  exact KeptOut.next (.ite h h.wrapDie)

theorem Kept.execPromoteRequest {n} (h : Kept k s0 s) : KeptOut k s0 (execPromoteRequest n s) := by
  unfold Machine.execPromoteRequest
  dsimp only
  refine KeptOut.next ?_
  split
  · exact h
  · split
    · split
      · exact h
      · split
        · exact h.foldl (fun _ _ h => h.capture)
        · exact (h.foldl (fun _ _ h => h.capture)).dcSet.modDie
    · exact h

/-! The home directory. -/

theorem Kept.dropMsg {n} (h : Kept k s0 s) : Kept k s0 (State.dropMsg s n) := by
  unfold State.dropMsg
  exact h.modCache

theorem Kept.txSet {space line u} (h : Kept k s0 s) : Kept k s0 (State.txSet s space line u) := by
  unfold State.txSet
  exact h.modCache

theorem Kept.grant {m g words} (h : Kept k s0 s) : Kept k s0 (State.grant s m g words) := by
  unfold State.grant
  exact h.send

theorem Kept.grantHome {m g} (h : Kept k s0 s) : Kept k s0 (State.grantHome s m g) := by
  unfold State.grantHome
  exact h.homeRead.grant

theorem Kept.finishTx {u} (h : Kept k s0 s) : Kept k s0 (State.finishTx s u) := by
  unfold State.finishTx
  dsimp only
  split
  · exact h.txSet.writeHome.dirSet
  · exact .ite ((Kept.ite h.txSet.grant (.ite h.txSet.grantHome h.txSet.grant)).dirSet) (.ite h.txSet.grantHome.dirSet h.txSet.homeRead.grant.dirSet)

theorem Kept.stepTx {u} (h : Kept k s0 s) : Kept k s0 (State.stepTx s u) := by
  unfold State.stepTx
  exact .ite h.finishTx h.txSet

theorem Kept.startTx {m req getM owner invs} (h : Kept k s0 s) : Kept k s0 (State.startTx s m req getM owner invs) := by
  unfold State.startTx
  dsimp only
  refine .stepTx ?_
  refine .foldl ?_ (fun _ _ h => h.send)
  split
  · exact h.send
  · exact h

theorem Kept.withEntry {m go} (h : Kept k s0 s) (hgo : ∀ s, Kept k s0 s → Kept k s0 (go s)) : Kept k s0 (State.withEntry s m go) := by
  unfold State.withEntry
  dsimp only
  split
  · exact hgo _ h
  · split
    · exact h
    · split
      · exact h
      · exact h.startTx.countDie

theorem Kept.execGets {n} (h : Kept k s0 s) : KeptOut k s0 (execGets n s) := by
  unfold Machine.execGets
  dsimp only
  refine KeptOut.next ?_
  split
  · exact h
  · exact .ite h (h.withEntry (fun _ h => by
      split
      · exact h.dropMsg.grantHome.dirSet
      · exact .ite h.dropMsg.grantHome.dirSet h.dropMsg.startTx))

theorem Kept.execGetm {n} (h : Kept k s0 s) : KeptOut k s0 (execGetm n s) := by
  unfold Machine.execGetm
  dsimp only
  refine KeptOut.next ?_
  split
  · exact h
  · exact .ite h (h.withEntry (fun _ h => by
      split
      · exact (Kept.ite h.dropMsg.grantHome h.dropMsg.grant).dirSet
      · exact h.dropMsg.startTx))

theorem Kept.execPutm {n} (h : Kept k s0 s) : KeptOut k s0 (execPutm n s) := by
  unfold Machine.execPutm
  dsimp only
  refine KeptOut.next ?_
  split
  · exact h
  · split
    · exact h
    · split
      · exact .ite h (.ite h.dropMsg.stepTx.send h.dropMsg.writeHome.dirSet.stepTx.send)
      · split
        · exact h
        · split
          · exact .ite h.dropMsg.dirSet.send (.ite h.dropMsg.writeHome.dirSet.send h.dropMsg.send)
          · exact h.dropMsg.send

theorem Kept.execPuts {n} (h : Kept k s0 s) : KeptOut k s0 (execPuts n s) := by
  unfold Machine.execPuts
  dsimp only
  refine KeptOut.next ?_
  split
  · exact h
  · split
    · exact h
    · split
      · exact h.dropMsg
      · exact .ite h.dropMsg.dirSet (.ite h.dropMsg.dirSet h.dropMsg.dirSet)

theorem Kept.bridgeSet {io space line b} (h : Kept k s0 s) : Kept k s0 (State.bridgeSet s io space line b) := by
  unfold State.bridgeSet
  exact h.modCache

theorem Kept.surrender {m keep} (h : Kept k s0 s) : Kept k s0 (State.surrender s m keep).2 := by
  unfold State.surrender
  split
  · extract_lets s'
    split
    · exact h.recall
    · exact .ite h.recall.dcSet h.recall.dcDrop
  · split
    · exact h
    · dsimp only
      exact h.bridgeSet

theorem Kept.snoop {n m keep} (h : Kept k s0 s) : Kept k s0 (State.snoop s n m keep) := by
  unfold State.snoop
  exact .ite h (.ite h.dropMsg.send h.dropMsg.surrender.send)

theorem Kept.execFwdgets {n} (h : Kept k s0 s) : KeptOut k s0 (execFwdgets n s) := by
  unfold Machine.execFwdgets
  refine KeptOut.next ?_
  split
  · exact h
  · exact h.snoop

theorem Kept.execFwdgetm {n} (h : Kept k s0 s) : KeptOut k s0 (execFwdgetm n s) := by
  unfold Machine.execFwdgetm
  refine KeptOut.next ?_
  split
  · exact h
  · exact h.snoop

theorem Kept.execInv {n} (h : Kept k s0 s) : KeptOut k s0 (execInv n s) := by
  unfold Machine.execInv
  dsimp only
  refine KeptOut.next ?_
  split
  · exact h
  · exact .ite h ((Kept.ite h.dropMsg.send (.ite h.dropMsg.surrender h.dropMsg.surrender.send)).send)

theorem Kept.execResp {n} (h : Kept k s0 s) : KeptOut k s0 (execResp n s) := by
  unfold Machine.execResp
  dsimp only
  refine KeptOut.next ?_
  split
  · exact h
  · split
    · exact h
    · split
      · exact h.dropMsg
      · exact .ite h.dropMsg.stepTx h.dropMsg.stepTx

theorem Kept.execInvack {n} (h : Kept k s0 s) : KeptOut k s0 (execInvack n s) := by
  unfold Machine.execInvack
  dsimp only
  refine KeptOut.next ?_
  split
  · exact h
  · split
    · exact h
    · split
      · exact h.dropMsg
      · exact h.dropMsg.stepTx

theorem Kept.execData {n} (h : Kept k s0 s) : KeptOut k s0 (execData n s) := by
  unfold Machine.execData
  dsimp only
  refine KeptOut.next ?_
  split
  · exact h
  · exact .ite h (.ite h.modCache (.ite h h.dropMsg.bridgeSet))

theorem Kept.execWback {n} (h : Kept k s0 s) : KeptOut k s0 (execWback n s) := by
  unfold Machine.execWback
  refine KeptOut.next ?_
  split
  · exact h
  · exact h.dropMsg.modCache

/-! Cox accesses. -/

theorem Kept.bridgeAsk {io space line m} (h : Kept k s0 s) : Kept k s0 (State.bridgeAsk s io space line m) := by
  unfold State.bridgeAsk
  exact .ite h h.send

theorem Kept.coxAnswer {ctx va l} (h : Kept k s0 s) : Kept k s0 (State.coxAnswer s ctx va l) := by
  unfold State.coxAnswer
  exact h.modCache

theorem Kept.execCoxRead {ctx va} (h : Kept k s0 s) : KeptOut k s0 (execCoxRead ctx va s) := by
  unfold Machine.execCoxRead
  dsimp only
  refine KeptOut.next ?_
  split
  · split
    · exact h
    · split
      · exact h.homeRead.coxAnswer
      · split
        · exact h.bridgeSet.coxAnswer
        · exact h.bridgeAsk
  · exact h

theorem Kept.execCoxWrite {ctx va data} (h : Kept k s0 s) : KeptOut k s0 (execCoxWrite ctx va data s) := by
  unfold Machine.execCoxWrite
  dsimp only
  refine KeptOut.next ?_
  split
  · split
    · exact .ite h h.pokeBytes
    · split
      · exact .ite h.bridgeSet h.bridgeAsk
      · exact h.bridgeAsk
  · exact h

theorem Kept.execCoxEviction {ctx va} (h : Kept k s0 s) : KeptOut k s0 (execCoxEviction ctx va s) := by
  unfold Machine.execCoxEviction
  dsimp only
  refine KeptOut.next ?_
  split
  · exact h
  · exact .ite h.bridgeSet (.ite h.bridgeSet (.ite h.bridgeSet.send.modCache h.bridgeSet.send))

/-! Power, bring-up and the management interface. -/

/-- Power that is lost or comes on leaves the state of a reset, with no warp. -/
theorem Kept.powerOff {p} (hk : ∀ w, k w = .any) : Kept k s0 (State.powerOff s p) where
  mem _ := ⟨rfl, fun _ h => absurd h List.not_mem_nil, State.reset_landing_wf⟩
  fixed _ _ h := absurd h List.not_mem_nil
  shape _ := State.reset_shapeOk
  regs w _ hn _ := absurd (hk w) hn

theorem Kept.execThermalTrip (h : Kept k s0 s) (hk : ∀ w, k w = .any) : KeptOut k s0 (Machine.execThermalTrip s) := by
  unfold Machine.execThermalTrip
  exact .next (.ite h (.powerOff hk))

theorem Kept.execPowerOn {rootPort} (h : Kept k s0 s) (hk : ∀ w, k w = .any) : KeptOut k s0 (Machine.execPowerOn rootPort s) := by
  unfold Machine.execPowerOn
  exact .next (.ite (Kept.powerOff hk).modPkg h)

theorem Kept.execBringUpStageComplete {failure} (h : Kept k s0 s) : KeptOut k s0 (Machine.execBringUpStageComplete failure s) := by
  unfold Machine.execBringUpStageComplete
  refine .next ?_
  cases failure with
  | some c =>
    split
    · exact h.modPkg
    · exact h.modPkg
    · exact h.modPkg
    · exact h.modPkg
    · exact h.modPkg
    · exact h
  | none =>
    split
    · exact h.modPkg
    · exact .ite h.fields h.modPkg.modPkg
    · exact h.modCtx.modPkg
    · exact (h.setMem (m := []) fun _ => rfl).fields.modPkg
    · exact h.mapDies.modPkg.degrade
    · exact h

/-! Timed copies. -/

theorem Kept.runMsg {n m} (h : Kept k s0 s) : KeptOut k s0 (State.runMsg s n m) := by
  unfold State.runMsg
  split
  · exact h.execGets
  · exact h.execGetm
  · exact h.execPutm
  · exact h.execPuts
  · exact h.execFwdgets
  · exact h.execFwdgetm
  · exact h.execInv
  · exact h.execResp
  · exact h.execInvack
  · split
    · exact h.execDieCacheFillArrival
    · exact h.execData
  · exact h.execWback

theorem Kept.runLine {fuel space line} (h : Kept k s0 s) : Kept k s0 (State.runLine fuel s space line) := by
  induction fuel generalizing s with
  | zero => exact h
  | succ fuel ih =>
    unfold State.runLine
    dsimp only
    split
    next e =>
      obtain ⟨p, -, hp⟩ := List.exists_of_findSome?_eq_some e
      exact ih (Kept.acted h.runMsg hp)
    · exact h

theorem Kept.hurry {fuel num} (h : Kept k s0 s) : Kept k s0 (State.hurry fuel s num) := by
  induction fuel generalizing s with
  | zero => exact h
  | succ fuel ih =>
    unfold State.hurry
    split
    · exact h
    · exact .ite h.ackReq (ih (.ite h.runLine h.serve))

theorem Kept.force {num} (h : Kept k s0 s) : Kept k s0 (State.force s num) := by
  unfold State.force
  dsimp only
  split
  · exact h
  · split
    · exact h.dropReq.gotJob
    · exact h.dropReq.pokeBytes
    · exact h.dropReq

theorem Kept.hurryFrom {n} (h : Kept k s0 s) : Kept k s0 (State.hurryFrom s n) := by
  unfold State.hurryFrom
  exact h.foldl (fun _ _ h => h.hurry.force)

theorem Kept.timedLine {u j kx src} (h : Kept k s0 s) : Kept k s0 (State.timedLine s u j kx src) := by
  unfold State.timedLine
  dsimp only
  split
  · exact h
  · split
    · exact h.modJob
    · exact h.modJob.askLine.hurryFrom.modJob

theorem Kept.timedMove {u a j kx src dst room} (h : Kept k s0 s) : Kept k s0 (State.timedMove s u a j kx src dst room) := by
  unfold State.timedMove
  dsimp only
  split
  · exact h.timedLine.endCopy
  · refine .chunkDone (.fields ?_)
    split
    · exact h.timedLine.chunkHazards.addReqs.hurryFrom
    · exact h.timedLine.chunkHazards.spadPut

theorem Kept.timedStep {n a j t0} (h : Kept k s0 s) : Kept k s0 (State.timedStep s n a j t0) := by
  unfold State.timedStep
  extract_lets ctx c side src dst room j'
  refine .ite h ?_
  split
  next e =>
    split at e
    · exact h.chunkStop e
    · cases e
  · exact .ite h.endCopy h.modJob.timedMove

theorem Kept.execCopyChunk {u seq} (h : Kept k s0 s) : KeptOut k s0 (execCopyChunk u seq s) := by
  unfold Machine.execCopyChunk
  dsimp only
  refine KeptOut.next ?_
  split
  · exact h
  · split
    · exact h
    · split
      · exact .ite h.preloadLine h
      · split
        · exact h.timedStep
        · split
          · exact h.copyStep
          · split
            · exact h
            · split
              · exact h.endCopy
              · exact h.copyStep

theorem Kept.execTimedCopyStart {u seq} (h : Kept k s0 s) : KeptOut k s0 (execTimedCopyStart u seq s) := by
  unfold Machine.execTimedCopyStart
  dsimp only
  refine KeptOut.next ?_
  split
  · exact h
  · split
    · exact h
    · exact .ite h (.ite h.modJob.modTeam h.endCopy)

/-! The translation unit of a home. -/

theorem Kept.setFrame {home f v} (h : Kept k s0 s) : Kept k s0 (State.setFrame s home f v) := by
  unfold State.setFrame
  exact h.modXl

theorem Kept.setPte {home a v} (h : Kept k s0 s) : Kept k s0 (State.setPte s home a v) := by
  unfold State.setPte
  exact h.modXl

theorem Kept.newTable {home space size r} (h : Kept k s0 s) (e : State.newTable s home space size = some r) : Kept k s0 r.2 := by
  obtain ⟨a, -, rfl⟩ := Option.map_eq_some_iff.mp e
  dsimp only
  exact h.modXl

theorem Kept.needRoot {home space} (h : Kept k s0 s) (e : State.needRoot s home space = some t) : Kept k s0 t := by
  unfold State.needRoot at e
  split at e
  · exact Option.some.inj e ▸ h
  · obtain ⟨r, hr, rfl⟩ := Option.map_eq_some_iff.mp e
    exact (h.newTable hr).modXl

theorem Kept.putLeaf {home space level n table va leaf} (h : Kept k s0 s)
    (e : State.putLeaf s home space level n table va leaf = some t) : Kept k s0 t := by
  induction n generalizing s level table with
  | zero => exact Option.some.inj e ▸ h.setPte
  | succ n ih =>
    unfold State.putLeaf at e
    dsimp only at e
    split at e
    · exact ih h e
    split at e
    · cases e
    next hr => exact ih (h.newTable hr).setPte e

theorem Kept.mapPage {home space bits va leaf} (h : Kept k s0 s) (e : State.mapPage s home space bits va leaf = some t) :
    Kept k s0 t := by
  unfold State.mapPage at e
  split at e
  · cases e
  · exact h.putLeaf e

theorem Kept.mapPages {home r l} (h : Kept k s0 s) (e : State.mapPages s home r l = some t) : Kept k s0 t := by
  induction l generalizing s with
  | nil => exact Option.some.inj e ▸ h
  | cons v l ih =>
    unfold State.mapPages at e
    split at e
    · cases e
    next hp => exact ih (h.mapPage hp) e

theorem Kept.dropLeaf {home level n table va} (h : Kept k s0 s) : Kept k s0 (State.dropLeaf s home level n table va) := by
  induction n generalizing level table with
  | zero => exact h.setPte
  | succ n ih => exact .ite ih.setPte.modXl ih

theorem Kept.mapDone {home code} (h : Kept k s0 s) : Kept k s0 (State.mapDone s home code) := by
  unfold State.mapDone
  exact h.modXl

theorem Kept.execMap {home req} (h : Kept k s0 s) : KeptOut k s0 (Machine.execMap home req s) := by
  unfold Machine.execMap
  extract_lets r c
  refine .next (.ite h (.ite h.mapDone ?_))
  split
  · exact h.mapDone
  next e =>
    have hf : ∀ l : List Nat, Kept k s0 (l.foldl (fun s f => s.setFrame home f (frMap (s.frame home f) true)) _) :=
      fun _ => (h.mapPages e).foldl fun _ _ h => h.setFrame
    exact Kept.mapDone (Kept.foldl (hf _) fun _ _ h => h.releaseEntry)

theorem Kept.purgePages {home r} (h : Kept k s0 s) : Kept k s0 (State.purgePages s home r) := by
  unfold State.purgePages
  exact (h.foldl (fun _ _ h => .ite h.flushLine h)).modXl

theorem Kept.execUnmap {home req} (h : Kept k s0 s) : KeptOut k s0 (execUnmap home req s) := by
  unfold Machine.execUnmap
  dsimp only
  exact KeptOut.next (.ite h (.ite h.mapDone (.ite h ((h.purgePages.foldl (fun _ _ h => by
      split
      · exact (h.foldl (fun _ _ h1 => h1.setFrame)).dropLeaf
      · exact h)).mapDone))))

theorem Kept.execProtect {home req} (h : Kept k s0 s) : KeptOut k s0 (Machine.execProtect home req s) := by
  unfold Machine.execProtect
  extract_lets r c one
  have hone : ∀ s v, Kept k s0 s → Kept k s0 (one s v) := fun s v h => by
    unfold one
    split
    · exact h.getD fun _ => h.putLeaf
    · exact h
  exact .next (.ite h (.ite h.mapDone (.ite h (Kept.mapDone (Kept.foldl h.purgePages hone)))))

theorem Kept.walked {home space page} (h : Kept k s0 s) (e : State.walked s home space page = some t) : Kept k s0 t := by
  unfold State.walked at e
  split at e
  · exact Option.some.inj e ▸ h.tlbAdd
  split at e
  · exact Option.some.inj e ▸ h
  split at e
  · cases e
  · exact Option.some.inj e ▸ h.modXl

theorem Kept.execPageWalk {home n} (h : Kept k s0 s) : KeptOut k s0 (Machine.execPageWalk home n s) := by
  unfold Machine.execPageWalk
  refine .next ?_
  split
  · exact h
  next w _ =>
    extract_lets before answer r
    have hr : Kept k s0 r.1 := List.foldlRecOn (motive := fun r : State × List Nat => Kept k s0 r.1) w.asks answer h fun r hr page _ => by
      unfold answer
      split
      next e => exact hr.walked e
      · exact hr
    exact .ite h hr.modXl

/-! The services of the Bexa root. -/

theorem Kept.answer {no} (h : Kept k s0 s) : Kept k s0 (State.answer s no) := by
  unfold State.answer
  exact h.modPkg

theorem Kept.execCtxCreate {ctx} (h : Kept k s0 s) : KeptOut k s0 (execCtxCreate ctx s) := by
  unfold Machine.execCtxCreate
  exact KeptOut.next (.ite h.answer (.ite h.modXl.modCtx.answer h))

theorem Kept.stopGrid {g} (h : Kept k s0 s) : Kept k s0 (State.stopGrid s g) := by
  unfold State.stopGrid
  extract_lets ws gangs teams s1 s2 s3 s4 s5 s6 s7
  have h1 : Kept k s0 s1 := h.foldl fun _ _ h => h.abortBlock.modWarp
  have h2 : Kept k s0 s2 := h1.foldl fun _ _ h => h.modTeam fun _ _ => rfl
  have h3 : Kept k s0 s3 := h2.foldl fun _ _ h => h.modGang
  have h4 : Kept k s0 s4 := h3.foldl fun _ _ h => h.modRegion
  have h6 : Kept k s0 s6 := Kept.modGrid h4.fields
  have h7 : Kept k s0 s7 := h6.foldl fun _ _ h => h.tidyCore
  exact h7.endLaunch

theorem Kept.stopContext {ctx} (h : Kept k s0 s) : Kept k s0 (State.stopContext s ctx) := by
  unfold State.stopContext
  exact (h.foldl (fun _ _ h => h.stopGrid)).foldl (fun _ _ h => h.foldl (fun _ _ h1 => h1.endLaunch))

theorem Kept.reclaimFrame {home f} (h : Kept k s0 s) : Kept k s0 (State.reclaimFrame s home f) := by
  unfold State.reclaimFrame
  extract_lets lo s1 s2
  have h2 : Kept k s0 s2 := (h.setMem (Memory.wf_dropRange _ _ _)).fields.modXl
  exact .ite h2.modPkg.health h2

theorem Kept.clearSpace {ctx} (h : Kept k s0 s) : Kept k s0 (State.clearSpace s ctx) := by
  unfold State.clearSpace
  exact (h.purgeSpace.modXl.foldl (fun _ _ h => h.reclaimFrame)).fields

theorem Kept.finishDying {ctx} (h : Kept k s0 s) : Kept k s0 (State.finishDying s ctx) := by
  unfold State.finishDying
  exact .ite h.stopContext.clearSpace.modCtx h

theorem Kept.execCtxDestroy {ctx} (h : Kept k s0 s) : KeptOut k s0 (execCtxDestroy ctx s) := by
  unfold Machine.execCtxDestroy
  exact KeptOut.next (.ite h.answer ((h.foldl (fun _ _ h => h.foldl (fun _ _ h1 => h1.abortMember))).modCtx.stopContext.finishDying.answer))

theorem Kept.execFrameAssign {home frame count space win} (h : Kept k s0 s) : KeptOut k s0 (execFrameAssign home frame count space win s) := by
  unfold Machine.execFrameAssign
  exact KeptOut.next (.ite h.answer ((h.foldl (fun _ _ h => h.setFrame)).answer))

theorem Kept.execFrameReclaim {home frame count} (h : Kept k s0 s) : KeptOut k s0 (execFrameReclaim home frame count s) := by
  unfold Machine.execFrameReclaim
  exact KeptOut.next (.ite h.answer ((h.foldl (fun _ _ h => h.reclaimFrame)).answer))

theorem Kept.setHome {ctx granule v} (h : Kept k s0 s) : Kept k s0 (State.setHome s ctx granule v) := by
  unfold State.setHome
  dsimp only
  split
  · exact h.modXl.getD fun _ => h.modXl.needRoot
  · exact h.modXl

theorem Kept.execHomeSet {ctx granule v} (h : Kept k s0 s) : KeptOut k s0 (execHomeSet ctx granule v s) := by
  unfold Machine.execHomeSet
  exact KeptOut.next (.ite h.answer h.setHome.answer)

theorem Kept.execWindowCreate {win granules entries} (h : Kept k s0 s) : KeptOut k s0 (Machine.execWindowCreate win granules entries s) := by
  unfold Machine.execWindowCreate
  extract_lets l no new s1 root
  have hroot : ∀ s p, Kept k s0 s → Kept k s0 (root s p) := fun s p h => by
    unfold root
    split
    · exact h.getD fun _ => h.needRoot
    · exact h
  exact .next (.ite h.answer (Kept.answer (Kept.foldl h.modXl hroot)))

theorem Kept.execWindowJoin {win ctx} (h : Kept k s0 s) : KeptOut k s0 (execWindowJoin win ctx s) := by
  unfold Machine.execWindowJoin
  dsimp only
  refine KeptOut.next ?_
  split
  · exact h.answer
  · exact .ite h.answer ((h.foldl (fun _ _ h => h.setHome)).modXl.answer)

theorem Kept.execWindowLeave {win ctx} (h : Kept k s0 s) : KeptOut k s0 (execWindowLeave win ctx s) := by
  unfold Machine.execWindowLeave
  dsimp only
  refine KeptOut.next ?_
  split
  · exact h.answer
  · exact (h.foldl (fun _ _ h => h.setHome)).modXl.answer

theorem Kept.execExportSet {ctx pairs} (h : Kept k s0 s) : KeptOut k s0 (execExportSet ctx pairs s) := by
  unfold Machine.execExportSet
  exact KeptOut.next (.ite h.answer h.modCtx.answer)

theorem Kept.execMeasureExtend {reg digest} (h : Kept k s0 s) : KeptOut k s0 (execMeasureExtend reg digest s) := by
  unfold Machine.execMeasureExtend
  refine KeptOut.next ?_
  split
  · exact .ite h.modPkg.answer h.answer
  · exact h.modCtx.answer

/-! Errors, poison and health. -/

theorem Kept.markFrame {home f} (h : Kept k s0 s) : Kept k s0 (State.markFrame s home f) := by
  unfold State.markFrame
  exact .ite h (.ite h.modPkg.health h.modPkg.health.reclaimFrame)

theorem Kept.execCorrectedError {place} (h : Kept k s0 s) : KeptOut k s0 (Machine.execCorrectedError place s) := by
  unfold Machine.execCorrectedError
  extract_lets s1 s2
  have h1 : Kept k s0 s1 := by
    unfold s1
    split
    · exact h.countCore
    · exact h
  have h2 : Kept k s0 s2 := by
    unfold s2
    split
    · exact h1.countDie
    · exact h1
  refine .next ?_
  split
  · exact .ite h2.modPkg.markFrame h2.modPkg
  · exact h2

theorem Kept.fenceCore {die core} (h : Kept k s0 s) : Kept k s0 (State.fenceCore s die core) := by
  unfold State.fenceCore
  exact .ite h h.modCore.health

theorem Kept.fenceDie {die} (h : Kept k s0 s) : Kept k s0 (State.fenceDie s die) := by
  unfold State.fenceDie
  exact .ite h (h.modDie.health.foldl (fun _ _ h => h.foldl (fun _ _ h1 => h1.stopGrid)))

theorem Kept.failHub (h : Kept k s0 s) : Kept k s0 (State.failHub s) := by
  unfold State.failHub
  exact .ite h h.health.fields

theorem Kept.fenceIo {die} (h : Kept k s0 s) : Kept k s0 (State.fenceIo s die) := by
  unfold State.fenceIo
  exact .ite h h.modPkg.health

theorem Kept.loseDie {die} (h : Kept k s0 s) : Kept k s0 (State.loseDie s die) := by
  unfold State.loseDie
  exact .ite h.fenceDie (.ite h.failHub (.ite h.fenceIo h))

/-- An uncorrectable error is counted, then poisons what its place names. -/
theorem Kept.execUncorrectableError {place} (h : Kept k s0 s) : KeptOut k s0 (execUncorrectableError place s) := by
  unfold Machine.execUncorrectableError
  extract_lets s1 s2 reg pair
  have h1 : Kept k s0 s1 := by
    unfold s1
    split
    · exact h.modCore
    · exact h
  have h2 : Kept k s0 s2 := by
    unfold s2
    split
    · exact h1.countDie
    · split
      · exact h1.countDie
      · exact h1
  have hreg : ∀ w p, Kept k s0 (reg w p) := fun _ _ => h2.modWarp
  cases place with
  | vreg | sreg | kreg | special | latch => exact .next (hreg _ _)
  | spad => exact .next h2.modTeam
  | l1 => exact .next h2.modL1
  | landing => exact .next h2.modDie
  | dieCache | hubCache => exact .next h2.modCache
  | dieArray => exact .next (.ite h2.modDie h2.modPkg)
  | tagOrDirectory => exact .next h2.loseDie
  | dram => exact .next h2.fields.markFrame

theorem Kept.execLinkCrcError {link exhausted} (h : Kept k s0 s) : KeptOut k s0 (execLinkCrcError link exhausted s) := by
  unfold Machine.execLinkCrcError
  dsimp only
  refine KeptOut.next ?_
  split
  · exact .ite h.countDie.loseDie h.countDie
  · exact .ite h.countDie.modPkg.modPkg.health h.countDie.modPkg

theorem Kept.execCoreFenced {die core} (h : Kept k s0 s) : KeptOut k s0 (execCoreFenced die core s) := by
  unfold Machine.execCoreFenced
  exact KeptOut.next (.ite h (.ite h.fenceCore.stopGangs.fenceDie h.fenceCore.stopGangs))

theorem Kept.execFrameMarked {home frame} (h : Kept k s0 s) : KeptOut k s0 (execFrameMarked home frame s) := by
  unfold Machine.execFrameMarked
  exact KeptOut.next (.ite h.markFrame h)

theorem Kept.execLinkHalfWidth {port} (h : Kept k s0 s) : KeptOut k s0 (execLinkHalfWidth port s) := by
  unfold Machine.execLinkHalfWidth
  exact KeptOut.next (.ite h h.modPkg.health)

theorem Kept.execDieFenced {die} (h : Kept k s0 s) : KeptOut k s0 (execDieFenced die s) := by
  unfold Machine.execDieFenced
  exact KeptOut.next (.ite h.fenceDie h)

theorem Kept.execRemoteRequestTimeout {n} (h : Kept k s0 s) : KeptOut k s0 (execRemoteRequestTimeout n s) := by
  unfold Machine.execRemoteRequestTimeout
  dsimp only
  refine KeptOut.next ?_
  split
  · exact h
  · split
    · exact h
    · split
      · split
        · exact h.fields.fault
        · exact h.fields
      · exact h.fields.postRec

theorem Kept.execRemoteRequestReceived {pkg rctx ctx va req} (h : Kept k s0 s) : KeptOut k s0 (execRemoteRequestReceived pkg rctx ctx va req s) := by
  unfold Machine.execRemoteRequestReceived
  dsimp only
  refine KeptOut.next ?_
  split
  · exact h
  · split
    · split
      · exact h
      · split
        · exact h
        · exact h.pokeBytes
        · exact h.pokeWord
    · exact .ite h h.postRec.modXl
    · exact h

theorem Kept.refreshHazard {u seq} (h : Kept k s0 s) : Kept k s0 (State.refreshHazard s u seq) := by
  unfold State.refreshHazard
  dsimp only
  split
  · exact h
  · exact .ite h.copyRecord h

theorem Kept.execUmpireHazard {w idx code aux} (h : Kept k s0 s) : KeptOut k s0 (execUmpireHazard w idx code aux s) := by
  unfold Machine.execUmpireHazard
  refine KeptOut.next ?_
  split
  · exact h.refreshHazard
  · split
    · exact h
    · split
      · exact h
      · exact .ite h.hazard h

/-! Group 0. -/

theorem Kept.execNop {hd} (h : Kept k s0 s) : KeptOut k s0 (execNop hd s) := by
  unfold Machine.execNop
  exact h.execQuiet (fun _ _ _ h => h)

theorem Kept.execFan {h sh t2 t3} (hs : Kept k s0 s) : KeptOut k s0 (Machine.execFan h sh t2 t3 s) := by
  unfold Machine.execFan
  exact .next (hs.issue (fun _ h => h.deliver2.deliver.deliver) fun _ _ _ h => h.deliver2.deliver.deliver)

theorem Kept.execSysrd {hd sel imm} (h : Kept k s0 s) : KeptOut k s0 (execSysrd hd sel imm s) := by
  unfold Machine.execSysrd
  exact KeptOut.next (h.issue (fun _ h => h.deliverNull) (fun _ _ _ h => (Kept.ite h.modBlk h).countW.deliver2))

theorem Kept.execFmtset {hd form} (h : Kept k s0 s) : KeptOut k s0 (execFmtset hd form s) := by
  unfold Machine.execFmtset
  exact h.execQuiet (fun _ _ _ h => .ite h.faultAt h.modBlk)

/-! Code objects. -/

theorem Kept.loaded {step bad} (h : Kept k s0 s) : Kept k s0 (State.loaded s step bad) := by
  unfold State.loaded
  exact h.modPkg

theorem Kept.execCodeObjectLoad {ctx home va bytes oid} (h : Kept k s0 s) : KeptOut k s0 (execCodeObjectLoad ctx home va bytes oid s) := by
  unfold Machine.execCodeObjectLoad
  dsimp only
  refine KeptOut.next ?_
  split
  · exact h
  · split
    · exact h.loaded
    · split
      · exact h.loaded
      · split
        · exact h.loaded
        · exact .ite h.loaded (.ite h.loaded (.ite h.loaded h.pokeCtx.fields.loaded))

theorem Kept.execCodeObjectUnload {ctx oid} (h : Kept k s0 s) : KeptOut k s0 (execCodeObjectUnload ctx oid s) := by
  unfold Machine.execCodeObjectUnload
  exact KeptOut.next h.fields.sweep

theorem Kept.execBlockTableSwap {ctx oid table code} (h : Kept k s0 s) : KeptOut k s0 (execBlockTableSwap ctx oid table code s) := by
  unfold Machine.execBlockTableSwap
  dsimp only
  refine KeptOut.next ?_
  split
  · exact h
  · exact .ite h.fields h

end
end Sys2Proof.Machine
end

section
/-! What every instruction, every event and the step keep. -/

namespace Sys2Proof.Machine
open Sys2Proof
section
-- One declaration at a time: elaborated at once, these lemmas need more memory than the check gives.
set_option Elab.async false
variable {k : Nat → Hold} {s0 s t : State}

/-! What decodes is an instruction word. -/

/-- Every result that a decoder gives meets `P`. -/
def Yields {α : Type} (P : α → Prop) (r : D α) : Prop := ∀ a, r = .ok a → P a

theorem Yields.ok {α : Type} {P : α → Prop} {a : α} (h : P a) : Yields P (.ok a) := by
  rintro _ ⟨⟩
  exact h

theorem Yields.error {α : Type} {P : α → Prop} {e : DecodeErr} : Yields P (.error e) := by
  rintro _ ⟨⟩

theorem Yields.dApp {α β : Type} {P : β → Prop} {r : D (α → β)} {x : D α} (h : Yields (fun f => ∀ a, P (f a)) r) :
    Yields P (dApp r x) := by
  intro b e
  unfold Sys2Proof.dApp at e
  split at e
  · cases e
    exact h _ rfl _
  · cases e
  · cases e
  · split at e <;> cases e

theorem Yields.dChk {α : Type} {P : α → Prop} {r : D α} {c : Bool} {e : DecodeErr} (h : Yields P r) : Yields P (dChk r c e) := by
  intro a ha
  cases r with
  | error f => cases c <;> simp only [Sys2Proof.dChk, Sys2Proof.dApp] at ha <;> grind
  | ok b =>
    cases c with
    | false => cases ha
    | true =>
      cases ha
      exact h _ rfl

theorem yields_decNoSel {w : BitVec 64} {h : D Hdr} {imm : Bool} : Yields (fun i => i.isWord = true) (decNoSel w h imm) :=
  .dChk (.dChk (.dChk (.dApp (.ok fun _ => rfl))))

/-- No word decodes to an event. -/
theorem isWord_of_decode {w : BitVec 64} {i : Instr} (h : decode w = .ok i) : i.isWord = true := by
  suffices Yields (fun i => i.isWord = true) (decode w) from this i h
  unfold decode
  split
  all_goals try split
  all_goals
    with_reducible
      repeat' first | exact Yields.error | exact yields_decNoSel | refine Yields.dChk ?_ | refine Yields.dApp ?_ | refine Yields.ok ?_
  all_goals
    intros
    rfl

/-- A word that takes lane-array ticks and writes registers in them: any but `mst` (R355, R360). -/
def Instr.writesInTicks (i : Instr) : Bool :=
  match i with
  | .mst _ _ _ _ => false
  | i => Instr.stepped i

theorem Instr.stepped_of_writesInTicks {i : Instr} (h : Instr.writesInTicks i = true) :
    Instr.stepped i = true ∧ ∀ a n c d, i ≠ .mst a n c d := by
  unfold Instr.writesInTicks at h
  split at h
  · cases h
  next hi => exact ⟨h, hi⟩

/-- What an instruction or an event asks of `k`: a matrix word changes registers of its warp, which the step issues (R360), a commit those of its
warp (R45), a fetch `fmt` where a path-end loop waits for a spilled group (R56), and power that is lost or comes on those of all. -/
structure Instr.Frees (i : Instr) (s : State) (k : Nat → Hold) : Prop where
  matrix : Instr.writesInTicks i = true → k s.cur = .any
  commit : ∀ w, i = .blockCommit w → k w = .any
  fetch : ∀ w, i = .blockFetch w → (s.warp w).refill ≠ .none → k w ≠ .all
  power : (i = .thermalTrip ∨ ∃ p, i = .powerOn p) → ∀ w, k w = .any

/-- An instruction word asks nothing of `k` unless it is a matrix word that writes registers. -/
theorem Instr.frees_of_isWord {i : Instr} (hw : i.isWord = true) (hk : Instr.writesInTicks i = true → k s.cur = .any) : Instr.Frees i s k where
  matrix := hk
  commit := by
    rintro w rfl
    cases hw
  fetch := by
    rintro w rfl
    cases hw
  power := by
    rintro (rfl | ⟨p, rfl⟩) <;> cases hw

/-- Every instruction and every event keeps what it may not change. -/
theorem Kept.exec {i} (h : Kept k s0 s) (hk : Instr.Frees i s k) : KeptOut k s0 (Machine.exec i s) := by
  cases i with
  | nop => exact h.execNop
  | mov | null | kmov | vote | fmtrd | vcmp | vred | vmatch => exact h.execValue
  | fan => exact h.execFan
  | const | consth | sadd | ssub | smul | smulh | sdiv | srem | sand | sor | sxor | sshl | sshr | ssra | smin | smax | lea | scmp | ssel
  | sclz | spopc | kcnt | kff | tkrd | ctxctlTrrd => exact h.execS
  | kand | kor | kxor | kandn => exact h.execK
  | sysrd => exact h.execSysrd
  | fmtset => exact h.execFmtset
  | bro | brx | brv | call | ret | exit | eret => exact h.execQuiet (fun _ _ _ h => h.fireBranch)
  | bar | tlwait | mmode | stroke | syswr | ctxctlTret => exact h.execQuiet (fun _ _ _ h => .ite h.faultAt h.defer)
  | yield | fence => exact h.execQuiet (fun _ _ _ h => h.defer)
  | trap | brk => exact h.execQuiet (fun _ _ _ h => h.fireTrap)
  | vadd | vsub | vmul | vmulh | vmad | vdiv | vrem | vsqrt | vabs | vneg | vmin | vmax | vaddsat | vsubsat | vavg | vabsd | vdot4 | vscale
  | vrint | vgetexp | vclass | vand | vor | vxor | vnot | vshl | vshr | vsra | vrotl | vclz | vpopc | vbrev | vsel | vsplat | vshfl
  | vbcast | vlrot | vcompress | vexpand | vcvt | vdecb | vexp2 | vlog2 | vrcp | vrsqrt | vscan => exact h.execV
  | vaddc | vsubb | vmulw | vencb => exact h.execV2
  | vsin | vcos => exact h.fireTrig
  | mzero => exact h.execMzero (hk.matrix rfl)
  | mma => exact h.execMma (hk.matrix rfl)
  | mmar => exact h.execMmar (hk.matrix rfl)
  | mmax => exact h.execMmax (hk.matrix rfl)
  | mexp => exact h.execMexp (hk.matrix rfl)
  | mrescale => exact h.execMrescale (hk.matrix rfl)
  | mld => exact h.execMld (hk.matrix rfl)
  | mst => exact h.execMst
  | ld | lds => exact .next (h.issue (fun _ h => h.deliverNull) (fun _ _ _ h => h.access (fun _ _ h1 => h1.startLoad)))
  | st | sts =>
    exact .next (h.issue (fun _ h => h.nullStore) (fun _ _ _ h => h.countStore (fun _ h1 => (h1.access (fun _ _ h2 => h2.bufferStore)).uncountStore)))
  | spld | spldq => exact .next (h.issue (fun _ h => h.deliverNull) (fun _ _ _ h => h.fireSpld))
  | spst | spstq => exact .next (h.issue (fun _ h => h.nullStore) (fun _ _ _ h => h.countStore (fun _ h1 => h1.fireSpst)))
  | prefetch => exact h.execPrefetch
  | atom | red => exact .next (h.issue (fun _ h => h.nullStore) (fun _ _ _ h => h.countStore (fun _ h1 => h1.fireAtomic)))
  | tlrd => exact h.execTlrd
  | push => exact h.execPush
  | tsend => exact h.execTsend
  | trecv => exact h.execTrecv
  | cachectlWb => exact h.execCachectlWb
  | cachectlWbinv => exact h.execCachectlWbinv
  | cachectlL1inv => exact h.execCachectlL1inv
  | perfctlRd => exact h.execPerfctlRd
  | perfctlCfg | perfctlClr => exact h.execQuiet (fun _ _ _ h => h.perfSet)
  | hint => exact .next h
  | blockFetch => exact h.execBlockFetch (hk.fetch _ rfl)
  | blockCommit => exact h.execBlockCommit (hk.commit _ rfl)
  | blockQuiescent => exact h.execBlockQuiescent
  | barrierComplete => exact h.execBarrierComplete
  | tlwaitResume => exact h.execTlwaitResume
  | strokeBoundaryExit => exact h.execStrokeBoundaryExit
  | seatHandover => exact h.execSeatHandover
  | accessHeldTimeout => exact h.execAccessHeldTimeout
  | seatTenureExpiry => exact h.execSeatTenureExpiry
  | warpAccessComplete => exact h.execWarpAccessComplete
  | launch => exact h.execLaunch
  | submissionWindowWrite => exact h.execSubmissionWindowWrite
  | launchPlacement => exact h.execLaunchPlacement
  | effectivePriorityRise => exact h.execEffectivePriorityRise
  | timedLaunchStart => exact h.execTimedLaunchStart
  | preemptGang => exact h.execPreemptGang
  | preemptBlockTimeout => exact h.execPreemptBlockTimeout
  | preemptDrained => exact h.execPreemptDrained
  | contextSwitch => exact h.execContextSwitch
  | gangResume => exact h.execGangResume
  | teamComplete => exact h.execTeamComplete
  | gridComplete => exact h.execGridComplete
  | copy2d | copy3d | gather | scatter | fill | preloadL2 => exact .next h.issueCopy
  | copyChunk => exact h.execCopyChunk
  | commandComplete => exact h.execCommandComplete
  | timedCopyStart => exact h.execTimedCopyStart
  | allreduce | reducescatter | allgather | broadcast | barrier => exact .next h.collStep
  | collectiveTimeout => exact h.execCollectiveTimeout
  | collectiveAbortReceived => exact h.execCollectiveAbortReceived
  | collectivePacketReceived => exact h.execCollectivePacketReceived
  | groupEnd => exact h.execGroupEnd
  | groupWashComplete => exact h.execGroupWashComplete
  | groupDefine => exact h.execGroupDefine
  | remoteRequestTimeout => exact h.execRemoteRequestTimeout
  | tsendTransferStart => exact h.execTsendTransferStart
  | transferLanded => exact h.execTransferLanded
  | trecvWindowMiss => exact h.execTrecvWindowMiss
  | trecvCopyDone => exact h.execTrecvCopyDone
  | loadDataReturn => exact h.execLoadDataReturn
  | dieCacheRequest => exact h.execDieCacheRequest
  | dieCacheFillArrival => exact h.execDieCacheFillArrival
  | storeAcknowledge => exact h.execStoreAcknowledge
  | l1ClockAdvance => exact h.execL1ClockAdvance
  | throughLineExpiry => exact h.execThroughLineExpiry
  | leaseWrapAround => exact h.execLeaseWrapAround
  | promoteRequest => exact h.execPromoteRequest
  | gets => exact h.execGets
  | getm => exact h.execGetm
  | putm => exact h.execPutm
  | puts => exact h.execPuts
  | fwdgets => exact h.execFwdgets
  | fwdgetm => exact h.execFwdgetm
  | inv => exact h.execInv
  | resp => exact h.execResp
  | invack => exact h.execInvack
  | data => exact h.execData
  | wback => exact h.execWback
  | coxRead => exact h.execCoxRead
  | coxEviction => exact h.execCoxEviction
  | coxWrite => exact h.execCoxWrite
  | refresh => exact h.execRefresh
  | tickExchangeSend => exact h.execTickExchangeSend
  | tickExchangeReceive => exact h.execTickExchangeReceive
  | timelineLost => exact h.execTimelineLost
  | clockStepChange => exact h.execClockStepChange
  | droopTickStretch | setPowerCap | misroutedPacket => exact .next (.ite h.modPkg h)
  | junctionHot | junctionCool | packagePowerAtCap => exact .next (.ite h.askSteps h)
  | thermalTrip => exact h.execThermalTrip (hk.power (.inl rfl))
  | powerOn => exact h.execPowerOn (hk.power (.inr ⟨_, rfl⟩))
  | bringUpStageComplete => exact h.execBringUpStageComplete
  | clearThermalTrip | stageFirmwareUpdate | pcieLinkDown => exact .next h.modPkg
  | lqctlWrite => exact h.execLqctlWrite
  | lqstatWrite => exact .next h.modQueue
  | lscfgWrite => exact h.execLscfgWrite
  | contextBlockWrite => exact h.execContextBlockWrite
  | blockTableSwap => exact h.execBlockTableSwap
  | systemRegisterWrite => exact h.execSystemRegisterWrite
  | map => exact h.execMap
  | unmap => exact h.execUnmap
  | protect => exact h.execProtect
  | pageWalk => exact h.execPageWalk
  | ctxCreate => exact h.execCtxCreate
  | ctxDestroy => exact h.execCtxDestroy
  | frameAssign => exact h.execFrameAssign
  | frameReclaim => exact h.execFrameReclaim
  | homeSet => exact h.execHomeSet
  | windowCreate => exact h.execWindowCreate
  | windowJoin => exact h.execWindowJoin
  | windowLeave => exact h.execWindowLeave
  | exportSet => exact h.execExportSet
  | measureExtend => exact h.execMeasureExtend
  | attest | debugUnlock => exact .next h.fields
  | faultRecordPost => exact h.execFaultRecordPost
  | faultQueueRecheck => exact h.execFaultQueueRecheck
  | retry | resumeAt | retire | retryUnchecked | stop => exact .next h.resolve
  | umpireHazard => exact h.execUmpireHazard
  | correctedError => exact h.execCorrectedError
  | uncorrectableError => exact h.execUncorrectableError
  | linkCrcError => exact h.execLinkCrcError
  | coreFenced => exact h.execCoreFenced
  | frameMarked => exact h.execFrameMarked
  | linkHalfWidth => exact h.execLinkHalfWidth
  | dieFenced => exact h.execDieFenced
  | remoteRequestReceived => exact h.execRemoteRequestReceived
  | timelineLostPersists => exact h.execTimelineLostPersists
  | codeObjectLoad => exact h.execCodeObjectLoad
  | codeObjectUnload => exact h.execCodeObjectUnload

/-! Firing, and what is due. -/

/-- Instruction `idx` of the block of warp `w` is a matrix word that writes registers (R355, R360). -/
def State.MatrixAt (s : State) (w idx : Nat) : Prop :=
  ∃ b q i, s.blk? w = some b ∧ b.words[idx]? = some q ∧ decode q = .ok i ∧ Instr.writesInTicks i = true

theorem State.cur_focus (s : State) (w : Nat) (b : Blk) (j : Nat) : (s.focus w b j).cur = w := by
  unfold State.focus
  dsimp only
  split
  · unfold State.modCore
    split <;> rfl
  · rfl

/-- Firing an instruction changes the registers of its warp only where it is a matrix word. -/
theorem Kept.fire {w idx} (h : Kept k s0 s) (hk : s.MatrixAt w idx → k w = .any) : KeptOut k s0 (s.fire w idx) := by
  unfold State.fire
  split
  · exact .next h
  next b hb =>
    split
    · exact .next h
    next q hq =>
      split
      · exact .next h
      split
      next i hi =>
        refine h.focus.exec (Instr.frees_of_isWord (isWord_of_decode hi) fun hm => ?_)
        rw [State.cur_focus]
        exact hk ⟨b, q, i, hb, hq, hi, hm⟩
      · rintro _ ⟨⟩

/-- In a timed launch the commit of a block of warp `w` is due, or a matrix word of it (R171). -/
def State.TimedWrite (s : State) (w : Nat) (f : State → Out) : Prop :=
  (s.launchOf w).timed = true ∧ (f s = execBlockCommit w s ∨ ∃ idx, s.MatrixAt w idx ∧ f s = s.fire w idx)

/-- Each of these activities keeps what it may not change, unless it is one that writes registers in a timed launch. -/
def DueKept (k : Nat → Hold) (s : State) (l : List (State → Out)) : Prop :=
  ∀ f ∈ l, KeptOut k s (f s) ∨ ∃ w, k w ≠ .any ∧ s.TimedWrite w f

theorem DueKept.nil : DueKept k s [] := fun _ h => absurd h List.not_mem_nil

theorem DueKept.one {f : State → Out} (h : KeptOut k s (f s)) : DueKept k s [f] := fun g hg => by
  rw [List.mem_singleton.mp hg]
  exact .inl h

theorem DueKept.append {a b : List (State → Out)} (ha : DueKept k s a) (hb : DueKept k s b) : DueKept k s (a ++ b) :=
  fun f hf => (List.mem_append.mp hf).elim (ha f) (hb f)

theorem DueKept.flatMap {α : Type} {l : List α} {f : α → List (State → Out)} (h : ∀ x, DueKept k s (f x)) : DueKept k s (l.flatMap f) :=
  fun g hg => by
    obtain ⟨x, -, hx⟩ := List.mem_flatMap.mp hg
    exact h x g hx

theorem DueKept.dueIf {c : Bool} {f : State → Out} (h : KeptOut k s (f s)) : DueKept k s (dueIf c f) := by
  unfold Machine.dueIf
  split
  · exact .one h
  · exact .nil

theorem DueKept.commit {w} (ht : (s.launchOf w).timed = true) : DueKept k s [execBlockCommit w] := fun f hf => by
  rw [List.mem_singleton.mp hf]
  by_cases hk : k w = .any
  · exact .inl ((Kept.refl k s).execBlockCommit hk)
  · exact .inr ⟨w, hk, ht, .inl rfl⟩

theorem DueKept.fire {w idx} (ht : (s.launchOf w).timed = true) : DueKept k s [fun s => s.fire w idx] := fun f hf => by
  rw [List.mem_singleton.mp hf]
  by_cases hk : s.MatrixAt w idx → k w = .any
  · exact .inl ((Kept.refl k s).fire hk)
  · obtain ⟨hm, hk⟩ := Classical.not_imp.mp hk
    exact .inr ⟨w, hk, ht, .inr ⟨idx, hm, rfl⟩⟩

theorem dueClock_kept : DueKept k s s.dueClock := by
  have h := Kept.refl k s
  exact .append (.dueIf h.execClockStepChange) (.flatMap fun _ =>
    .append (.append (.dueIf h.execTickExchangeSend) (.dueIf h.execTimelineLost)) (.dueIf h.execTimelineLostPersists))

theorem dueChannel_kept : DueKept k s s.dueChannel := by
  have h := Kept.refl k s
  exact .append (.flatMap fun _ => .dueIf h.execTransferLanded) (.flatMap fun _ => .dueIf h.execTsendTransferStart)

theorem dueCopy_kept : DueKept k s s.dueCopy := by
  have h := Kept.refl k s
  refine .append (.flatMap fun w => ?_) (.flatMap fun n => .append (.dueIf (.next h.takeCopy)) (.flatMap fun j => ?_))
  · split
    · refine .flatMap fun p => ?_
      dsimp only
      split
      · exact .dueIf (.next h.faultAt)
      · exact .nil
    · exact .nil
  · split
    · split
      · exact .dueIf h.execCopyChunk
      · exact .dueIf h.execTimedCopyStart
    · exact .nil

theorem dueWarps_kept (hk : ∀ w, (s.warp w).refill ≠ .none → k w ≠ .all) : DueKept k s s.dueWarps := by
  have h := Kept.refl k s
  refine .append (.flatMap fun _ => .dueIf h.execTimedLaunchStart) (.flatMap fun w => ?_)
  refine .append (.append (.append (.append (.append (.append (.dueIf h.execStrokeBoundaryExit) ?_) (.one (.next h.arrive)))
    (.dueIf (h.execBlockFetch (hk w)))) ?_) (.dueIf h.execAccessHeldTimeout)) (.dueIf h.execPreemptBlockTimeout)
  · split
    · exact .flatMap fun _ => .dueIf h.execTrecvWindowMiss
    · exact .nil
  · split
    · intro f hf
      obtain ⟨n, -, rfl⟩ := List.mem_map.mp hf
      exact .inl h.execSeatHandover
    · exact .nil

theorem dueUmpire_kept : DueKept k s s.dueUmpire := by
  have h := Kept.refl k s
  refine .append (.flatMap fun w => ?_) (.flatMap fun _ => .flatMap fun _ => .dueIf (.next h.refreshHazard))
  split
  · split
    · refine .flatMap fun _ => ?_
      split
      · exact .one h.execUmpireHazard
      · exact .nil
    · exact .nil
  · exact .nil

/-- What a core issues by its schedule belongs to a timed launch (R171). -/
theorem State.timed_of_pick {die core c q} (h : s.pick die core c = some q) : (s.launchOf q.1).timed = true := by
  unfold State.pick at h
  extract_lets now crew at_ at h
  split at h
  · cases h
  obtain ⟨n, -, hn⟩ := List.exists_of_findSome?_eq_some h
  obtain ⟨w, -, hw⟩ := Option.bind_eq_some_iff.mp hn
  obtain ⟨b, -, hb⟩ := Option.bind_eq_some_iff.mp hw
  split at hb
  next hc =>
    obtain ⟨i, -, rfl⟩ := Option.map_eq_some_iff.mp hb
    simp only [State.scheduled, Bool.and_eq_true] at hc
    exact hc.1.1
  · cases hb

theorem dueTimed_kept : DueKept k s s.dueTimed := by
  have h := Kept.refl k s
  refine .append (.append (.append (.flatMap fun _ => .dueIf (.next h.modRegion)) (.flatMap fun w => ?_)) (.flatMap fun _ => .flatMap fun c => ?_))
    (.flatMap fun w => ?_)
  · split
    · exact .flatMap fun _ => .dueIf h.execTrecvCopyDone
    · exact .nil
  · split
    next hp => exact .fire (State.timed_of_pick hp)
    · exact .nil
  · split
    next b _ =>
      refine .append ?_ (.dueIf h.execBlockQuiescent)
      unfold Machine.dueIf
      split
      next hs => exact .commit (Bool.and_eq_true_iff.mp hs).1
      · exact .nil
    · exact .nil

theorem dueUnits_kept : DueKept k s s.dueUnits := by
  have h := Kept.refl k s
  exact .append (.append (.append
    (.flatMap fun _ => .append (.append (.dueIf h.execLaunch) (.dueIf h.execEffectivePriorityRise)) (.dueIf (.next h.reconsider)))
    (.flatMap fun _ => .append (.dueIf (.next h.noteBound)) (.dueIf h.execPreemptDrained)))
    (.dueIf h.execLaunchPlacement)) (.flatMap fun _ => .dueIf h.execContextSwitch)

theorem dueLimits_kept : DueKept k s s.dueLimits := by
  have h := Kept.refl k s
  exact .append (.flatMap fun _ => .dueIf h.execRemoteRequestTimeout) (.flatMap fun _ =>
    .append (.append (.flatMap fun _ => .dueIf h.execCollectiveTimeout) (.dueIf h.execFaultQueueRecheck)) (.dueIf (.next h.finishDying)))

/-- What is due keeps what it may not change, unless it is a commit or a matrix word of a timed launch. -/
theorem due_kept (hk : ∀ w, (s.warp w).refill ≠ .none → k w ≠ .all) (e : s.due? = some t) :
    Kept k s t ∨ ∃ w, k w ≠ .any ∧ (s.launchOf w).timed = true ∧
      (execBlockCommit w s = .next t ∨ ∃ idx, s.MatrixAt w idx ∧ s.fire w idx = .next t) := by
  unfold State.due? at e
  split at e
  · obtain ⟨f, hf, hft⟩ := List.exists_of_findSome?_eq_some e
    have hn : f s = .next t := by
      unfold State.acted at hft
      split at hft
      next hu =>
        split at hft
        · cases hft
        · exact Option.some.inj hft ▸ hu
      · cases hft
    have all : DueKept k s _ := .append (.append (.append (.append (.append (.append (.append dueClock_kept dueChannel_kept) dueUmpire_kept)
      dueCopy_kept) (dueWarps_kept hk)) dueTimed_kept) dueUnits_kept) dueLimits_kept
    rcases all f hf with h | ⟨w, hw, ht, hc | ⟨idx, hm, hc⟩⟩
    · exact .inl (h t hn)
    · exact .inr ⟨w, hw, ht, .inl (hc ▸ hn)⟩
    · exact .inr ⟨w, hw, ht, .inr ⟨idx, hm, hc ▸ hn⟩⟩
  · cases e

/-! The step. -/

/-- What the activities of the agenda ask of `k`. -/
structure State.StepFrees (s : State) (k : Nat → Hold) : Prop where
  event : ∀ i r, s.agenda = .event i :: r → i.isWord = false → Instr.Frees i s k
  smear : ∀ w q r, s.agenda = .smear w q :: r → (s.warp w).breached = true → k w = .any
  fire : ∀ w idx r, s.agenda = .fire w idx :: r → s.MatrixAt w idx → k w = .any
  fetch : ∀ w, (s.warp w).refill ≠ .none → k w ≠ .all

/-- A step keeps what it may not change, unless what is due is a commit or a matrix word of a timed launch. -/
theorem step_kept (hk : s.StepFrees k) (e : step s = .next t) :
    Kept k s t ∨ s.due? = some t ∧ ∃ w, k w ≠ .any ∧ (s.launchOf w).timed = true ∧
      (execBlockCommit w s = .next t ∨ ∃ idx, s.MatrixAt w idx ∧ s.fire w idx = .next t) := by
  have rest : ∀ r, Kept k s { s with agenda := r } := fun r => (Kept.refl k s).fields
  have pass : ∀ r (f : State → State), (∀ u, Kept k s u → Kept k s (f u)) → s.pass r f = .next t →
      Kept k s t ∨ s.due? = some t ∧ ∃ w, k w ≠ .any ∧ (s.launchOf w).timed = true ∧
        (execBlockCommit w s = .next t ∨ ∃ idx, s.MatrixAt w idx ∧ s.fire w idx = .next t) := fun r f hf hp => by
    cases hd : s.due? with
    | some u =>
      rw [State.pass_due s u r f hd] at hp
      cases hp
      exact (due_kept hk.fetch hd).imp_right fun h => ⟨rfl, h⟩
    | none =>
      rw [State.pass_clear s r f hd] at hp
      cases hp
      exact .inl (hf _ (Kept.refl k s).noteEligible.fields)
  unfold step at e
  split at e
  · exact pass _ _ (fun _ h => h.tick) e
  · exact pass _ _ (fun _ h => h.tick) e
  · exact pass _ _ (fun _ h => h.clock) e
  · exact pass _ _ (fun _ h => h.steer) e
  next ha =>
    cases e
    exact .inl ((rest _).smear (hk.smear _ _ _ ha))
  · cases e
    exact .inl (rest _).spadDrain
  next r ha => exact .inl ((rest r).fire (hk.fire _ _ _ ha) t e)
  next r ha =>
    split at e
    · cases e
      exact .inl (rest _)
    next hw =>
      have hi := hk.event _ _ ha (Bool.eq_false_iff.mpr hw)
      exact .inl ((rest r).exec ⟨hi.matrix, hi.commit, hi.fetch, hi.power⟩ t e)

end
end Sys2Proof.Machine
end

section
/-! Memory and registers through a step (R4, R45, R101, R360). -/

namespace Sys2Proof.Machine

/-- Whatever becomes of the registers, a step keeps the form of memories, the fixed registers and the shape of the machine. -/
theorem step_kept_any {s t : State} (e : step s = .next t) : Kept (fun _ => .any) s t := by
  have hk : s.StepFrees fun _ => .any :=
    ⟨fun _ _ _ _ => ⟨fun _ => rfl, fun _ _ => rfl, fun _ _ _ => Hold.noConfusion, fun _ _ => rfl⟩, fun _ _ _ _ _ => rfl,
      fun _ _ _ _ _ => rfl, fun _ _ => Hold.noConfusion⟩
  rcases step_kept hk e with h | ⟨-, w, hw, -⟩
  · exact h
  · exact absurd rfl hw

/-- Settles O31: a step keeps the form because each function that it uses does. -/
theorem stepKeepsMemoryForm : Obligations.StepKeepsMemoryForm := by
  unfold Obligations.StepKeepsMemoryForm
  exact fun s t hs e => (step_kept_any e).mem hs

theorem Instr.isWord_of_stepped {i : Instr} (h : Instr.stepped i = true) : i.isWord = true := by
  unfold Instr.stepped at h
  split at h
  case h_9 => cases h
  all_goals rfl

/-- What the registers of warp `w`, which is `x`, may become where nothing may write them: none changes, but that `fmt` may where a path-end loop
waits for a spilled group. -/
def holdOf (w : Nat) (x : Warp) (v : Nat) : Hold :=
  if v = w then if x.refill = .none then .all else .butFmt else .any

theorem holdOf_self_ne_any (w : Nat) (x : Warp) : holdOf w x w ≠ .any := by
  unfold holdOf
  rw [if_pos rfl]
  split <;> exact Hold.noConfusion

theorem holdOf_eq_any {w v : Nat} {x : Warp} : holdOf w x v = .any ↔ v ≠ w := by
  constructor
  · rintro h rfl
    exact holdOf_self_ne_any _ _ h
  · exact fun h => if_neg h

theorem holdOf_ne_all {s : State} {w v : Nat} (h : (s.warp v).refill ≠ .none) : holdOf w (s.warp w) v ≠ .all := by
  unfold holdOf
  split
  next e =>
    rw [if_neg (e ▸ h)]
    exact Hold.noConfusion
  · exact Hold.noConfusion

/-- The registers of a warp where nothing may write them. -/
theorem Kept.regs_of_holdOf {s t : State} {w : Nat} {x : Warp} (h : Kept (holdOf w x) s t) (hx : s.warps[w]? = some x) :
    (∃ y, t.warps[w]? = some y ∧ y.regs = x.regs) ∨
    (x.refill ≠ .none ∧ ∃ y, t.warps[w]? = some y ∧ y.v = x.v ∧ y.s = x.s ∧ y.k = x.k ∧ y.mreg = x.mreg ∧ y.wst = x.wst) := by
  obtain ⟨y, hy, hr, hf⟩ := h.regs w x (holdOf_self_ne_any w x) hx
  simp only [Warp.regsButFmt, Prod.mk.injEq] at hr
  by_cases hn : x.refill = .none
  · have hfmt : y.fmt = x.fmt := hf (by simp [holdOf, hn])
    exact .inl ⟨y, hy, by simp [Warp.regs, hr, hfmt]⟩
  · exact .inr ⟨hn, y, hy, hr⟩

/-- Settles O33: beside the activities that it names, a step keeps the registers of warp `w` as `holdOf` says. -/
theorem registersChangeOnlyAtCommit : Obligations.RegistersChangeOnlyAtCommit := by
  unfold Obligations.RegistersChangeOnlyAtCommit
  intro matrix s t w x e hx
  have hm : ∀ idx, s.MatrixAt w idx → matrix s w idx := by
    rintro idx ⟨b, q, i, hb, hq, hi, hw⟩
    exact ⟨b, q, i, hb, hq, hi, Instr.stepped_of_writesInTicks hw⟩
  have hwarp : s.warp w = x := by simp [State.warp, List.getD, hx]
  by_contra hn
  simp only [not_or] at hn
  obtain ⟨hsame, hcommit, htrip, hpower, hfmt, hsmear, hdue, hfire⟩ := hn
  have hk : s.StepFrees (holdOf w x) := {
    event := fun i r ha hi => {
      matrix := fun h => by simp [Instr.isWord_of_stepped (Instr.stepped_of_writesInTicks h).1] at hi
      commit := by
        rintro v rfl
        exact holdOf_eq_any.mpr fun h => hcommit ⟨r, h ▸ ha⟩
      fetch := fun v _ hv => hwarp ▸ holdOf_ne_all hv
      power := by
        rintro (rfl | ⟨p, rfl⟩)
        · exact absurd ⟨r, ha⟩ htrip
        · exact absurd ⟨r, p, ha⟩ hpower }
    smear := fun v q r ha hb => holdOf_eq_any.mpr fun h => by
      subst h
      exact hsmear ⟨hwarp ▸ hb, r, q, ha⟩
    fire := fun v idx r ha h => holdOf_eq_any.mpr fun hv => by
      subst hv
      exact hfire ⟨r, idx, ha, hm idx h⟩
    fetch := fun v hv => hwarp ▸ holdOf_ne_all hv }
  rcases step_kept hk e with h | ⟨hd, v, hv, ht, h⟩
  · exact (h.regs_of_holdOf hx).elim hsame hfmt
  · obtain rfl : v = w := not_not.mp fun h => hv (holdOf_eq_any.mpr h)
    exact hdue ⟨hd, ht, h.imp_right fun ⟨idx, hi, hf⟩ => ⟨idx, hm idx hi, hf⟩⟩

end Sys2Proof.Machine
end

section
/-! Group 7, timed: `tkrd`, `tsend` and `trecv` (R170, R178, R179). -/

namespace Sys2Proof.Machine

/-! A change of a block leaves the rest of its warp, and with it what the machine says of the warp. -/

theorem State.warp_modBlk (s : State) (w v : Nat) (f : Blk → Blk) : ∃ o, (s.modBlk w f).warp v = { s.warp v with blk := o } := by
  cases hv : s.warps[v]? with
  | none =>
    exact ⟨(s.warp v).blk, by by_cases h : w = v <;> simp [State.warp, State.modBlk, List.getD, hv, h]⟩
  | some x =>
    by_cases h : w = v
    · exact ⟨x.blk.map f, by simp [State.warp, State.modBlk, List.getD, hv, h]⟩
    · exact ⟨x.blk, by simp [State.warp, State.modBlk, List.getD, hv, h]⟩

@[simp] theorem State.place_modBlk (s : State) (w v : Nat) (f : Blk → Blk) : (s.modBlk w f).place v = s.place v := by
  obtain ⟨o, h⟩ := s.warp_modBlk w v f
  unfold State.place
  rw [h]
  rfl

@[simp] theorem State.launchOf_modBlk (s : State) (w v : Nat) (f : Blk → Blk) : (s.modBlk w f).launchOf v = s.launchOf v := by
  unfold State.launchOf
  rw [State.place_modBlk]
  rfl

@[simp] theorem State.wRecon_modBlk (s : State) (w v : Nat) (f : Blk → Blk) : (s.modBlk w f).wRecon v = s.wRecon v := by
  unfold State.wRecon
  rw [State.place_modBlk]
  rfl

@[simp] theorem State.wPhase_modBlk (s : State) (w v : Nat) (f : Blk → Blk) : (s.modBlk w f).wPhase v = s.wPhase v := by
  simp [State.wPhase]

@[simp] theorem State.umpireOn_modBlk (s : State) (w v : Nat) (f : Blk → Blk) : (s.modBlk w f).umpireOn v = s.umpireOn v := by
  obtain ⟨o, h⟩ := s.warp_modBlk w v f
  unfold State.umpireOn
  rw [State.place_modBlk, h]
  rfl

@[simp] theorem State.ofTeam_modBlk (s : State) (w v : Nat) (f : Blk → Blk) (l : List (Nat × Nat)) :
    (s.modBlk w f).ofTeam v l = s.ofTeam v l := by
  obtain ⟨o, h⟩ := s.warp_modBlk w v f
  simp [State.ofTeam, h]

@[simp] theorem State.spadHazard_modBlk (s : State) (w v : Nat) (f : Blk → Blk) (b : Blk) (own : List (Nat × Nat))
    (reads writes : List (Nat × Nat × Nat)) : (s.modBlk w f).spadHazard v b own reads writes = s.spadHazard v b own reads writes := by
  have hc : (s.modBlk w f).copyHazard v reads = s.copyHazard v reads := by
    unfold State.copyHazard
    rw [State.launchOf_modBlk, State.place_modBlk]
    rfl
  have hr : (s.modBlk w f).rangeHazard v b own = s.rangeHazard v b own := by simp [State.rangeHazard]
  unfold State.spadHazard
  rw [State.umpireOn_modBlk, hc, hr]
  rfl

/-- Hazards of scratchpad accesses are found in umpire mode only (R183). -/
theorem State.spadHazard_of_umpireOff {s : State} {w : Nat} (h : s.umpireOn w = false) (b : Blk) (own : List (Nat × Nat))
    (reads writes : List (Nat × Nat × Nat)) : s.spadHazard w b own reads writes = none := by
  simp [State.spadHazard, h]

theorem State.blk?_eq_warp (s : State) (w : Nat) : s.blk? w = (s.warp w).blk := by
  unfold State.blk? State.warp
  rw [List.getD_eq_getElem?_getD]
  cases s.warps[w]? <;> rfl

/-! Faults of a firing instruction. -/

/-- A warp is in one of the contexts (R383). -/
theorem State.ctx_of_place_lt {s : State} (h : s.shapeOk) (w : Nat) : (s.place w).ctx < 256 := by
  obtain ⟨-, -, -, hg⟩ := h
  change (s.grid (s.place w).grid).ctx < _
  rw [State.grid, List.getD_eq_getElem?_getD]
  cases hx : s.grids[(s.place w).grid]? with
  | none => exact Nat.zero_lt_succ _
  | some g => exact hg g (List.mem_of_getElem? hx)

/-- The last record of a context after one is posted there. -/
theorem State.getLast_hubq_postRec {s : State} {c : Nat} (h : c < s.ctxs.length) (r : FRec) :
    ∃ f, ((s.postRec c r).ctx c).hubq.getLast? = some f ∧ f.code = r.code ∧ f.detail = r.detail ∧ f.index = r.index ∧ f.wid = r.wid := by
  simp [State.postRec, State.modCtx, State.ctx, List.getD, h]

/-- A warp that faults in a block is parked without it, and keeps its registers (R419, R421). -/
theorem State.fault_warp {s : State} {w : Nat} {b : Blk} (hb : s.blk? w = some b) (r : FRec) :
    ∃ q, (s.fault w r).warp w =
      { s.warp w with blk := none, unchecked := false, seat := q, park := { (s.warp w).park with fault := true } } := by
  obtain ⟨x, hx⟩ : ∃ x, s.warps[w]? = some x := by
    cases hx : s.warps[w]? with
    | none => simp [State.blk?, hx] at hb
    | some x => exact ⟨x, rfl⟩
  have ha : (s.abortBlock w).warps[w]? = some { x with blk := none, unchecked := false } := by
    simp [s.abortBlock_warps w b hb, hx]
  obtain ⟨q, hq⟩ := (s.abortBlock w).freeSeat_warp w w
  have hf : (s.fault w r).warp w = { ((s.abortBlock w).freeSeat w).warp w with
      park := { (((s.abortBlock w).freeSeat w).warp w).park with fault := true } } := by
    have hl : ((s.abortBlock w).freeSeat w).warps[w]?.isSome := by
      unfold State.freeSeat
      split <;> simp [ha]
    obtain ⟨y, hy⟩ := Option.isSome_iff_exists.mp hl
    simp [State.fault, State.warp, List.getD, hy]
  refine ⟨q, ?_⟩
  rw [hf, hq]
  simp [State.warp, List.getD, ha, hx]

/-- The last record of the context of a warp that faults is that of the fault (R421, R424). -/
theorem State.fault_record {s : State} (h : s.shapeOk) (w : Nat) (r : FRec) :
    ∃ f, ((s.fault w r).ctx (s.place w).ctx).hubq.getLast? = some f ∧ f.code = r.code ∧ f.detail = r.detail ∧ f.index = r.index ∧
      f.wid = some w := by
  have hc : (s.place w).ctx < (((s.abortBlock w).freeSeat w).modWarp w fun x => { x with park := { x.park with fault := true } }).ctxs.length := by
    obtain ⟨-, -, hn, -⟩ := (Kept.refl (fun _ => .any) s).abortBlock.freeSeat.shape h
    rw [State.modWarp_ctxs, hn]
    exact State.ctx_of_place_lt h w
  unfold State.fault
  split
  · exact State.getLast_hubq_postRec hc _
  · dsimp only
    split <;> exact State.getLast_hubq_postRec hc _

/-- What an instruction does that raises a fault once it has fired: what `FaultsAt` asks. -/
theorem faults_of_exec {i : Instr} {no : State → Blk → Args → Prop} {code detail : Nat}
    (h : ∀ s b x, s.Fires i b x → no s b x → ∃ r : FRec, exec i s = .next (s.markFired.fault s.cur r) ∧ r.code = code ∧
      r.detail = detail ∧ r.index = s.curIdx) : Faults i no code detail := by
  intro s b x hs hf hn
  obtain ⟨r, he, hcode, hdetail, hindex⟩ := h s b x hf hn
  have hb := s.blk?_modBlk s.cur s.marked b (s.blk?_of_issuing b hf.1)
  obtain ⟨q, hq⟩ := State.fault_warp hb r
  obtain ⟨o, ho⟩ := s.warp_modBlk s.cur s.cur s.marked
  obtain ⟨f, hlast, hfc, hfd, hfi, hfw⟩ := State.fault_record (s := s.markFired) hs s.cur r
  rw [ho] at hq
  refine ⟨_, he, State.fault_mem .., ?_, ?_, ?_, ?_, ?_, f, ?_, hfc.trans hcode, hfd.trans hdetail, hfi.trans hindex, hfw⟩
  · rw [State.blk?_eq_warp]
    exact congrArg Warp.blk hq
  · exact congrArg (fun x => x.park.fault) hq
  · exact (congrArg Warp.v hq :)
  · exact (congrArg Warp.s hq :)
  · exact (congrArg Warp.k hq :)
  · rwa [State.markFired, State.place_modBlk] at hlast

/-! The clauses. -/

theorem fld_eq_zero_of_top {d : Word} {lo n : Nat} (h : lo + n = 64) : fld d lo n = 0 ↔ d.toNat / 2 ^ lo = 0 := by
  have hd : d.toNat / 2 ^ lo < 2 ^ n := Nat.div_lt_of_lt_mul (by rw [← Nat.pow_add, h]; exact d.isLt)
  rw [fld, Nat.mod_eq_of_lt hd]

/-- A warp that broke a rule or not, with a block that changes. -/
theorem State.breachIf_modBlk {s : State} {w : Nat} {b : Blk} (hb : s.blk? w = some b) (f : Blk → Blk) (br : Bool) :
    (s.modBlk w f).breachIf w br =
      { s with warps := s.warps.modify w fun y => { y with blk := some (f b), breached := y.breached || br } } := by
  rw [State.modBlk_eq s w f b hb]
  cases br
  · simp [State.breachIf]
  · simp [State.breachIf, State.modWarp, List.modify_modify_eq, Function.comp_def]

/-- A zero bit of a descriptor is set (R2). -/
theorem dBreach_iff (d : Word) (send : Bool) :
    dBreach d send = true ↔ (d.toNat / 2 ^ 31 ≠ 0 ∨ d.toNat % 64 ≠ 0) ∨ send = true ∧ d.toNat / 2 ^ 25 % 64 ≠ 0 := by
  have h31 : fld d 31 33 = 0 ↔ d.toNat / 2 ^ 31 = 0 := fld_eq_zero_of_top rfl
  have h0 : fld d 0 6 = d.toNat % 64 := by simp [fld]
  simp only [dBreach, dLslot, Bool.or_eq_true, Bool.and_eq_true, bne_iff_ne, ne_eq, h31, h0]
  rfl

/-- `tsend` too late raises the stroke overrun fault (R178). -/
theorem execTsend_late {h : Hdr} {tick : BitVec 25} {s : State} {b : Blk} {x : Args} (hf : s.Fires (.tsend h tick) b x)
    (hn : tick.toNat < s.wPhase s.cur + 4) : execTsend h tick s = .next (s.markFired.faultAt s.cur s.curIdx 11 0) := by
  have hp : tick.toNat < s.markFired.wPhase s.cur + 4 := by simpa [State.markFired] using hn
  rw [execTsend, execQuiet, s.issue_fires _ h rfl _ _ _ b x hf rfl]
  exact congrArg Host.Outcome.next (if_pos hp)

/-- `tsend` in time, without a hazard, notes its transfer (R178). -/
theorem execTsend_sends {h : Hdr} {tick : BitVec 25} {s : State} {b : Blk} {x : Args} (hf : s.Fires (.tsend h tick) b x)
    (hn : s.wPhase s.cur + 4 ≤ tick.toNat)
    (hh : s.spadHazard s.cur b [(dOfs x.sa, dLen x.sa)] (s.ofTeam s.cur [(dOfs x.sa, dLen x.sa)]) [] = none) :
    ∃ y : TSend, execTsend h tick s = .next { s.markFired.breachIf s.cur (dBreach x.sa true) with tsends := s.tsends ++ [y] } ∧
      y.w = s.cur ∧ y.idx = s.curIdx ∧ y.ofs = dOfs x.sa ∧ y.len = dLen x.sa ∧
      y.start = s.wRecon s.cur - s.wPhase s.cur + tick.toNat ∧ y.committed = false ∧ y.sent = false ∧ y.team = (s.warp s.cur).team ∧
      y.before = (s.seen s.cur y.team).sendBytes (dOfs x.sa) (dLen x.sa) := by
  have hp : ¬ tick.toNat < s.wPhase s.cur + 4 := by omega
  have hb : ∀ (u : State) l br, ({ u with tsends := l }).breachIf s.cur br = { u.breachIf s.cur br with tsends := l } := by
    rintro u l (_ | _) <;> rfl
  rw [execTsend, execQuiet, s.issue_fires _ h rfl _ _ _ b x hf rfl]
  simp only [State.markFired, State.modBlk_cur, State.modBlk_curIdx, State.wPhase_modBlk, State.wRecon_modBlk, State.spadHazard_modBlk,
    State.ofTeam_modBlk, State.place_modBlk, if_neg hp, hh]
  exact ⟨_, congrArg Host.Outcome.next (hb _ _ _), rfl, rfl, rfl, rfl, rfl, rfl, rfl, rfl, rfl⟩

/-- The landing slot that `trecv` names is full (R177, R179). -/
def State.slotFull (s : State) (x : Args) : Bool :=
  (s.die (s.place s.cur).die).full.contains (dLslot x.sa) || s.landingDue (s.place s.cur).die (· == dLslot x.sa)

/-- It is when it was noted so or a transfer to it has come. -/
theorem State.slotFull_iff (s : State) (x : Args) : s.slotFull x = true ↔ dLslot x.sa ∈ (s.die (s.place s.cur).die).full ∨
    ∃ l ∈ s.landings, l.die = (s.place s.cur).die ∧ l.slot = dLslot x.sa ∧ l.at_ ≤ s.wRecon s.cur := by
  simp [State.slotFull, State.landingDue, State.wRecon, and_assoc]

/-- What `trecv` notes of its slot: that it copies it, or how long it waits for it (R179). -/
def State.recvOf (s : State) (x : Args) (tick : BitVec 25) : TRecv :=
  { idx := s.curIdx, slot := dLslot x.sa, len := dLen x.sa, ofs := dOfs x.sa,
    until_ := s.wRecon s.cur - s.wPhase s.cur + tick.toNat, copying := s.slotFull x, at_ := s.localTick (s.place s.cur).die,
    breach := dBreach x.sa false }

/-- The hazard of `trecv`'s write to its scratchpad (Table 6-9). -/
abbrev State.recvHazard (s : State) (b : Blk) (x : Args) : Option (Nat × Nat) :=
  s.spadHazard s.cur b [(dOfs x.sa, dLen x.sa)] [] (s.ofTeam s.cur [(dOfs x.sa, dLen x.sa)])

/-- What `trecv` does where it meets no hazard of the scratchpad (R179). -/
theorem execTrecv_fires {h : Hdr} {tick : BitVec 25} {s : State} {b : Blk} {x : Args} (hf : s.Fires (.trecv h tick) b x)
    (hh : s.recvHazard b x = none) : execTrecv h tick s = .next (
      if !s.slotFull x && s.umpireOn s.cur then s.markFired.hazard s.cur s.curIdx 1 (dLslot x.sa + 2 ^ 16 * s.wPhase s.cur)
      else if !s.slotFull x && decide (tick.toNat < s.wPhase s.cur) then s.markFired.faultAt s.cur s.curIdx 10 0
      else (s.modBlk s.cur fun b => { s.marked b with recv := b.recv ++ [s.recvOf x tick] }).breachIf s.cur (dBreach x.sa false)) := by
  have hm : ∀ f, (s.modBlk s.cur s.marked).modBlk s.cur f = s.modBlk s.cur fun b => f (s.marked b) := s.modBlk_modBlk s.cur s.marked
  rw [execTrecv, s.issue_fires _ h rfl _ _ _ b x hf rfl]
  simp only [State.markFired, State.modBlk_cur, State.modBlk_curIdx, State.wPhase_modBlk, State.wRecon_modBlk, State.spadHazard_modBlk,
    State.ofTeam_modBlk, State.place_modBlk, State.umpireOn_modBlk, hh, hm]
  rfl

/-- `trecv` of a full slot, or of one for which it may wait, notes it in its block. -/
theorem execTrecv_waits {h : Hdr} {tick : BitVec 25} {s : State} {b : Blk} {x : Args} (hf : s.Fires (.trecv h tick) b x)
    (hh : s.recvHazard b x = none) (hw : s.slotFull x = true ∨ s.umpireOn s.cur = false ∧ s.wPhase s.cur ≤ tick.toNat) :
    execTrecv h tick s = .next { s with warps := s.warps.modify s.cur fun y => { y with
      blk := some { s.marked b with recv := b.recv ++ [s.recvOf x tick] }, breached := y.breached || dBreach x.sa false } } := by
  have hb := State.breachIf_modBlk (s.blk?_of_issuing b hf.1) (fun b => { s.marked b with recv := b.recv ++ [s.recvOf x tick] })
    (dBreach x.sa false)
  rw [execTrecv_fires hf hh, ← hb]
  rcases hw with hw | ⟨hu, hp⟩
  · simp [hw]
  · simp [hu, Nat.not_lt.mpr hp]

/-- `trecv` whose window has passed raises the window miss fault. -/
theorem execTrecv_misses {h : Hdr} {tick : BitVec 25} {s : State} {b : Blk} {x : Args} (hf : s.Fires (.trecv h tick) b x)
    (hfull : ¬ s.slotFull x = true) (hu : s.umpireOn s.cur = false) (hp : tick.toNat < s.wPhase s.cur) :
    execTrecv h tick s = .next (s.markFired.faultAt s.cur s.curIdx 10 0) := by
  rw [execTrecv_fires hf (State.spadHazard_of_umpireOff hu ..)]
  simp [hfull, hu, hp]

/-- In umpire mode `trecv` of a slot that is not full raises hazard 1. -/
theorem execTrecv_hazard {h : Hdr} {tick : BitVec 25} {s : State} {b : Blk} {x : Args} (hf : s.Fires (.trecv h tick) b x)
    (hh : s.recvHazard b x = none) (hfull : ¬ s.slotFull x = true) (hu : s.umpireOn s.cur = true) :
    execTrecv h tick s = .next (s.markFired.hazard s.cur s.curIdx 1 (dLslot x.sa + 2 ^ 16 * s.wPhase s.cur)) := by
  rw [execTrecv_fires hf hh]
  simp [hfull, hu]

/-- Settles O23: what each of the three does when it fires, and what a fault leaves. -/
theorem timedInstructions : Obligations.TimedInstructions := by
  unfold Obligations.TimedInstructions
  dsimp only
  have value : ∀ h sel, Delivers (.tkrd h sel) fun s _ _ => twice (.s (BitVec.ofNat 64 (s.tkVal s.cur sel))) :=
    fun h _ s b x hf ht => execValue_delivers _ h rfl 0 _ s b x hf ht
  refine ⟨fun h => value h .phase, fun h => value h .wait, fun h => value h .work, fun h => value h .stroke,
    fun d => ⟨by simpa using dBreach_iff d false, by simpa using dBreach_iff d true⟩, ?_, ?_, ?_, ?_, ?_, ?_⟩
  · intro h tick s b x hf hn hh
    obtain ⟨y, he, hy⟩ := execTsend_sends hf hn hh
    have hb := State.breachIf_modBlk (s.blk?_of_issuing b hf.1) s.marked (dBreach x.sa true)
    refine ⟨_, y, he, ?_, rfl, hy⟩
    rw [State.markFired, hb]
  · exact fun h tick => faults_of_exec fun s b x hf hn => ⟨_, execTsend_late hf hn, rfl, rfl, rfl⟩
  · intro h tick s b x hf hh hfull
    have hfull : s.slotFull x = true := (s.slotFull_iff x).mpr hfull
    refine ⟨_, execTrecv_waits hf hh (.inl hfull), ?_, rfl⟩
    rw [State.recvOf, hfull]
    rfl
  · intro h tick s b x hf hfull hu hp
    have hfull : s.slotFull x = false := Bool.eq_false_iff.mpr fun e => hfull ((s.slotFull_iff x).mp e)
    refine ⟨_, execTrecv_waits hf (State.spadHazard_of_umpireOff hu ..) (.inr ⟨hu, hp⟩), ?_, rfl⟩
    rw [State.recvOf, hfull]
    rfl
  · refine fun h tick => faults_of_exec fun s b x hf ⟨hfull, hu, hp⟩ => ?_
    exact ⟨_, execTrecv_misses hf (fun e => hfull ((s.slotFull_iff x).mp e)) hu hp, rfl, rfl, rfl⟩
  · refine fun h tick => faults_of_exec fun s b x hf ⟨hfull, hu, hh⟩ => ?_
    exact ⟨_, execTrecv_hazard hf hh (fun e => hfull ((s.slotFull_iff x).mp e)) hu, rfl, rfl, rfl⟩

end Sys2Proof.Machine
end

section
/-! What every step keeps (R8, R30, R132, R383), and the values that reset leaves (R160, R269, R404). -/

namespace Sys2Proof.Machine

/-- Settles O32: a step keeps the fixed registers and the shape because each function that it uses does. -/
theorem stepKeepsFixedRegistersAndShape : Obligations.StepKeepsFixedRegistersAndShape := by
  unfold Obligations.StepKeepsFixedRegistersAndShape
  exact ⟨fun s t hs e => (step_kept_any e).fixed hs, fun s t hs e => (step_kept_any e).shape hs⟩

theorem State.reset_memOk : State.reset.memOk :=
  ⟨rfl, fun _ h => absurd h List.not_mem_nil, State.reset_landing_wf⟩

theorem State.reset_fixedOk : State.reset.fixedOk := fun _ h => absurd h List.not_mem_nil

/-- Settles O28: the lists of the reset state hold copies of one die, one queue and one context. -/
theorem resetValues : Obligations.ResetValues := by
  unfold Obligations.ResetValues
  refine ⟨rfl, rfl, List.length_replicate, fun d hd => ?_, List.length_replicate, fun q hq => ?_, List.length_replicate,
    fun c hc => ?_, rfl, rfl, fun _ => rfl, State.reset_memOk, State.reset_fixedOk, State.reset_shapeOk⟩
  · obtain rfl := List.eq_of_mem_replicate hd
    exact ⟨rfl, rfl, rfl, rfl, rfl, rfl⟩
  · obtain rfl := List.eq_of_mem_replicate hq
    exact ⟨rfl, rfl, rfl, rfl⟩
  · obtain rfl := List.eq_of_mem_replicate hc
    exact ⟨rfl, rfl⟩

end Sys2Proof.Machine
end

section
/-! Parts of the state after one of them has changed, and the fields of a 64-bit word after one of them has been set. -/

namespace Sys2Proof.Machine

theorem getD_modify_self {α : Type} {l : List α} {n : Nat} (h : n < l.length) (f : α → α) (d : α) :
    (l.modify n f).getD n d = f (l.getD n d) := by
  simp [List.getD_eq_getElem?_getD, h]

theorem getD_modify_ne {α : Type} (l : List α) {n m : Nat} (h : m ≠ n) (f : α → α) (d : α) : (l.modify n f).getD m d = l.getD m d := by
  simp [List.getD_eq_getElem?_getD, h.symm]

theorem State.queue_modQueue_self {s : State} {q : Nat} (h : q < s.queues.length) (f : Queue → Queue) :
    (s.modQueue q f).queue q = f (s.queue q) := getD_modify_self h f {}

theorem State.queue_modQueue_ne (s : State) {p q : Nat} (h : p ≠ q) (f : Queue → Queue) : (s.modQueue q f).queue p = s.queue p :=
  getD_modify_ne s.queues h f {}

theorem State.die_modDie_self {s : State} {d : Nat} (h : d < s.dies.length) (f : Die → Die) : (s.modDie d f).die d = f (s.die d) :=
  getD_modify_self h f {}

theorem State.grid_modGrid_self {s : State} {g : Nat} (h : g < s.grids.length) (f : Grid → Grid) : (s.modGrid g f).grid g = f (s.grid g) :=
  getD_modify_self h f default

theorem State.team_modTeam_self {s : State} {t : Nat} (h : t < s.teams.length) (f : Team → Team) : (s.modTeam t f).team t = f (s.team t) :=
  getD_modify_self h f default

theorem State.team_modTeam_ne (s : State) {t u : Nat} (h : u ≠ t) (f : Team → Team) : (s.modTeam t f).team u = s.team u :=
  getD_modify_ne s.teams h f default

theorem State.gang_modGang_self {s : State} {g : Nat} (h : g < s.gangs.length) (f : Gang → Gang) : (s.modGang g f).gang g = f (s.gang g) :=
  getD_modify_self h f default

/-- A word is the bits below a field, the field, and the bits above it. -/
theorem toNat_eq_fields (w : Word) (lo n : Nat) :
    w.toNat = w.toNat / 2 ^ (lo + n) * 2 ^ (lo + n) + fld w lo n * 2 ^ lo + w.toNat % 2 ^ lo := by
  conv_lhs => rw [← Nat.div_add_mod w.toNat (2 ^ lo), ← Nat.div_add_mod (w.toNat / 2 ^ lo) (2 ^ n), Nat.div_div_eq_div_mul, ← pow_add]
  rw [fld]
  ring

/-- Setting a field keeps the bits below and above it. -/
theorem toNat_setFld {lo n : Nat} (h : lo + n ≤ 64) (w : Word) (x : Nat) :
    (setFld w lo n x).toNat = (w.toNat / 2 ^ (lo + n) * 2 ^ n + x % 2 ^ n) * 2 ^ lo + w.toNat % 2 ^ lo := by
  have hw := toNat_eq_fields w lo n
  have hl : w.toNat % 2 ^ lo < 2 ^ lo := Nat.mod_lt _ (Nat.two_pow_pos lo)
  have hx : (x % 2 ^ n + 1) * 2 ^ lo ≤ 2 ^ n * 2 ^ lo := Nat.mul_le_mul_right _ (Nat.mod_lt _ (Nat.two_pow_pos n))
  have hhi : (w.toNat / 2 ^ (lo + n) + 1) * 2 ^ (lo + n) ≤ 2 ^ (64 - (lo + n)) * 2 ^ (lo + n) :=
    Nat.mul_le_mul_right _ (Nat.div_lt_of_lt_mul (by rw [← pow_add, Nat.add_sub_cancel' h]; exact w.isLt))
  rw [← pow_add, Nat.sub_add_cancel h, add_one_mul] at hhi
  rw [← pow_add, add_one_mul, Nat.add_comm n lo] at hx
  rw [add_mul, mul_assoc, ← pow_add, Nat.add_comm n lo, setFld, BitVec.toNat_ofNat, Nat.mod_eq_of_lt] <;> omega

theorem toNat_setFld_mod {lo n : Nat} (h : lo + n ≤ 64) (w : Word) (x : Nat) : (setFld w lo n x).toNat % 2 ^ lo = w.toNat % 2 ^ lo := by
  rw [toNat_setFld h, Nat.mul_add_mod', Nat.mod_mod]

theorem toNat_setFld_div {lo n : Nat} (h : lo + n ≤ 64) (w : Word) (x : Nat) :
    (setFld w lo n x).toNat / 2 ^ lo = w.toNat / 2 ^ (lo + n) * 2 ^ n + x % 2 ^ n := by
  rw [toNat_setFld h, mul_comm _ (2 ^ lo), Nat.mul_add_div (Nat.two_pow_pos lo), Nat.mod_div_self, Nat.add_zero]

theorem fld_setFld_self {lo n : Nat} (h : lo + n ≤ 64) (w : Word) (x : Nat) : fld (setFld w lo n x) lo n = x % 2 ^ n := by
  rw [fld, toNat_setFld_div h, Nat.mul_add_mod', Nat.mod_mod]

theorem fld_setFld_below {lo n a m : Nat} (h : lo + n ≤ 64) (hb : a + m ≤ lo) (w : Word) (x : Nat) :
    fld (setFld w lo n x) a m = fld w a m := by
  have hd : 2 ^ (a + m) ∣ 2 ^ lo := pow_dvd_pow 2 hb
  rw [fld, fld, ← Nat.mod_mul_right_div_self, ← Nat.mod_mul_right_div_self, ← pow_add, ← Nat.mod_mod_of_dvd _ hd, toNat_setFld_mod h,
    Nat.mod_mod_of_dvd _ hd]

theorem fld_setFld_above {lo n a m : Nat} (h : lo + n ≤ 64) (ha : lo + n ≤ a) (w : Word) (x : Nat) :
    fld (setFld w lo n x) a m = fld w a m := by
  obtain ⟨d, rfl⟩ := Nat.exists_eq_add_of_le ha
  have hx : x % 2 ^ n < 2 ^ n := Nat.mod_lt _ (Nat.two_pow_pos n)
  simp only [fld, Nat.add_assoc, pow_add, ← Nat.div_div_eq_div_mul, toNat_setFld_div h]
  rw [mul_comm, Nat.mul_add_div (Nat.two_pow_pos n), Nat.div_eq_of_lt hx, Nat.add_zero]

end Sys2Proof.Machine
end

section
/-! Launch queues (R132 to R134, R137, R138, R142). -/

namespace Sys2Proof.Machine

theorem State.runs_iff (s : State) : s.runs = true ↔ s.pkg.up = .ready ∨ s.pkg.up = .degraded := by
  simp [State.runs]

/-! `LQCTL` (R132). -/

/-- A queue is disabled and holds no command, no reservation of a push and no launch that is not yet complete. -/
abbrev State.queueIdle (s : State) (q : Nat) : Prop :=
  (s.queue q).ctl.getLsbD 10 = false ∧ (s.queue q).entries = [] ∧ (s.queue q).reserved = 0 ∧ ∀ g ∈ s.grids, g.queue = q → g.done = true

/-- Whether a write of `v` to `LQCTL` binds its queue. -/
def State.binds (s : State) (q : Nat) (v : Word) : Bool :=
  decide (s.queueIdle q ∧ fld v 0 8 ≠ fld (s.queue q).ctl 0 8 ∧ (s.ctx (fld v 0 8)).st = .active)

theorem State.writeLqctl_eq (s : State) (q : Nat) (v : Word) : s.writeLqctl q v = s.modQueue q fun x =>
    let y := { x with
      ctl := setFld (v &&& lqctlBits) 0 8 (if s.binds q v then fld v 0 8 else fld x.ctl 0 8)
      prio := if s.binds q v || fld v 8 2 != fld x.ctl 8 2 then fld v 8 2 else x.prio }
    if s.binds q v then { y with tll := {}, stat := 0 } else y := by
  have h : (fld v 0 8 != fld (s.queue q).ctl 0 8 && !((s.queue q).ctl.getLsbD 10 || !(s.queue q).entries.isEmpty ||
      (s.queue q).reserved != 0 || s.grids.any fun g => g.queue == q && !g.done) && (s.ctx (fld v 0 8)).st == .active) = s.binds q v := by
    rw [Bool.eq_iff_iff]
    simp only [State.binds, decide_eq_true_eq]
    simp [State.queueIdle]
    tauto
  rw [State.writeLqctl, h]

theorem toNat_and_lqctlBits (v : Word) : (v &&& lqctlBits).toNat = v.toNat % 2 ^ 12 := by
  rw [BitVec.toNat_and]
  exact Nat.and_two_pow_sub_one_eq_mod v.toNat 12

theorem fld_and_lqctlBits {lo n : Nat} (h : lo + n ≤ 12) (v : Word) : fld (v &&& lqctlBits) lo n = fld v lo n := by
  rw [fld, toNat_and_lqctlBits, ← Nat.mod_mul_right_div_self, ← pow_add, Nat.mod_mod_of_dvd _ (pow_dvd_pow 2 h), pow_add,
    Nat.mod_mul_right_div_self, fld]

theorem fld_and_lqctlBits_top (v : Word) : fld (v &&& lqctlBits) 12 52 = 0 := by
  rw [fld, toNat_and_lqctlBits]
  omega

/-- Setting a field to what it holds changes nothing. -/
theorem setFld_fld {lo n : Nat} (h : lo + n ≤ 64) (w : Word) : setFld w lo n (fld w lo n) = w := by
  apply BitVec.eq_of_toNat_eq
  rw [toNat_setFld h, fld, Nat.mod_mod, add_mul, mul_assoc, ← pow_add, Nat.add_comm n lo]
  exact (toNat_eq_fields w lo n).symm

/-! A command enters (R133, R137). -/

theorem State.idleRoom_congr (s : State) (q : Nat) {e e' : QEntry} (h : e.seq = e'.seq) (l : LaunchRec) :
    s.idleRoom q e l = s.idleRoom q e' l := by
  simp only [State.idleRoom, State.newGrid, h]

/-- The checks of an entering command see its number and its image only. -/
theorem State.launchCheck_congr (s : State) (q : Nat) {e e' : QEntry} (h : e.seq = e'.seq) (hc : e.cmd = e'.cmd) (p : Option (Nat × Bool)) :
    s.launchCheck q e p = s.launchCheck q e' p := by
  simp only [State.launchCheck, hc, s.idleRoom_congr q h]

/-! The checks of a command (R138). -/

theorem State.launchCheck_command {s : State} {q : Nat} {e : QEntry} (p : Option (Nat × Bool)) (h : launchCmdOk e.cmd = false) :
    (s.launchCheck q e p).1 = 1 := by
  simp [State.launchCheck, h]

theorem State.launchCheck_address {s : State} {q : Nat} {e : QEntry} (p : Option (Nat × Bool)) (h : launchCmdOk e.cmd = true)
    (ha : 2 ^ 48 ≤ (e.cmd.getD 1 0).toNat ∨ (e.cmd.getD 1 0).toNat % 128 ≠ 0) : (s.launchCheck q e p).1 = 2 := by
  simp only [State.launchCheck, h, Bool.not_true, Bool.false_eq_true, if_false, if_pos ha]

/-- A launch that no check rejects has its fields in range, a kernel to run and room on an idle package. -/
theorem State.launchCheck_accepts {s : State} {q : Nat} {e : QEntry} {p : Option (Nat × Bool)} (h : (s.launchCheck q e p).1 = 0) :
    s.fieldsOk (fld (s.queue q).ctl 0 8) (s.launchCheck q e p).2 = true ∧ s.kernelOk (fld (s.queue q).ctl 0 8) (s.launchCheck q e p).2 = true ∧
      s.idleRoom q e (s.launchCheck q e p).2 = true := by
  revert h
  fun_cases State.launchCheck s q e p
  case case8 =>
    rename_i hf hk hi
    exact fun _ => ⟨by simpa using hf, by simpa using hk, by simpa using hi⟩
  all_goals exact fun h => nomatch h

/-! A launch completes on its queue (R134, R225). -/

/-- A queue on which launch `seq` completes with its error cause or 0. -/
def Queue.ended (x : Queue) (seq cause : Nat) : Queue :=
  let head := x.entries.head?.any fun e => e.seq == seq
  { x with
    tll := x.tll.finish seq cause, entries := x.entries.filter fun e => e.seq != seq,
    eligAt := if head then none else x.eligAt, urgent := x.urgent && !head,
    stat := if cause = 0 then x.stat else setFld (setFld x.stat 8 24 seq) 0 8 cause }

theorem State.endLaunch_only (s : State) (q seq cause : Nat) :
    ∃ l, s.endLaunch q seq cause = { s.modQueue q (·.ended seq cause) with objs := l } := ⟨_, rfl⟩

theorem State.queue_endLaunch {s : State} {q : Nat} (h : q < s.queues.length) (seq cause : Nat) :
    (s.endLaunch q seq cause).queue q = (s.queue q).ended seq cause := State.queue_modQueue_self h _

theorem Queue.ended_stat {x : Queue} {seq cause : Nat} (h : cause ≠ 0) :
    fld (x.ended seq cause).stat 0 8 = cause % 256 ∧ fld (x.ended seq cause).stat 8 24 = seq % 2 ^ 24 := by
  simp only [Queue.ended, if_neg h]
  exact ⟨fld_setFld_self (by decide) _ _, by rw [fld_setFld_above (by decide) (by decide), fld_setFld_self (by decide)]⟩

theorem State.childEntered_queues (s : State) (e : QEntry) : (s.childEntered e).queues = s.queues := by
  unfold State.childEntered
  split <;> rfl

theorem State.queue_childEntered (s : State) (e : QEntry) (q : Nat) : (s.childEntered e).queue q = s.queue q := by
  rw [State.queue, s.childEntered_queues, State.queue]

/-! The events. -/

/-- The fields of `LQSTAT` once the count of dropped commands and the reason of the drop are set (R134). -/
theorem fld_drop (w : Word) {n why : Nat} (hn : n < 2 ^ 24) (hw : why < 2 ^ 2) :
    fld (setFld (setFld w 40 24 n) 32 2 why) 40 24 = n ∧ fld (setFld (setFld w 40 24 n) 32 2 why) 32 2 = why ∧
      fld (setFld (setFld w 40 24 n) 32 2 why) 0 32 = fld w 0 32 := by
  refine ⟨?_, ?_, ?_⟩
  · rw [fld_setFld_above (by decide) (by decide), fld_setFld_self (by decide), Nat.mod_eq_of_lt hn]
  · rw [fld_setFld_self (by decide), Nat.mod_eq_of_lt hw]
  · rw [fld_setFld_below (by decide) (by decide), fld_setFld_below (by decide) (by decide)]

theorem execLqctlWrite_binds {s : State} {q : Nat} {v : Word} (hq : q < s.queues.length) (h : s.binds q v = true) :
    ∃ t, exec (.lqctlWrite q v) s = .next t ∧ (t.queue q).ctl = v &&& 0xFFF ∧ (t.queue q).tll = {} ∧ (t.queue q).stat = 0 ∧
      (t.queue q).prio = fld v 8 2 ∧ ∀ p, p ≠ q → t.queue p = s.queue p := by
  refine ⟨s.writeLqctl q v, rfl, ?_⟩
  have hctl : setFld (v &&& lqctlBits) 0 8 (fld v 0 8) = v &&& 0xFFF := by
    rw [← fld_and_lqctlBits (by decide) v, setFld_fld (by decide)]
    rfl
  simp only [State.writeLqctl_eq, State.queue_modQueue_self hq, h, if_true, Bool.true_or]
  exact ⟨hctl, trivial, trivial, trivial, fun p hp => State.queue_modQueue_ne s hp _⟩

theorem execLqctlWrite_keeps {s : State} {q : Nat} {v : Word} (hq : q < s.queues.length) (h : s.binds q v = false) :
    ∃ t, exec (.lqctlWrite q v) s = .next t ∧ fld (t.queue q).ctl 0 8 = fld (s.queue q).ctl 0 8 ∧
      fld (t.queue q).ctl 8 4 = fld v 8 4 ∧ fld (t.queue q).ctl 12 52 = 0 ∧ (t.queue q).tll = (s.queue q).tll ∧
      (t.queue q).stat = (s.queue q).stat ∧ (t.queue q).entries = (s.queue q).entries ∧ ∀ p, p ≠ q → t.queue p = s.queue p := by
  refine ⟨s.writeLqctl q v, rfl, ?_⟩
  simp only [State.writeLqctl_eq, State.queue_modQueue_self hq, h, Bool.false_eq_true, if_false]
  refine ⟨?_, ?_, ?_, trivial, trivial, trivial, fun p hp => State.queue_modQueue_ne s hp _⟩
  · rw [fld_setFld_self (by decide), fld, Nat.mod_mod]
  · rw [fld_setFld_above (by decide) (by decide), fld_and_lqctlBits (by decide)]
  · rw [fld_setFld_above (by decide) (by decide), fld_and_lqctlBits_top]

theorem execSubmissionWindowWrite_enters {s : State} {q : Nat} {cmd : List Word} (hr : s.runs = true)
    (hen : (s.queue q).ctl.getLsbD 10 = true) (hroom : (s.queue q).entries.length + (s.queue q).reserved < 256)
    (hb : s.homeBusy (fld (s.queue q).ctl 0 8) (cmd.getD 1 0).toNat 128 = false) :
    exec (.submissionWindowWrite q cmd) s = .next (s.enterQueue q (cmd.take 8) none none) := by
  simp only [exec, execSubmissionWindowWrite, hr, hen, if_neg (Nat.not_le.mpr hroom), hb]
  rfl

/-- A command is dropped, and `LQSTAT` counts it, where the queue is disabled (`DWHY` 2) or full (1) (R134). -/
theorem execSubmissionWindowWrite_drops {s : State} {q : Nat} (cmd : List Word) (hr : s.runs = true)
    (h : (s.queue q).ctl.getLsbD 10 = false ∨ 256 ≤ (s.queue q).entries.length + (s.queue q).reserved) :
    exec (.submissionWindowWrite q cmd) s = .next (s.modQueue q fun x => { x with
      stat := setFld (setFld x.stat 40 24 (min 16777215 (fld x.stat 40 24 + 1))) 32 2 (if (s.queue q).ctl.getLsbD 10 = false then 2 else 1) }) := by
  cases hen : (s.queue q).ctl.getLsbD 10
  · simp only [exec, execSubmissionWindowWrite, hr, hen]
    rfl
  · have hfull := h.resolve_left (by simp [hen])
    simp only [exec, execSubmissionWindowWrite, hr, hen, if_pos hfull]
    rfl

theorem execLaunch_accepts {s : State} {q : Nat} {e : QEntry} {l : LaunchRec} (hr : s.runs = true)
    (he : (s.queue q).entries.find? (fun e => e.read.isNone) = some e) (hp : e.parent = none) (hv : e.verdict = (0, l)) :
    exec (.launch q) s = .next (s.modQueue q fun x =>
      { x with entries := x.entries.map fun y => if y.seq = e.seq then { y with read := some l } else y }) := by
  simp [exec, execLaunch, he, hr, State.childEntered, hp, hv]

theorem execLaunch_rejects {s : State} {q : Nat} {e : QEntry} {c : Nat} {l : LaunchRec} (hr : s.runs = true)
    (he : (s.queue q).entries.find? (fun e => e.read.isNone) = some e) (hv : e.verdict = (c, l)) (hc : c ≠ 0) :
    exec (.launch q) s = .next ((s.childEntered e).endLaunch q e.seq c) := by
  simp [exec, execLaunch, he, hr, hv, hc]

/-- Settles O44: each clause is the lemma about its event. -/
theorem launchQueues : Obligations.LaunchQueues := by
  unfold Obligations.LaunchQueues
  dsimp only
  simp only [← State.runs_iff]
  refine ⟨?bind, ?keep, fun _ _ _ => rfl, ?enter, ?down, ?drop, ?accept, ?reject, ?check, ?rise⟩
  case bind =>
    intro s q v hq hi hv ha
    exact execLqctlWrite_binds hq (decide_eq_true ⟨hi, hv, ha⟩)
  case keep =>
    intro s q v hq h
    refine execLqctlWrite_keeps hq (decide_eq_false fun ⟨hi, hv, ha⟩ => ?_)
    rcases h with h | h | h
    exacts [h hi, hv h, h ha]
  case enter =>
    intro s q cmd hr hen hroom hb
    let e0 : QEntry := { seq := (s.queue q).tll.issued + 1, cmd := cmd.take 8, parent := none, read := none, xwarps := [] }
    refine ⟨{ e0 with verdict := s.launchCheck q e0 none }, rfl, rfl, rfl, rfl, rfl, rfl, s.launchCheck_congr q rfl rfl none, ?_⟩
    exact execSubmissionWindowWrite_enters hr hen hroom hb
  case down =>
    intro s q cmd hr
    refine ⟨by simp [exec, execSubmissionWindowWrite, hr], ?_⟩
    simp only [exec, execLaunch, hr]
    split <;> rfl
  case drop =>
    intro s q cmd hr hq h
    refine ⟨_, execSubmissionWindowWrite_drops cmd hr h, ?_⟩
    rw [State.queue_modQueue_self hq]
    obtain ⟨hcount, hwhy, hlow⟩ := fld_drop (s.queue q).stat (n := min 16777215 (fld (s.queue q).stat 40 24 + 1))
      (why := if (s.queue q).ctl.getLsbD 10 = false then 2 else 1) (by omega) (by split <;> decide)
    exact ⟨rfl, rfl, hcount, hwhy, hlow, fun p hp => State.queue_modQueue_ne s hp _⟩
  case accept =>
    intro s q e l hr he hp hv
    exact execLaunch_accepts hr he hp hv
  case reject =>
    intro s q e c l hr he hv hc hq
    refine ⟨_, execLaunch_rejects hr he hv hc, ?_⟩
    rw [State.queue_endLaunch (by rwa [State.childEntered_queues]), State.queue_childEntered]
    obtain ⟨hcause, hseq⟩ := Queue.ended_stat (x := s.queue q) (seq := e.seq) hc
    refine ⟨rfl, ?_, hcause, hseq⟩
    simp [Queue.ended, bne, beq_eq_decide]
  case check =>
    exact fun s q e p => ⟨State.launchCheck_command p, State.launchCheck_address p, State.launchCheck_accepts⟩
  case rise =>
    intro s q n hn he hs
    simp [exec, execEffectivePriorityRise, hn, he, hs, State.modQueue]

end Sys2Proof.Machine
end

section
/-! Power, bring-up and the management interface (R8, R15, R17 to R22, R404). -/

namespace Sys2Proof.Machine

/-! What degrades a package (R451). -/

theorem State.degrade_of_not {s : State} (h : s.degradedNow = false) : s.degrade = s := by
  simp [State.degrade, h]

/-- Only the bring-up state and the replace mark change when a package degrades. -/
theorem State.degrade_ready {s : State} (h : s.pkg.up = .ready) :
    s.degrade.dies = s.dies ∧ (s.degrade.pkg.up = .ready ∨ s.degrade.pkg.up = .degraded) := by
  unfold State.degrade
  split
  · exact ⟨rfl, .inr rfl⟩
  · exact ⟨rfl, .inl h⟩

/-- The dies with their reconciled counters at the stakeboat's count, as LINK INIT leaves them (R160). -/
def State.linked (s : State) : State :=
  { s with
    dies := s.dies.map fun (d : Die) => { d with recon := s.stake }
    pkg := { s.pkg with up := .ready, pcieUp := true } }

theorem State.degradedNow_linked (s : State) : s.linked.degradedNow = s.degradedNow := by
  have hf : ∀ d, (s.linked.die d).fenced = (s.die d).fenced := fun d => by
    simp only [State.linked, State.die, List.getD_eq_getElem?_getD, List.getElem?_map]
    cases s.dies[d]? <;> rfl
  have hl : (s.linked.dies.any fun d => match d.lost with
      | some t => decide (t + 2 ^ 30 ≤ s.stake)
      | none => false) = s.dies.any fun d => match d.lost with
      | some t => decide (t + 2 ^ 30 ≤ s.stake)
      | none => false := List.any_map
  unfold State.degradedNow
  simp only [hf]
  exact congrArg (_ || ·) hl

/-! The bring-up states (R18). -/

/-- A bring-up state that fails keeps its cause. -/
theorem execBringUpStageComplete_fails {s : State} {c : BitVec 8}
    (h : s.pkg.up ∈ [BringUp.standby, .secureBoot, .runtimeLoad, .memoryInit, .linkInit]) :
    exec (.bringUpStageComplete (some c)) s = .next { s with pkg := { s.pkg with up := .failed, cause := c } } := by
  simp only [List.mem_cons, List.not_mem_nil, or_false] at h
  rcases h with h | h | h | h | h <;> simp only [exec, execBringUpStageComplete, h] <;> rfl

theorem execBringUpStageComplete_standby {s : State} (h : s.pkg.up = .standby) :
    exec (.bringUpStageComplete none) s = .next (s.modPkg fun p => { p with up := .secureBoot }) := by
  simp only [exec, execBringUpStageComplete, h]

theorem execBringUpStageComplete_secureBoot {s : State} (h : s.pkg.up = .secureBoot) :
    exec (.bringUpStageComplete none) s = .next (if s.pkg.bootRefused then
        { s with
          pkg := { s.pkg with up := .failed, cause := (Config.freeWord s.fresh).extractLsb' 0 8, booting := none }
          fresh := s.fresh + 1 }
      else s.modPkg fun p => { p.secureBoot with up := .runtimeLoad }) := by
  simp only [exec, execBringUpStageComplete, h]
  rfl

theorem execBringUpStageComplete_runtimeLoad {s : State} (h : s.pkg.up = .runtimeLoad) :
    exec (.bringUpStageComplete none) s =
      .next ((s.modCtx 0 fun _ => Ctx.created).modPkg fun p => { p with up := .memoryInit }) := by
  simp only [exec, execBringUpStageComplete, h]

theorem execBringUpStageComplete_memoryInit {s : State} (h : s.pkg.up = .memoryInit) :
    exec (.bringUpStageComplete none) s =
      .next ({ s with mem := [], memPoison := [] }.modPkg fun p => { p with up := .linkInit }) := by
  simp only [exec, execBringUpStageComplete, h]

theorem execBringUpStageComplete_linkInit {s : State} (h : s.pkg.up = .linkInit) :
    exec (.bringUpStageComplete none) s = .next s.linked.degrade := by
  simp only [exec, execBringUpStageComplete, h]
  rfl

/-- SECURE BOOT takes an image that is signed and whose security versions are not below the fused one (R22, R404). -/
theorem Package.bootRefused_iff (p : Package) : p.bootRefused = false ↔ Config.imageSigned (p.booting.getD p.firmware) = true ∧
    Config.svnFused ≤ Config.svnt (p.booting.getD p.firmware) ∧ Config.svnFused ≤ Config.svnr (p.booting.getD p.firmware) := by
  simp [Package.bootRefused, imageOk, and_assoc]

/-- Settles O54: each clause is what its event does in the bring-up state that it names. -/
theorem packageComesUp : Obligations.PackageComesUp := by
  unfold Obligations.PackageComesUp
  dsimp only
  refine ⟨?trip, fun _ => rfl, ?on, ?barred, ?standby, Package.bootRefused_iff, ?secure, ?runtime, ?memory, ?link, ?fail, ?cap, ?noCap,
    fun _ _ => rfl, ?misroute, ?routed⟩
  case trip =>
    intro s h
    have e : exec .thermalTrip s = .next (s.powerOff { s.pkg with trip := true, tripLog := s.pkg.tripLog + 1 }) := by
      rw [exec, execThermalTrip, if_neg (by simpa using h)]
    exact ⟨_, e, rfl, rfl, rfl, rfl, rfl, rfl, rfl⟩
  case on =>
    intro s p hu ht
    have e : exec (.powerOn p) s = .next ((s.powerOff s.pkg).modPkg fun k =>
        { k with up := .standby, rootPort := p, booting := k.staged, staged := none }) := by
      rw [exec, execPowerOn, if_pos (by simp [hu, ht])]
    exact ⟨_, e, rfl, rfl, rfl, rfl, rfl, rfl⟩
  case barred =>
    intro s p ht
    rw [exec, execPowerOn, if_neg (by simp [ht])]
  case standby =>
    exact fun s h => ⟨_, execBringUpStageComplete_standby h, rfl⟩
  case secure =>
    intro s h
    refine ⟨_, execBringUpStageComplete_secureBoot h, ?_⟩
    cases hb : s.pkg.bootRefused
    · exact ⟨rfl, fun _ => ⟨rfl, rfl, rfl, rfl, rfl, rfl⟩, nofun⟩
    · exact ⟨rfl, nofun, fun _ => ⟨rfl, rfl⟩⟩
  case runtime =>
    intro s h hc
    refine ⟨_, execBringUpStageComplete_runtimeLoad h, rfl, ?_⟩
    exact congrArg Ctx.st (getD_modify_self (by omega) _ _)
  case memory =>
    exact fun s h => ⟨_, execBringUpStageComplete_memoryInit h, rfl, fun _ => rfl, rfl⟩
  case link =>
    intro s h
    obtain ⟨hd, hu⟩ := State.degrade_ready (s := s.linked) rfl
    refine ⟨_, execBringUpStageComplete_linkInit h, hu, fun hn => ?_, fun d hm => ?_⟩
    · rw [State.degrade_of_not (s.degradedNow_linked.trans hn)]
      rfl
    · rw [hd] at hm
      obtain ⟨x, -, rfl⟩ := List.mem_map.mp hm
      rfl
  case fail => exact fun s c h => execBringUpStageComplete_fails h
  case cap =>
    intro s w hlo hhi hs
    rw [exec, execSetPowerCap, if_pos ⟨hlo, hhi, hs⟩]
    rfl
  case noCap =>
    intro s w h
    rw [exec, execSetPowerCap, if_neg (by omega)]
  case misroute =>
    intro s n hlo hhi
    rw [exec, execMisroutedPacket, if_pos ⟨hlo, hhi⟩]
    rfl
  case routed =>
    intro s n h
    rw [exec, execMisroutedPacket, if_neg (by omega)]

end Sys2Proof.Machine
end

section
/-! Clocks: their ticks, the tick exchange, refresh and clock steps (R10, R11, R15 to R17, R160 to R163, R174). -/

namespace Sys2Proof.Machine

/-! A tick of a die (R160, R162). -/

/-- The advances that a die may make in its next local tick: by 1, or by 0 or 2 where it may correct. -/
def Die.Advances (x y : Die) : Prop :=
  ∃ n a, y = { x with reconAcc := a }.advance n ∧ n ≤ 2 ∧ (n ≠ 1 → x.may = true)

theorem Die.tick_advances {x : Die} (h : x.stopped = false) (stake : Nat) : x.Advances (x.tick stake) := by
  unfold Die.tick
  rw [if_neg (by simp [h])]
  extract_lets d nearer
  obtain ⟨a, hd⟩ : ∃ a, d = { x with reconAcc := a } := by
    dsimp only [d]
    split
    · exact ⟨_, rfl⟩
    · exact ⟨x.reconAcc, rfl⟩
  clear_value nearer d
  subst hd
  split
  case isTrue hc =>
    simp only [Bool.and_eq_true] at hc
    exact ⟨2, a, rfl, le_rfl, fun _ => hc.1.1⟩
  case isFalse =>
    split
    case isTrue hc =>
      simp only [Bool.and_eq_true] at hc
      exact ⟨0, a, rfl, by decide, fun _ => hc.1.1⟩
    case isFalse => exact ⟨1, a, rfl, by decide, fun h => absurd rfl h⟩

theorem Die.Advances.local_eq {x y : Die} (h : x.Advances y) : y.local_ = x.local_ + 1 := by
  obtain ⟨n, a, rfl, -⟩ := h
  rfl

theorem Die.Advances.recon_le {x y : Die} (h : x.Advances y) : x.recon ≤ y.recon ∧ y.recon ≤ x.recon + 2 := by
  obtain ⟨n, a, rfl, hn, -⟩ := h
  simp only [Die.advance]
  omega

/-- A tick in which the reconciled counter does not advance by 1 is a correction, 64 ticks or more after the one before (R162). -/
theorem Die.Advances.corrects {x y : Die} (h : x.Advances y) (hr : y.recon ≠ x.recon + 1) :
    y.lastCorr = some y.local_ ∧ ∀ n, x.lastCorr = some n → n + 64 ≤ y.local_ := by
  obtain ⟨n, a, rfl, -, hm⟩ := h
  have h1 : n ≠ 1 := fun e => hr (by rw [e]; rfl)
  refine ⟨if_neg h1, fun m hl => ?_⟩
  have hmay : m + 64 ≤ x.local_ + 1 := by simpa only [Die.may, hl, decide_eq_true_eq] using hm h1
  exact hmay

/-! What the counts of pace and the settling of a die leave. -/

@[simp] theorem Die.paced_local (x : Die) (own stake : Bool) : (x.paced own stake).local_ = x.local_ := rfl

@[simp] theorem Die.paced_recon (x : Die) (own stake : Bool) : (x.paced own stake).recon = x.recon := rfl

@[simp] theorem Die.paced_lastCorr (x : Die) (own stake : Bool) : (x.paced own stake).lastCorr = x.lastCorr := rfl

theorem Die.settle_eq (x : Die) (stake : Nat) : ∃ b, x.settle stake = { x with adrift := b } := by
  unfold Die.settle
  split
  · exact ⟨_, rfl⟩
  · exact ⟨x.adrift, rfl⟩

@[simp] theorem Die.settle_local (x : Die) (stake : Nat) : (x.settle stake).local_ = x.local_ := by
  obtain ⟨b, hb⟩ := x.settle_eq stake
  rw [hb]

@[simp] theorem Die.settle_recon (x : Die) (stake : Nat) : (x.settle stake).recon = x.recon := by
  obtain ⟨b, hb⟩ := x.settle_eq stake
  rw [hb]

@[simp] theorem Die.settle_lastCorr (x : Die) (stake : Nat) : (x.settle stake).lastCorr = x.lastCorr := by
  obtain ⟨b, hb⟩ := x.settle_eq stake
  rw [hb]

/-! A tick of one clock (R10). -/

/-- A tick of die `c` of its own: the die becomes `y` where the bounds allow it, and no other die and no count changes. -/
theorem State.dieClock_cases (s : State) (c : Nat) (y : Die) : s.dieClock c y = s ∨
    ((s.die c).stopped = false ∧ s.dieMay c y = true ∧ (s.dieClock c y).stake = s.stake ∧
      (s.dieClock c y).dies = s.dies.set c (y.paced true false)) := by
  unfold State.dieClock
  split
  · exact .inl rfl
  · rename_i h
    simp only [Bool.or_eq_true, not_or, Bool.not_eq_true, Bool.not_eq_false'] at h
    exact .inr ⟨h.1, h.2, rfl, rfl⟩

theorem State.die_of_set {s t : State} {c : Nat} {y : Die} (h : t.dies = s.dies.set c y) (hc : c < s.dies.length) : t.die c = y := by
  simp [State.die, h, hc]

theorem State.die_of_set_ne {s t : State} {c d : Nat} {y : Die} (h : t.dies = s.dies.set c y) (hd : d ≠ c) : t.die d = s.die d := by
  simp [State.die, List.getD_eq_getElem?_getD, h, List.getElem?_set_ne hd.symm]

theorem apart_comm (a b : Nat) : apart a b = apart b a := Nat.add_comm ..

theorem State.dieMay_apart {s : State} {c e : Nat} {y : Die} (h : s.dieMay c y = true) (hr : s.reconciled = true)
    (hc : (s.die c).promised = true) (he : e < s.dies.length) (hne : e ≠ c) (hp : (s.die e).promised = true) :
    apart y.recon (s.die e).recon ≤ 2 := by
  simp only [State.dieMay, hr, hc, Bool.and_eq_true, Bool.or_eq_true, Bool.not_true, Bool.false_eq_true, false_or,
    List.all_eq_true, List.mem_range, decide_eq_true_eq] at h
  obtain ⟨-, -, hall⟩ := h
  simpa [hne, hp] using hall e he

/-- A die that ticks of its own stays within 2 of the dies that R162 binds it to. -/
theorem State.dieClock_apart {s : State} {c d e : Nat} (y : Die) (hr : s.reconciled = true) (hne : d ≠ e) (hd : d < s.dies.length)
    (he : e < s.dies.length) (hpd : (s.die d).promised = true) (hpe : (s.die e).promised = true) :
    apart ((s.dieClock c y).die d).recon ((s.dieClock c y).die e).recon ≤ max 2 (apart (s.die d).recon (s.die e).recon) := by
  rcases s.dieClock_cases c y with h | ⟨-, hm, -, hs⟩
  · rw [h]
    exact le_max_right ..
  · by_cases hcd : d = c
    · subst hcd
      rw [State.die_of_set hs hd, State.die_of_set_ne hs hne.symm, Die.paced_recon]
      exact le_max_of_le_left (State.dieMay_apart hm hr hpd he hne.symm hpe)
    · by_cases hce : e = c
      · subst hce
        rw [State.die_of_set hs he, State.die_of_set_ne hs hne, Die.paced_recon, apart_comm]
        exact le_max_of_le_left (State.dieMay_apart hm hr hpe hd hne hpd)
      · rw [State.die_of_set_ne hs hcd, State.die_of_set_ne hs hce]
        exact le_max_right ..

/-- A tick of the stakeboat's clock of its own: every die is in pace and as near as R162 wants it, and the counts of the dies stay. -/
theorem State.clock_stake (s : State) {c : Nat} (hc : 8 ≤ c) : s.clock c = s ∨
    (s.stakeMay = true ∧ (s.clock c).stake = s.stake + 1 ∧
      (s.clock c).dies = s.dies.map fun d => if d.stopped then d else (d.paced false true).settle (s.stake + 1)) := by
  unfold State.clock
  split
  · exact .inl rfl
  · split
    · rename_i h
      exact .inr ⟨h, rfl, rfl⟩
    · exact .inl rfl

theorem State.clock_stake_recon (s : State) {c : Nat} (hc : 8 ≤ c) (d : Nat) : ((s.clock c).die d).recon = (s.die d).recon := by
  rcases s.clock_stake hc with h | ⟨-, -, h⟩
  · rw [h]
  · simp only [State.die, h, List.getD_eq_getElem?_getD, List.getElem?_map]
    cases s.dies[d]? with
    | none => rfl
    | some x =>
      simp only [Option.map_some, Option.getD_some]
      split
      · rfl
      · rw [Die.settle_recon, Die.paced_recon]

theorem State.clock_die (s : State) {c : Nat} (hc : c < 8) : s.clock c = s ∨ s.clock c = s.dieClock c ((s.die c).tick s.stake) := by
  unfold State.clock
  split
  · exact .inl rfl
  · rw [if_neg (by omega)]
    exact .inr rfl

theorem State.steer_die (s : State) (c : Nat) (up : Bool) : s.steer c up = s ∨ ∃ y, s.steer c up = s.dieClock c y := by
  unfold State.steer
  dsimp only
  exact (Classical.em _).elim (fun h => .inr ⟨_, if_pos h⟩) fun h => .inl (if_neg h)

/-- No tick of one clock takes two dies farther than 2 apart that R162 binds to each other. -/
theorem State.clock_apart {s : State} {d e : Nat} (c : Nat) (up : Bool) (hr : s.reconciled = true) (hne : d ≠ e) (hd : d < s.dies.length)
    (he : e < s.dies.length) (hpd : (s.die d).promised = true) (hpe : (s.die e).promised = true) {t : State}
    (ht : t ∈ [s.clock c, s.steer c up]) : apart (t.die d).recon (t.die e).recon ≤ max 2 (apart (s.die d).recon (s.die e).recon) := by
  have stays : t = s → apart (t.die d).recon (t.die e).recon ≤ max 2 (apart (s.die d).recon (s.die e).recon) := fun h =>
    h ▸ le_max_right ..
  have moves : ∀ y, t = s.dieClock c y → apart (t.die d).recon (t.die e).recon ≤ max 2 (apart (s.die d).recon (s.die e).recon) :=
    fun y h => h ▸ State.dieClock_apart y hr hne hd he hpd hpe
  rcases List.mem_pair.mp ht with h | h
  · by_cases hc : c < 8
    · exact (s.clock_die hc).elim (stays <| h.trans ·) (moves _ <| h.trans ·)
    · rw [h, s.clock_stake_recon (by omega), s.clock_stake_recon (by omega)]
      exact le_max_right ..
  · exact (s.steer_die c up).elim (stays <| h.trans ·) fun ⟨y, hy⟩ => moves y (h.trans hy)

end Sys2Proof.Machine
end

section
/-! The tick exchange, lost timelines, refresh, droop and clock steps (R11, R15 to R17, R162, R163, R174, R451). -/

namespace Sys2Proof.Machine

/-! A health event (R450). -/

theorem State.degrade_dies (s : State) : s.degrade.dies = s.dies := by
  unfold State.degrade
  split <;> rfl

theorem State.degrade_ticks (s : State) : s.degrade.ticks = s.ticks := by
  unfold State.degrade
  split <;> rfl

theorem State.degrade_mgmtLog (s : State) : s.degrade.pkg.mgmtLog = s.pkg.mgmtLog := by
  unfold State.degrade
  split <;> rfl

theorem State.health_dies (s : State) (code socket addr : Nat) : (s.health code socket addr).dies = s.dies := State.degrade_dies _

theorem State.health_ticks (s : State) (code socket addr : Nat) : (s.health code socket addr).ticks = s.ticks := State.degrade_ticks _

theorem State.mem_mgmtLog_health (s : State) (code socket addr : Nat) :
    (code, socket, addr) ∈ (s.health code socket addr).pkg.mgmtLog := by
  rw [State.health, State.degrade_mgmtLog]
  exact List.mem_append_right _ (List.mem_singleton.mpr rfl)

/-! Sending (R162, R163). -/

/-- The message of die `d` to socket `e`. -/
def State.tickMsg (s : State) (d e : Nat) : TickMsg :=
  { src := d, dst := e, loc := (s.die d).local_, rec_ := (s.die d).recon, relay := (s.die d).lastStake }

/-- The message of the stakeboat to die `e`. -/
def State.stakeMsg (s : State) (e : Nat) : TickMsg := { src := 8, dst := e, loc := s.stake, rec_ := s.stake, relay := s.stake }

theorem execTickExchangeSend_die {s : State} {d : Nat} (hd : d < 8) (hn : (s.die d).local_ % 1024 = 0) (h0 : 0 < (s.die d).local_)
    (he : (s.die d).exchanged ≠ (s.die d).local_ / 1024) : exec (.tickExchangeSend d) s = .next (
      State.modDie { s with ticks := s.ticks ++ (8 :: Config.neighbours d).map (s.tickMsg d) } d fun x =>
        { x with exchanged := (s.die d).local_ / 1024, missed := x.missed + (if x.awaiting then 1 else 0), awaiting := true }) := by
  have hl : s.localOf d = (s.die d).local_ := if_pos hd
  have hr : s.reconTick d = (s.die d).recon := if_pos hd
  simp only [exec, execTickExchangeSend, hl, hr, hd, if_true]
  rw [if_neg (by simp; omega), if_neg (by omega), if_neg he]
  rfl

theorem execTickExchangeSend_stake {s : State} (hn : s.stake % 1024 = 0) (h0 : 0 < s.stake) (he : s.pkg.exchanged ≠ s.stake / 1024) :
    exec (.tickExchangeSend 8) s = .next { s with
      ticks := s.ticks ++ (List.range 8).map s.stakeMsg
      pkg := { s.pkg with exchanged := s.stake / 1024 } } := by
  have hl : s.localOf 8 = s.stake := rfl
  simp only [exec, execTickExchangeSend, hl]
  rw [if_neg (by simp; omega), if_pos trivial, if_neg he]
  rfl

/-! Receiving (R162, R163). -/

/-- A die that a message has brought a count which differs from its own by `err`: the difference is to be corrected, and its timeline is no
more lost. -/
def Die.heard (d : Die) (err : Int) (fromStake : Bool) : Die :=
  { d with
    reconAcc := err, rate := err + d.steered, steered := 0, missed := 0, awaiting := false, lost := none
    lastStake := if fromStake then d.recon else d.lastStake }

/-- A die that has noted the count that a neighbour relayed. -/
def Die.noted (d : Die) (src relay : Nat) : Die := { d with relays := (src, relay) :: d.relays.filter fun r => r.1 != src }

/-- Die `e` is brought a count; where its timeline was lost, its return is a health event. -/
def State.counted (s : State) (e : Nat) (err : Int) (fromStake back : Bool) : State :=
  if back then (s.modDie e (·.heard err fromStake)).health 7 e 0 else s.modDie e (·.heard err fromStake)

theorem State.counted_ticks (s : State) (e : Nat) (err : Int) (fromStake back : Bool) : (s.counted e err fromStake back).ticks = s.ticks := by
  cases back
  · rfl
  · exact State.health_ticks ..

theorem State.die_counted {s : State} {e : Nat} (h : e < s.dies.length) (err : Int) (fromStake back : Bool) :
    (s.counted e err fromStake back).die e = (s.die e).heard err fromStake := by
  have hd : (s.counted e err fromStake back).dies = (s.modDie e (·.heard err fromStake)).dies := by
    cases back
    · rfl
    · exact State.health_dies ..
  rw [State.die, hd]
  exact State.die_modDie_self h _

/-- The state once message `n` has been taken. -/
abbrev State.takeTick (s : State) (n : Nat) : State := { s with ticks := s.ticks.eraseIdx n }

theorem execTickExchangeReceive_stake {s : State} {n : Nat} {m : TickMsg} (hm : s.ticks[n]? = some m) (hd : m.dst < 8) (hs : m.src = 8) :
    exec (.tickExchangeReceive n) s =
      .next ((s.takeTick n).counted m.dst ((m.rec_ + (s.stake - m.loc) : Nat) - (s.die m.dst).recon) true (s.die m.dst).lost.isSome) := by
  simp only [exec, execTickExchangeReceive, hm, hs, if_neg (Nat.not_le.mpr hd), if_true, beq_self_eq_true, Bool.true_or]
  rfl

/-- Whether a neighbour's message brings a count that its die waits for: one that the neighbour has not relayed before. -/
def TickMsg.brings (m : TickMsg) (d : Die) : Bool := decide (0 < m.relay) && !(d.relays.contains (m.src, m.relay)) && d.awaiting

theorem execTickExchangeReceive_neighbour {s : State} {n : Nat} {m : TickMsg} (hm : s.ticks[n]? = some m) (hd : m.dst < 8) (hs : m.src < 8) :
    exec (.tickExchangeReceive n) s = .next (
      let t := (s.takeTick n).modDie m.dst (·.noted m.src m.relay)
      if m.brings (s.die m.dst) then
        t.counted m.dst ((m.relay + (m.rec_ - m.relay) + ((s.die m.src).local_ - m.loc) : Nat) - (s.die m.dst).recon) false
          (s.die m.dst).lost.isSome
      else t) := by
  have h8 : m.src ≠ 8 := by omega
  have hl : State.localOf { s with ticks := s.ticks.eraseIdx n } m.src = (s.die m.src).local_ := if_pos hs
  simp only [exec, execTickExchangeReceive, hm, hl, if_neg (Nat.not_le.mpr hd), if_neg h8, beq_eq_false_iff_ne.mpr h8, Bool.false_or,
    TickMsg.brings]
  rfl

/-! Lost timelines (R163, R451). -/

theorem execTimelineLost_lost {s : State} {d : Nat} (hd : d < 8) (hm : 8 ≤ (s.die d).missed) (hl : (s.die d).lost = none) :
    exec (.timelineLost d) s = .next ((s.modDie d fun x => { x with lost := some s.stake, adrift := true }).health 6 d 0) := by
  rw [exec, execTimelineLost, if_pos ⟨hd, hm, hl⟩]

/-- A die whose timeline has been lost for 2^30 ticks degrades the package. -/
theorem State.degradedNow_of_lost {s : State} {d n : Nat} (hl : (s.die d).lost = some n) (h : n + 2 ^ 30 ≤ s.stake) : s.degradedNow = true := by
  have hd : s.die d ∈ s.dies := by
    simp only [State.die, List.getD_eq_getElem?_getD] at hl ⊢
    cases hx : s.dies[d]? with
    | none => simp [hx] at hl
    | some x => exact List.mem_of_getElem? hx
  unfold State.degradedNow
  refine Bool.or_eq_true_iff.mpr (.inr (List.any_eq_true.mpr ⟨_, hd, ?_⟩))
  rw [hl]
  exact decide_eq_true h

theorem execTimelineLostPersists_degrades {s : State} {d n : Nat} (hl : (s.die d).lost = some n) (h : n + 2 ^ 30 ≤ s.stake)
    (hu : s.pkg.up = .ready) :
    exec (.timelineLostPersists d) s = .next { s with pkg := { s.pkg with up := .degraded, replace := true } } := by
  simp only [exec, execTimelineLostPersists, hl, if_pos h, State.degrade, State.degradedNow_of_lost hl h, hu]
  rfl

/-! Refresh and droop (R11, R174). -/

theorem State.countDie_refreshed (s : State) (d src ctx n e : Nat) : ((s.countDie d src ctx n).die e).refreshed = (s.die e).refreshed := by
  unfold State.countDie
  split
  · rfl
  · split
    · rfl
    · simp only [State.die, State.modDie, List.getD_eq_getElem?_getD, List.getElem?_modify]
      cases s.dies[e]? with
      | none => rfl
      | some x =>
        simp only [Option.getD_some]
        split <;> rfl

theorem execRefresh_refreshes {s : State} {d : Nat} (hn : d < s.dies.length) (hd : d < 8) (hr : 3776 ≤ (s.die d).recon % 4096)
    (hf : (s.die d).refreshed ≠ (s.die d).recon / 4096 + 1) :
    ∃ t, exec (.refresh d) s = .next t ∧ (t.die d).refreshed = (s.die d).recon / 4096 + 1 ∧ t.mem = s.mem ∧ t.cache = s.cache := by
  have ht : s.reconTick d = (s.die d).recon := if_pos hd
  simp only [exec, execRefresh, State.refreshing, ht]
  rw [if_pos (by simpa [hd, hr] using hf)]
  refine ⟨_, rfl, ?_, State.countDie_mem .., State.countDie_cache ..⟩
  rw [State.countDie_refreshed, State.die_modDie_self hn]

theorem execDroopTickStretch_notes {s : State} {d : Nat} (hd : d < 8) :
    ∃ l, exec (.droopTickStretch d) s = .next { s with pkg := { s.pkg with stretched := l } } ∧ d ∈ l := by
  refine ⟨if s.pkg.stretched.contains d then s.pkg.stretched else s.pkg.stretched ++ [d], ?_, ?_⟩
  · rw [exec, execDroopTickStretch, if_pos hd]
    rfl
  · split
    · rename_i h
      exact List.contains_iff_mem.mp h
    · exact List.mem_append_right _ (List.mem_singleton.mpr rfl)

/-! What one tick leaves (R10, R160 to R162), and O53. -/

/-- What one tick of every clock makes of a die. -/
theorem State.tick_die {s : State} {d : Nat} {x : Die} (hc : s.pkg.up.clocked = true) (hx : s.dies[d]? = some x) :
    s.tick.stake = s.stake + 1 ∧ s.tick.dies[d]? = some (if x.stopped then x else
      (if s.stands x then x.paced false true else (x.tick (s.stake + 1)).paced true true).settle (s.stake + 1)) := by
  rw [State.tick, if_pos hc]
  exact ⟨rfl, by rw [List.getElem?_map, hx, Option.map_some]⟩

/-- A die that stands keeps its counts; one that does not makes a tick (R160, R162). -/
theorem State.tick_moves {s : State} {d : Nat} {x : Die} (hc : s.pkg.up.clocked = true) (hx : s.dies[d]? = some x) :
    ∃ y : Die, s.tick.dies[d]? = some y ∧ s.tick.stake = s.stake + 1 ∧ (x.stopped = true → y = x) ∧
      (x.stopped = false → s.stands x = true → y.local_ = x.local_ ∧ y.recon = x.recon) ∧
      (s.stands x = false → y.local_ = x.local_ + 1 ∧ x.recon ≤ y.recon ∧ y.recon ≤ x.recon + 2 ∧
        (y.recon ≠ x.recon + 1 → y.lastCorr = some y.local_ ∧ ∀ n, x.lastCorr = some n → n + 64 ≤ y.local_)) := by
  obtain ⟨hs, hd⟩ := s.tick_die hc hx
  refine ⟨_, hd, hs, fun h => if_pos h, fun h hst => ?_, fun hst => ?_⟩
  · rw [if_neg (by simp [h]), if_pos hst, Die.settle_local, Die.settle_recon, Die.paced_local, Die.paced_recon]
    exact ⟨rfl, rfl⟩
  · have h : x.stopped = false := (Bool.or_eq_false_iff.mp hst).1
    have ha := Die.tick_advances h (s.stake + 1)
    rw [if_neg (by simp [h]), if_neg (by simp [hst]), Die.settle_local, Die.settle_recon, Die.settle_lastCorr, Die.paced_local,
      Die.paced_recon, Die.paced_lastCorr]
    exact ⟨ha.local_eq, ha.recon_le.1, ha.recon_le.2, ha.corrects⟩

theorem State.die_mem {s : State} {d : Nat} (h : d < s.dies.length) : s.die d ∈ s.dies := by
  rw [State.die, List.getD_eq_getElem _ _ h]
  exact List.getElem_mem h

/-- A stakeboat's tick of its own leaves every die in pace, and every die that R162 binds to it within 1. -/
theorem State.clock_stake_bounds {s : State} {c d : Nat} (hc : 8 ≤ c) (hd : d < s.dies.length) (hs : (s.die d).stopped = false) :
    s.clock c = s ∨ ((s.clock c).stake = s.stake + 1 ∧ ((s.die d).paced false true).paceOk = true ∧
      (s.reconciled = true → (s.die d).promised = true → apart (s.die d).recon (s.stake + 1) ≤ 1)) := by
  refine (s.clock_stake hc).imp_right fun ⟨hm, ht, _⟩ => ?_
  have h := List.all_eq_true.mp hm _ (State.die_mem hd)
  simp only [hs, Bool.false_or, Bool.and_eq_true, Bool.or_eq_true, Bool.not_eq_true', decide_eq_true_eq] at h
  obtain ⟨hp, hb⟩ := h
  exact ⟨ht, hp, fun hr hpr => hb.resolve_left (by simp [hr, hpr])⟩

/-- A die's tick of its own leaves it in pace, and no farther before the stakeboat than 2 where R162 binds it. -/
theorem State.clock_die_bounds {s : State} {c d : Nat} (hc : c < 8) (hd : d < s.dies.length) :
    (s.clock c).stake = s.stake ∧ ((s.clock c).die d = s.die d ∨ (c = d ∧ (((s.die d).tick s.stake).paced true false).paceOk = true ∧
      ((s.clock c).die d).local_ = (s.die d).local_ + 1 ∧
      (s.reconciled = true → (s.die d).promised = true → ((s.clock c).die d).recon ≤ s.stake + 2))) := by
  rcases s.clock_die hc with h | h
  · rw [h]
    exact ⟨rfl, .inl rfl⟩
  rw [h]
  rcases s.dieClock_cases c ((s.die c).tick s.stake) with h | ⟨hst, hm, hstake, hdies⟩
  · rw [h]
    exact ⟨rfl, .inl rfl⟩
  refine ⟨hstake, ?_⟩
  by_cases hcd : d = c
  · subst hcd
    have ht := State.die_of_set hdies hd
    simp only [State.dieMay, Bool.and_eq_true, Bool.or_eq_true, Bool.not_eq_true', decide_eq_true_eq] at hm
    obtain ⟨hp, hb⟩ := hm
    refine .inr ⟨rfl, hp, ?_, fun hr hpr => ?_⟩
    · rw [ht, Die.paced_local]
      exact (Die.tick_advances hst _).local_eq
    · rw [ht, Die.paced_recon]
      rcases hb with (hb | hb) | ⟨hb, -⟩
      · simp [hr] at hb
      · simp [hpr] at hb
      · exact hb
  · exact .inl (State.die_of_set_ne hdies hcd)

/-- The counts of pace (R161): what a die may be ahead and behind, and what a tick of each clock adds and takes. -/
theorem Die.pace_counts (d : Die) : (d.paceOk = true ↔ d.ahead < 100130000 ∧ d.behind < 100390338) ∧
    (d.paced true true).ahead = d.ahead - 130000 ∧ (d.paced true true).behind = d.behind - 130338 ∧
    (d.paced true false).ahead = d.ahead + 50000000 ∧ (d.paced false true).behind = d.behind + 50130000 := by
  refine ⟨decide_eq_true_iff, ?_⟩
  simp [Die.paced, paceUnit, paceGain, paceLoss]

theorem execTickExchangeReceive_counts_stake {s : State} {n : Nat} {m : TickMsg} (hn : s.dies.length = 8) (hm : s.ticks[n]? = some m)
    (hd : m.dst < 8) (hs : m.src = 8) :
    ∃ t, exec (.tickExchangeReceive n) s = .next t ∧ t.ticks = s.ticks.eraseIdx n ∧ (t.die m.dst).missed = 0 ∧
      (t.die m.dst).awaiting = false ∧ (t.die m.dst).lost = none ∧ (t.die m.dst).lastStake = (s.die m.dst).recon ∧
      (t.die m.dst).recon = (s.die m.dst).recon ∧
      (t.die m.dst).reconAcc = ((m.rec_ + (s.stake - m.loc) : Nat) : Int) - (s.die m.dst).recon ∧
      ((s.die m.dst).lost ≠ none → (7, m.dst, 0) ∈ t.pkg.mgmtLog) := by
  refine ⟨_, execTickExchangeReceive_stake hm hd hs, State.counted_ticks .., ?_⟩
  rw [State.die_counted (s := s.takeTick n) (hd.trans_eq hn.symm)]
  refine ⟨rfl, rfl, rfl, rfl, rfl, rfl, fun hl => ?_⟩
  rw [State.counted, if_pos (Option.isSome_iff_ne_none.mpr hl)]
  exact State.mem_mgmtLog_health ..

/-- Settles O53: each clause is the lemma about its clock or its event. -/
theorem clocksKeepTime : Obligations.ClocksKeepTime := by
  unfold Obligations.ClocksKeepTime
  dsimp only
  refine ⟨?tick, ?apart, ?stake, ?die, Die.pace_counts, ?sendDie, ?sendStake, ?hearStake, ?hearNeighbour, ?hearNothing, ?lost, ?persists,
    ?refresh, fun s d hd => execDroopTickStretch_notes hd, ?change, ?wait, ?hot, ?cool, ?above, ?below⟩
  case tick => exact fun s d x => State.tick_moves
  case apart => exact fun s c up d e hr hne hd he hpd hpe t ht => State.clock_apart c up hr hne hd he hpd hpe ht
  case stake => exact fun s c d hc hd hs => ⟨State.clock_stake_bounds hc hd hs, s.clock_stake_recon hc d⟩
  case die => exact fun s c d hc hd => State.clock_die_bounds hc hd
  case sendDie =>
    intro s d hd hn h0 hpos he
    refine ⟨_, _, execTickExchangeSend_die hd h0 hpos he, rfl, by simp [State.tickMsg, Function.comp_def], fun m hm => ?_, ?_⟩
    · obtain ⟨e, -, rfl⟩ := List.mem_map.mp hm
      exact ⟨rfl, rfl, rfl, rfl⟩
    · rw [State.die_modDie_self (by exact hd.trans_eq hn.symm)]
      exact ⟨rfl, rfl, rfl⟩
  case sendStake =>
    intro s hn h0 he
    refine ⟨_, _, execTickExchangeSend_stake hn h0 he, rfl, by simp [State.stakeMsg, Function.comp_def], fun m hm => ?_⟩
    obtain ⟨e, -, rfl⟩ := List.mem_map.mp hm
    exact ⟨rfl, rfl, rfl⟩
  case hearStake => exact fun s n m => execTickExchangeReceive_counts_stake
  case hearNeighbour =>
    intro s n m hn hm hd hs h0 hle hnew haw
    have hb : m.brings (s.die m.dst) = true := by simp [TickMsg.brings, h0, hnew, haw]
    refine ⟨_, execTickExchangeReceive_neighbour hm hd hs, ?_⟩
    simp only [hb, if_true, State.counted_ticks]
    rw [State.die_counted (by simpa using hd.trans_eq hn.symm), State.die_modDie_self (by exact hd.trans_eq hn.symm),
      Nat.add_sub_cancel' hle]
    exact ⟨rfl, rfl, rfl, rfl, rfl, rfl, List.mem_cons_self, rfl⟩
  case hearNothing =>
    intro s n m hn hm hd hs hno
    have hb : m.brings (s.die m.dst) = false := by
      rcases hno with h | h | h <;> simp [TickMsg.brings, h]
    refine ⟨_, execTickExchangeReceive_neighbour hm hd hs, ?_⟩
    simp only [hb, Bool.false_eq_true, if_false]
    rw [State.die_modDie_self (by exact hd.trans_eq hn.symm)]
    exact ⟨rfl, rfl, rfl, rfl⟩
  case lost =>
    intro s d hd hn hm hl
    refine ⟨_, execTimelineLost_lost hd hm hl, ?_, State.mem_mgmtLog_health ..⟩
    rw [State.die, State.health_dies]
    exact congrArg Die.lost (State.die_modDie_self (hd.trans_eq hn.symm) _)
  case persists => exact fun s d n => execTimelineLostPersists_degrades
  case refresh => exact fun s d hn hd hr hf => execRefresh_refreshes (hd.trans_eq hn.symm) hd hr hf
  case change =>
    intro s n hp hb
    simp only [exec, execClockStepChange, hp, if_pos hb]
    rfl
  case wait =>
    intro s n hp hb
    simp only [exec, execClockStepChange, hp, if_neg hb]
  all_goals
    intro s hc
    simp only [exec, execJunctionHot, execJunctionCool, execPackagePowerAtCap, hc, if_true]
    rfl

end Sys2Proof.Machine
end

section
/-! The completion of teams, gangs and grids (R158, R159, R190). -/

namespace Sys2Proof.Machine

/-! A write of the device itself neither reads nor changes the launch queues and the grids (R159). -/

/-- The state with other grids and launch queues. -/
def State.withLaunches (s : State) (gs : List Grid) (qs : List Queue) : State := { s with grids := gs, queues := qs }

section
variable (s : State) (gs : List Grid) (qs : List Queue)

/-- A fold of changes that do not see them does not see them. -/
theorem State.foldl_withLaunches {α : Type} {f : State → α → State}
    (h : ∀ s x, f (s.withLaunches gs qs) x = (f s x).withLaunches gs qs) (l : List α) :
    l.foldl f (s.withLaunches gs qs) = (l.foldl f s).withLaunches gs qs :=
  List.foldl_hom (fun x : State => x.withLaunches gs qs) h

theorem State.modCache_withLaunches (f : Caches → Caches) : (s.withLaunches gs qs).modCache f = (s.modCache f).withLaunches gs qs := rfl

theorem State.recall_withLaunches (die space line : Nat) :
    (s.withLaunches gs qs).recall die space line = (s.recall die space line).withLaunches gs qs := by
  unfold State.recall
  rw [show (s.withLaunches gs qs).dc? die space line = s.dc? die space line from rfl]
  split
  · rfl
  · split <;> rfl

theorem State.freshen_withLaunches (die space line : Nat) :
    (s.withLaunches gs qs).freshen die space line = (s.freshen die space line).withLaunches gs qs := by
  unfold State.freshen
  rw [show (s.withLaunches gs qs).dc? die space line = s.dc? die space line from rfl]
  split
  · rfl
  · split
    · rfl
    · simp only [State.recall_withLaunches]
      generalize s.recall die space line = r
      have hr : (if ((r.withLaunches gs qs).die die).tsTop < ((r.withLaunches gs qs).die die).tsmax + 1 then (r.withLaunches gs qs).topOut die
          else r.withLaunches gs qs) = (if (r.die die).tsTop < (r.die die).tsmax + 1 then r.topOut die else r).withLaunches gs qs :=
        (apply_ite (fun x : State => x.withLaunches gs qs) ((r.die die).tsTop < (r.die die).tsmax + 1) (r.topOut die) r).symm
      rw [hr]
      generalize (if (r.die die).tsTop < (r.die die).tsmax + 1 then r.topOut die else r) = u
      rw [show (u.withLaunches gs qs).dc? die space line = u.dc? die space line from rfl]
      split <;> rfl

theorem State.writeHome_withLaunches (space line : Nat) (l : List CWord) :
    (s.withLaunches gs qs).writeHome space line l = (s.writeHome space line l).withLaunches gs qs := by
  unfold State.writeHome
  rw [show (s.withLaunches gs qs).linePhys? space line = s.linePhys? space line from rfl]
  split
  · rfl
  · dsimp only
    rw [State.modCache_withLaunches, State.foldl_withLaunches]
    exact fun _ _ => rfl

theorem State.pokeWord_withLaunches (space line i : Nat) (v : Lane) (p : Bool) :
    (s.withLaunches gs qs).pokeWord space line i v p = (s.pokeWord space line i v p).withLaunches gs qs := by
  simp only [State.pokeWord, State.modCache_withLaunches, State.writeHome_withLaunches]

theorem State.pokeBytes_withLaunches (space : Nat) (bytes : List (Nat × BitVec 8)) :
    (s.withLaunches gs qs).pokeBytes space bytes = (s.pokeBytes space bytes).withLaunches gs qs := by
  unfold State.pokeBytes
  dsimp only
  rw [s.foldl_withLaunches gs qs fun x n => x.foldl_withLaunches gs qs (fun y d => y.freshen_withLaunches gs qs d space n) _]
  exact State.foldl_withLaunches _ gs qs (fun x k => x.pokeWord_withLaunches gs qs ..) _

theorem State.pokeCtx_withLaunches (ctx va : Nat) (l : List (BitVec 8)) :
    (s.withLaunches gs qs).pokeCtx ctx va l = (s.pokeCtx ctx va l).withLaunches gs qs :=
  s.foldl_withLaunches gs qs (fun x sp => x.pokeBytes_withLaunches gs qs sp _) _

end

theorem State.pokeCtx_launches (s : State) (ctx va : Nat) (l : List (BitVec 8)) :
    (s.pokeCtx ctx va l).grids = s.grids ∧ (s.pokeCtx ctx va l).queues = s.queues := by
  have h : s.pokeCtx ctx va l = (s.pokeCtx ctx va l).withLaunches s.grids s.queues := s.pokeCtx_withLaunches s.grids s.queues ctx va l
  rw [h]
  exact ⟨rfl, rfl⟩

/-! Grids (R159). -/

/-- The state with grid `g` marked as complete. -/
def State.gridDone (s : State) (g : Nat) : State := s.modGrid g fun y => { y with done := true }

theorem State.gridDone_eq (s : State) (g : Nat) :
    s.gridDone g = s.withLaunches (s.grids.modify g fun y => { y with done := true }) s.queues := rfl

theorem State.grid_gridDone {s : State} {g : Nat} (h : g < s.grids.length) : (s.gridDone g).grid g = { s.grid g with done := true } :=
  State.grid_modGrid_self h _

/-- A context with a running grid once `g` is complete had one before. -/
theorem State.ctxBusy_of_gridDone {s : State} {g ctx : Nat} (h : (s.gridDone g).ctxBusy ctx = true) : s.ctxBusy ctx = true := by
  obtain ⟨x, hx, hp⟩ := List.any_eq_true.mp h
  obtain ⟨y, hy, rfl | rfl⟩ := mem_modify_cases hx
  · exact List.any_eq_true.mpr ⟨x, hy, hp⟩
  · simp at hp

theorem leafPermits_gridDone {s : State} {ctx : Nat} {warp : Bool} {acc : Acc} {leaf : Word} (g : Nat)
    (h : leafPermits s ctx warp acc leaf = true) : leafPermits (s.gridDone g) ctx warp acc leaf = true := by
  have hb : s.ctxBusy ctx = false → (s.gridDone g).ctxBusy ctx = false := fun hn =>
    Bool.eq_false_iff.mpr fun e => by simp [State.ctxBusy_of_gridDone e] at hn
  cases acc <;> simp only [leafPermits, Bool.and_eq_true, Bool.not_eq_true', Bool.and_eq_false_iff] at h ⊢ <;> tauto

/-- The completion of a grid takes no access away: a read-only-weights page may become writable with it. -/
theorem State.transNow_gridDone {s : State} {ctx va : Nat} {warp : Bool} {acc : Acc} {r : TRes} (g : Nat)
    (h : s.transNow ctx warp acc va = r) (hr : r ≠ .prot) : (s.gridDone g).transNow ctx warp acc va = r := by
  have hh : (s.gridDone g).homeOf ctx va = s.homeOf ctx va := rfl
  have hw : ∀ m sp, (s.gridDone g).walk m sp va = s.walk m sp va := fun _ _ => rfl
  unfold State.transNow at h ⊢
  rw [hh]
  split at h
  case isTrue => exact absurd h.symm hr
  case isFalse hva =>
    rw [if_neg hva]
    split at h
    case h_3 m sp =>
      rw [hw]
      split at h
      case h_1 =>
        split at h
        case isTrue hp => exact (if_pos (leafPermits_gridDone g hp)).trans h
        case isFalse => exact absurd h.symm hr
      case h_2 => exact h
    all_goals exact h

theorem State.writeDone_launches (s : State) (g : Nat) : (s.writeDone g).2.grids = s.grids ∧ (s.writeDone g).2.queues = s.queues := by
  unfold State.writeDone
  dsimp only
  split
  · exact ⟨rfl, rfl⟩
  · split
    · exact State.pokeCtx_launches ..
    · exact ⟨rfl, rfl⟩
    · exact ⟨rfl, rfl⟩

section
variable {s : State} {g : Nat} (h : g < s.grids.length)
include h

theorem State.writeDone_none (ha : (s.grid g).launch.doneVA.toNat = 0) : (s.gridDone g).writeDone g = (0, s.gridDone g) := by
  rw [State.writeDone, State.grid_gridDone h]
  exact if_pos ha

theorem State.writeDone_ok (ha : (s.grid g).launch.doneVA.toNat ≠ 0) {p sp f}
    (ht : s.transNow (s.grid g).ctx true .wr (s.grid g).launch.doneVA.toNat = .ok p sp f) :
    (s.gridDone g).writeDone g = (0, (s.pokeCtx (s.grid g).ctx (s.grid g).launch.doneVA.toNat (leBytes 8 (s.grid g).seq)).withLaunches
      (s.grids.modify g fun y => { y with done := true }) s.queues) := by
  rw [State.writeDone, State.grid_gridDone h]
  dsimp only
  rw [if_neg ha, State.transNow_gridDone g ht nofun, State.gridDone_eq, State.pokeCtx_withLaunches]

theorem State.writeDone_far (ha : (s.grid g).launch.doneVA.toNat ≠ 0) {pk rc}
    (ht : s.transNow (s.grid g).ctx true .wr (s.grid g).launch.doneVA.toNat = .far pk rc) :
    (s.gridDone g).writeDone g = (if (Config.freeWord s.fresh).getLsbD 0 then 8 else 0, { s.gridDone g with fresh := s.fresh + 1 }) := by
  rw [State.writeDone, State.grid_gridDone h]
  dsimp only
  rw [if_neg ha, State.transNow_gridDone g ht nofun]
  rfl

theorem State.writeDone_page (ha : (s.grid g).launch.doneVA.toNat ≠ 0) {hm sp}
    (ht : s.transNow (s.grid g).ctx true .wr (s.grid g).launch.doneVA.toNat = .page hm sp) :
    (s.gridDone g).writeDone g = (8, s.gridDone g) := by
  rw [State.writeDone, State.grid_gridDone h]
  dsimp only
  rw [if_neg ha, State.transNow_gridDone g ht nofun]

end

/-- What GRID_COMPLETE waits for (R159). -/
structure State.GridEnds (s : State) (g : Nat) : Prop where
  valid : g < s.grids.length
  running : (s.grid g).done = false
  placed : (s.grid g).launch.nRegions ≤ (s.grid g).placed
  regions : ∀ r ∈ s.regionsOf g, (s.region r).done = true
  children : (s.grid g).children = 0
  colls : ∀ n ∈ (s.grid g).colls, n ≤ (s.ctx (s.grid g).ctx).tlk.val
  stores : ∀ w ∈ s.gridWarps g, s.unacked w = false
  home : s.homeBusy (s.grid g).ctx (s.grid g).launch.doneVA.toNat 8 = false

theorem execGridComplete_ends {s : State} {g : Nat} (h : s.GridEnds g) :
    exec (.gridComplete g) s =
      .next (((s.gridDone g).writeDone g).2.endLaunch (s.grid g).queue (s.grid g).seq ((s.gridDone g).writeDone g).1) := by
  have hr : ((s.regionsOf g).all fun r => (s.region r).done) = true := List.all_eq_true.mpr h.regions
  have hc : ((s.grid g).colls.all fun n => decide (n ≤ (s.ctx (s.grid g).ctx).tlk.val)) = true :=
    List.all_eq_true.mpr fun n hn => decide_eq_true (h.colls n hn)
  have hw : (s.gridWarps g).any s.unacked = false := List.any_eq_false.mpr fun w hw => by simp [h.stores w hw]
  rw [exec, execGridComplete, if_neg (by simp [h.valid, h.running, h.placed, hr, h.children, hc, hw, h.home])]
  rfl

theorem execGridComplete_waits {s : State} {g r : Nat} (hr : r ∈ s.regionsOf g) (hd : (s.region r).done = false) :
    exec (.gridComplete g) s = .next s := by
  have h : ((s.regionsOf g).all fun r => (s.region r).done) = false := List.all_eq_false.mpr ⟨r, hr, by simp [hd]⟩
  rw [exec, execGridComplete, if_pos (by simp [h])]

/-- GRID_COMPLETE marks the grid, writes its `DONE` word where it has one, and completes the launch with the cause that the writing gives. -/
theorem execGridComplete_completes {s : State} {g : Nat} (h : s.GridEnds g) (hq : (s.grid g).queue < s.queues.length) :
    let q := (s.grid g).queue
    let a := (s.grid g).launch.doneVA.toNat
    ∃ t, exec (.gridComplete g) s = .next t ∧ (t.grid g).done = true ∧
      (a = 0 → (t.queue q).tll = (s.queue q).tll.finish (s.grid g).seq 0 ∧ t.mem = s.mem) ∧
      (∀ p sp f, a ≠ 0 → s.transNow (s.grid g).ctx true .wr a = .ok p sp f →
        (t.queue q).tll = (s.queue q).tll.finish (s.grid g).seq 0 ∧
        t.mem = (s.pokeCtx (s.grid g).ctx a (leBytes 8 (s.grid g).seq)).mem ∧
        t.cache = (s.pokeCtx (s.grid g).ctx a (leBytes 8 (s.grid g).seq)).cache) ∧
      (∀ pk rc, a ≠ 0 → s.transNow (s.grid g).ctx true .wr a = .far pk rc →
        (t.queue q).tll = (s.queue q).tll.finish (s.grid g).seq (if (Config.freeWord s.fresh).getLsbD 0 then 8 else 0) ∧ t.mem = s.mem) ∧
      (∀ hm sp, a ≠ 0 → s.transNow (s.grid g).ctx true .wr a = .page hm sp →
        (t.queue q).tll = (s.queue q).tll.finish (s.grid g).seq 8 ∧ t.mem = s.mem) := by
  intro q a
  obtain ⟨hgs, hqs⟩ := (s.gridDone g).writeDone_launches g
  have hfin : ∀ r : Nat × State, r.2.queues = s.queues →
      ((r.2.endLaunch q (s.grid g).seq r.1).queue q).tll = (s.queue q).tll.finish (s.grid g).seq r.1 := fun r hr => by
    rw [State.queue_endLaunch (by rwa [hr]), State.queue, hr]
    rfl
  have htll := hfin _ hqs
  refine ⟨_, execGridComplete_ends h, ?_, fun ha => ?_, fun p sp f ha ht => ?_, fun pk rc ha ht => ?_, fun hm sp ha ht => ?_⟩
  · have hg : (s.gridDone g).grids.getD g default = { s.grid g with done := true } := State.grid_gridDone h.valid
    change (((s.gridDone g).writeDone g).2.grids.getD g default).done = true
    rw [hgs, hg]
  · rw [htll, State.writeDone_none h.valid ha]
    exact ⟨rfl, rfl⟩
  · rw [htll, State.writeDone_ok h.valid ha ht]
    exact ⟨rfl, rfl, rfl⟩
  · rw [htll, State.writeDone_far h.valid ha ht]
    exact ⟨rfl, rfl⟩
  · rw [htll, State.writeDone_page h.valid ha ht]
    exact ⟨rfl, rfl⟩

end Sys2Proof.Machine
end

section
/-! The completion of teams and gangs, and the start of timed launches (R158, R165, R177, R190). -/

namespace Sys2Proof.Machine

/-! Teams and gangs (R158). -/

theorem State.foldl_tidyCore_keeps (die : Nat) (core : State → Nat → Nat) (l : List Nat) (s : State) :
    (l.foldl (fun (s : State) u => s.tidyCore die (core s u)) s).teams = s.teams ∧
      (l.foldl (fun (s : State) u => s.tidyCore die (core s u)) s).gangs = s.gangs :=
  ⟨foldl_field State.teams _ (fun _ _ => State.modCore_teams ..) l s, foldl_field State.gangs _ (fun _ _ => State.modCore_gangs ..) l s⟩

/-- The state with team `k` marked as complete. -/
def State.teamDone (s : State) (k : Nat) : State := s.modTeam k fun y => { y with done := true }

/-- The state with gang `g` complete: what it held is free from the next tick (R158). -/
def State.gangDone (s : State) (g die : Nat) : State := s.modGang g fun y => { y with st := .done, freedAt := some (s.localTick die) }

/-- Whether the teams of a gang are complete. -/
def State.gangEnds (s : State) (g : Nat) : Bool := (s.teamsOf g).all fun u => (s.team u).done

theorem State.gangEnds_teamDone {s : State} {k : Nat} (hk : k < s.teams.length)
    (h : ∀ u ∈ s.teamsOf (s.team k).gang, u = k ∨ (s.team u).done = true) : (s.teamDone k).gangEnds (s.team k).gang = true := by
  refine List.all_eq_true.mpr fun u hu => ?_
  obtain ⟨hlt, hg⟩ := List.mem_filter.mp hu
  by_cases e : u = k
  · rw [e, State.teamDone, State.team_modTeam_self hk]
  · rw [State.teamDone, State.team_modTeam_ne s e] at hg ⊢
    exact (h u (List.mem_filter.mpr ⟨by simpa [State.teamDone] using hlt, hg⟩)).resolve_left e

/-- The state with team `k` complete, and its gang where it is the last. -/
def State.teamUp (s : State) (k : Nat) : State :=
  if (s.teamDone k).gangEnds (s.team k).gang then (s.teamDone k).gangDone (s.team k).gang (s.teamPlace k).die else s.teamDone k

theorem State.teamUp_teams (s : State) (k : Nat) : (s.teamUp k).teams = (s.teamDone k).teams := by
  unfold State.teamUp
  split <;> rfl

/-- What TEAM_COMPLETE makes of teams and gangs. -/
theorem execTeamComplete_completes {s : State} {k : Nat} (hk : k < s.teams.length) (hd : (s.team k).done = false)
    (hw : ∀ w ∈ s.warpsOf k, (s.warp w).done = true ∧ s.unseen w = false) (hc : (s.team k).tlc.val = (s.team k).tlc.issued) :
    ∃ t, exec (.teamComplete k) s = .next t ∧ t.teams = (s.teamUp k).teams ∧ t.gangs = (s.teamUp k).gangs := by
  have hall : ((s.warpsOf k).all fun w => (s.warp w).done && !s.unseen w) = true :=
    List.all_eq_true.mpr fun w hm => by simp [hw w hm]
  rw [exec, execTeamComplete, if_neg (by simp [hk, hd, hall, hc])]
  refine ⟨_, rfl, (State.foldl_tidyCore_keeps ..).1.trans ?_, (State.foldl_tidyCore_keeps ..).2.trans ?_⟩
  · rw [apply_ite State.teams]
    exact ite_self _
  · rw [apply_ite State.gangs]
    exact ite_self _

theorem execTeamComplete_waits {s : State} {k w : Nat} (hw : w ∈ s.warpsOf k) (hd : (s.warp w).done = false) :
    exec (.teamComplete k) s = .next s := by
  have h : ((s.warpsOf k).all fun w => (s.warp w).done && !s.unseen w) = false := List.all_eq_false.mpr ⟨w, hw, by simp [hd]⟩
  rw [exec, execTeamComplete, if_pos (by simp [h])]

/-! The start of a timed launch (R165). -/

/-- The warps of a region. -/
def State.regionWarps (s : State) (r : Nat) : List Nat := (s.gangsOf r).flatMap s.gangWarps

theorem State.mem_regionWarps {s : State} {r w : Nat} (h : w ∈ s.regionWarps r) : w < s.warps.length ∧ (s.place w).region = r := by
  simp only [State.regionWarps, State.gangsOf, State.gangWarps, State.teamsOf, State.warpsOf, List.mem_flatMap, List.mem_filter,
    List.mem_range, beq_iff_eq] at h
  obtain ⟨g, ⟨-, rfl⟩, t, ⟨-, rfl⟩, hw, rfl⟩ := h
  exact ⟨hw, rfl⟩

/-- A warp whose timed launch starts at tick `now` of its die, with the stroke from `b0` to `b0 + len` before it. -/
def Warp.begun (b0 len now : Nat) (y : Warp) : Warp :=
  { y with begin_ := now, timed := { y.timed with b0 := b0, bt := b0 + len, workStart := now } }

theorem State.warp_modWarp (s : State) (w v : Nat) (f : Warp → Warp) :
    (s.modWarp w f).warp v = if v = w ∧ w < s.warps.length then f (s.warp v) else s.warp v := by
  by_cases h : v = w
  · subst h
    by_cases hv : v < s.warps.length
    · rw [if_pos ⟨rfl, hv⟩]
      exact getD_modify_self hv f default
    · rw [if_neg (fun h => hv h.2), State.modWarp, List.modify_eq_self (Nat.le_of_not_lt hv)]
  · rw [if_neg (fun e => h e.1)]
    exact getD_modify_ne s.warps h f default

/-- A change of some warps that does no more when it is made again. -/
theorem State.warp_foldl_modWarp {f : Warp → Warp} (hf : ∀ x, f (f x) = f x) (l : List Nat) (s : State) (v : Nat) :
    (l.foldl (fun (s : State) w => s.modWarp w f) s).warp v = if v ∈ l ∧ v < s.warps.length then f (s.warp v) else s.warp v := by
  induction l generalizing s with
  | nil => simp
  | cons w l ih =>
    rw [List.foldl_cons, ih, State.warp_modWarp, State.modWarp_warps, List.length_modify]
    by_cases hv : v < s.warps.length
    · by_cases hw : v = w
      · subst hw
        simp [hv, hf]
      · simp [hv, hw]
    · rw [if_neg (fun e : v ∈ l ∧ _ => hv e.2), if_neg (fun e : v ∈ w :: l ∧ _ => hv e.2), if_neg (fun e : v = w ∧ _ => hv (e.1 ▸ e.2))]

/-- Two states in which regions, gangs, teams and warps are the same units, on dies whose clocks show the same. -/
structure State.SameUnits (s t : State) : Prop where
  gangs : t.gangs = s.gangs
  teams : t.teams = s.teams
  warps : t.warps.length = s.warps.length
  team : ∀ w, (t.warp w).team = (s.warp w).team
  regions : t.regions.length = s.regions.length
  die : ∀ r, (t.region r).die = (s.region r).die
  clock : ∀ d, t.localTick d = s.localTick d

theorem State.SameUnits.regionWarps_eq {s t : State} (h : s.SameUnits t) (r : Nat) : t.regionWarps r = s.regionWarps r := by
  have hw : t.warpsOf = s.warpsOf := funext fun k => by simp only [State.warpsOf, h.warps, h.team]
  have ht : t.teamsOf = s.teamsOf := funext fun g => by simp only [State.teamsOf, State.team, h.teams]
  have hg : t.gangsOf r = s.gangsOf r := by simp only [State.gangsOf, State.gang, h.gangs]
  have hgw : t.gangWarps = s.gangWarps := funext fun g => by simp only [State.gangWarps, hw, ht]
  rw [State.regionWarps, hg, hgw, State.regionWarps]

/-- The state in which region `r` has begun, its warps aside. -/
def State.beginRegion (s : State) (len r : Nat) : State :=
  (s.modDie (s.region r).die fun d => { d with full := [], landing := [], landPoison := [] }).modRegion r fun y =>
    { y with begun := true, beat := (s.reconTick (s.region r).die / len, s.localTick (s.region r).die) }

theorem State.startRegion_eq (s : State) (b0 len r : Nat) : s.startRegion b0 len r =
    (s.regionWarps r).foldl (fun u w => u.modWarp w (Warp.begun b0 len (s.localTick (s.region r).die))) (s.beginRegion len r) := rfl

theorem State.startRegion_warp (s : State) (b0 len r w : Nat) : (s.startRegion b0 len r).warp w =
    if w ∈ s.regionWarps r then Warp.begun b0 len (s.localTick (s.region r).die) (s.warp w) else s.warp w := by
  rw [State.startRegion_eq, State.warp_foldl_modWarp (f := Warp.begun b0 len (s.localTick (s.region r).die)) fun _ => rfl]
  by_cases h : w ∈ s.regionWarps r
  · rw [if_pos h, if_pos ⟨h, (State.mem_regionWarps h).1⟩]
    rfl
  · rw [if_neg h, if_neg fun e => h e.1]
    rfl

/-- Beside the warps, the start of a region changes what its beginning changes. -/
theorem State.startRegion_field {β : Type} (g : State → β) (hg : ∀ s w f, g (State.modWarp s w f) = g s) (s : State) (b0 len r : Nat) :
    g (s.startRegion b0 len r) = g (s.beginRegion len r) := by
  rw [State.startRegion_eq]
  exact foldl_field g _ (fun s w => hg s w _) _ _

theorem State.startRegion_region (s : State) (b0 len r x : Nat) : (s.startRegion b0 len r).region x = (s.beginRegion len r).region x :=
  State.startRegion_field (fun s => s.region x) (fun _ _ _ => rfl) s b0 len r

theorem State.startRegion_die (s : State) (b0 len r d : Nat) : (s.startRegion b0 len r).die d = (s.beginRegion len r).die d :=
  State.startRegion_field (fun s => s.die d) (fun _ _ _ => rfl) s b0 len r

/-- A change of one unit that leaves a part of it alone leaves that part of every unit alone. -/
theorem getD_modify_field {α β : Type} (p : α → β) (l : List α) (n m : Nat) (d : α) {f : α → α} (hf : ∀ x, p (f x) = p x) :
    p ((l.modify n f).getD m d) = p (l.getD m d) := by
  by_cases h : m = n
  · subst h
    by_cases hm : m < l.length
    · rw [getD_modify_self hm, hf]
    · rw [List.modify_eq_self (Nat.le_of_not_lt hm)]
  · rw [getD_modify_ne l h]

theorem State.startRegion_sameUnits (s : State) (b0 len r : Nat) : s.SameUnits (s.startRegion b0 len r) where
  gangs := State.startRegion_field State.gangs (fun _ _ _ => rfl) s b0 len r
  teams := State.startRegion_field State.teams (fun _ _ _ => rfl) s b0 len r
  warps := State.startRegion_field (fun s => s.warps.length) (fun _ _ _ => List.length_modify ..) s b0 len r
  team w := by
    rw [State.startRegion_warp]
    split <;> rfl
  regions := (congrArg List.length (State.startRegion_field State.regions (fun _ _ _ => rfl) s b0 len r)).trans (List.length_modify ..)
  die x := by
    rw [State.startRegion_region]
    exact getD_modify_field Region.die s.regions r x default fun _ => rfl
  clock d := by
    rw [State.localTick, State.startRegion_die]
    exact getD_modify_field Die.local_ s.dies _ d {} fun _ => rfl

theorem State.startRegion_begun {s : State} {r x : Nat} (b0 len : Nat) (hx : x < s.regions.length)
    (h : x = r ∨ (s.region x).begun = true) : ((s.startRegion b0 len r).region x).begun = true := by
  rw [State.startRegion_region]
  by_cases e : x = r
  · subst e
    exact congrArg Region.begun (getD_modify_self hx _ default)
  · exact (congrArg Region.begun (getD_modify_ne s.regions e _ default)).trans (h.resolve_left e)

/-- A die whose landing slots and landing buffer are empty (R177). -/
def Die.NothingLanded (d : Die) : Prop := d.full = [] ∧ d.landing = []

theorem State.startRegion_landing {s : State} {r d : Nat} (b0 len : Nat) (h : (s.region r).die = d ∨ (s.die d).NothingLanded) :
    ((s.startRegion b0 len r).die d).NothingLanded := by
  rw [State.startRegion_die]
  by_cases e : (s.region r).die = d
  · subst e
    by_cases hd : (s.region r).die < s.dies.length
    · have hb : (s.beginRegion len r).die (s.region r).die = _ := State.die_modDie_self hd _
      rw [hb]
      exact ⟨rfl, rfl⟩
    · have hb : (s.beginRegion len r).die (s.region r).die = {} := by
        simp only [State.die, State.beginRegion, State.modRegion_dies, State.modDie_dies]
        rw [List.modify_eq_self (Nat.le_of_not_lt hd), List.getD_eq_default _ _ (Nat.le_of_not_lt hd)]
      rw [hb]
      exact ⟨rfl, rfl⟩
  · have hb : (s.beginRegion len r).die d = s.die d := getD_modify_ne s.dies (Ne.symm e) _ {}
    rw [hb]
    exact h.resolve_left e

/-- The state in which some regions have started. -/
def State.startRegions (s : State) (b0 len : Nat) (l : List Nat) : State := l.foldl (fun (s : State) r => s.startRegion b0 len r) s

theorem State.startRegions_warp {s : State} {b0 len r w : Nat} (l : List Nat) (h : w ∈ s.regionWarps r) :
    (s.startRegions b0 len l).warp w = if r ∈ l then Warp.begun b0 len (s.localTick (s.region r).die) (s.warp w) else s.warp w := by
  induction l generalizing s with
  | nil => rfl
  | cons a l ih =>
    have hu := s.startRegion_sameUnits b0 len a
    have hw := ih (s := s.startRegion b0 len a) (by rwa [hu.regionWarps_eq])
    rw [hu.clock, hu.die, State.startRegion_warp] at hw
    rw [State.startRegions, List.foldl_cons]
    refine hw.trans ?_
    by_cases ha : r = a
    · subst ha
      simp only [h, if_true, List.mem_cons, true_or]
      split <;> rfl
    · have hna : w ∉ s.regionWarps a := fun e => ha ((State.mem_regionWarps h).2.symm.trans (State.mem_regionWarps e).2)
      simp only [hna, if_false, List.mem_cons, ha, false_or]

theorem State.startRegions_begun {s : State} {x : Nat} (b0 len : Nat) (l : List Nat) (hx : x < s.regions.length)
    (h : x ∈ l ∨ (s.region x).begun = true) : ((s.startRegions b0 len l).region x).begun = true := by
  induction l generalizing s with
  | nil => exact h.resolve_left List.not_mem_nil
  | cons a l ih =>
    refine ih (s := s.startRegion b0 len a) (by rwa [(s.startRegion_sameUnits b0 len a).regions]) ?_
    rw [List.mem_cons, or_assoc, or_left_comm] at h
    exact h.imp_right (State.startRegion_begun b0 len hx)

theorem State.startRegions_landing {s : State} {d : Nat} (b0 len : Nat) (l : List Nat)
    (h : (∃ r ∈ l, (s.region r).die = d) ∨ (s.die d).NothingLanded) : ((s.startRegions b0 len l).die d).NothingLanded := by
  induction l generalizing s with
  | nil => exact h.resolve_left fun ⟨_, hr, _⟩ => List.not_mem_nil hr
  | cons a l ih =>
    refine ih (s := s.startRegion b0 len a) ?_
    simp only [(s.startRegion_sameUnits b0 len a).die]
    simp only [List.mem_cons, exists_eq_or_imp, or_assoc] at h
    rw [or_left_comm] at h
    exact h.imp_right (State.startRegion_landing b0 len)

/-- Beside regions, dies and warps the start of regions changes nothing. -/
theorem State.startRegions_field {β : Type} (p : State → β) (hw : ∀ s w f, p (State.modWarp s w f) = p s)
    (hb : ∀ s len r, p (State.beginRegion s len r) = p s) (s : State) (b0 len : Nat) (l : List Nat) : p (s.startRegions b0 len l) = p s :=
  foldl_field p _ (fun s r => (State.startRegion_field p hw s b0 len r).trans (hb s len r)) l s

theorem State.mem_starting {s : State} {g r : Nat} (ht : (s.grid g).launch.timed = true) (hd : (s.grid g).done = false)
    (hp : (s.grid g).launch.nRegions ≤ (s.grid g).placed) : r ∈ s.starting g ↔
      r ∈ s.regionsOf g ∧ (s.region r).begun = false ∧ (s.grid g).b0 ≤ s.reconTick (s.region r).die := by
  unfold State.starting
  rw [if_neg (by simp [ht, hd, hp])]
  simp

theorem execTimedLaunchStart_starts {s : State} {g r : Nat} (h : r ∈ s.starting g) : exec (.timedLaunchStart g) s =
    .next ((s.startRegions (s.grid g).b0 (s.grid g).launch.strokeS (s.starting g)).modGrid g fun y => { y with started := true }) := by
  simp only [exec, execTimedLaunchStart]
  split
  case h_1 hn => exact absurd h (hn ▸ List.not_mem_nil)
  case h_2 => rfl

theorem State.warp_modGrid (s : State) (g : Nat) (f : Grid → Grid) (w : Nat) : (s.modGrid g f).warp w = s.warp w := rfl

/-- What the start of a timed grid makes of it, of its regions and of their warps. -/
theorem execTimedLaunchStart_regions {s : State} {g : Nat} (hg : g < s.grids.length) (ht : (s.grid g).launch.timed = true)
    (hd : (s.grid g).done = false) (hp : (s.grid g).launch.nRegions ≤ (s.grid g).placed) :
    let len := (s.grid g).launch.strokeS
    let b0 := (s.grid g).b0
    let due := fun r => (s.region r).begun = false ∧ b0 ≤ s.reconTick (s.region r).die
    (∃ r ∈ s.regionsOf g, due r) →
    ∃ t, exec (.timedLaunchStart g) s = .next t ∧ (t.grid g).started = true ∧ t.mem = s.mem ∧ ∀ r ∈ s.regionsOf g,
      (due r → (t.region r).begun = true ∧ (t.die (s.region r).die).full = [] ∧ (t.die (s.region r).die).landing = [] ∧
        ∀ w ∈ s.regionWarps r, (t.warp w).timed.b0 = b0 ∧ (t.warp w).timed.bt = b0 + len ∧
          (t.warp w).begin_ = s.localTick (s.region r).die ∧ (t.warp w).regs = (s.warp w).regs) ∧
      (¬ due r → ∀ w ∈ s.regionWarps r, t.warp w = s.warp w) := by
  intro len b0 due ⟨r0, hr0, hdue0⟩
  have hmem : ∀ r, r ∈ s.starting g ↔ r ∈ s.regionsOf g ∧ due r := fun r => State.mem_starting ht hd hp
  have hgrids : (s.startRegions b0 len (s.starting g)).grids = s.grids :=
    State.startRegions_field State.grids (fun _ _ _ => rfl) (fun _ _ _ => rfl) ..
  refine ⟨_, execTimedLaunchStart_starts ((hmem r0).mpr ⟨hr0, hdue0⟩), ?_,
    State.startRegions_field State.mem (fun _ _ _ => rfl) (fun _ _ _ => rfl) .., fun r hr => ⟨fun hdue => ?_, fun hn w hw => ?_⟩⟩
  · rw [State.grid_modGrid_self (by rwa [hgrids])]
  · have hs : r ∈ s.starting g := (hmem r).mpr ⟨hr, hdue⟩
    have hlt : r < s.regions.length := List.mem_range.mp (List.mem_filter.mp hr).1
    obtain ⟨hfull, hland⟩ := State.startRegions_landing (s := s) b0 len (s.starting g) (.inl ⟨r, hs, rfl⟩)
    refine ⟨State.startRegions_begun b0 len _ hlt (.inl hs), hfull, hland, fun w hw => ?_⟩
    rw [State.warp_modGrid, State.startRegions_warp _ hw, if_pos hs]
    exact ⟨rfl, rfl, rfl, rfl⟩
  · exact (State.startRegions_warp (b0 := b0) (len := len) (s.starting g) hw).trans (if_neg fun e => hn ((hmem r).mp e).2)

end Sys2Proof.Machine
end

section
/-! Placement: a grid whose regions are placed adds their warps at their start values and changes no other warp (R141 to R146, Table 2-2). -/

namespace Sys2Proof.Machine

/-- A warp of a launch has its start values (Table 2-2). -/
def Warp.Starts (l : LaunchRec) (x : Warp) : Prop :=
  x.v = List.replicate l.vregs (Vec.tab fun _ => 0) ∧ x.s = 0 :: l.args :: List.replicate 62 0 ∧
    x.k = allLanes :: List.replicate 15 0 ∧ x.fmt = fmtReset ∧ x.mreg = 0 ∧ x.wst = 0 ∧ x.live = allLanes ∧ x.retired = 0 ∧
    x.stack = [] ∧ x.calls = 0 ∧ x.trap = {} ∧ x.next = l.entry ∧ x.done = false

/-- `t` has `n` warps of launch `l` more than `s`, at their start values, and the same grids, queues and time. -/
structure State.AddsWarps (l : LaunchRec) (n : Nat) (s t : State) : Prop where
  grids : t.grids = s.grids
  queues : t.queues = s.queues
  stake : t.stake = s.stake
  warps : ∃ ws, t.warps = s.warps ++ ws ∧ ws.length = n ∧ ∀ x ∈ ws, x.Starts l

section
variable {l : LaunchRec} {m n : Nat} {s t u : State}

theorem State.AddsWarps.refl (l : LaunchRec) (s : State) : s.AddsWarps l 0 s :=
  ⟨rfl, rfl, rfl, [], (List.append_nil _).symm, rfl, fun _ h => absurd h List.not_mem_nil⟩

theorem State.AddsWarps.trans (h : s.AddsWarps l m t) (k : t.AddsWarps l n u) : s.AddsWarps l (m + n) u where
  grids := k.grids.trans h.grids
  queues := k.queues.trans h.queues
  stake := k.stake.trans h.stake
  warps := by
    obtain ⟨v, hv, hm, hx⟩ := h.warps
    obtain ⟨w, hw, hn, hy⟩ := k.warps
    exact ⟨v ++ w, by rw [hw, hv, List.append_assoc], by rw [List.length_append, hm, hn],
      fun x hxm => (List.mem_append.mp hxm).elim (hx x) (hy x)⟩

/-- Parts of the state that the relation does not speak of may change. -/
theorem State.AddsWarps.of_eq (hg : t.grids = s.grids) (hq : t.queues = s.queues) (hs : t.stake = s.stake) (hw : t.warps = s.warps) :
    s.AddsWarps l 0 t :=
  ⟨hg, hq, hs, [], by rw [hw, List.append_nil], rfl, fun _ h => absurd h List.not_mem_nil⟩

/-- A fold of steps that each add `n` warps. -/
theorem State.AddsWarps.foldl {α : Type} {f : State → α → State} (hf : ∀ (s : State) x, s.AddsWarps l n (f s x)) (xs : List α) (s : State) :
    s.AddsWarps l (xs.length * n) (xs.foldl f s) := by
  induction xs generalizing s with
  | nil => simpa using State.AddsWarps.refl l s
  | cons x xs ih => simpa [add_mul, Nat.add_comm] using (hf s x).trans (ih (f s x))

theorem State.foldl_bind_none {α : Type} (f : State → α → Option State) (xs : List α) :
    xs.foldl (fun (o : Option State) x => o.bind fun s => f s x) none = none := by
  induction xs with
  | nil => rfl
  | cons x xs ih => exact ih

/-- A fold of steps that each add `n` warps or fail. -/
theorem State.AddsWarps.foldlBind {α : Type} {f : State → α → Option State} (hf : ∀ (s : State) x t, f s x = some t → s.AddsWarps l n t)
    (xs : List α) (s : State) (h : xs.foldl (fun (o : Option State) x => o.bind fun s => f s x) (some s) = some t) :
    s.AddsWarps l (xs.length * n) t := by
  induction xs generalizing s with
  | nil =>
    obtain rfl := Option.some.inj h
    simpa using State.AddsWarps.refl l s
  | cons x xs ih =>
    rw [List.foldl_cons, Option.bind_some] at h
    cases hx : f s x with
    | none =>
      rw [hx] at h
      rw [State.foldl_bind_none] at h
      cases h
    | some u =>
      rw [hx] at h
      simpa [add_mul, Nat.add_comm] using (hf s x u hx).trans (ih u h)

end

/-! Regions, gangs and teams (R144, R146, R198). -/

theorem State.addTeam_addsWarps (s : State) (g i ctx die core : Nat) (l : LaunchRec) (slots : List Nat) :
    s.AddsWarps l l.nWarps (s.addTeam g i ctx die core l slots) where
  grids := State.modCore_grids ..
  queues := State.modCore_queues ..
  stake := State.modCore_stake ..
  warps := by
    refine ⟨_, State.modCore_warps .., by rw [List.length_map, List.length_range], fun x hx => ?_⟩
    obtain ⟨k, -, rfl⟩ := List.mem_map.mp hx
    exact ⟨rfl, rfl, rfl, rfl, rfl, rfl, rfl, rfl, rfl, rfl, rfl, rfl, rfl⟩

theorem State.takeSlots_addsWarps {s t : State} {ctx n : Nat} {slots : List Nat} (l : LaunchRec) (h : s.takeSlots ctx n = some (slots, t)) :
    s.AddsWarps l 0 t := by
  unfold State.takeSlots at h
  dsimp only at h
  split at h
  · obtain ⟨-, rfl⟩ := Prod.mk.inj (Option.some.inj h)
    exact .of_eq rfl rfl rfl rfl
  · cases h

theorem State.placeGang_addsWarps {s t : State} {r i ctx die : Nat} {l : LaunchRec} (h : s.placeGang r i ctx die l = some t) :
    s.AddsWarps l (l.nTeams * l.nWarps) t := by
  unfold State.placeGang at h
  split at h
  · cases h
  · rename_i q _
    split at h
    · cases h
    · rename_i slots u hu
      obtain rfl := Option.some.inj h
      obtain ⟨hg, hq, hs, hw⟩ := State.takeSlots_addsWarps l hu
      have hgang : s.AddsWarps l 0 { u with
          gangs := u.gangs ++ [{ region := r, idx := i, quad := q, st := .resident, stoppedAt := 0 }] } := ⟨hg, hq, hs, hw⟩
      have hteams := hgang.trans (.foldl (fun s k =>
        s.addTeam_addsWarps u.gangs.length k ctx die (4 * q + k) l (slots.drop (k * l.nWarps))) (List.range l.nTeams) _)
      rwa [Nat.zero_add, List.length_range] at hteams

theorem State.placeOn_addsWarps {s t : State} {g i die : Nat} (h : s.placeOn g i die = some t) :
    (s.modGrid g fun x => { x with placed := i + 1 }).AddsWarps (s.grid g).launch
      ((s.grid g).launch.nGangs * ((s.grid g).launch.nTeams * (s.grid g).launch.nWarps)) t := by
  have hgangs := State.AddsWarps.foldlBind (l := (s.grid g).launch) (fun s k t => State.placeGang_addsWarps) _ _ h
  rw [List.length_range] at hgangs
  exact ⟨hgangs.grids, hgangs.queues, hgangs.stake, hgangs.warps⟩

theorem State.placeRegion_addsWarps {s t : State} {g i : Nat} (h : s.placeRegion g i = some t) :
    (s.modGrid g fun x => { x with placed := i + 1 }).AddsWarps (s.grid g).launch
      ((s.grid g).launch.nGangs * ((s.grid g).launch.nTeams * (s.grid g).launch.nWarps)) t := by
  obtain ⟨d, -, hd⟩ := List.exists_of_findSome?_eq_some h
  exact State.placeOn_addsWarps hd

/-! What the units note before a placement (R138, R142). -/

theorem State.queue_noteEligible (s : State) (q : Nat) :
    ∃ es el, s.noteEligible.queue q = { s.queue q with entries := es, eligAt := el } := by
  simp only [State.queue, State.noteEligible, List.getD_eq_getElem?_getD, List.getElem?_mapIdx]
  cases s.queues[q]? with
  | none => exact ⟨[], none, rfl⟩
  | some x => exact ⟨_, _, rfl⟩

theorem State.length_queues_noteEligible (s : State) : s.noteEligible.queues.length = s.queues.length := List.length_mapIdx

/-! The head that is placed (R141, R145). -/

/-- A head that may be placed now has room. -/
theorem State.placeHead_of_nextOf {s : State} {l : List Nat} {q : Nat} (h : s.nextOf l = some q) : (s.placeHead q).isSome = true := by
  induction l with
  | nil => cases h
  | cons p l ih =>
    unfold State.nextOf at h
    split at h
    case isTrue hp =>
      split at h
      · exact ih h
      · obtain rfl := Option.some.inj h
        exact hp
    case isFalse =>
      split at h
      · exact ih h
      · cases h

/-- The grid of a head of which nothing is placed is the new one. -/
theorem State.headGrid?_newGrid {s : State} {q : Nat} {e : QEntry} (h : s.headGrid? q e = none) (l : LaunchRec) :
    (s.newGrid q e l).headGrid? q e = some s.grids.length := by
  have hold : ∀ g < s.grids.length, (s.newGrid q e l).grid g = s.grid g := fun g hg => List.getD_append _ _ _ _ hg
  have hnew : (s.newGrid q e l).grid s.grids.length = _ := List.getD_append_right _ _ _ _ le_rfl
  have hlen : (s.newGrid q e l).grids.length = s.grids.length + 1 := List.length_append
  rw [State.headGrid?, hlen, List.range_succ, List.find?_append]
  have hnone : (List.range s.grids.length).find? (fun g => ((s.newGrid q e l).grid g).queue == q && ((s.newGrid q e l).grid g).seq == e.seq &&
      !((s.newGrid q e l).grid g).done) = none := by
    rw [State.headGrid?, List.find?_eq_none] at h
    rw [List.find?_eq_none]
    intro g hg
    rw [hold g (List.mem_range.mp hg)]
    exact h g hg
  rw [hnone, Option.none_or, List.find?_singleton, hnew]
  simp

/-- The state in which a new head's grid is made: where no grid of its context runs, the caches drop its read-only weights (R197). -/
def State.readied (s : State) (q : Nat) : State :=
  if s.ctxBusy (fld (s.queue q).ctl 0 8) then s else s.flashWeights (fld (s.queue q).ctl 0 8)

theorem State.readied_only (s : State) (q : Nat) : ∃ c, s.readied q = { s with cache := c } := by
  unfold State.readied
  split
  · exact ⟨s.cache, rfl⟩
  · exact ⟨_, rfl⟩

/-- What a placement notes of the head and of its grid once regions of it are placed. -/
def State.notePlaced (s : State) (q g n : Nat) : State :=
  let t := State.modGrid { s with served := assocSet s.served (s.queue q).prio q } g fun x => { x with prio := (s.queue q).prio, placedAt := s.stake }
  if (t.grid g).placed < n then t
  else t.modQueue q fun x => { x with entries := x.entries.drop 1, prio := fld x.ctl 8 2, eligAt := none, urgent := false }

theorem State.notePlaced_keeps (s : State) (q g n : Nat) : (s.notePlaced q g n).warps = s.warps ∧
    (s.notePlaced q g n).grids = s.grids.modify g fun x => { x with prio := (s.queue q).prio, placedAt := s.stake } := by
  unfold State.notePlaced
  dsimp only
  split <;> exact ⟨rfl, rfl⟩

/-- A new head that is placed: its grid is made, its first region is placed, and both are noted. -/
theorem State.placeHead_new {s t : State} {q : Nat} {e : QEntry} {l : LaunchRec} (he : s.head? q = some (e, l))
    (hg : s.headGrid? q e = none) (hc : l.coresident = false) (h : s.placeHead q = some t) :
    ∃ u, ((s.readied q).newGrid q e l).placeRegion s.grids.length 0 = some u ∧ t = u.notePlaced q s.grids.length l.nRegions := by
  obtain ⟨c, hr⟩ := s.readied_only q
  have hgr : (s.readied q).headGrid? q e = none := by rw [hr]; exact hg
  have hlen : (s.readied q).grids.length = s.grids.length := by rw [hr]
  have hnew := State.headGrid?_newGrid hgr l
  have hgrid : ((s.readied q).newGrid q e l).grid (s.readied q).grids.length = _ := List.getD_append_right _ _ _ _ le_rfl
  unfold State.placeHead at h
  rw [he] at h
  dsimp only at h
  rw [hg] at h
  split at h
  · cases h
  · change (((s.readied q).newGrid q e l).placeNext ((((s.readied q).newGrid q e l).headGrid? q e).getD 0)).map
      (fun u => u.notePlaced q ((((s.readied q).newGrid q e l).headGrid? q e).getD 0) l.nRegions) = some t at h
    rw [hnew, Option.getD_some, State.placeNext, hgrid] at h
    simp only [Nat.sub_self, List.getD_cons_zero, hc, Bool.false_eq_true, if_false, hlen] at h
    obtain ⟨u, hu, rfl⟩ := Option.map_eq_some_iff.mp h
    exact ⟨u, hu, rfl⟩

/-! The events. -/

/-- LAUNCH_PLACEMENT places the next head. -/
theorem execLaunchPlacement_places {s : State} {q : Nat} (hr : s.runs = true)
    (hs : s.noteEligible.heads.find? s.noteEligible.skips = none) (hn : s.noteEligible.nextHead? = some q) :
    ∃ t, s.noteEligible.placeHead q = some t ∧ exec .launchPlacement s = .next t := by
  obtain ⟨t, ht⟩ := Option.isSome_iff_exists.mp (State.placeHead_of_nextOf hn)
  refine ⟨t, ht, ?_⟩
  have hrn : s.noteEligible.runs = true := hr
  simp only [exec, execLaunchPlacement, hrn, hs, hn, ht]
  rfl

/-- LAUNCH_PLACEMENT completes a head that is to be skipped with cause 5. -/
theorem execLaunchPlacement_skips {s : State} {q : Nat} {e : QEntry} {l : LaunchRec} (hr : s.runs = true)
    (hs : s.noteEligible.heads.find? s.noteEligible.skips = some q) (he : s.noteEligible.head? q = some (e, l)) :
    exec .launchPlacement s = .next (s.noteEligible.endLaunch q e.seq 5) := by
  have hrn : s.noteEligible.runs = true := hr
  simp only [exec, execLaunchPlacement, hrn, hs, he]
  rfl

theorem modify_length_append {α : Type} (l : List α) (a : α) (f : α → α) : (l ++ [a]).modify l.length f = l ++ [f a] := by
  induction l with
  | nil => rfl
  | cons x l ih => exact congrArg (x :: ·) ih

/-- A new head that is not co-resident: its grid is added with the warps of its first region. -/
theorem State.placeHead_adds {s t : State} {q : Nat} {e : QEntry} {l : LaunchRec} (he : s.head? q = some (e, l))
    (hg : s.headGrid? q e = none) (hc : l.coresident = false) (h : s.placeHead q = some t) :
    ∃ g : Grid, t.grids = s.grids ++ [g] ∧ g.queue = q ∧ g.seq = e.seq ∧ g.launch = l ∧ g.ctx = fld (s.queue q).ctl 0 8 ∧ g.placed = 1 ∧
      g.placedAt = s.stake ∧ g.started = true ∧ g.done = false ∧
      ∃ ws, t.warps = s.warps ++ ws ∧ ws.length = l.nGangs * (l.nTeams * l.nWarps) ∧ ∀ x ∈ ws, x.Starts l := by
  obtain ⟨u, hu, rfl⟩ := State.placeHead_new he hg hc h
  obtain ⟨c, hr⟩ := s.readied_only q
  rw [hr] at hu
  have hadd := State.placeRegion_addsWarps hu
  have hgrid : (State.newGrid { s with cache := c } q e l).grid s.grids.length = _ := List.getD_append_right _ _ _ _ le_rfl
  rw [hgrid] at hadd
  simp only [Nat.sub_self, List.getD_cons_zero] at hadd
  obtain ⟨hgrids, -, hstake, ws, hws, hlen, hstart⟩ := hadd
  obtain ⟨hwarps, hnoted⟩ := u.notePlaced_keeps q s.grids.length l.nRegions
  have htimed : l.timed = false := (Bool.or_eq_false_iff.mp hc).1
  rw [hnoted, hwarps, hgrids, hstake]
  simp only [State.modGrid, State.newGrid, modify_length_append]
  exact ⟨_, rfl, rfl, rfl, rfl, rfl, rfl, rfl, by rw [htimed]; rfl, rfl, ws, hws, hlen, hstart⟩

/-- Settles O45: placements by the warps that they add, the start of a timed launch by its regions, and completions upwards. -/
theorem launchesRunAndComplete : Obligations.LaunchesRunAndComplete := by
  unfold Obligations.LaunchesRunAndComplete
  dsimp only
  simp only [← State.runs_iff]
  refine ⟨?places, ?skips, ?down, ?starts, ?idle, ?team, ?teamWaits, ?grid, fun s g r => execGridComplete_waits⟩
  case places =>
    intro s q e l hr hs hn he hg hc
    obtain ⟨t, ht, hx⟩ := execLaunchPlacement_places hr hs hn
    obtain ⟨g, hgrids, hq, hseq, hl, hctx, hp, hat, hst, hd, ws, hws, hlen, hstart⟩ := State.placeHead_adds he hg hc ht
    have hctl : (s.noteEligible.queue q).ctl = (s.queue q).ctl := by
      obtain ⟨es, el, h⟩ := s.queue_noteEligible q
      rw [h]
    have hw : t.warps = s.warps ++ ws := hws
    refine ⟨t, g, hx, hgrids, hq, hseq, hl, hctx.trans (by rw [hctl]), hp, hat, hst, hd, ?_, ?_, ?_⟩
    · rw [hw, List.length_append, hlen]
    · rw [hw, List.take_left]
    · rw [hw, List.drop_left]
      exact hstart
  case skips =>
    intro s q e l hr hs he hq
    refine ⟨_, execLaunchPlacement_skips hr hs he, ?_, rfl, rfl⟩
    rw [State.queue_endLaunch (by rwa [s.length_queues_noteEligible])]
    obtain ⟨es, el, h⟩ := s.queue_noteEligible q
    rw [h]
    rfl
  case down =>
    intro s hr
    have hrn : s.noteEligible.runs = false := Bool.eq_false_iff.mpr hr
    simp only [exec, execLaunchPlacement, hrn]
    rfl
  case starts => exact fun s g hg ht hd hp => execTimedLaunchStart_regions hg ht hd hp
  case idle =>
    intro s g h
    simp only [exec, execTimedLaunchStart, h]
  case team =>
    intro s k hk hd hw hc hg
    obtain ⟨t, hx, hteams, hgangs⟩ := execTeamComplete_completes hk hd hw hc
    have hteam : t.team k = { s.team k with done := true } := by
      rw [State.team, hteams, State.teamUp_teams]
      exact State.team_modTeam_self hk _
    refine ⟨t, hx, by rw [hteam], by rw [hteam], fun hall => ?_⟩
    have hgang : t.gang (s.team k).gang = { s.gang (s.team k).gang with st := .done, freedAt := some (s.localTick (s.teamPlace k).die) } := by
      rw [State.gang, hgangs, State.teamUp, if_pos (State.gangEnds_teamDone hk hall)]
      exact State.gang_modGang_self (s := s.teamDone k) hg _
    rw [hgang]
    exact ⟨rfl, rfl⟩
  case teamWaits => exact fun s k w => execTeamComplete_waits
  case grid =>
    intro s g hg hq hd hp hr hc hcolls hw hb
    exact execGridComplete_completes ⟨hg, hd, hp, hr, hc, hcolls, hw, hb⟩ hq

end Sys2Proof.Machine
end

section
/-! What a fault leaves of its warp, whether a block is under way or not (R419, R421), and the faults of an instruction that fires. -/

namespace Sys2Proof.Machine

theorem State.blk?_isSome_lt {s : State} {w : Nat} {b : Blk} (h : s.blk? w = some b) : w < s.warps.length := by
  by_contra hn
  simp [State.blk?, List.getElem?_eq_none (Nat.le_of_not_lt hn)] at h

/-- A warp that faults without a block is parked and keeps its registers. -/
theorem State.fault_warp_idle {s : State} {w : Nat} (hw : w < s.warps.length) (hb : s.blk? w = none) (r : FRec) :
    ∃ q, (s.fault w r).warp w = { s.warp w with seat := q, park := { (s.warp w).park with fault := true } } := by
  have ha : s.abortBlock w = s := by simp only [State.abortBlock, hb]
  obtain ⟨q, hq⟩ := s.freeSeat_warp w w
  have hl : w < (s.freeSeat w).warps.length := by
    unfold State.freeSeat
    split <;> simpa using hw
  refine ⟨q, ?_⟩
  have hf : (s.fault w r).warp w = ((s.freeSeat w).modWarp w fun x => { x with park := { x.park with fault := true } }).warp w := by
    unfold State.fault
    rw [ha]
    rfl
  rw [hf, State.warp_modWarp, if_pos ⟨rfl, hl⟩, hq]

/-- A warp of the machine that faults is parked on the record of its fault, with its block aborted. -/
theorem State.parkedOn_fault {s : State} (hs : s.shapeOk) {w : Nat} (hw : w < s.warps.length) (r : FRec) :
    s.ParkedOn (s.fault w r) w r.code r.detail r.index := by
  obtain ⟨x, hx, hxb, hxf, hxr, hxt⟩ : ∃ x : Warp, (s.fault w r).warp w = x ∧ x.blk = none ∧ x.park.fault = true ∧
      x.regs = (s.warp w).regs ∧ x.trap = (s.warp w).trap := by
    cases hb : s.blk? w with
    | some b =>
      obtain ⟨q, hq⟩ := State.fault_warp hb r
      exact ⟨_, hq, rfl, rfl, rfl, rfl⟩
    | none =>
      obtain ⟨q, hq⟩ := State.fault_warp_idle hw hb r
      exact ⟨_, hq, by rw [State.blk?_eq_warp] at hb; exact hb, rfl, rfl, rfl⟩
  refine ⟨State.fault_mem .., ?_, by rw [hx, hxf], by rw [hx, hxr], by rw [hx, hxt], State.fault_record hs w r⟩
  rw [State.blk?_eq_warp, hx, hxb]

section
variable {s : State} {i : Instr} {b : Blk} {x : Args}

/-- The block of an instruction that has been noted as fired. -/
theorem State.Fires.blk?_markFired (hf : s.Fires i b x) : s.markFired.blk? s.cur = some (s.marked b) :=
  s.blk?_modBlk s.cur s.marked b (s.blk?_of_issuing b hf.1)

/-- A fault of an instruction that fires parks its warp. -/
theorem State.Fires.parkedOn (hs : s.shapeOk) (hf : s.Fires i b x) (r : FRec) :
    s.markFired.ParkedOn (s.markFired.fault s.cur r) s.cur r.code r.detail r.index :=
  State.parkedOn_fault (s := s.markFired) hs (State.blk?_isSome_lt hf.blk?_markFired) r

/-- What `FaultsAt` asks, of a warp that is parked on the fault of an instruction that fires. -/
theorem State.ParkedOn.faulted {t : State} {code detail index : Nat} {g : Blk → Blk}
    (h : (s.modBlk s.cur g).ParkedOn t s.cur code detail index) :
    t.mem = s.mem ∧ t.blk? s.cur = none ∧ (t.warp s.cur).park.fault = true ∧
      (t.warp s.cur).v = (s.warp s.cur).v ∧ (t.warp s.cur).s = (s.warp s.cur).s ∧ (t.warp s.cur).k = (s.warp s.cur).k ∧
      ∃ f, (t.ctx (s.place s.cur).ctx).hubq.getLast? = some f ∧ f.code = code ∧ f.detail = detail ∧ f.index = index ∧
        f.wid = some s.cur := by
  obtain ⟨hmem, hblk, hpark, hregs, -, hrec⟩ := h
  obtain ⟨o, ho⟩ := s.warp_modBlk s.cur s.cur g
  rw [ho] at hregs
  simp only [Warp.regs, Prod.mk.injEq] at hregs
  obtain ⟨hv, hsr, hk, -⟩ := hregs
  rw [State.place_modBlk] at hrec
  exact ⟨hmem, hblk, hpark, hv, hsr, hk, hrec⟩

end

section
variable {i : Instr} {h : Hdr} {gate : State → Blk → Bool} {onNull : State → State → State} {f : State → Blk → Args → State → State}
  {no : State → Blk → Args → Prop} {code detail : Nat} {index : State → Blk → Nat}

/-- An instruction that fires and whose meaning then raises a fault. -/
theorem faultsAt_of_issue (hh : i.hdr? = some h) (he : ∀ s, exec i s = .next (s.issue i (gate s) (onNull s) (f s)))
    (hg : ∀ s b x, no s b x → gate s b = true)
    (hf : ∀ s b x, s.Fires i b x → no s b x → ∃ r : FRec, f s b x s.markFired = s.markFired.fault s.cur r ∧ r.code = code ∧
      r.detail = detail ∧ r.index = index s b) : FaultsAt i no code detail index := by
  intro s b x hs hx hn
  obtain ⟨r, hr, rfl, rfl, hi⟩ := hf s b x hx hn
  refine ⟨_, (he s).trans (congrArg Host.Outcome.next (s.issue_fires i h hh _ _ _ b x hx (hg s b x hn))), ?_⟩
  rw [hr, ← hi]
  exact (hx.parkedOn hs r).faulted

/-- An instruction without a result that raises a fault, under a condition, when it fires. -/
theorem faults_of_quiet {f : Blk → Args → State → State} (hh : i.hdr? = some h) (he : ∀ s, exec i s = execQuiet i f s)
    (hf : ∀ s b x, no s b x → f b x s.markFired = s.markFired.faultAt s.cur s.curIdx code detail) : Faults i no code detail :=
  faultsAt_of_issue (gate := fun _ _ => true) (onNull := fun _ => id) (f := fun _ => f) hh he (fun _ _ _ _ => rfl)
    fun s b x _ hn => ⟨_, hf s b x hn, rfl, rfl, rfl⟩

end

/-! Conflicts and protection (R42, R119, R126, R128, R129, R133, R167, R226, R363, R435, R436, R453). -/

@[simp] theorem State.second_modBlk (s : State) (w v : Nat) (f : Blk → Blk) (b : Blk) (q p : Nat) :
    (s.modBlk w f).second v b q p = s.second v b q p := by
  unfold State.second
  rw [State.place_modBlk]
  rfl

/-- Of two deliveries the second is that of the higher index in one tick, else that of the later one (R42). -/
theorem State.second_of_find {s : State} {w q t : Nat} {b : Blk} (p : Nat) (h : b.when_.find? (fun e => e.1 == q) = some (q, t)) :
    (t = s.localTick (s.place w).die → s.second w b q p = max q p) ∧ (t ≠ s.localTick (s.place w).die → s.second w b q p = p) := by
  simp only [State.second, h, beq_iff_eq, Option.some.injEq, Prod.mk.injEq, true_and]
  exact ⟨fun e => if_pos e, fun e => if_neg e⟩

/-- A branch in a block where one has fired (R42). -/
theorem faultsAt_branch {i : Instr} {h : Hdr} {sel : Args → BranchSel} (hh : i.hdr? = some h)
    (he : ∀ s, exec i s = execQuiet i (fun b x s => s.fireBranch b (sel x)) s) :
    FaultsAt i (fun _ b _ => b.branch ≠ none) 2 0 fun s b => (b.branch.map fun q => s.second s.cur b q.1 s.curIdx).getD s.curIdx := by
  refine faultsAt_of_issue (gate := fun _ _ => true) (onNull := fun _ => id) (f := fun _ b x s => s.fireBranch b (sel x)) hh he
    (fun _ _ _ _ => rfl) fun s b x _ hn => ?_
  obtain ⟨q, hq⟩ := Option.ne_none_iff_exists'.mp hn
  refine ⟨{ code := 2, detail := 0, index := s.second s.cur b q.1 s.curIdx }, ?_, rfl, rfl, by simp [hq]⟩
  simp only [State.fireBranch, hq, State.markFired, State.second_modBlk, State.modBlk_cur, State.modBlk_curIdx]
  rfl

/-- A second effect of a kind that a block may have once. -/
theorem faults_again {α : Type} {i : Instr} {h : Hdr} {d : Deferred → Option α} {g : Blk → Args → State → State} (hh : i.hdr? = some h)
    (he : ∀ s, exec i s = execQuiet i (fun b x s => if (d b.deferred).isSome then s.faultAt s.cur s.curIdx 2 0 else g b x s) s) :
    Faults i (fun _ b _ => d b.deferred ≠ none) 2 0 :=
  faults_of_quiet hh he fun _ _ _ hn => if_pos (Option.isSome_iff_ne_none.mpr hn)

theorem State.perfNote_again {b : Blk} {n : Nat} (h : ∃ p ∈ b.deferred.perf, p.1 = n) (s : State) (op : PerfOp) (go : State → State) :
    s.perfNote b n op go = s.faultAt s.cur s.curIdx 2 0 :=
  if_pos (by simpa using h)

theorem State.ctx_markFired (s : State) : (s.markFired.place s.cur).ctx = (s.place s.cur).ctx := by
  rw [State.markFired, State.place_modBlk]

theorem State.foreignCtr_markFired (s : State) (c : Ctr) : s.markFired.foreignCtr s.cur c = s.foreignCtr s.cur c := by
  unfold State.foreignCtr
  rw [State.ctx_markFired]
  rfl

/-- `perfctl.cfg` and `perfctl.clr` of a counter that the block has named. -/
theorem faults_perfAgain {i : Instr} {h : Hdr} {n : Nat} {op : Args → PerfOp} (hh : i.hdr? = some h)
    (he : ∀ s, exec i s = execQuiet i (fun b x s => s.perfSet b n (op x)) s) :
    Faults i (fun s b _ => (s.place s.cur).ctx = 0 ∧ ∃ p ∈ b.deferred.perf, p.1 = n) 2 0 := by
  refine faults_of_quiet hh he fun s b x ⟨hc, hp⟩ => ?_
  have hc : (s.markFired.place s.cur).ctx = 0 := s.ctx_markFired.trans hc
  exact (if_neg fun e => bne_iff_ne.mp e hc).trans (State.perfNote_again hp ..)

/-- They are of context 0 only. -/
theorem faults_perfForeign {i : Instr} {h : Hdr} {n : Nat} {op : Args → PerfOp} (hh : i.hdr? = some h)
    (he : ∀ s, exec i s = execQuiet i (fun b x s => s.perfSet b n (op x)) s) :
    Faults i (fun s _ _ => (s.place s.cur).ctx ≠ 0) 4 18 :=
  faults_of_quiet hh he fun s _ _ hc => if_pos (bne_iff_ne.mpr fun e => hc (s.ctx_markFired.symm.trans e))

theorem State.foreignCtr_tll {s : State} {q : BitVec 6} : s.foreignCtr s.cur (.tll q) = true ↔ fld (s.queue q.toNat).ctl 0 8 ≠ (s.place s.cur).ctx :=
  bne_iff_ne

/-- A second delivery to a slot or to a write slot aborts the block (R42). -/
theorem State.deliver_filled {s : State} {w : Nat} {b : Blk} (hs : s.shapeOk) (hb : s.blk? w = some b) (p : Nat) (t : Target) (v : Token) :
    b.open t = false → s.ParkedOn (s.deliver w p t v) w 2 0 (match t with
      | .opnd i _ => i.toNat
      | .out n => s.second w b (b.outBefore n p) p
      | .none => p) := by
  intro ho
  have hw := State.blk?_isSome_lt hb
  cases t with
  | none => simp [Blk.open] at ho
  | opnd i sl =>
    have hf : (b.opnd? i.toNat sl).isSome = true := by simpa [Blk.open, Option.isSome_iff_ne_none] using ho
    simp only [State.deliver, hb, hf, if_true]
    exact State.parkedOn_fault hs hw _
  | out n =>
    have hf : (b.out? n.toNat).isSome = true := by simpa [Blk.open, Option.isSome_iff_ne_none] using ho
    simp only [State.deliver, hb, hf, if_true]
    exact State.parkedOn_fault hs hw _

/-- Settles O6: each clause is the lemma about its kind of conflict, or a check that comes first. -/
theorem conflictsAndProtection : Obligations.ConflictsAndProtection := by
  unfold Obligations.ConflictsAndProtection
  dsimp only
  refine ⟨fun h n => faultsAt_branch rfl fun _ => rfl, fun h => faultsAt_branch rfl fun _ => rfl, fun h j => faultsAt_branch rfl fun _ => rfl,
    fun h n => faultsAt_branch rfl fun _ => rfl, fun h => faultsAt_branch rfl fun _ => rfl, fun h => faultsAt_branch rfl fun _ => rfl,
    fun h => faultsAt_branch rfl fun _ => rfl, fun s w p q t b => State.second_of_find p,
    fun h f => faults_again rfl fun _ => rfl, fun h sc id => faults_again rfl fun _ => rfl, fun h n p => faults_again rfl fun _ => rfl,
    fun h p => faults_again rfl fun _ => rfl, fun h on en1 a0 a1 => faults_again rfl fun _ => rfl, fun h sl => faults_again rfl fun _ => rfl,
    fun h => faults_again rfl fun _ => rfl, ?_, fun h n => faults_perfAgain rfl fun _ => rfl, fun h n => faults_perfAgain rfl fun _ => rfl,
    ?_, fun h n => faults_perfForeign rfl fun _ => rfl, fun h n => faults_perfForeign rfl fun _ => rfl, ?_, ?_, ?_, ?_⟩
  · intro h n
    refine faultsAt_of_issue (h := h) rfl (fun _ => rfl) (fun _ _ _ _ => rfl) fun s b x _ hp => ?_
    exact ⟨_, State.perfNote_again hp .., rfl, rfl, rfl⟩
  · exact fun h r => faults_of_quiet (h := h) rfl (fun _ => rfl) fun s _ _ hc =>
      if_pos (bne_iff_ne.mpr fun e => hc (s.ctx_markFired.symm.trans e))
  · exact fun h q => faults_of_quiet (h := h) rfl (fun _ => rfl) fun s _ _ hc =>
      if_pos ((s.foreignCtr_markFired _).trans (State.foreignCtr_tll.mpr hc))
  · intro h f q
    refine faultsAt_of_issue (h := h) rfl (fun _ => rfl) (fun _ _ _ _ => rfl) fun s b x _ hc => ?_
    exact ⟨_, if_pos ((s.foreignCtr_markFired _).trans (State.foreignCtr_tll.mpr hc)), rfl, rfl, rfl⟩
  · intro h g q
    refine faultsAt_of_issue (h := h) rfl (fun _ => rfl) (fun _ _ _ _ => rfl) fun s b x _ hc => ?_
    exact ⟨_, if_pos ((s.foreignCtr_markFired (.tll q)).trans (State.foreignCtr_tll.mpr hc)), rfl, rfl, rfl⟩
  · intro s w p t v b hs hb ho
    obtain ⟨hmem, hblk, hpark, hregs, -, f, hlast, hcode, hdetail, hindex, -⟩ := State.deliver_filled hs hb p t v ho
    exact ⟨hmem, hblk, hpark, hregs, f, hlast, hcode, hdetail, hindex⟩

end Sys2Proof.Machine
end

section
/-! The step as the agenda says it (R39, R82, R85, R171, R172; logs 1 and 14). -/

namespace Sys2Proof.Machine

theorem step_tick (s : State) (r : List Activity) (h : s.agenda = .tick :: r) : step s = s.pass r State.tick := by simp only [step, h]

theorem step_clock (s : State) (c : Nat) (r : List Activity) (h : s.agenda = .clock c :: r) : step s = s.pass r fun s => s.clock c := by
  simp only [step, h]

theorem step_steer (s : State) (c : Nat) (up : Bool) (r : List Activity) (h : s.agenda = .steer c up :: r) :
    step s = s.pass r fun s => s.steer c up := by
  simp only [step, h]

theorem step_smear (s : State) (w : Nat) (x : Smear) (r : List Activity) (h : s.agenda = .smear w x :: r) :
    step s = .next (State.smear { s with agenda := r } w x) := by
  simp only [step, h]

/-- An activity that makes something of the state answers a state other than it. -/
theorem State.acted_eq_some {s t : State} {f : State → Out} (h : s.acted f = some t) : f s = .next t ∧ t ≠ s := by
  unfold State.acted at h
  split at h
  next u hu =>
    split at h
    · cases h
    next hne =>
      obtain rfl := Option.some.inj h
      exact ⟨hu, hne⟩
  · cases h

/-- What is due is what one of the activities that the spec ties to a tick makes of the state. -/
theorem State.due_of_some {s t : State} (h : s.due? = some t) : s.pkg.up.clocked = true ∧ t ≠ s ∧
    ∃ f ∈ s.dueClock ++ s.dueChannel ++ s.dueUmpire ++ s.dueCopy ++ s.dueWarps ++ s.dueTimed ++ s.dueUnits ++ s.dueLimits,
      f s = .next t := by
  unfold State.due? at h
  split at h
  next hc =>
    obtain ⟨f, hf, ha⟩ := List.exists_of_findSome?_eq_some h
    exact ⟨hc, (State.acted_eq_some ha).2, f, hf, (State.acted_eq_some ha).1⟩
  · cases h

/-- In the schedule of a timed launch an instruction issues where its core picks it (R149, R172). -/
theorem State.mayIssue_iff {s : State} {w : Nat} {b : Blk} (k : Nat) (h : s.scheduled w b = true) : s.mayIssue w b k = true ↔
    ∃ c, issueClass (b.words.getD k 0) = some c ∧ s.pick (s.place w).die (s.place w).core c = some (w, k) := by
  simp only [State.mayIssue, h, Bool.not_true, Bool.false_or, Option.any_eq_true, beq_iff_eq, Blk.word]

theorem State.fire_waits {s : State} {w idx : Nat} {b : Blk} {x : BitVec 64} (hb : s.blk? w = some b) (hx : b.words[idx]? = some x)
    (hm : s.mayIssue w b idx = false) : s.fire w idx = .next s := by
  simp only [State.fire, hb, hx, hm, Bool.not_false, if_true]

/-- The word of `withFetchWord` stands first in the block of the warp that is added for it. -/
theorem State.withFetchWord_word (s : State) (n w : Nat) :
    ((s.withFetchWord n w).blk? s.warps.length).bind (fun b => b.words[0]?) = some (BitVec.ofNat 64 (w % 2 ^ n)) := by
  simp [State.withFetchWord, State.blk?, Blk.ofWord]

/-- Settles O26: activity by activity. -/
theorem stepRunsDecoded : Obligations.StepRunsDecoded := by
  unfold Obligations.StepRunsDecoded
  dsimp only
  refine ⟨?_, fun s w b idx => s.issue_free w b idx, fun s w b idx => State.mayIssue_iff idx, fun s i r => step_event s i r,
    ?_, ?_, ?_, fun s ha hd => (step_idle s ha).trans (s.pass_clear _ _ hd |>.trans ?_), ?_, fun s t => State.due_of_some,
    fun s r w x => step_smear s w x r, fun s r k n part => step_spad s k n part r, ?_⟩
  · intro s w idx r b x i ha hb hx hd
    rw [step_fire s w idx r ha]
    exact ⟨State.fire_decodes _ w idx b x i hb hx hd, State.fire_waits hb hx⟩
  · exact fun s r ha hd => (step_tick s r ha).trans (s.pass_clear _ _ hd)
  · exact fun s r c ha hd => (step_clock s c r ha).trans (s.pass_clear _ _ hd)
  · exact fun s r c up ha hd => (step_steer s c up r ha).trans (s.pass_clear _ _ hd)
  · have hr : { s.noteEligible with agenda := [] } = s.noteEligible := congrArg (fun l => { s.noteEligible with agenda := l }) ha.symm
    rw [hr]
  · rintro s t hd (ha | ⟨r, ha | ⟨c, ha⟩ | ⟨c, up, ha⟩⟩)
    · exact (step_idle s ha).trans (s.pass_due t _ _ hd)
    · exact (step_tick s r ha).trans (s.pass_due t _ _ hd)
    · exact (step_clock s c r ha).trans (s.pass_due t _ _ hd)
    · exact (step_steer s c up r ha).trans (s.pass_due t _ _ hd)
  · exact fun s n w => ⟨s.warps.length, s.agenda, _, rfl, rfl, s.withFetchWord_word n w, rfl⟩

end Sys2Proof.Machine
end

section
/-! Words that wait, whose predicate fails or that a null token reaches (R39 to R41). -/

namespace Sys2Proof.Machine

section
variable {s : State} {i : Instr} {h : Hdr} {b : Blk} {gate : Blk → Bool} {onNull : State → State} {onFire : Blk → Args → State → State}

theorem State.issue_waits (hh : i.hdr? = some h) (hb : s.issuing? = some b) (hr : readiness b s.curIdx h.pm i.sig = .waits) :
    s.issue i gate onNull onFire = s := by
  simp only [State.issue, hh, hb, hr]

theorem State.issue_nulls (hh : i.hdr? = some h) (hb : s.issuing? = some b) (hr : readiness b s.curIdx h.pm i.sig = .nulls) :
    s.issue i gate onNull onFire = onNull s.markFired := by
  simp only [State.issue, hh, hb, hr]

end

/-- Deliver a token to each of a list of targets. -/
def State.deliverAll (s : State) (w p : Nat) (v : Token) (l : List Target) : State := l.foldl (fun u t => u.deliver w p t v) s

/-- What a null token does that reaches the issued instruction (R41): a store-class one counts, and every target takes a null token. -/
def State.passNull (s : State) (i : Instr) : State :=
  if Instr.storeClass i then s.countStore fun u => u.deliverAll s.cur s.curIdx .null (Instr.targets i)
  else s.deliverAll s.cur s.curIdx .null (Instr.targets i)

/-- An instruction without a result names no target (R99). -/
theorem Instr.noTarget_of_wf {i : Instr} {h : Hdr} (hw : i.wf = true) (hh : i.hdr? = some h) (hr : i.sig.r0 = none)
    (hn : ∀ h, i ≠ .null h) : h.t0 = .none ∧ h.t1 = .none := by
  have ht : i.targetsOk = true := (Bool.and_eq_true_iff.mp hw).2
  unfold Instr.targetsOk at ht
  split at ht
  · exact absurd rfl (hn _)
  · simpa [hh, hr, Hdr.noRes] using ht

/-- A token for no target changes nothing. -/
@[simp] theorem State.deliver_none (s : State) (w p : Nat) (v : Token) : s.deliver w p .none v = s := by
  unfold State.deliver
  split <;> rfl

/-- A null token that reaches an instruction without a result has nothing to do. -/
theorem State.passNull_quiet {i : Instr} {h : Hdr} (hh : i.hdr? = some h) (hr : i.sig.r0 = none) (hn : ∀ h, i ≠ .null h)
    (ht : Instr.targets i = [h.t0, h.t1]) (hc : Instr.storeClass i = false) (hw : i.wf = true) (s : State) : s = s.passNull i := by
  obtain ⟨h0, h1⟩ := Instr.noTarget_of_wf hw hh hr hn
  simp [State.passNull, State.deliverAll, hc, ht, h0, h1]

/-- Every word is issued, and does with a null token what its class and its targets say. -/
theorem exec_issues {i : Instr} {h : Hdr} {s : State} {b : Blk} (hh : i.hdr? = some h) (hb : s.issuing? = some b) (hi : b.idle i) :
    ∃ gate onNull onFire, exec i s = .next (s.issue i gate onNull onFire) ∧ (i.wf = true → ∀ u, onNull u = u.passNull i) := by
  cases i with
  | nop | fmtset | bro | brx | brv | call | ret | exit | eret | bar | tlwait | mmode | stroke | syswr | ctxctlTret | yield | fence | trap | brk
  | cachectlWb | cachectlWbinv | cachectlL1inv | perfctlCfg | perfctlClr | tsend | prefetch =>
    exact ⟨_, id, _, rfl, fun hw => State.passNull_quiet rfl rfl (fun _ => Instr.noConfusion) rfl rfl hw⟩
  | mzero | mma | mmar | mmax | mexp | mrescale | mld | mst =>
    simp only [exec, execMzero, execMma, execMmar, execMmax, execMexp, execMrescale, execMld, execMst, execMatrix, execSteps, hb,
      Option.bind_some, hi rfl, Option.map_none]
    exact ⟨_, id, _, rfl, fun hw => State.passNull_quiet rfl rfl (fun _ => Instr.noConfusion) rfl rfl hw⟩
  | fan => exact ⟨_, _, _, rfl, fun _ _ => rfl⟩
  | st | sts | spst | spstq | atom | red => exact ⟨_, _, _, rfl, fun _ _ => rfl⟩
  | mov | null | kmov | vote | fmtrd | vcmp | vred | vmatch
  | const | consth | sadd | ssub | smul | smulh | sdiv | srem | sand | sor | sxor | sshl | sshr | ssra | smin | smax | lea | scmp | ssel
  | sclz | spopc | kcnt | kff | tkrd | ctxctlTrrd | kand | kor | kxor | kandn | sysrd
  | vadd | vsub | vmul | vmulh | vmad | vdiv | vrem | vsqrt | vabs | vneg | vmin | vmax | vaddsat | vsubsat | vavg | vabsd | vdot4 | vscale
  | vrint | vgetexp | vclass | vand | vor | vxor | vnot | vshl | vshr | vsra | vrotl | vclz | vpopc | vbrev | vsel | vsplat | vshfl
  | vbcast | vlrot | vcompress | vexpand | vcvt | vdecb | vexp2 | vlog2 | vrcp | vrsqrt | vscan | vaddc | vsubb | vmulw | vencb | vsin | vcos
  | ld | lds | spld | spldq | tlrd | push | trecv | perfctlRd => exact ⟨_, _, _, rfl, fun _ _ => rfl⟩
  | _ => cases hh

/-- Delivery to open targets, each named once, fills them and changes nothing else (R42). -/
theorem State.deliverAll_open (w p : Nat) (v : Token) (l : List Target) {s : State} {b : Blk} (hb : s.blk? w = some b)
    (ho : ∀ t ∈ l, b.open t = true ∧ (t = .none ∨ l.count t = 1)) :
    s.deliverAll w p v l = s.modBlk w fun b => l.foldl (fun d t => d.give t v) b := by
  induction l generalizing s b with
  | nil => exact (s.deliver_none w p v).symm.trans (s.deliver_open w p .none v b hb rfl)
  | cons t r ih =>
    have hd := s.deliver_open w p t v b hb (ho t List.mem_cons_self).1
    have hrest : ∀ u ∈ r, (b.give t v).open u = true ∧ (u = .none ∨ r.count u = 1) := fun u hu => by
      obtain ⟨hopen, hone⟩ := ho u (List.mem_cons_of_mem t hu)
      have hcount : 0 < r.count u := List.count_pos_iff.mpr hu
      refine ⟨b.open_give t u v hopen fun e => hone.elim e.trans fun h1 => ?_, hone.imp_right fun h1 => ?_⟩
      · subst e
        rw [List.count_cons_self] at h1
        omega
      · have : r.count u ≤ (t :: r).count u := List.count_le_count_cons
        omega
    change (s.deliver w p t v).deliverAll w p v r = _
    rw [hd, ih (s.blk?_modBlk w _ b hb) hrest, State.modBlk_modBlk]
    rfl

theorem State.nulled_eq (s : State) (i : Instr) (b : Blk) : s.nulled i b = (Instr.targets i).foldl (fun d t => d.give t .null)
    (if Instr.storeClass i then { s.marked b with storeCount := b.storeCount + 1 } else s.marked b) := rfl

/-- A null token that reaches the issued instruction, whose targets are open, leaves the block as `nulled` gives it. -/
theorem State.markFired_passNull {s : State} {i : Instr} {b : Blk} (hb : s.issuing? = some b)
    (ho : ∀ t ∈ Instr.targets i, b.open t = true ∧ (t = .none ∨ (Instr.targets i).count t = 1))
    (hn : Instr.storeClass i = true → b.storeCount < b.nst) :
    s.markFired.passNull i = { s with warps := s.warps.modify s.cur fun x => { x with blk := some (s.nulled i b) } } := by
  have hb := s.blk?_of_issuing b hb
  have hm : s.markFired.blk? s.cur = some (s.marked b) := s.blk?_modBlk s.cur s.marked b hb
  rw [s.nulled_eq]
  cases hc : Instr.storeClass i with
  | false =>
    have := State.deliverAll_open s.cur s.curIdx .null (Instr.targets i) hm ho
    simp only [State.passNull, hc, Bool.false_eq_true, if_false]
    exact this.trans (by rw [State.markFired, State.modBlk_modBlk, State.modBlk_eq s s.cur _ b hb])
  | true =>
    have hcount : ¬ (s.marked b).nst ≤ (s.marked b).storeCount := Nat.not_le.mpr (hn hc)
    have hm2 := s.markFired.blk?_modBlk s.cur (fun b => { b with storeCount := b.storeCount + 1 }) _ hm
    have := State.deliverAll_open s.cur s.curIdx .null (Instr.targets i) hm2 ho
    have hcs : s.markFired.passNull i = (s.markFired.modBlk s.cur fun b => { b with storeCount := b.storeCount + 1 }).deliverAll
        s.cur s.curIdx .null (Instr.targets i) := by
      simp only [State.passNull, hc, if_true, State.countStore]
      change (match s.markFired.blk? s.cur with
        | none => _
        | some b => _) = _
      rw [hm]
      exact if_neg hcount
    rw [hcs, this, State.markFired, State.modBlk_modBlk, State.modBlk_modBlk, State.modBlk_eq s s.cur _ b hb, if_pos rfl]
    rfl

/-- What no delivery changes, a null token does not change. -/
theorem Blk.foldl_give_field {β : Type} (g : Blk → β) (hg : ∀ b t v, g (Blk.give b t v) = g b) (v : Token) (l : List Target) (b : Blk) :
    g (l.foldl (fun d t => d.give t v) b) = g b := by
  induction l generalizing b with
  | nil => rfl
  | cons t r ih => rw [List.foldl_cons, ih, hg]

/-- The effects that a block holds, and its count of stores. -/
def Blk.effects (b : Blk) : Option (Nat × BranchSel) × List GStore × List SpStore × List PushRes × List PLoad × Deferred × Nat :=
  (b.branch, b.stores, b.sps, b.pushes, b.loads, b.deferred, b.storeCount)

theorem Blk.effects_give (b : Blk) (t : Target) (v : Token) : (b.give t v).effects = b.effects := by
  cases t <;> rfl

/-- A null token adds no effect to a block; a store that it reaches counts. -/
theorem State.effects_nulled (s : State) (i : Instr) (b : Blk) : (s.nulled i b).effects =
    (b.branch, b.stores, b.sps, b.pushes, b.loads, b.deferred, b.storeCount + if Instr.storeClass i then 1 else 0) := by
  rw [s.nulled_eq, Blk.foldl_give_field Blk.effects Blk.effects_give]
  cases Instr.storeClass i <;> rfl

/-- Settles O25: a word is issued as its readiness says, and a null token fills its targets. -/
theorem unfiredWordsProduceNothing : Obligations.UnfiredWordsProduceNothing := by
  unfold Obligations.UnfiredWordsProduceNothing
  refine ⟨fun i h s b hh hb hi => ?_, fun b n pm sh => by simp [readiness], fun i h s b hw hh hb hi hr ho hn => ?_, fun s i b => ?_⟩
  · obtain ⟨gate, onNull, onFire, he, -⟩ := exec_issues hh hb hi
    refine ⟨fun hr => ?_, fun hr => ?_⟩
    · rw [he, State.issue_waits hh hb hr]
    · rw [he, s.issue_skips i h hh _ _ _ b hb hr, s.modBlk_eq s.cur _ b (s.blk?_of_issuing b hb)]
  · obtain ⟨gate, onNull, onFire, he, hnull⟩ := exec_issues hh hb hi
    rw [he, State.issue_nulls hh hb hr, hnull hw, State.markFired_passNull hb ho hn]
  · simpa only [Blk.effects, Prod.mk.injEq] using s.effects_nulled i b

end Sys2Proof.Machine
end

section
/-! Group 6, engines: `push` and `tlrd` (R50, R226 to R228). -/

namespace Sys2Proof.Machine

@[simp] theorem State.ctrOf_modBlk (s : State) (w v : Nat) (f : Blk → Blk) (c : Ctr) : (s.modBlk w f).ctrOf v c = s.ctrOf v c := by
  obtain ⟨o, ho⟩ := s.warp_modBlk w v f
  unfold State.ctrOf
  rw [State.place_modBlk, ho]

/-- The block of warp `w` is replaced. -/
def State.putBlk (s : State) (w : Nat) (b : Blk) : State := { s with warps := s.warps.modify w fun y => { y with blk := some b } }

/-- Delivery to the open targets of an instruction that fires, in a block that its meaning has changed by `g`. -/
theorem State.deliver2_fired {s u : State} {b : Blk} {h : Hdr} (hb : u.blk? s.cur = some b) (g : Blk → Blk)
    (ht : (g (s.marked b)).Takes h) (p : Nat) (v0 v1 : Token) :
    ((u.modBlk s.cur s.marked).modBlk s.cur g).deliver2 s.cur p h v0 v1 = u.putBlk s.cur ((g (s.marked b)).give2 h v0 v1) := by
  have hg := (u.modBlk s.cur s.marked).blk?_modBlk s.cur g _ (u.blk?_modBlk s.cur s.marked b hb)
  rw [State.deliver2_open _ s.cur p h v0 v1 _ hg ht, State.modBlk_modBlk, State.modBlk_modBlk, State.modBlk_eq u s.cur _ b hb]
  rfl

/-- Delivery to the open targets of an instruction that fires. -/
theorem State.deliver2_markFired {s : State} {b : Blk} {h : Hdr} (hb : s.blk? s.cur = some b) (ht : b.Takes h) (p : Nat) (v0 v1 : Token) :
    s.markFired.deliver2 s.cur p h v0 v1 = s.putBlk s.cur ((s.marked b).give2 h v0 v1) := by
  refine ((s.modBlk s.cur s.marked).deliver2_open s.cur p h v0 v1 _ (s.blk?_modBlk s.cur s.marked b hb) ht).trans ?_
  rw [State.modBlk_modBlk, State.modBlk_eq s s.cur _ b hb]
  rfl

/-- A block that keeps one more push. -/
def Blk.keepPush (b : Blk) (r : PushRes) : Blk := { b with pushes := b.pushes ++ [r] }

/-- A block in which `tlrd` has asked for the status of counter `r` to be cleared, where its form is `.errclr` (R226). -/
def Blk.askClear (b : Blk) (f : TlrdForm) (r : CtrRef) : Blk :=
  { b with deferred := { b.deferred with errclr := b.deferred.errclr ++ if f = .errclr then [r] else [] } }

/-- Deliveries and what a block keeps for its commit do not meet. -/
theorem Blk.give2_keepPush (b : Blk) (h : Hdr) (v0 v1 : Token) (r : PushRes) :
    (b.keepPush r).give2 h v0 v1 = { b.give2 h v0 v1 with pushes := b.pushes ++ [r] } := by
  obtain ⟨pm, t0, t1⟩ := h
  cases t0 <;> cases t1 <;> rfl

theorem Blk.give2_askClear (b : Blk) (h : Hdr) (v0 v1 : Token) (f : TlrdForm) (r : CtrRef) :
    (b.askClear f r).give2 h v0 v1 = { b.give2 h v0 v1 with deferred := (b.askClear f r).deferred } := by
  obtain ⟨pm, t0, t1⟩ := h
  cases t0 <;> cases t1 <;> rfl

section
variable {s : State} {h : Hdr} {g : Fin 7} {b : Blk} {x : Args}

/-- The queue that a `push` which fires in block `b` names; a timed one is of its start tick (R181). -/
def State.pushDst (s : State) (b : Blk) (q : PushQ) : PushDst :=
  match PushDst.of q with
  | .copy t => .copy (if b.cls = 2 then s.wRecon s.cur - s.wPhase s.cur + t else t)
  | d => d

/-- Whether a `push` may not be made: to a launch queue of another context (R133). -/
def State.pushForeign (s : State) (q : PushQ) : Bool := match q with
  | .launch n => fld (s.queue n.toNat).ctl 0 8 != (s.place s.cur).ctx
  | _ => false

/-- Whether a timed `push` is later than 4 ticks before its start (R181). -/
def State.pushLate (s : State) (b : Blk) (q : PushQ) : Bool := match q with
  | .copy t => b.cls == 2 && decide (t.toNat < s.wPhase s.cur + 4)
  | _ => false

/-- The reservation that a `push` keeps in its block (R50). -/
def State.pushRes (s : State) (b : Blk) (g : Fin 7) (q : PushQ) : PushRes :=
  { idx := s.curIdx, dst := s.pushDst b q, cmd := ((b.groups.find? fun p => p.1 == g.val + 1).map (·.2)).getD [] }

/-- What `push` does when it fires (R227, R228). -/
theorem execPush_fires {q : PushQ} (hf : s.Fires (.push h g q) b x) : exec (.push h g q) s = .next (
    if s.pushForeign q then s.markFired.faultAt s.cur s.curIdx 4 17
    else if s.pushLate b q then s.markFired.faultAt s.cur s.curIdx 11 0
    else match s.markFired.reservePush (s.pushDst b q) with
      | none => s.markFired.deliver2 s.cur s.curIdx h (.s 1) (.s 1)
      | some u => (u.modBlk s.cur fun c => c.keepPush { s.pushRes b g q with idx := u.curIdx }).deliver2 s.cur u.curIdx h (.s 0) (.s 0)) := by
  have hdst : ∀ t, (if (b.cls == 2) = true then PushDst.copy (s.wRecon s.cur - s.wPhase s.cur + t) else .copy t) =
      .copy (if b.cls = 2 then s.wRecon s.cur - s.wPhase s.cur + t else t) := fun t => by
    by_cases hc : b.cls = 2 <;> simp [hc]
  refine congrArg Host.Outcome.next ((s.issue_fires _ h rfl _ _ _ b x hf rfl).trans ?_)
  cases q <;> simp only [State.pushForeign, State.pushLate, State.pushDst, State.pushRes, PushDst.of, State.markFired, State.modBlk_cur,
    State.modBlk_curIdx, State.wRecon_modBlk, State.wPhase_modBlk, State.place_modBlk, hdst] <;> rfl

/-- A `push` that finds an entry reserves it, keeps its command and delivers 0. -/
theorem execPush_sends {q : PushQ} {u : State} (hf : s.Fires (.push h g q) b x) (ht : b.Takes h) (hforeign : s.pushForeign q = false)
    (hlate : s.pushLate b q = false) (hr : s.markFired.reservePush (s.pushDst b q) = some (u.modBlk s.cur s.marked))
    (hu : u.curIdx = s.curIdx) (hb : u.blk? s.cur = some b) : exec (.push h g q) s = .next (u.putBlk s.cur
      { (s.marked b).give2 h (.s 0) (.s 0) with pushes := b.pushes ++ [s.pushRes b g q] }) := by
  have hres : { s.pushRes b g q with idx := u.curIdx } = s.pushRes b g q := congrArg (fun n => { s.pushRes b g q with idx := n }) hu
  have hd := State.deliver2_fired hb (fun c => c.keepPush { s.pushRes b g q with idx := u.curIdx }) ht u.curIdx (.s 0) (.s 0)
  rw [execPush_fires hf, hforeign, hlate, hr]
  refine congrArg Host.Outcome.next (hd.trans ?_)
  rw [Blk.give2_keepPush, hres]
  rfl

/-- A `push` whose queue is full delivers 1 and reserves nothing. -/
theorem execPush_full {q : PushQ} (hf : s.Fires (.push h g q) b x) (ht : b.Takes h) (hforeign : s.pushForeign q = false)
    (hlate : s.pushLate b q = false) (hr : s.markFired.reservePush (s.pushDst b q) = none) :
    ∃ t, exec (.push h g q) s = .next t ∧ s.OnlyBlk ((s.marked b).give2 h (.s 1) (.s 1)) t := by
  have hb := s.blk?_of_issuing b hf.1
  refine ⟨s.putBlk s.cur ((s.marked b).give2 h (.s 1) (.s 1)), (execPush_fires hf).trans ?_, rfl, rfl⟩
  rw [hforeign, hlate, hr]
  exact congrArg Host.Outcome.next (State.deliver2_markFired hb ht s.curIdx (.s 1) (.s 1))

/-- The team of a warp does not change with its block. -/
theorem State.team_markFired (s : State) : (s.markFired.warp s.cur).team = (s.warp s.cur).team := by
  obtain ⟨o, ho⟩ := s.warp_modBlk s.cur s.cur s.marked
  rw [State.markFired, ho]

theorem State.reservePush_copy (s : State) (n : Nat) : s.markFired.reservePush (.copy n) =
    if (s.team (s.warp s.cur).team).queue.length + (s.team (s.warp s.cur).team).reserved < 32 then
      some ((s.modTeam (s.warp s.cur).team fun y => { y with reserved := y.reserved + 1 }).modBlk s.cur s.marked)
    else none := by
  change (if (s.team (s.markFired.warp s.cur).team).queue.length + (s.team (s.markFired.warp s.cur).team).reserved < 32 then
    some (s.markFired.modTeam (s.markFired.warp s.cur).team fun y => { y with reserved := y.reserved + 1 }) else none) = _
  rw [s.team_markFired]
  rfl

theorem State.reservePush_coll (s : State) : s.markFired.reservePush .coll =
    if (s.ctx (s.place s.cur).ctx).coll.length + (s.ctx (s.place s.cur).ctx).collRes < 256 then
      some ((s.modCtx (s.place s.cur).ctx fun y => { y with collRes := y.collRes + 1 }).modBlk s.cur s.marked)
    else none := by
  change (if (s.ctx (s.markFired.place s.cur).ctx).coll.length + (s.ctx (s.markFired.place s.cur).ctx).collRes < 256 then
    some (s.markFired.modCtx (s.markFired.place s.cur).ctx fun y => { y with collRes := y.collRes + 1 }) else none) = _
  rw [s.ctx_markFired]
  rfl

theorem State.reservePush_launch (s : State) (q : Nat) : s.markFired.reservePush (.launch q) =
    if (s.queue q).entries.length + (s.queue q).reserved < 256 ∧ (s.queue q).ctl.getLsbD 10 = true then
      some ((s.modQueue q fun y => { y with reserved := y.reserved + 1 }).modBlk s.cur s.marked)
    else none := rfl

/-- A timed `push` is in time where its block is not timed, or its start is at least 4 ticks ahead (R181). -/
theorem State.pushLate_iff (s : State) (b : Blk) (t : BitVec 25) :
    s.pushLate b (.copy t) = false ↔ (b.cls = 2 → s.wPhase s.cur + 4 ≤ t.toNat) := by
  simp [State.pushLate]

end

/-- What `tlrd` does when it fires (R226). -/
theorem execTlrd_delivers {s : State} {h : Hdr} {f : TlrdForm} {c : Ctr} {b : Blk} {x : Args} (hf : s.Fires (.tlrd h f c) b x)
    (ht : b.Takes h) (hc : s.foreignCtr s.cur c = false) :
    let v : Token := .s (tlrdVal f (s.counter (s.ctrOf s.cur c)))
    ∃ t, exec (.tlrd h f c) s = .next t ∧ s.OnlyBlk { (s.marked b).give2 h v v with
      deferred := { b.deferred with errclr := b.deferred.errclr ++ if f = .errclr then [s.ctrOf s.cur c] else [] } } t := by
  intro v
  have hb := s.blk?_of_issuing b hf.1
  have hm : s.markFired.foreignCtr s.cur c = false := (s.foreignCtr_markFired c).trans hc
  have hr : s.markFired.ctrOf s.cur c = s.ctrOf s.cur c := s.ctrOf_modBlk ..
  have hd : (if f == .errclr then s.markFired.defer fun d => { d with errclr := d.errclr ++ [s.markFired.ctrOf s.cur c] } else s.markFired) =
      (s.modBlk s.cur s.marked).modBlk s.cur fun b => b.askClear f (s.ctrOf s.cur c) := by
    rw [hr]
    by_cases he : f = .errclr
    · simp only [he, beq_self_eq_true, if_true, Blk.askClear]
      rfl
    · simp only [he, beq_iff_eq, if_false, Blk.askClear, List.append_nil]
      exact (s.markFired.deliver_none s.cur 0 .null).symm.trans (s.markFired.deliver_open s.cur 0 .none .null _ hf.blk?_markFired rfl)
  have hv := State.deliver2_fired hb (fun b => b.askClear f (s.ctrOf s.cur c)) ht s.curIdx v v
  rw [Blk.give2_askClear, ← hd] at hv
  have he := (s.issue_fires (.tlrd h f c) h rfl (fun _ => true) (fun s => s.deliverNull (.tlrd h f c)) (fun _ _ s =>
    if s.foreignCtr s.cur c then s.faultAt s.cur s.curIdx 4 17
    else
      let r := s.ctrOf s.cur c
      let v := tlrdVal f (s.counter r)
      let s := if f == .errclr then s.defer fun d => { d with errclr := d.errclr ++ [r] } else s
      s.deliver2 s.cur s.curIdx h (.s v) (.s v)) b x hf rfl).trans (if_neg (Bool.eq_false_iff.mp hm))
  refine ⟨_, congrArg Host.Outcome.next (he.trans (Eq.trans ?_ hv)), rfl, rfl⟩
  have hr' : s.markFired.ctrOf s.markFired.cur c = s.ctrOf s.cur c := hr
  rw [hr, hr']
  cases f <;> rfl

/-- Settles O22: what `push` does for each kind of queue, with room, without it and too late, and what `tlrd` does. -/
theorem pushAndTlrd : Obligations.PushAndTlrd := by
  unfold Obligations.PushAndTlrd
  refine ⟨?_, ?_, ?_, ?_, ?_, ?_, ?_, ?_⟩
  · intro h g t s b x hf ht hin hroom
    have hr := s.reservePush_copy (if b.cls = 2 then s.wRecon s.cur - s.wPhase s.cur + t.toNat else t.toNat)
    rw [if_pos hroom] at hr
    exact execPush_sends hf ht rfl ((s.pushLate_iff b t).mpr hin) hr rfl (s.blk?_of_issuing b hf.1)
  · intro h g t s b x hf ⟨ht, hin, hroom⟩
    have hr := s.reservePush_copy (if b.cls = 2 then s.wRecon s.cur - s.wPhase s.cur + t.toNat else t.toNat)
    rw [if_neg (Nat.not_lt.mpr hroom)] at hr
    exact execPush_full hf ht rfl ((s.pushLate_iff b t).mpr hin) hr
  · intro h g t s b x hs hf hlate
    have hl : s.pushLate b (.copy t) = true := by
      rw [← Bool.not_eq_false, s.pushLate_iff b t]
      exact hlate
    refine ⟨s.markFired.faultAt s.cur s.curIdx 11 0, (execPush_fires hf).trans ?_, ?_⟩
    · rw [hl]
      rfl
    · exact (hf.parkedOn hs { code := 11, detail := 0, index := s.curIdx }).faulted
  · intro h g s b x hf ht hroom
    have hr := s.reservePush_coll
    rw [if_pos hroom] at hr
    exact execPush_sends hf ht rfl rfl hr rfl (s.blk?_of_issuing b hf.1)
  · intro h g s b x hf ⟨ht, hroom⟩
    have hr := s.reservePush_coll
    rw [if_neg (Nat.not_lt.mpr hroom)] at hr
    exact execPush_full hf ht rfl rfl hr
  · intro h g q s b x hf ht hmine hroom
    have hr := s.reservePush_launch q.toNat
    rw [if_pos hroom] at hr
    exact execPush_sends hf ht (bne_eq_false_iff_eq.mpr hmine) rfl hr rfl (s.blk?_of_issuing b hf.1)
  · intro h g q s b x hf ⟨ht, hmine, hroom⟩
    have hr := s.reservePush_launch q.toNat
    rw [if_neg hroom] at hr
    exact execPush_full hf ht (bne_eq_false_iff_eq.mpr hmine) rfl hr
  · intro h c s b x f v hf ht hc hval hiss herr
    have hv : v = tlrdVal f (s.counter (s.ctrOf s.cur c)) := by
      cases f
      · exact hval rfl
      · exact herr (.inl rfl)
      · exact herr (.inr rfl)
      · exact hiss rfl
    rw [hv]
    exact execTlrd_delivers hf ht hc

end Sys2Proof.Machine
end

section
/-! Write slots (R30, R37). -/

namespace Sys2Proof.Machine

theorem Vec.lane_tab (f : Nat → Lane) {l : Nat} (h : l < 64) : (Vec.tab f).lane l = f l := by
  simp [Vec.tab, Vec.lane, List.getD_eq_getElem?_getD, h]

theorem getD_set_self {α : Type} {l : List α} {n : Nat} (h : n < l.length) (a d : α) : (l.set n a).getD n d = a := by
  simp [List.getD_eq_getElem?_getD, h]

theorem getD_set_ne {α : Type} (l : List α) {n m : Nat} (h : m ≠ n) (a d : α) : (l.set n a).getD m d = l.getD m d := by
  simp [List.getD_eq_getElem?_getD, h.symm]

section
variable (x : Warp) (live : Word) (r : Nat)

theorem Warp.writeReg_null (r : Nat × Nat) : x.writeReg live r .null = x := if_pos rfl

/-- What a write slot of each class does with the registers of its class. -/
theorem Warp.writeReg_v {t : Token} (h : t ≠ .null) : (x.writeReg live (0, r) t).v =
    x.v.modify r fun old => Vec.tab fun l => if live.getLsbD l then t.vec.lane l else old.lane l :=
  congrArg Warp.v (if_neg h)

theorem Warp.writeReg_s {t : Token} (h : t ≠ .null) : (x.writeReg live (1, r) t).s = if r = 0 then x.s else x.s.set r t.word :=
  (congrArg Warp.s (if_neg h)).trans (apply_ite Warp.s ..)

theorem Warp.writeReg_k {t : Token} (h : t ≠ .null) : (x.writeReg live (2, r) t).k = if r = 0 then x.k else x.k.set r t.word :=
  (congrArg Warp.k (if_neg h)).trans (apply_ite Warp.k ..)

/-- A write slot leaves the registers of the other classes, `fmt`, `mreg` and `WST`. -/
theorem Warp.writeReg_vector (t : Token) : (x.writeReg live (0, r) t).s = x.s ∧ (x.writeReg live (0, r) t).k = x.k := by
  unfold Warp.writeReg
  split <;> exact ⟨rfl, rfl⟩

theorem Warp.writeReg_zero {c : Nat} (hc : c = 1 ∨ c = 2) (t : Token) : x.writeReg live (c, 0) t = x := by
  unfold Warp.writeReg
  rcases hc with rfl | rfl <;> exact ite_self x

theorem Warp.writeReg_scalar (t : Token) : (x.writeReg live (1, r) t).v = x.v ∧ (x.writeReg live (1, r) t).k = x.k := by
  rcases eq_or_ne t .null with rfl | ht
  · rw [Warp.writeReg_null]
    exact ⟨rfl, rfl⟩
  · rcases eq_or_ne r 0 with rfl | hr
    · rw [x.writeReg_zero live (by simp)]
      exact ⟨rfl, rfl⟩
    · simp [Warp.writeReg, ht, hr]

theorem Warp.writeReg_mask (t : Token) : (x.writeReg live (2, r) t).v = x.v ∧ (x.writeReg live (2, r) t).s = x.s := by
  rcases eq_or_ne t .null with rfl | ht
  · rw [Warp.writeReg_null]
    exact ⟨rfl, rfl⟩
  · rcases eq_or_ne r 0 with rfl | hr
    · rw [x.writeReg_zero live (by simp)]
      exact ⟨rfl, rfl⟩
    · simp [Warp.writeReg, ht, hr]

theorem Warp.writeReg_states (r : Nat × Nat) (t : Token) : (x.writeReg live r t).fmt = x.fmt ∧ (x.writeReg live r t).mreg = x.mreg ∧
    (x.writeReg live r t).wst = x.wst := by
  unfold Warp.writeReg
  split
  · exact ⟨rfl, rfl, rfl⟩
  · split
    · exact ⟨rfl, rfl, rfl⟩
    · split <;> exact ⟨rfl, rfl, rfl⟩
    · split <;> exact ⟨rfl, rfl, rfl⟩
    · exact ⟨rfl, rfl, rfl⟩

variable {live r} {n : Nat} (t : Token)

theorem Warp.writeReg_vreg_ne (h : n ≠ r) : (x.writeReg live (0, r) t).vreg n = x.vreg n := by
  by_cases ht : t = .null
  · rw [ht, Warp.writeReg_null]
  · unfold Warp.vreg
    rw [Warp.writeReg_v _ _ _ ht, getD_modify_ne _ h]

theorem Warp.writeReg_s_ne (h : n ≠ r) : (x.writeReg live (1, r) t).s.getD n 0 = x.s.getD n 0 := by
  by_cases ht : t = .null
  · rw [ht, Warp.writeReg_null]
  · rw [Warp.writeReg_s _ _ _ ht]
    split
    · rfl
    · exact getD_set_ne _ h ..

theorem Warp.writeReg_k_ne (h : n ≠ r) : (x.writeReg live (2, r) t).k.getD n 0 = x.k.getD n 0 := by
  by_cases ht : t = .null
  · rw [ht, Warp.writeReg_null]
  · rw [Warp.writeReg_k _ _ _ ht]
    split
    · rfl
    · exact getD_set_ne _ h ..

end

/-- Settles O35, class by class. -/
theorem writeSlotsWrite : Obligations.WriteSlotsWrite := by
  unfold Obligations.WriteSlotsWrite
  intro x live r t hslen hklen
  refine ⟨?_, ?_, fun n hn => x.writeReg_vreg_ne t hn, x.writeReg_vector live r t, ?_, fun n hn => x.writeReg_s_ne t hn,
    x.writeReg_scalar live r t, ?_, fun n hn => x.writeReg_k_ne t hn, x.writeReg_mask live r t,
    congrArg Warp.regs (x.writeReg_zero live (.inl rfl) t), congrArg Warp.regs (x.writeReg_zero live (.inr rfl) t),
    fun c => x.writeReg_states live (c, r) t⟩
  · rintro rfl c
    exact congrArg Warp.regs (x.writeReg_null live _)
  · intro ht hr l hl
    unfold Warp.vreg
    rw [x.writeReg_v live r ht, getD_modify_self hr, Vec.lane_tab _ hl]
  · intro ht hpos hr
    rw [x.writeReg_s live r ht, if_neg hpos.ne', getD_set_self (hslen ▸ hr)]
  · intro ht hpos hr
    rw [x.writeReg_k live r ht, if_neg hpos.ne', getD_set_self (hklen ▸ hr)]

end Sys2Proof.Machine
end

section
/-! The checks of an access (R205, Table 8-1a): which one fails first, and what an access does whose lanes all pass. -/

namespace Sys2Proof.Machine

/-- What `firstCheck` keeps of the checks it has seen: the lowest that failed. -/
def lowerCheck (m : Option Nat) (c : Nat) : Option Nat := if c = 0 then m else match m with
  | none => some c
  | some d => some (min c d)

theorem firstCheck_eq (l : List (Nat × Nat × Nat × TRes)) : firstCheck l = (l.map fun p => p.2.2.1).foldl lowerCheck none := rfl

theorem foldl_lowerCheck_passed {l : List Nat} (h : ∀ c ∈ l, c = 0) (m : Option Nat) : l.foldl lowerCheck m = m := by
  induction l generalizing m with
  | nil => rfl
  | cons c l ih =>
    obtain ⟨hc, hl⟩ := List.forall_mem_cons.mp h
    exact (congrArg (l.foldl lowerCheck) (if_pos hc)).trans (ih hl m)

/-- Once the lowest check is there, it stays. -/
theorem foldl_lowerCheck_least {l : List Nat} {c : Nat} (hle : ∀ d ∈ l, d = 0 ∨ c ≤ d) : l.foldl lowerCheck (some c) = some c := by
  induction l with
  | nil => rfl
  | cons d l ih =>
    obtain ⟨hd, hl⟩ := List.forall_mem_cons.mp hle
    have hstep : lowerCheck (some c) d = some c := by
      unfold lowerCheck
      split
      · rfl
      · exact congrArg some (min_eq_right (hd.resolve_left ‹_›))
    rw [List.foldl_cons, hstep, ih hl]

theorem foldl_lowerCheck_failed {l : List Nat} {c : Nat} (hc : c ≠ 0) (hmem : c ∈ l) (hle : ∀ d ∈ l, d = 0 ∨ c ≤ d) (m : Option Nat)
    (hm : ∀ d, m = some d → c ≤ d) : l.foldl lowerCheck m = some c := by
  induction l generalizing m with
  | nil => exact absurd hmem (List.not_mem_nil)
  | cons d l ih =>
    obtain ⟨hd, hl⟩ := List.forall_mem_cons.mp hle
    by_cases he : d = c
    · have hstep : lowerCheck m d = some c := by
        subst he
        cases m with
        | none => exact if_neg hc
        | some e => exact (if_neg hc).trans (congrArg some (min_eq_left (hm e rfl)))
      rw [List.foldl_cons, hstep, foldl_lowerCheck_least hl]
    · refine ih ((List.mem_cons.mp hmem).resolve_left (Ne.symm he)) hl _ fun e hstep => ?_
      unfold lowerCheck at hstep
      split at hstep
      · exact hm e hstep
      · have hcd := hd.resolve_left ‹_›
        cases m with
        | none => exact Option.some.inj hstep ▸ hcd
        | some f => exact Option.some.inj hstep ▸ le_min hcd (hm f rfl)

theorem firstCheck_passed {l : List (Nat × Nat × Nat × TRes)} (h : ∀ p ∈ l, p.2.2.1 = 0) : firstCheck l = none :=
  foldl_lowerCheck_passed (List.forall_mem_map.mpr h) none

theorem firstCheck_failed {l : List (Nat × Nat × Nat × TRes)} {c : Nat} (hc : c ≠ 0) (hmem : ∃ p ∈ l, p.2.2.1 = c)
    (hle : ∀ p ∈ l, p.2.2.1 = 0 ∨ c ≤ p.2.2.1) : firstCheck l = some c :=
  foldl_lowerCheck_failed hc (List.mem_map.mpr hmem) (List.forall_mem_map.mpr hle) none (by simp)

/-- A result that asks for no walk. -/
def TRes.settled : TRes → Bool
  | .miss _ _ => false
  | _ => true

theorem missing_eq_nil {l : List (Nat × Nat × Nat × TRes)} (h : ∀ p ∈ l, p.2.2.2.settled = true) : missing l = [] := by
  refine List.filterMap_eq_nil_iff.mpr fun p hp => ?_
  have hs := h p hp
  cases hr : p.2.2.2 <;> simp_all [TRes.settled]

/-! The check of one lane. -/

section
variable (s : State) (acc : Acc) (rqt : Rqt) (width va : Nat)

/-- What a lane of an access of the issuing warp reaches. -/
def State.laneRes : TRes := s.transWarp (s.place s.cur).ctx acc rqt va

/-- The check that a lane of an access of the issuing warp fails; 0 when all hold. -/
def State.laneCheck : Nat := checkNo (va % width == 0) va (s.laneRes acc rqt va)

/-- The lanes of an access of the issuing warp with their checks. -/
def State.laneChecks (lanes : List (Nat × Nat)) : List (Nat × Nat × Nat × TRes) :=
  lanes.map fun p => (p.1, p.2, s.laneCheck acc rqt width p.2, s.laneRes acc rqt p.2)

theorem State.checkLanes_eq (lanes : List (Nat × Nat)) :
    s.checkLanes (s.place s.cur).ctx acc rqt width lanes = s.laneChecks acc rqt width lanes := rfl

theorem State.laneRes_modBlk (f : Blk → Blk) : (s.modBlk s.cur f).laneRes acc rqt va = s.laneRes acc rqt va := by
  unfold State.laneRes
  rw [State.modBlk_cur, State.place_modBlk]
  rfl

theorem State.laneChecks_modBlk (f : Blk → Blk) (lanes : List (Nat × Nat)) :
    (s.modBlk s.cur f).laneChecks acc rqt width lanes = s.laneChecks acc rqt width lanes := by
  simp only [State.laneChecks, State.laneCheck, State.laneRes_modBlk]

theorem State.laneChecks_map {α : Type} (g : Nat → Nat → α) (lanes : List (Nat × Nat)) :
    (s.laneChecks acc rqt width lanes).map (fun p => g p.1 p.2.1) = lanes.map fun p => g p.1 p.2 := by
  simp [State.laneChecks]

theorem State.laneChecks_flatMap {α : Type} (g : Nat → Nat → List α) (lanes : List (Nat × Nat)) :
    (s.laneChecks acc rqt width lanes).flatMap (fun p => g p.1 p.2.1) = lanes.flatMap fun p => g p.1 p.2 := by
  simp [State.laneChecks, List.flatMap_map]

variable {va width}

theorem State.laneCheck_high (h : 2 ^ 48 ≤ va) : s.laneCheck acc rqt width va = 1 := if_pos h

theorem State.laneCheck_misaligned (h : va < 2 ^ 48) (ha : va % width ≠ 0) : s.laneCheck acc rqt width va = 2 :=
  (if_neg (Nat.not_le.mpr h)).trans (if_pos (by simpa using ha))

theorem State.laneCheck_aligned (h : va < 2 ^ 48) (ha : va % width = 0) : s.laneCheck acc rqt width va = (match s.laneRes acc rqt va with
    | .nohome => 3
    | .page _ _ => 3
    | .prot => 4
    | _ => 0) :=
  (if_neg (Nat.not_le.mpr h)).trans (if_neg (by simpa using ha))

end

/-- A lane that passes neither of the first two checks passes them or is above them. -/
theorem State.two_le_laneCheck {s : State} {acc : Acc} {rqt : Rqt} {width va : Nat} (h : va < 2 ^ 48) :
    s.laneCheck acc rqt width va = 0 ∨ 2 ≤ s.laneCheck acc rqt width va := by
  by_cases ha : va % width = 0
  · rw [s.laneCheck_aligned acc rqt h ha]
    split <;> simp
  · exact .inr (s.laneCheck_misaligned acc rqt h ha).ge

/-! An access that passes. -/

/-- Translations that an access uses change the order of the entries only. -/
theorem State.tlbUse_only (s : State) (home space va : Nat) :
    ∃ l, s.tlbUse home space va = { s with xl := { s.xl with tlb := l } } ∧ ∀ e, e ∈ l ↔ e ∈ s.xl.tlb := by
  unfold State.tlbUse
  split
  next e he =>
    have hmem : e ∈ s.xl.tlb := List.mem_of_find?_eq_some he
    refine ⟨_, rfl, fun f => ?_⟩
    by_cases hf : f = e <;> simp [hf, hmem]
  next => exact ⟨s.xl.tlb, rfl, fun _ => Iff.rfl⟩

theorem State.tlbUses_only (s : State) (l : List (Nat × Nat × Nat × TRes)) :
    ∃ x, s.tlbUses l = { s with xl := { s.xl with tlb := x } } ∧ ∀ e, e ∈ x ↔ e ∈ s.xl.tlb := by
  unfold State.tlbUses
  generalize (l.map fun p => p.2.1 / 65536 * 65536).dedup = pages
  induction pages generalizing s with
  | nil => exact ⟨s.xl.tlb, rfl, fun _ => Iff.rfl⟩
  | cons va pages ih =>
    rw [List.foldl_cons]
    split
    next home space _ =>
      obtain ⟨x, hx, hmem⟩ := s.tlbUse_only home space va
      obtain ⟨y, hy, hmem'⟩ := ih (s.tlbUse home space va)
      refine ⟨y, ?_, fun e => (hmem' e).trans ?_⟩
      · rw [hy, hx]
      · rw [hx]
        exact hmem e
    next => exact ih s

section
variable {s : State} {acc : Acc} {rqt : Rqt} {width : Nat} {lanes : List (Nat × Nat)}

/-- Lanes that pass their checks need no walk, and no home on another package refuses them. -/
theorem State.Reaches.passes (h : s.Reaches acc rqt width lanes) : ∀ p ∈ s.laneChecks acc rqt width lanes,
    p.2.2.1 = 0 ∧ p.2.2.2.settled = true ∧ (p.2.2.2.isFar && (Config.freeWord s.fresh).getLsbD p.1) = false := by
  refine List.forall_mem_map.mpr fun p hp => ?_
  obtain ⟨hlt, ha, hr⟩ := h p hp
  dsimp only
  rw [s.laneCheck_aligned acc rqt hlt ha, State.laneRes]
  rcases hr with ⟨ph, sp, leaf, hr⟩ | ⟨⟨pk, rc, hr⟩, hfree⟩
  · rw [hr]
    exact ⟨rfl, rfl, rfl⟩
  · rw [hr, hfree]
    exact ⟨rfl, rfl, rfl⟩

/-- An access whose lanes all pass goes on; beside that it notes what it translated and takes a free value where a lane lies on another package. -/
theorem State.access_reaches (h : s.Reaches acc rqt width lanes) (perLane : Bool) (go : List (Nat × Nat × Nat × TRes) → State → State) :
    ∃ n x, s.access perLane acc rqt width lanes go =
        go (s.laneChecks acc rqt width lanes) { s with xl := { s.xl with tlb := x }, fresh := n } ∧ ∀ e, e ∈ x ↔ e ∈ s.xl.tlb := by
  have hp := h.passes
  have hfirst : firstCheck (s.laneChecks acc rqt width lanes) = none := firstCheck_passed fun p hm => (hp p hm).1
  have hmiss : missing (s.laneChecks acc rqt width lanes) = [] := missing_eq_nil fun p hm => (hp p hm).2.1
  have hgranted : (s.refusedLanes (s.laneChecks acc rqt width lanes)).any (fun p => p.2.2.1 == 4) = false := by
    rw [List.any_eq_false]
    refine List.forall_mem_map.mpr fun p hm => ?_
    obtain ⟨h0, -, hfree⟩ := hp p hm
    rw [hfree, if_neg Bool.false_ne_true, h0]
    exact Bool.false_ne_true
  unfold State.access
  rw [s.checkLanes_eq]
  dsimp only
  rw [hfirst, hmiss]
  dsimp only
  rw [if_pos rfl]
  unfold State.granted
  dsimp only
  rw [hgranted, if_neg Bool.false_ne_true]
  generalize hu : (if (s.laneChecks acc rqt width lanes).any (fun p => p.2.2.2.isFar) = true then { s with fresh := s.fresh + 1 } else s) = u
  obtain ⟨n, rfl⟩ : ∃ n, u = { s with fresh := n } := by
    rw [← hu]
    split
    · exact ⟨_, rfl⟩
    · exact ⟨s.fresh, rfl⟩
  obtain ⟨x, hx, hmem⟩ := State.tlbUses_only { s with fresh := n } (s.laneChecks acc rqt width lanes)
  exact ⟨n, x, congrArg _ hx, hmem⟩

theorem State.Reaches.modBlk (h : s.Reaches acc rqt width lanes) (f : Blk → Blk) : (s.modBlk s.cur f).Reaches acc rqt width lanes := by
  unfold State.Reaches
  rw [State.modBlk_cur, State.place_modBlk]
  exact h

end

/-! Store-class instructions: counted, checked, and kept for the commit (R44, R45). -/

/-- A block in which one more store-class instruction has fired. -/
def Blk.counted (b : Blk) : Blk := { b with storeCount := b.storeCount + 1 }

/-- A block that keeps one more store for its commit. -/
def Blk.keepStore (b : Blk) (t : GStore) : Blk := { b with stores := b.stores ++ [t] }

/-- The store that an instruction which fires keeps. -/
def State.storeOf (s : State) (m : MFields) (kind : GKind) : GStore :=
  { mseq := m.mseq.toNat, idx := s.curIdx, rqt := m.rqt, ord := m.ord, scope := m.scope, kind := kind }

section
variable {s : State} {i : Instr} {b : Blk} {x : Args}

theorem State.Fires.countStore_room (hf : s.Fires i b x) (h : b.storeCount < b.nst) (go : State → State) :
    s.markFired.countStore go = go (s.modBlk s.cur fun c => (s.marked c).counted) := by
  have he : s.markFired.blk? s.markFired.cur = some (s.marked b) := hf.blk?_markFired
  unfold State.countStore
  rw [he]
  exact (if_neg (Nat.not_le.mpr h)).trans (congrArg go (s.modBlk_modBlk s.cur s.marked Blk.counted))

theorem State.Fires.countStore_full (hf : s.Fires i b x) (h : b.nst ≤ b.storeCount) (go : State → State) :
    s.markFired.countStore go = s.markFired.faultAt s.cur s.curIdx 1 33 := by
  have he : s.markFired.blk? s.markFired.cur = some (s.marked b) := hf.blk?_markFired
  unfold State.countStore
  rw [he]
  exact if_pos h

/-- A store that has passed its checks stays counted, and its bytes wait for the commit. -/
theorem State.bufferStore_only {n : Nat} {tlb : List TlbE} (hb : s.blk? s.cur = some b) (m : MFields) (kind : GKind)
    (htlb : ∀ e, e ∈ tlb ↔ e ∈ s.xl.tlb) :
    s.OnlyAccess (((s.marked b).counted).keepStore (s.storeOf m kind))
      (({ s.modBlk s.cur fun c => (s.marked c).counted with xl := { s.xl with tlb := tlb }, fresh := n }).bufferStore m kind).uncountStore := by
  let u : State := { s with xl := { s.xl with tlb := tlb }, fresh := n }
  let keep : Blk → Blk := fun c => c.keepStore (s.storeOf m kind)
  let uncount : Blk → Blk := fun c => if c.fired.contains s.curIdx then c else { c with storeCount := c.storeCount - 1 }
  have he : ((u.modBlk s.cur fun c => (s.marked c).counted).modBlk s.cur keep).modBlk s.cur uncount =
      u.putBlk s.cur (uncount (keep ((s.marked b).counted))) := by
    rw [State.modBlk_modBlk, State.modBlk_modBlk]
    exact u.modBlk_eq s.cur _ b hb
  have hkeep : uncount (keep ((s.marked b).counted)) = keep ((s.marked b).counted) :=
    if_pos (by simp [keep, Blk.keepStore, Blk.counted, State.marked])
  rw [hkeep] at he
  have ht := congrArg (s.OnlyAccess (keep ((s.marked b).counted))) he
  exact ht.mpr ⟨rfl, rfl, htlb⟩

/-- What `st`, `sts`, `red` and an `atom` without a result do when their lanes pass. -/
theorem State.Fires.accesses_store {perLane : Bool} {acc : Acc} {m : MFields} {width : Nat} {lanes : List (Nat × Nat)}
    {kind : List (Nat × Nat × Nat × TRes) → GKind} {go : State → State} (hf : s.Fires i b x) (hroom : b.storeCount < b.nst)
    (hr : s.Reaches acc m.rqt width lanes) (hgo : ∀ u, go u = (u.access perLane acc m.rqt width lanes fun l u => u.bufferStore m (kind l)).uncountStore) :
    s.OnlyAccess (((s.marked b).counted).keepStore (s.storeOf m (kind (s.laneChecks acc m.rqt width lanes)))) (s.markFired.countStore go) := by
  obtain ⟨n, tlb, he, htlb⟩ := State.access_reaches (hr.modBlk fun c => (s.marked c).counted) perLane fun l u => u.bufferStore m (kind l)
  rw [hf.countStore_room hroom, hgo, he, State.laneChecks_modBlk]
  exact State.bufferStore_only (s.blk?_of_issuing b hf.1) m _ htlb

end

/-- What an atomic does that names no address twice and returns no value. -/
theorem fireAtomic_of_distinct {b : Blk} {x : Args} {m : MFields} {op : AtomOp}
    (h : laneConflicts (atomLanes op b.live0 (x.sa + m.ofs.signExtend 64) x.b.vec) = []) (acc : Acc) (u : State) :
    u.fireAtomic b x m op acc false = (u.access true acc m.rqt 4 (atomLanes op b.live0 (x.sa + m.ofs.signExtend 64) x.b.vec) fun l v =>
      v.bufferStore m (.atomic op (l.map fun p => (p.2.1, x.vc.lane p.1, x.b.vec.lane p.1)))).uncountStore := by
  change (match laneConflicts (atomLanes op b.live0 (x.sa + m.ofs.signExtend 64) x.b.vec) with
    | q :: r => _
    | [] => _) = _
  rw [h]
  rfl

/-- What an atomic without a result keeps for the commit. -/
theorem State.Fires.accesses_atomic {s : State} {i : Instr} {b : Blk} {x : Args} {m : MFields} {op : AtomOp} {acc : Acc} (hf : s.Fires i b x)
    (hroom : b.storeCount < b.nst) (hd : laneConflicts (atomLanes op b.live0 (x.sa + m.ofs.signExtend 64) x.b.vec) = [])
    (hr : s.Reaches acc m.rqt 4 (atomLanes op b.live0 (x.sa + m.ofs.signExtend 64) x.b.vec)) :
    s.OnlyAccess (((s.marked b).counted).keepStore (s.storeOf m (.atomic op
        ((atomLanes op b.live0 (x.sa + m.ofs.signExtend 64) x.b.vec).map fun p => (p.2, x.vc.lane p.1, x.b.vec.lane p.1)))))
      (s.markFired.countStore fun u => u.fireAtomic b x m op acc false) := by
  have ho := hf.accesses_store (kind := fun l => .atomic op (l.map fun p => (p.2.1, x.vc.lane p.1, x.b.vec.lane p.1))) hroom hr
    (fireAtomic_of_distinct hd acc)
  rw [s.laneChecks_map acc m.rqt 4 (fun n va => (va, x.vc.lane n, x.b.vec.lane n))] at ho
  exact ho

/-- Settles O19: each of the four is counted, checked and kept. -/
theorem storesWaitForCommit : Obligations.StoresWaitForCommit := by
  unfold Obligations.StoresWaitForCommit
  refine ⟨?_, ?_, ?_, ?_⟩
  · intro h m ty s b x hf ⟨hroom, hr⟩
    refine ⟨_, congrArg Host.Outcome.next (s.issue_fires _ h rfl _ _ _ b x hf rfl), ?_⟩
    have ho := hf.accesses_store (perLane := true) (kind := fun l => .bytes (l.flatMap fun p => placeBytes p.2.1 (leBytes 4 (x.b.vec.lane p.1).toNat)))
      hroom hr fun _ => rfl
    rw [s.laneChecks_flatMap .wr m.rqt 4 (fun n va => placeBytes va (leBytes 4 (x.b.vec.lane n).toNat))] at ho
    exact ho
  · intro h m wd s b x hf ⟨hroom, hr⟩
    refine ⟨_, congrArg Host.Outcome.next (s.issue_fires _ h rfl _ _ _ b x hf rfl), ?_⟩
    exact hf.accesses_store hroom hr fun _ => rfl
  · intro h m op s b x hf ⟨hroom, hd, hr⟩
    exact ⟨_, congrArg Host.Outcome.next (s.issue_fires _ h rfl _ _ _ b x hf rfl), hf.accesses_atomic hroom hd hr⟩
  · intro h m op hret s b x hf ⟨hroom, hturn, hd, hr⟩
    have hgate : (b.mseqTurn m.mseq.toNat && (!hdrReturns h || b.othersSettled s.curIdx)) = true := by simp [hturn, hret]
    refine ⟨_, congrArg Host.Outcome.next (s.issue_fires (.atom h m op) h rfl
      (fun b => b.mseqTurn m.mseq.toNat && (!hdrReturns h || b.othersSettled s.curIdx)) _ _ b x hf hgate), ?_⟩
    rw [hret]
    exact hf.accesses_atomic hroom hd hr

end Sys2Proof.Machine
end

section
/-! Faults of accesses (R44, R205, R215, R396, Table 8-1a). -/

namespace Sys2Proof.Machine

/-- Without a block there is nothing to change. -/
theorem State.modBlk_of_none {s : State} {w : Nat} (h : s.blk? w = none) (f : Blk → Blk) : s.modBlk w f = s := by
  have hw : s.warps.modify w (fun x => { x with blk := x.blk.map f }) = s.warps := by
    refine List.ext_getElem? fun n => ?_
    rw [List.getElem?_modify]
    by_cases hn : w = n
    · subst hn
      cases hx : s.warps[w]? with
      | none => rfl
      | some x =>
        have hxb : x.blk = none := by simpa [State.blk?, hx] using h
        have hid : { x with blk := x.blk.map f } = x := by
          rw [hxb]
          exact (congrArg (fun o => { x with blk := o }) hxb).symm
        simpa using hid
    · simp [hn]
  unfold State.modBlk State.modWarp
  rw [hw]

section
variable {s : State} {acc : Acc} {rqt : Rqt} {width c : Nat} {lanes : List (Nat × Nat)}

/-- An access whose lowest failing check is `c` raises its fault; a check of the page only once no lane waits for a walk. -/
theorem State.access_fails (hc : c ≠ 0) (hmem : ∃ p ∈ lanes, s.laneCheck acc rqt width p.2 = c)
    (hle : ∀ p ∈ lanes, s.laneCheck acc rqt width p.2 = 0 ∨ c ≤ s.laneCheck acc rqt width p.2)
    (hw : c ≤ 2 ∨ ∀ p ∈ lanes, (s.laneRes acc rqt p.2).settled = true) (perLane : Bool)
    (go : List (Nat × Nat × Nat × TRes) → State → State) :
    s.access perLane acc rqt width lanes go = s.checkFault s.cur s.curIdx perLane acc c (s.laneChecks acc rqt width lanes) := by
  obtain ⟨p, hp, hpc⟩ := hmem
  have hfirst : firstCheck (s.laneChecks acc rqt width lanes) = some c :=
    firstCheck_failed hc ⟨_, List.mem_map_of_mem hp, hpc⟩ (List.forall_mem_map.mpr hle)
  have hgo : c ≤ 2 ∨ missing (s.laneChecks acc rqt width lanes) = [] :=
    hw.imp_right fun h => missing_eq_nil (List.forall_mem_map.mpr h)
  unfold State.access
  rw [s.checkLanes_eq]
  dsimp only
  rw [hfirst]
  exact if_pos hgo

/-- The record of a check that is not a page fault. -/
theorem State.checkFault_of_ne (h : c ≠ 3) (w idx : Nat) (perLane : Bool) (l : List (Nat × Nat × Nat × TRes)) :
    s.checkFault w idx perLane acc c l = s.fault w (checkRec idx perLane acc c l) := if_neg h

/-- A fault leaves no block whose store could be counted back. -/
theorem State.uncountStore_fault (hs : s.shapeOk) (hw : s.cur < s.warps.length) (r : FRec) :
    (s.fault s.cur r).uncountStore = s.fault s.cur r := by
  obtain ⟨-, hb, -⟩ := State.parkedOn_fault hs hw r
  unfold State.uncountStore
  rw [State.fault_cur]
  exact State.modBlk_of_none hb _

end

section
variable {i : Instr} {h : Hdr} {gate : State → Blk → Bool} {onNull : State → State → State} {f : State → Blk → Args → State → State}
  {no : State → Blk → Args → Prop} {code detail : Nat}

/-- An instruction that changes its block and then raises a fault when it fires. -/
theorem faults_of_modBlk (hh : i.hdr? = some h) (he : ∀ s, exec i s = .next (s.issue i (gate s) (onNull s) (f s)))
    (hg : ∀ s b x, no s b x → gate s b = true)
    (hf : ∀ s b x, s.shapeOk → s.Fires i b x → no s b x → ∃ (g : Blk → Blk) (r : FRec), f s b x s.markFired = (s.modBlk s.cur g).fault s.cur r ∧
      r.code = code ∧ r.detail = detail ∧ r.index = s.curIdx) : Faults i no code detail := by
  intro s b x hs hx hn
  obtain ⟨g, r, hr, rfl, rfl, hi⟩ := hf s b x hs hx hn
  refine ⟨_, (he s).trans (congrArg Host.Outcome.next (s.issue_fires i h hh _ _ _ b x hx (hg s b x hn))), ?_⟩
  have hb := s.blk?_modBlk s.cur g b (s.blk?_of_issuing b hx.1)
  have hp := (State.parkedOn_fault (s := s.modBlk s.cur g) hs (State.blk?_isSome_lt hb) r).faulted
  rw [hi] at hp
  rw [hr]
  exact hp

/-- A store-class instruction beyond the block's `NST` (R44). -/
theorem faults_of_countStore {go : Blk → Args → State → State} (hh : i.hdr? = some h)
    (he : ∀ s, exec i s = .next (s.issue i (gate s) (onNull s) fun b x s => s.countStore (go b x)))
    (hg : ∀ s b x, no s b x → gate s b = true) (hn : ∀ s b x, no s b x → b.nst ≤ b.storeCount) : Faults i no 1 33 :=
  faultsAt_of_issue hh he hg fun s b x hf hx =>
    ⟨{ code := 1, detail := 33, index := s.curIdx }, hf.countStore_full (hn s b x hx) _, rfl, rfl, rfl⟩

end

/-- An access of an instruction that has fired, with its lowest failing check `c`: its lanes, and the lane on which it fails. -/
structure State.Denied (s : State) (acc : Acc) (rqt : Rqt) (width : Nat) (lanes : List (Nat × Nat)) (c : Nat) : Prop where
  pos : c ≠ 0
  fails : ∃ p ∈ lanes, s.laneCheck acc rqt width p.2 = c
  least : ∀ p ∈ lanes, s.laneCheck acc rqt width p.2 = 0 ∨ c ≤ s.laneCheck acc rqt width p.2
  walked : c ≤ 2 ∨ ∀ p ∈ lanes, (s.laneRes acc rqt p.2).settled = true

section
variable {s : State} {acc : Acc} {rqt : Rqt} {width c : Nat} {lanes : List (Nat × Nat)}

/-- Some lane is too high. -/
theorem State.denied_high (h : ∃ p ∈ lanes, 2 ^ 48 ≤ p.2) : s.Denied acc rqt width lanes 1 where
  pos := Nat.one_ne_zero
  fails := h.imp fun _ ⟨hp, hv⟩ => ⟨hp, s.laneCheck_high acc rqt hv⟩
  least := fun _ _ => Nat.eq_zero_or_pos _
  walked := .inl (by decide)

/-- No lane is too high, and some lane is misaligned. -/
theorem State.denied_misaligned (hlt : ∀ p ∈ lanes, p.2 < 2 ^ 48) (h : ∃ p ∈ lanes, p.2 % width ≠ 0) : s.Denied acc rqt width lanes 2 where
  pos := two_ne_zero
  fails := h.imp fun p ⟨hp, hv⟩ => ⟨hp, s.laneCheck_misaligned acc rqt (hlt p hp) hv⟩
  least := fun p hp => State.two_le_laneCheck (hlt p hp)
  walked := .inl (by decide)

/-- Every lane reaches its page, and some page does not permit the access. -/
theorem State.denied_prot (hok : ∀ p ∈ lanes, p.2 < 2 ^ 48 ∧ p.2 % width = 0 ∧
      ((∃ ph sp leaf, s.laneRes acc rqt p.2 = .ok ph sp leaf) ∨ s.laneRes acc rqt p.2 = .prot))
    (h : ∃ p ∈ lanes, s.laneRes acc rqt p.2 = .prot) : s.Denied acc rqt width lanes 4 where
  pos := by decide
  fails := h.imp fun p ⟨hp, hr⟩ => ⟨hp, by
    obtain ⟨hlt, ha, -⟩ := hok p hp
    rw [s.laneCheck_aligned acc rqt hlt ha, hr]⟩
  least := fun p hp => by
    obtain ⟨hlt, ha, hr⟩ := hok p hp
    rw [s.laneCheck_aligned acc rqt hlt ha]
    rcases hr with ⟨ph, sp, leaf, hr⟩ | hr <;> simp [hr]
  walked := .inr fun p hp => by
    obtain ⟨-, -, hr⟩ := hok p hp
    rcases hr with ⟨ph, sp, leaf, hr⟩ | hr <;> rw [hr] <;> rfl

/-- The one lane of a scalar access reaches no home or a page with a pending fault. -/
theorem State.denied_page {n va : Nat} (hlt : va < 2 ^ 48) (ha : va % width = 0)
    (hr : s.laneRes acc rqt va = .nohome ∨ ∃ hm sp, s.laneRes acc rqt va = .page hm sp) : s.Denied acc rqt width [(n, va)] 3 := by
  have hc : s.laneCheck acc rqt width va = 3 := by
    rw [s.laneCheck_aligned acc rqt hlt ha]
    rcases hr with hr | ⟨hm, sp, hr⟩ <;> rw [hr]
  have hset : (s.laneRes acc rqt va).settled = true := by
    rcases hr with hr | ⟨hm, sp, hr⟩ <;> rw [hr] <;> rfl
  exact ⟨by decide, ⟨_, List.mem_singleton_self _, hc⟩, fun p hp => .inr (List.mem_singleton.mp hp ▸ hc.ge),
    .inr fun p hp => List.mem_singleton.mp hp ▸ hset⟩

/-- What an access does that is denied, whatever its block has become. -/
theorem State.Denied.access (hd : s.Denied acc rqt width lanes c) (g : Blk → Blk) (perLane : Bool)
    (go : List (Nat × Nat × Nat × TRes) → State → State) :
    (s.modBlk s.cur g).access perLane acc rqt width lanes go =
      (s.modBlk s.cur g).checkFault s.cur s.curIdx perLane acc c (s.laneChecks acc rqt width lanes) := by
  obtain ⟨hc, hmem, hle, hw⟩ := hd
  have he := State.access_fails (s := s.modBlk s.cur g) (acc := acc) (rqt := rqt) (width := width) (lanes := lanes) hc
    (by simpa only [State.laneCheck, State.laneRes_modBlk] using hmem) (by simpa only [State.laneCheck, State.laneRes_modBlk] using hle)
    (by simpa only [State.laneRes_modBlk] using hw) perLane go
  rw [he, State.laneChecks_modBlk]
  rfl

end

section
variable {i : Instr} {h : Hdr} {gate : State → Blk → Bool} {onNull : State → State → State}
  {no : State → Blk → Args → Prop} {perLane : Bool} {acc : Acc} {rqt : Rqt} {width c : Nat} {lanes : Blk → Args → List (Nat × Nat)}
  {go : Blk → Args → List (Nat × Nat × Nat × TRes) → State → State}

/-- A load that is denied, but for the page fault. -/
theorem faults_of_load (hh : i.hdr? = some h)
    (he : ∀ s, exec i s = .next (s.issue i (gate s) (onNull s) fun b x s => s.access perLane acc rqt width (lanes b x) (go b x)))
    (hg : ∀ s b x, no s b x → gate s b = true) (hne : c ≠ 3) (hd : ∀ s b x, no s b x → s.Denied acc rqt width (lanes b x) c) :
    Faults i no (checkCode c) (if c = 1 ∨ c = 4 then c else 0) :=
  faultsAt_of_issue hh he hg fun s b x _ hn =>
    ⟨_, ((hd s b x hn).access s.marked perLane (go b x)).trans (State.checkFault_of_ne hne ..), rfl, rfl, rfl⟩

/-- A store with room in its block that is denied, but for the page fault. -/
theorem faults_of_store (hh : i.hdr? = some h)
    (he : ∀ s, exec i s = .next (s.issue i (gate s) (onNull s) fun b x s => s.countStore fun s =>
      (s.access perLane acc rqt width (lanes b x) (go b x)).uncountStore))
    (hg : ∀ s b x, no s b x → gate s b = true) (hne : c ≠ 3) (hroom : ∀ s b x, no s b x → b.storeCount < b.nst)
    (hd : ∀ s b x, no s b x → s.Denied acc rqt width (lanes b x) c) : Faults i no (checkCode c) (if c = 1 ∨ c = 4 then c else 0) :=
  faults_of_modBlk hh he hg fun s b x hs hf hn => by
    refine ⟨fun b => (s.marked b).counted, checkRec s.curIdx perLane acc c (s.laneChecks acc rqt width (lanes b x)), ?_, rfl, rfl, rfl⟩
    have hb := s.blk?_modBlk s.cur (fun b => (s.marked b).counted) b (s.blk?_of_issuing b hf.1)
    rw [hf.countStore_room (hroom s b x hn), (hd s b x hn).access, State.checkFault_of_ne hne]
    exact State.uncountStore_fault (s := s.modBlk s.cur fun b => (s.marked b).counted) hs (State.blk?_isSome_lt hb) _

end

/-! Page faults of `lds` (R396). -/

/-- A pending fault is one of the page of an address. -/
def PFault.covers (hm sp va : Nat) (p : PFault) : Bool := p.home == hm && p.space == sp && p.va == va / 65536 * 65536

/-- A warp attaches to the pending faults of a page. -/
def PFault.attach (hm sp va w : Nat) (recs : List FRec) (p : PFault) : PFault :=
  if p.covers hm sp va then { p with warps := p.warps ++ [w], recs := p.recs ++ recs, posted := true } else p

theorem State.hubq_modCtx {s : State} {c : Nat} (h : c < s.ctxs.length) (q : List FRec) :
    ((s.modCtx c fun x => { x with hubq := q }).ctx c).hubq = q := by
  have he := congrArg Ctx.hubq (getD_modify_self h (fun x => { x with hubq := q }) {})
  exact he

/-- What attaching leaves and adds. -/
theorem PFault.attach_covered {hm sp va : Nat} {p : PFault} (h : p.covers hm sp va = true) (w : Nat) (recs : List FRec) :
    (p.attach hm sp va w recs).home = hm ∧ (p.attach hm sp va w recs).space = sp ∧ (p.attach hm sp va w recs).va = va / 65536 * 65536 ∧
      (p.attach hm sp va w recs).warps = p.warps ++ [w] := by
  obtain ⟨⟨hhome, hspace⟩, hva⟩ : (p.home = hm ∧ p.space = sp) ∧ p.va = va / 65536 * 65536 := by simpa [PFault.covers] using h
  rw [PFault.attach, if_pos h]
  exact ⟨hhome, hspace, hva, rfl⟩

/-- A page fault on a page that has a pending entry attaches to it; the record that it posted is taken back where one is posted already. -/
theorem State.pageFault_attaches {s : State} {hm sp va : Nat} {q : PFault} (hq : s.xl.pfaults.find? (PFault.covers hm sp va) = some q)
    (w : Nat) (r : FRec) :
    ∃ recs, s.pageFault w r (some (hm, sp, va)) =
      let u := (s.fault w r).modXl fun x => { x with pfaults := x.pfaults.map (PFault.attach hm sp va w recs) }
      if q.posted then u.modCtx (s.place w).ctx fun c => { c with hubq := (s.ctx (s.place w).ctx).hubq } else u := by
  have hany : s.xl.pfaults.any (PFault.covers hm sp va) = true :=
    List.any_eq_true.mpr ⟨q, List.mem_of_find?_eq_some hq, List.find?_some hq⟩
  refine ⟨((s.fault w r).ctx (s.place w).ctx).hubq.drop (s.ctx (s.place w).ctx).hubq.length, ?_⟩
  have hgo : (!s.xl.pfaults.any (PFault.covers hm sp va) && s.pfaultsFull hm) = false := by rw [hany]; rfl
  refine (if_neg (Bool.eq_false_iff.mp hgo)).trans ?_
  change (match (s.fault w r).xl.pfaults.find? (PFault.covers hm sp va) with
    | some p => _
    | none => _) = _
  rw [State.fault_xl, hq]
  rfl

section
variable {s : State} {h : Hdr} {m : MFields} {wd : LdWidth} {b : Blk} {x : Args}

/-- What `lds` does whose one lane reaches no home or a page with a pending fault. -/
theorem execLds_page (hf : s.Fires (.lds h m wd) b x) (hturn : b.mseqTurn m.mseq.toNat = true)
    (hlt : (x.sa + m.ofs.signExtend 64).toNat < 2 ^ 48) (ha : (x.sa + m.ofs.signExtend 64).toNat % LdWidth.bytes wd = 0)
    (hr : s.laneRes .rd m.rqt (x.sa + m.ofs.signExtend 64).toNat = .nohome ∨
      ∃ hm sp, s.laneRes .rd m.rqt (x.sa + m.ofs.signExtend 64).toNat = .page hm sp) :
    ∃ f : FRec, f.code = 3 ∧ f.detail = 0 ∧ f.index = s.curIdx ∧ exec (.lds h m wd) s = .next (s.markFired.pageFault s.cur f
      (match s.laneRes .rd m.rqt (x.sa + m.ofs.signExtend 64).toNat with
      | .page hm sp => some (hm, sp, (x.sa + m.ofs.signExtend 64).toNat)
      | _ => none)) := by
  have hd : s.Denied .rd m.rqt (LdWidth.bytes wd) [(0, (x.sa + m.ofs.signExtend 64).toNat)] 3 := State.denied_page hlt ha hr
  obtain ⟨-, ⟨p, hp, hc⟩, -, -⟩ := id hd
  rw [List.mem_singleton.mp hp] at hc
  have hl : s.laneChecks .rd m.rqt (LdWidth.bytes wd) [(0, (x.sa + m.ofs.signExtend 64).toNat)] =
      [(0, (x.sa + m.ofs.signExtend 64).toNat, 3, s.laneRes .rd m.rqt (x.sa + m.ofs.signExtend 64).toNat)] := by
    rw [State.laneChecks, List.map_singleton, hc]
  refine ⟨checkRec s.curIdx false .rd 3 (s.laneChecks .rd m.rqt (LdWidth.bytes wd) [(0, (x.sa + m.ofs.signExtend 64).toNat)]), rfl, rfl, rfl,
    congrArg Host.Outcome.next ((s.issue_fires _ h rfl (fun b => b.mseqTurn m.mseq.toNat) _ _ b x hf hturn).trans
      ((hd.access s.marked false _).trans ?_))⟩
  rw [hl]
  refine congrArg (State.pageFault s.markFired s.cur _) ?_
  cases s.laneRes .rd m.rqt (x.sa + m.ofs.signExtend 64).toNat <;> rfl

end

theorem laneConflicts_of_twin {l : List (Nat × Nat)} (h : ∃ p ∈ l, ∃ q ∈ l, p.1 ≠ q.1 ∧ p.2 = q.2) : ∃ q r, laneConflicts l = q :: r := by
  obtain ⟨p, hp, q, hq, hne, he⟩ := h
  have hm : p ∈ laneConflicts l := List.mem_filter.mpr ⟨hp, List.any_eq_true.mpr ⟨q, hq, by simp [hne, he]⟩⟩
  exact List.exists_cons_of_ne_nil (List.ne_nil_of_mem hm)

/-- When an `atom` may fire (R49). -/
theorem atom_gate {s : State} {h : Hdr} {m : MFields} {b : Blk}
    (hg : b.mseqTurn m.mseq.toNat = true ∧ (hdrReturns h = true → b.othersSettled s.curIdx = true)) :
    (b.mseqTurn m.mseq.toNat && (!hdrReturns h || b.othersSettled s.curIdx)) = true := by
  obtain ⟨hturn, hret⟩ := hg
  cases hr : hdrReturns h
  · simp [hturn]
  · simp [hturn, hret hr]

/-- What an atomic does that has two lanes at one address (R215). -/
theorem fireAtomic_of_twin {b : Blk} {x : Args} {m : MFields} {op : AtomOp}
    (h : ∃ p ∈ atomLanes op b.live0 (x.sa + m.ofs.signExtend 64) x.b.vec, ∃ q ∈ atomLanes op b.live0 (x.sa + m.ofs.signExtend 64) x.b.vec,
      p.1 ≠ q.1 ∧ p.2 = q.2) (acc : Acc) (ret : Bool) (u : State) :
    ∃ r : FRec, u.fireAtomic b x m op acc ret = u.fault u.cur r ∧ r.code = 6 ∧ r.detail = 0 ∧ r.index = u.curIdx := by
  obtain ⟨q, r, hc⟩ := laneConflicts_of_twin h
  have hc : laneConflicts (atomLanes op b.live0 (mBase x.sa m) (x.vb .b32 none)) = q :: r := hc
  unfold State.fireAtomic
  dsimp only
  rw [hc]
  exact ⟨_, rfl, rfl, rfl, rfl⟩

theorem faults_of_twin {i : Instr} {h : Hdr} {gate : State → Blk → Bool} {onNull : State → State → State} {m : MFields} {op : AtomOp}
    {acc : Acc} {ret : Bool} {no : State → Blk → Args → Prop} (hh : i.hdr? = some h)
    (he : ∀ s, exec i s = .next (s.issue i (gate s) (onNull s) fun b x s => s.countStore fun s => s.fireAtomic b x m op acc ret))
    (hg : ∀ s b x, no s b x → gate s b = true) (hroom : ∀ s b x, no s b x → b.storeCount < b.nst)
    (htwin : ∀ s b x, no s b x → ∃ p ∈ atomLanes op b.live0 (x.sa + m.ofs.signExtend 64) x.b.vec,
      ∃ q ∈ atomLanes op b.live0 (x.sa + m.ofs.signExtend 64) x.b.vec, p.1 ≠ q.1 ∧ p.2 = q.2) : Faults i no 6 0 :=
  faults_of_modBlk hh he hg fun s b x _ hf hn => by
    obtain ⟨r, hr, hcode, hdetail, hindex⟩ :=
      fireAtomic_of_twin (htwin s b x hn) acc ret (s.modBlk s.cur fun c => (s.marked c).counted)
    exact ⟨fun c => (s.marked c).counted, r, (hf.countStore_room (hroom s b x hn) _).trans hr, hcode, hdetail, hindex⟩

/-- Settles O20: each fault is that of the lowest failing check. -/
theorem accessFaults : Obligations.AccessFaults := by
  unfold Obligations.AccessFaults
  refine ⟨?_, ?_, ?_, ?_, ?_, ?_, ?_, ?_, ?_, ?_, ?_, ?_, ?_, ?_, ?_, ?_, ?_, ?_, ?_⟩
  · exact fun h m ty => faults_of_countStore (h := h) rfl (fun _ => rfl) (fun _ _ _ _ => rfl) fun _ _ _ hn => hn
  · exact fun h m wd => faults_of_countStore (h := h) rfl (fun _ => rfl) (fun _ _ _ _ => rfl) fun _ _ _ hn => hn
  · exact fun h m op => faults_of_countStore (h := h) rfl (fun _ => rfl) (fun _ _ _ _ => rfl) fun _ _ _ hn => hn
  · exact fun h m ty => faults_of_countStore (h := h) rfl (fun _ => rfl) (fun _ _ _ _ => rfl) fun _ _ _ hn => hn
  · exact fun h m ty => faults_of_countStore (h := h) rfl (fun _ => rfl) (fun _ _ _ _ => rfl) fun _ _ _ hn => hn
  · exact fun h m op => faults_of_countStore (h := h) rfl (fun _ => rfl) (fun s b x ⟨hg, _⟩ => atom_gate hg) fun _ _ _ hn => hn.2
  · exact fun h m wd => faults_of_load (h := h) (c := 1) rfl (fun _ => rfl) (fun _ _ _ hn => hn.1) (by decide) fun _ _ _ ⟨_, hv⟩ =>
      State.denied_high ⟨_, List.mem_singleton_self _, hv⟩
  · exact fun h m wd => faults_of_load (h := h) (c := 2) rfl (fun _ => rfl) (fun _ _ _ hn => hn.1) (by decide) fun _ _ _ ⟨_, hlt, hv⟩ =>
      State.denied_misaligned (List.forall_mem_singleton.mpr hlt) ⟨_, List.mem_singleton_self _, hv⟩
  · exact fun h m wd => faults_of_store (h := h) (c := 2) rfl (fun _ => rfl) (fun _ _ _ _ => rfl) (by decide) (fun _ _ _ hn => hn.1)
      fun _ _ _ ⟨_, hlt, hv⟩ => State.denied_misaligned (List.forall_mem_singleton.mpr hlt) ⟨_, List.mem_singleton_self _, hv⟩
  · exact fun h m ty => faults_of_load (h := h) (c := 1) rfl (fun _ => rfl) (fun _ _ _ hn => hn.1) (by decide) fun _ _ _ hn =>
      State.denied_high hn.2
  · exact fun h m ty => faults_of_load (h := h) (c := 2) rfl (fun _ => rfl) (fun _ _ _ hn => hn.1) (by decide) fun _ _ _ ⟨_, hlt, hv⟩ =>
      State.denied_misaligned hlt hv
  · exact fun h m ty => faults_of_store (h := h) (c := 2) rfl (fun _ => rfl) (fun _ _ _ _ => rfl) (by decide) (fun _ _ _ hn => hn.1)
      fun _ _ _ ⟨_, hlt, hv⟩ => State.denied_misaligned hlt hv
  · exact fun h m ty => faults_of_store (h := h) (c := 4) rfl (fun _ => rfl) (fun _ _ _ _ => rfl) (by decide) (fun _ _ _ hn => hn.1)
      fun _ _ _ ⟨_, hok, hv⟩ => State.denied_prot hok hv
  · exact fun h m wd => faults_of_load (h := h) (c := 4) rfl (fun _ => rfl) (fun _ _ _ hn => hn.1) (by decide)
      fun _ _ _ ⟨_, hlt, ha, hr⟩ => State.denied_prot (List.forall_mem_singleton.mpr ⟨hlt, ha, .inr hr⟩) ⟨_, List.mem_singleton_self _, hr⟩
  · intro h m wd s b x hs hf ⟨hturn, hlt, ha, hr⟩
    obtain ⟨f, hcode, hdetail, hindex, he⟩ := execLds_page hf hturn hlt ha (.inl hr)
    have hp := (hf.parkedOn hs f).faulted
    rw [hcode, hdetail, hindex] at hp
    rw [State.laneRes, hr] at he
    exact ⟨_, he, hp⟩
  · rintro h m wd s b x hs hf ⟨hm, sp, q, ⟨hturn, hlt, ha, hr⟩, hq, hposted⟩
    obtain ⟨f, hcode, hdetail, hindex, he⟩ := execLds_page hf hturn hlt ha (.inr ⟨hm, sp, hr⟩)
    obtain ⟨recs, hatt⟩ := State.pageFault_attaches (s := s.markFired) hq s.cur f
    have hp := (hf.parkedOn hs f).faulted
    rw [hcode, hdetail, hindex] at hp
    rw [State.laneRes, hr] at he
    refine ⟨_, he, ?_⟩
    dsimp only
    rw [hatt, hposted]
    exact hp
  · intro h m wd s b x hm sp q hs hf ⟨hturn, hlt, ha, hr⟩ hq hposted
    obtain ⟨f, -, -, -, he⟩ := execLds_page hf hturn hlt ha (.inr ⟨hm, sp, hr⟩)
    obtain ⟨recs, hatt⟩ := State.pageFault_attaches (s := s.markFired) hq s.cur f
    obtain ⟨hmem, hblk, hpark, -⟩ := (hf.parkedOn hs f).faulted
    have hlen : (s.place s.cur).ctx < (s.markFired.fault s.cur f).ctxs.length := by
      obtain ⟨-, -, hn, -⟩ := (Kept.refl (fun _ => .any) s.markFired).fault.shape hs
      rw [hn]
      exact State.ctx_of_place_lt hs s.cur
    rw [State.laneRes, hr] at he
    refine ⟨_, he, ?_⟩
    dsimp only
    rw [hatt.trans (if_pos hposted), State.ctx_markFired]
    have hmem' : q.attach hm sp (x.sa + m.ofs.signExtend 64).toNat s.cur recs ∈
        (s.markFired.fault s.cur f).xl.pfaults.map (PFault.attach hm sp (x.sa + m.ofs.signExtend 64).toNat s.cur recs) := by
      rw [State.fault_xl]
      exact List.mem_map_of_mem (List.mem_of_find?_eq_some hq)
    refine ⟨hmem, hblk, hpark, State.hubq_modCtx hlen _, _, hmem', PFault.attach_covered (List.find?_some hq) s.cur recs⟩
  · intro h m op
    exact faults_of_twin (h := h) rfl (fun _ => rfl) (fun _ _ _ _ => rfl) (fun _ _ _ hn => hn.1) fun _ _ _ hn => hn.2
  · intro h m op
    exact faults_of_twin (h := h) rfl (fun _ => rfl) (fun s b x ⟨hg, _⟩ => atom_gate hg) (fun _ _ _ hn => hn.2.1) fun _ _ _ hn => hn.2.2

end Sys2Proof.Machine
end

section
/-! What no word writes before the commit of its block (R45): `State.stored`, and the functions of the words that leave it. -/

namespace Sys2Proof.Machine

/-- Memory, the teams' scratchpads and the number of warps. -/
def State.stored (s : State) : Memory × List Memory × Nat := (s.mem, s.teams.map Team.spad, s.warps.length)

section
variable (s : State)

theorem State.stored_ite {c : Prop} [Decidable c] {a b : State} (ha : a.stored = s.stored) (hb : b.stored = s.stored) :
    (if c then a else b).stored = s.stored := by
  split
  · exact ha
  · exact hb

theorem State.stored_foldl {α : Type} {f : State → α → State} (hf : ∀ s x, (f s x).stored = s.stored) (l : List α) :
    (l.foldl f s).stored = s.stored := foldl_field State.stored f hf l s

/-! The parts of the state. -/

@[simp] theorem State.stored_modWarp (w : Nat) (f : Warp → Warp) : (s.modWarp w f).stored = s.stored := by
  simp [State.stored, State.modWarp]

@[simp] theorem State.stored_modBlk (w : Nat) (f : Blk → Blk) : (s.modBlk w f).stored = s.stored := s.stored_modWarp w _

theorem map_modify_of_eq {α β : Type} {g : α → β} {f : α → α} (hf : ∀ x, g (f x) = g x) (l : List α) (n : Nat) :
    (l.modify n f).map g = l.map g := by
  refine List.ext_getElem? fun i => ?_
  rw [List.getElem?_map, List.getElem?_map, List.getElem?_modify]
  cases l[i]? with
  | none => rfl
  | some x =>
    by_cases h : n = i
    · simp [h, hf]
    · simp [h]

theorem State.stored_modTeam (n : Nat) {f : Team → Team} (hf : ∀ t, (f t).spad = t.spad) : (s.modTeam n f).stored = s.stored := by
  simp [State.stored, State.modTeam, map_modify_of_eq hf]

@[simp] theorem State.stored_modCache (f : Caches → Caches) : (s.modCache f).stored = s.stored := rfl
@[simp] theorem State.stored_modXl (f : Xlat → Xlat) : (s.modXl f).stored = s.stored := rfl
@[simp] theorem State.stored_modDie (n : Nat) (f : Die → Die) : (s.modDie n f).stored = s.stored := rfl
@[simp] theorem State.stored_modQueue (n : Nat) (f : Queue → Queue) : (s.modQueue n f).stored = s.stored := rfl
@[simp] theorem State.stored_modCtx (n : Nat) (f : Ctx → Ctx) : (s.modCtx n f).stored = s.stored := rfl

@[simp] theorem State.stored_modCore (d c : Nat) (f : Core → Core) : (s.modCore d c f).stored = s.stored := by
  unfold State.modCore
  exact s.stored_ite rfl rfl

@[simp] theorem State.stored_countCore (d c src ctx n : Nat) : (s.countCore d c src ctx n).stored = s.stored := by
  unfold State.countCore
  exact s.stored_ite rfl (by simp)

@[simp] theorem State.stored_countW (w src n : Nat) : (s.countW w src n).stored = s.stored := by
  unfold State.countW
  exact s.stored_ite rfl (by simp)

/-! Faults, delivery and firing. -/

@[simp] theorem State.stored_freeSeat (w : Nat) : (s.freeSeat w).stored = s.stored := by
  unfold State.freeSeat
  exact s.stored_ite rfl (by simp)

@[simp] theorem State.stored_releasePush (w : Nat) (p : PushRes) : (s.releasePush w p).stored = s.stored := by
  unfold State.releasePush
  split
  · exact s.stored_modTeam _ fun _ => rfl
  · rfl
  · rfl

@[simp] theorem State.stored_abortBlock (w : Nat) : (s.abortBlock w).stored = s.stored := by
  unfold State.abortBlock
  split
  · rfl
  · simp only [State.stored_modWarp, State.stored_countW]
    exact s.stored_foldl (fun s p => s.stored_releasePush w p) _

@[simp] theorem State.stored_fault (w : Nat) (r : FRec) : (s.fault w r).stored = s.stored := by
  unfold State.fault
  simp [State.postRec]

@[simp] theorem State.stored_faultAt (w idx code detail : Nat) : (s.faultAt w idx code detail).stored = s.stored := s.stored_fault w _

@[simp] theorem State.stored_hazard (w idx code aux : Nat) : (s.hazard w idx code aux).stored = s.stored := s.stored_fault w _

@[simp] theorem State.stored_deliver (w p : Nat) (t : Target) (v : Token) : (s.deliver w p t v).stored = s.stored := by
  unfold State.deliver
  split
  · rfl
  · split
    · rfl
    · exact s.stored_ite (by simp) (by simp)
    · exact s.stored_ite (by simp) (by simp)

@[simp] theorem State.stored_deliver2 (w p : Nat) (h : Hdr) (v0 v1 : Token) : (s.deliver2 w p h v0 v1).stored = s.stored := by
  unfold State.deliver2
  simp

@[simp] theorem State.stored_markFired : s.markFired.stored = s.stored := s.stored_modBlk _ _

/-- A note in the block, made or not. -/
@[simp] theorem State.stored_noted {c : Prop} [Decidable c] (w : Nat) (f : Blk → Blk) : (if c then s.modBlk w f else s).stored = s.stored :=
  s.stored_ite (s.stored_modBlk w f) rfl

@[simp] theorem State.stored_defer (f : Deferred → Deferred) : (s.defer f).stored = s.stored := s.stored_modBlk _ _

@[simp] theorem State.stored_deliverNull (i : Instr) : (s.deliverNull i).stored = s.stored := by
  unfold State.deliverNull
  simp

theorem State.stored_issue {i : Instr} {gate : Blk → Bool} {onNull : State → State} {onFire : Blk → Args → State → State}
    (hn : ∀ s, (onNull s).stored = s.stored) (hf : ∀ b x s, (onFire b x s).stored = s.stored) :
    (s.issue i gate onNull onFire).stored = s.stored := by
  unfold State.issue
  split
  · split
    · rfl
    · exact s.stored_modBlk _ _
    · exact (hn _).trans s.stored_markFired
    · exact s.stored_ite ((hf _ _ _).trans s.stored_markFired) rfl
  · rfl

/-! Accesses. -/

@[simp] theorem State.stored_tlbUse (home space va : Nat) : (s.tlbUse home space va).stored = s.stored := by
  unfold State.tlbUse
  split <;> rfl

@[simp] theorem State.stored_tlbUses (l : List (Nat × Nat × Nat × TRes)) : (s.tlbUses l).stored = s.stored := by
  unfold State.tlbUses
  refine s.stored_foldl (fun s va => ?_) _
  split
  · exact s.stored_tlbUse ..
  · rfl

@[simp] theorem State.stored_pageFault (w : Nat) (r : FRec) (p : Option (Nat × Nat × Nat)) : (s.pageFault w r p).stored = s.stored := by
  unfold State.pageFault
  split
  · exact s.stored_fault w r
  · refine s.stored_ite rfl ?_
    dsimp only
    split
    · exact s.stored_ite (by simp) (by simp)
    · simp

@[simp] theorem State.stored_checkFault (w idx : Nat) (perLane : Bool) (acc : Acc) (c : Nat) (l : List (Nat × Nat × Nat × TRes)) :
    (s.checkFault w idx perLane acc c l).stored = s.stored := by
  unfold State.checkFault
  exact s.stored_ite (s.stored_pageFault ..) (s.stored_fault ..)

theorem State.stored_granted {perLane : Bool} {acc : Acc} {l : List (Nat × Nat × Nat × TRes)}
    {go : List (Nat × Nat × Nat × TRes) → State → State} (hgo : ∀ l s, (go l s).stored = s.stored) :
    (s.granted perLane acc l go).stored = s.stored := by
  unfold State.granted
  have hfar : (if l.any (fun p => p.2.2.2.isFar) = true then { s with fresh := s.fresh + 1 } else s).stored = s.stored := s.stored_ite rfl rfl
  exact s.stored_ite ((State.stored_checkFault ..).trans hfar) ((hgo _ _).trans ((State.stored_tlbUses ..).trans hfar))

theorem State.stored_access {perLane : Bool} {acc : Acc} {rqt : Rqt} {width : Nat} {lanes : List (Nat × Nat)}
    {go : List (Nat × Nat × Nat × TRes) → State → State} (hgo : ∀ l s, (go l s).stored = s.stored) :
    (s.access perLane acc rqt width lanes go).stored = s.stored := by
  have hwalk : ∀ l : List (Nat × Nat × Nat), (l.foldl (fun s p => s.askWalk p.1 p.2.1 p.2.2) s.unmark).stored = s.stored := fun l =>
    (State.stored_foldl _ (f := fun s p => s.askWalk p.1 p.2.1 p.2.2) (fun _ _ => rfl) l).trans (s.stored_modBlk _ _)
  unfold State.access
  dsimp only
  split
  · exact s.stored_ite (s.stored_checkFault ..) (hwalk _)
  · exact s.stored_ite (s.stored_granted hgo) (hwalk _)

/-! Loads, stores and atomics. -/

@[simp] theorem State.stored_l1Use (d c line way : Nat) : (s.l1Use d c line way).stored = s.stored := s.stored_modCore ..

@[simp] theorem State.stored_l1Hit (x : L1Line) : (s.l1Hit x).stored = s.stored := by
  unfold State.l1Hit
  split
  · exact s.stored_ite (by simp) (s.stored_ite (by simp [State.startWrap]) (by simp [State.setPts]))
  · simp

@[simp] theorem State.stored_readLine (w idx space line : Nat) (ws : List Nat) (rqt : Rqt) (ord : Ord) (scope : Scope) :
    (s.readLine w idx space line ws rqt ord scope).stored = s.stored := by
  unfold State.readLine
  dsimp only
  split <;> simp [State.gotWords, State.addReqs]

@[simp] theorem State.stored_startLoad (m : MFields) (kind : PKind) (width : Nat) (l : List (Nat × Nat × Nat × TRes)) :
    (s.startLoad m kind width l).stored = s.stored := by
  have hask : ∀ (o : Option Nat) (u : State) (idx : Nat), (match o with
      | some va => u.askRemote idx m va
      | none => u).stored = u.stored := fun o u idx => by cases o <;> rfl
  unfold State.startLoad
  dsimp only
  split
  · exact (hask _ _ _).trans (s.stored_modBlk _ _)
  · exact (State.stored_foldl _ (fun s _ => s.stored_readLine ..) _).trans ((hask _ _ _).trans (s.stored_modBlk _ _))

@[simp] theorem State.stored_bufferStore (m : MFields) (kind : GKind) : (s.bufferStore m kind).stored = s.stored := s.stored_modBlk _ _

@[simp] theorem State.stored_uncountStore : s.uncountStore.stored = s.stored := s.stored_modBlk _ _

theorem State.stored_countStore {go : State → State} (hgo : ∀ s, (go s).stored = s.stored) : (s.countStore go).stored = s.stored := by
  unfold State.countStore
  split
  · rfl
  · exact s.stored_ite (by simp) ((hgo _).trans (s.stored_modBlk _ _))

@[simp] theorem State.stored_nullStore (i : Instr) : (s.nullStore i).stored = s.stored := s.stored_countStore fun s => s.stored_deliverNull i

@[simp] theorem State.stored_fireAtomic (b : Blk) (x : Args) (m : MFields) (op : AtomOp) (acc : Acc) (ret : Bool) :
    (s.fireAtomic b x m op acc ret).stored = s.stored := by
  unfold State.fireAtomic
  dsimp only
  split
  · exact s.stored_fault ..
  · exact (State.stored_uncountStore _).trans (s.stored_access fun l s => s.stored_ite (by simp) (by simp))

@[simp] theorem State.stored_fireSpld (b : Blk) (x : Args) (quad : Bool) (i : Instr) (m : MFields) :
    (s.fireSpld b x quad i m).stored = s.stored := by
  have hdrop : ∀ (u : State) (c : Prop) [Decidable c] (d n : Nat), (if c then u.dropCopies d n else u).stored = u.stored :=
    fun u _ _ _ _ => u.stored_ite rfl rfl
  unfold State.fireSpld
  dsimp only
  split
  · simp
  · split
    · simp
    · simp [hdrop]

@[simp] theorem State.stored_fireSpst (b : Blk) (x : Args) (quad : Bool) (m : MFields) : (s.fireSpst b x quad m).stored = s.stored := by
  unfold State.fireSpst
  dsimp only
  split <;> simp

/-! Engines, timed words and words of the block. -/

@[simp] theorem State.stored_fireBranch (b : Blk) (sel : BranchSel) : (s.fireBranch b sel).stored = s.stored := by
  unfold State.fireBranch
  split <;> simp

theorem State.stored_reservePush {dst : PushDst} {t : State} (h : s.reservePush dst = some t) : t.stored = s.stored := by
  unfold State.reservePush at h
  dsimp only at h
  split at h <;> split at h <;> cases h
  · exact s.stored_modTeam _ fun _ => rfl
  · rfl
  · rfl

@[simp] theorem State.stored_breachIf (w : Nat) (b : Bool) : (s.breachIf w b).stored = s.stored := s.stored_ite (by simp) rfl

theorem State.stored_perfNote {b : Blk} {n : Nat} {op : PerfOp} {go : State → State} (hgo : ∀ s, (go s).stored = s.stored) :
    (s.perfNote b n op go).stored = s.stored := s.stored_ite (by simp) ((hgo _).trans (by simp))

@[simp] theorem State.stored_perfSet (b : Blk) (n : Nat) (op : PerfOp) : (s.perfSet b n op).stored = s.stored :=
  s.stored_ite (by simp) (s.stored_perfNote fun _ => rfl)

end

/-! Words, by the shape of their meaning. -/

section
variable {i : Instr} {s : State}

/-- An outcome whose next state has what `s` stores. -/
def Unstored (s : State) (o : Out) : Prop := ∀ t, o = .next t → t.stored = s.stored

theorem Unstored.next {t : State} (h : t.stored = s.stored) : Unstored s (.next t) := by
  rintro _ ⟨⟩
  exact h

theorem Unstored.issue {gate : Blk → Bool} {onNull : State → State} {onFire : Blk → Args → State → State}
    (hn : ∀ s, (onNull s).stored = s.stored) (hf : ∀ b x s, (onFire b x s).stored = s.stored) :
    Unstored s (.next (s.issue i gate onNull onFire)) := .next (s.stored_issue hn hf)

theorem Unstored.execValue (lane : Nat) (f : Blk → Args → Token × Token) : Unstored s (execValue i lane f s) :=
  .issue (fun s => s.stored_deliverNull i) fun _ _ _ => by simp

theorem Unstored.execQuiet {f : Blk → Args → State → State} (hf : ∀ b x s, (f b x s).stored = s.stored) : Unstored s (execQuiet i f s) :=
  .issue (fun _ => rfl) hf

theorem State.stored_laneStep (n j : Nat) {step : Nat → State → State} (hs : ∀ a s, (step a s).stored = s.stored) :
    (s.laneStep n j step).stored = s.stored := by
  unfold State.laneStep
  exact (hs _ _).trans (by simp)

theorem Unstored.execSteps {n : Nat} {hazard : State → Blk → Args → Option (Nat × Nat)} {step : Blk → Args → Nat → State → State}
    (hs : ∀ b x j s, (step b x j s).stored = s.stored) : Unstored s (execSteps i n hazard step s) := by
  unfold Machine.execSteps
  refine .next ?_
  split
  · exact s.stored_ite (s.stored_laneStep _ _ (hs _ _)) rfl
  · refine s.stored_issue (fun _ => rfl) fun b x s => ?_
    split
    · exact s.stored_hazard ..
    · exact s.stored_laneStep _ _ (hs _ _)

theorem Unstored.execMatrix {n : Nat} {f : Blk → Args → State → State} (hf : ∀ b x s, (f b x s).stored = s.stored) :
    Unstored s (execMatrix i n f s) := .execSteps fun b x _ s => s.stored_ite (hf b x s) rfl

@[simp] theorem State.stored_onWarp (s : State) (f : Warp → Warp) : (s.onWarp f).stored = s.stored := s.stored_modWarp _ _

@[simp] theorem State.stored_postPoison (s : State) : s.postPoison.stored = s.stored := rfl

@[simp] theorem State.stored_gridAct (s : State) (x : Team) (b : Blk) (base : Nat) (bytes : List Nat) (bad : Bool) (C : List Vec) :
    (s.gridAct x b base bytes bad C).stored = s.stored := by
  unfold State.gridAct
  dsimp only
  refine s.stored_ite ?_ ?_
  · rw [State.stored_postPoison, State.stored_onWarp]
    exact (State.stored_countW ..).trans (s.stored_countW ..)
  · rw [State.stored_onWarp]
    exact (State.stored_countW ..).trans (s.stored_countW ..)

/-- Every word but the two write-backs leaves what is stored. -/
theorem unstored_exec (hw : i.isWord = true) (hc : ∀ h, i ≠ .cachectlWb h ∧ i ≠ .cachectlWbinv h) : Unstored s (exec i s) := by
  cases i with
  | mov | null | kmov | vote | fmtrd | vcmp | vred | vmatch
  | const | consth | sadd | ssub | smul | smulh | sdiv | srem | sand | sor | sxor | sshl | sshr | ssra | smin | smax | lea | scmp | ssel
  | sclz | spopc | kcnt | kff | tkrd | ctxctlTrrd | kand | kor | kxor | kandn
  | vadd | vsub | vmul | vmulh | vmad | vdiv | vrem | vsqrt | vabs | vneg | vmin | vmax | vaddsat | vsubsat | vavg | vabsd | vdot4 | vscale
  | vrint | vgetexp | vclass | vand | vor | vxor | vnot | vshl | vshr | vsra | vrotl | vclz | vpopc | vbrev | vsel | vsplat | vshfl
  | vbcast | vlrot | vcompress | vexpand | vcvt | vdecb | vexp2 | vlog2 | vrcp | vrsqrt | vscan | vaddc | vsubb | vmulw | vencb =>
    exact .execValue _ _
  | nop => exact .execQuiet fun _ _ _ => rfl
  | bro | brx | brv | call | ret | exit | eret => exact .execQuiet fun b _ s => s.stored_fireBranch b _
  | fmtset | bar | tlwait | mmode | stroke | syswr | ctxctlTret | trap | brk => exact .execQuiet fun b x s => s.stored_ite (by simp) (by simp)
  | yield | fence => exact .execQuiet fun b x s => s.stored_defer _
  | cachectlL1inv => exact .execQuiet fun _ _ _ => rfl
  | perfctlCfg | perfctlClr => exact .execQuiet fun b x s => s.stored_perfSet b _ _
  | fan => exact .issue (fun s => by simp) fun _ _ s => by simp
  | sysrd => exact .issue (fun s => s.stored_deliverNull _) fun _ _ s => by simp
  | vsin | vcos => exact .issue (fun s => s.stored_deliverNull _) fun _ _ s => by simp
  | ld | lds => exact .issue (fun s => s.stored_deliverNull _) fun _ _ s => s.stored_access fun l s => s.stored_startLoad ..
  | st | sts =>
    exact .issue (fun s => s.stored_nullStore _) fun _ _ s => s.stored_countStore fun s =>
      (State.stored_uncountStore _).trans (s.stored_access fun l s => s.stored_bufferStore ..)
  | spld | spldq => exact .issue (fun s => s.stored_deliverNull _) fun _ _ s => s.stored_fireSpld ..
  | spst | spstq => exact .issue (fun s => s.stored_nullStore _) fun _ _ s => s.stored_countStore fun s => s.stored_fireSpst ..
  | atom | red => exact .issue (fun s => s.stored_nullStore _) fun _ _ s => s.stored_countStore fun s => s.stored_fireAtomic ..
  | prefetch =>
    refine .issue (fun _ => rfl) fun _ _ s => s.stored_ite rfl ?_
    split
    · exact s.stored_ite rfl (s.stored_ite rfl rfl)
    · rfl
  | tlrd => exact .issue (fun s => s.stored_deliverNull _) fun _ _ s => s.stored_ite (by simp) (by
      exact (State.stored_deliver2 ..).trans (s.stored_noted _ _))
  | push =>
    refine .issue (fun s => s.stored_deliverNull _) fun _ _ s => s.stored_ite (by simp) (s.stored_ite (by simp) ?_)
    split
    · simp
    next hr => simp [s.stored_reservePush hr]
  | tsend =>
    refine .execQuiet fun _ _ s => s.stored_ite (by simp) ?_
    dsimp only
    split
    · simp
    · exact State.stored_breachIf ..
  | trecv =>
    refine .issue (fun s => s.stored_deliverNull _) fun _ _ s => ?_
    dsimp only
    split
    · simp
    · exact s.stored_ite (by simp) (s.stored_ite (by simp) (by simp))
  | perfctlRd => exact .issue (fun s => s.stored_deliverNull _) fun _ _ s => s.stored_perfNote fun s => by simp
  | mzero => exact .execMatrix fun _ _ s => s.stored_onWarp _
  | mma | mmar =>
    dsimp only [exec, execMma, execMmar]
    refine .execSteps fun _ _ _ s => ?_
    exact s.stored_gridAct ..
  | mmax | mexp | mrescale =>
    dsimp only [exec, execMmax, execMexp, execMrescale]
    refine .execMatrix fun _ _ s => ?_
    exact s.stored_ite (by simp) (by simp)
  | mld =>
    dsimp only [exec, execMld]
    refine .execSteps fun _ _ _ s => ?_
    refine State.stored_ite _ ((State.stored_postPoison _).trans ?_) ?_ <;>
      exact (State.stored_countW ..).trans (s.stored_onWarp _)
  | mst =>
    dsimp only [exec, execMst]
    refine .execSteps fun _ _ _ s => ?_
    exact s.stored_ite rfl (by simp)
  | hint => exact .next rfl
  | cachectlWb h => exact absurd rfl (hc h).1
  | cachectlWbinv h => exact absurd rfl (hc h).2
  | _ => cases hw

/-- Settles O34: `unstored_exec`, read for each of the three parts. -/
theorem wordsWriteNoMemory : Obligations.WordsWriteNoMemory := by
  unfold Obligations.WordsWriteNoMemory
  intro i s t hw hc ht
  have h := unstored_exec hw hc t ht
  simp only [State.stored, Prod.mk.injEq] at h
  exact h

end

end Sys2Proof.Machine
end

section
/-! How a block starts (R36), once the acquires that its warp owes are made (R272). -/

namespace Sys2Proof.Machine

/-- `t` has the warps and the memory of `s`. -/
def State.SameWarps (s t : State) : Prop := t.warps = s.warps ∧ t.mem = s.mem

section
variable {s t u : State}

theorem State.SameWarps.refl (s : State) : s.SameWarps s := ⟨rfl, rfl⟩

theorem State.SameWarps.trans (h : s.SameWarps t) (g : t.SameWarps u) : s.SameWarps u := ⟨g.1.trans h.1, g.2.trans h.2⟩

/-- A change that may be made or not. -/
theorem State.SameWarps.apply {f : State → State} (hf : ∀ s : State, s.SameWarps (f s)) (s : State) (c : Prop) [Decidable c] :
    s.SameWarps (if c then f s else s) := by
  split
  · exact hf s
  · exact .refl s

theorem State.sameWarps_setPts (s : State) (d c pts : Nat) : s.SameWarps (s.setPts d c pts) := by
  unfold State.setPts
  exact ⟨by simp, by simp⟩

theorem State.sameWarps_clockAcquire (s : State) (d c : Nat) : s.SameWarps (s.clockAcquire d c) := s.sameWarps_setPts d c _

theorem State.sameWarps_ackCore (s : State) (d c : Nat) : s.SameWarps (s.ackCore d c) := by
  have hack : ∀ (s : State) (r : DReq), s.SameWarps (s.ackReq r) := fun s r =>
    .trans ⟨rfl, rfl⟩ (State.sameWarps_setPts _ _ _ _)
  exact ⟨foldl_field State.warps _ (fun s r => (hack s r).1) _ _, foldl_field State.mem _ (fun s r => (hack s r).2) _ _⟩

/-- `t` is `s` as far as memory and warps go, but that warp `w` parks otherwise. -/
def State.Reparks (w : Nat) (s t : State) : Prop :=
  t.mem = s.mem ∧ ∃ f : Warp → Park, t.warps = s.warps.modify w fun x => { x with park := f x }

theorem State.SameWarps.reparks (h : s.SameWarps t) (w : Nat) : s.Reparks w t :=
  ⟨h.2, Warp.park, h.1.trans (List.modify_id w s.warps).symm⟩

theorem State.reparks_modWarp (s : State) (w : Nat) (f : Warp → Park) : s.Reparks w (s.modWarp w fun x => { x with park := f x }) :=
  ⟨rfl, f, rfl⟩

theorem State.Reparks.trans {w : Nat} (h : s.Reparks w t) (g : t.Reparks w u) : s.Reparks w u := by
  obtain ⟨hm, f, hf⟩ := h
  obtain ⟨hm', f', hf'⟩ := g
  refine ⟨hm'.trans hm, fun x => f' { x with park := f x }, ?_⟩
  rw [hf', hf, List.modify_modify_eq]
  rfl

theorem State.Reparks.length {w : Nat} (h : s.Reparks w t) : t.warps.length = s.warps.length := by
  obtain ⟨-, f, hf⟩ := h
  rw [hf, List.length_modify]

/-- What the warp keeps. -/
theorem State.Reparks.warp {w : Nat} (h : s.Reparks w t) : ∃ q, t.warp w = { s.warp w with park := q } := by
  obtain ⟨-, f, hf⟩ := h
  unfold State.warp
  rw [hf]
  by_cases hw : w < s.warps.length
  · exact ⟨_, getD_modify_self hw _ _⟩
  · have hnone : ∀ l : List Warp, l.length = s.warps.length → l.getD w default = default := fun l hl =>
      List.getD_eq_default _ _ (by omega)
    rw [hnone _ (List.length_modify ..), hnone _ rfl]
    exact ⟨_, rfl⟩

/-- Paying an acquire reparks the warp. -/
theorem State.reparks_payAcquire (s : State) (w : Nat) : s.Reparks w (s.payAcquire w) := by
  unfold State.payAcquire
  split
  · exact (State.SameWarps.refl s).reparks w
  next sc _ =>
    refine (s.reparks_modWarp w fun x => { x.park with acq := none }).trans (State.SameWarps.reparks ?_ w)
    exact (State.SameWarps.apply (f := fun u => u.dropThrough (s.place w).die (s.place w).core) (fun _ => ⟨rfl, rfl⟩) _ _).trans
      (State.SameWarps.apply (f := fun u => u.clockAcquire (s.place w).die (s.place w).core) (fun u => u.sameWarps_clockAcquire _ _) _ _)

/-- An acquire that a warp owes once its stores have drained. -/
theorem State.reparks_drained (s : State) (w : Nat) (sc : Scope) (c : Prop) [Decidable c] : s.Reparks w
    (((if c then s.dropCopies (s.place w).die (s.place w).core else s).acquire w sc).modWarp w
      fun x => { x with park := { x.park with drain := none } }) :=
  ((State.SameWarps.apply (f := fun u => u.dropCopies (s.place w).die (s.place w).core) (fun _ => ⟨rfl, rfl⟩) s c).reparks w).trans
    ((State.reparks_modWarp _ w _).trans (State.reparks_modWarp _ w fun x => { x.park with drain := none }))

/-- The acquires before a block change how its warp is parked, and nothing else of warps or memory. -/
theorem State.reparks_acquires {w : Nat} (h : s.acquires w = some u) : s.Reparks w u := by
  obtain ⟨v, hv, hu⟩ : ∃ v, s.Reparks w v ∧ (if (v.warp w).park.acq.isNone then some v else
      let s' := v.ackCore (s.place w).die (s.place w).core
      if !s'.acquireWraps w then some (s'.payAcquire w)
      else if (s'.launchOf w).timed then
        some (((s'.dropCopies (s.place w).die (s.place w).core).modWarp w fun x => { x with park := { x.park with acq := none } }).startWrap
          (s.place w).die)
      else none) = some u := by
    unfold State.acquires at h
    cases hd : (s.warp w).park.drain with
    | none =>
      simp only [hd] at h
      exact ⟨s, (State.SameWarps.refl s).reparks w, h⟩
    | some q =>
      simp only [hd] at h
      exact ⟨_, s.reparks_drained w q.1 (Scope.quadUp q.1 = true), h⟩
  refine hv.trans ?_
  have hack := (v.sameWarps_ackCore (s.place w).die (s.place w).core).reparks w
  dsimp only at hu
  split at hu
  · exact Option.some.inj hu ▸ (State.SameWarps.refl v).reparks w
  · split at hu
    · exact Option.some.inj hu ▸ hack.trans (State.reparks_payAcquire _ w)
    · split at hu
      · exact Option.some.inj hu ▸ hack.trans ⟨rfl, fun x => { x.park with acq := none }, rfl⟩
      · cases hu

end

end Sys2Proof.Machine
end

section
/-! A block that starts: its read slots deliver (R36). -/

namespace Sys2Proof.Machine

/-! What a target has received. -/

/-- What a target of a block has received. -/
def Blk.got? (b : Blk) (t : Target) : Option Token :=
  match t with
  | .none => none
  | .opnd i sl => b.opnd? i.toNat sl
  | .out n => b.out? n.toNat

theorem Blk.open_iff (b : Blk) (t : Target) : b.open t = true ↔ b.got? t = none := by
  cases t <;> simp [Blk.open, Blk.got?]

theorem Blk.got?_give_self (b : Blk) {t : Target} (h : t ≠ .none) (v : Token) : (b.give t v).got? t = some v := by
  cases t with
  | none => exact absurd rfl h
  | opnd i sl => simp [Blk.give, Blk.got?, Blk.opnd?]
  | out n => simp [Blk.give, Blk.got?, Blk.out?]

theorem Blk.got?_give_ne (b : Blk) {t u : Target} (h : t = u → t = .none) (v : Token) : (b.give t v).got? u = b.got? u := by
  cases t with
  | none => rfl
  | opnd i sl =>
    cases u with
    | none => rfl
    | out n => rfl
    | opnd j sm =>
      have hd : ¬ (i.toNat = j.toNat ∧ sl = sm) := fun ⟨e, e'⟩ => by
        cases BitVec.toNat_inj.mp e
        cases e'
        cases h rfl
      exact congrArg (Option.map _) (List.find?_cons_of_neg (by simpa using hd))
  | out n =>
    cases u with
    | none => rfl
    | opnd j sm => rfl
    | out m =>
      have hd : ¬ n.toNat = m.toNat := fun e => by
        cases BitVec.toNat_inj.mp e
        cases h rfl
      exact congrArg (Option.map _) (List.find?_cons_of_neg (by simpa using hd))

/-- Values for targets, one after the other. -/
def Blk.giveAll (b : Blk) (l : List (Target × Token)) : Blk := l.foldl (fun b p => b.give p.1 p.2) b

/-- Each target but `none` is named once. -/
def NamedOnce (l : List (Target × Token)) : Prop := l.Pairwise fun p q => p.1 = q.1 → p.1 = .none

/-- Deliveries change only what has been received. -/
theorem Blk.giveAll_only (b : Blk) (l : List (Target × Token)) : ∃ o p, b.giveAll l = { b with ops := o, outs := p } := by
  induction l generalizing b with
  | nil => exact ⟨b.ops, b.outs, rfl⟩
  | cons q l ih =>
    obtain ⟨o, p, h⟩ := ih (b.give q.1 q.2)
    refine ⟨o, p, h.trans ?_⟩
    cases q.1 <;> rfl

theorem Blk.got?_giveAll_ne {t : Target} {l : List (Target × Token)} (h : ∀ p ∈ l, p.1 = t → p.1 = .none) (b : Blk) :
    (b.giveAll l).got? t = b.got? t := by
  induction l generalizing b with
  | nil => rfl
  | cons p l ih =>
    obtain ⟨hp, hl⟩ := List.forall_mem_cons.mp h
    exact (ih hl _).trans (b.got?_give_ne hp p.2)

/-- What a target that is named once has received. -/
theorem Blk.got?_giveAll {t : Target} {v : Token} {l : List (Target × Token)} (hn : NamedOnce l) (hm : (t, v) ∈ l) (ht : t ≠ .none) (b : Blk) :
    (b.giveAll l).got? t = some v := by
  induction l generalizing b with
  | nil => exact absurd hm List.not_mem_nil
  | cons p l ih =>
    obtain ⟨hp, hl⟩ := List.pairwise_cons.mp hn
    rcases List.mem_cons.mp hm with rfl | hm
    · change ((b.give t v).giveAll l).got? t = some v
      rw [Blk.got?_giveAll_ne (fun q hq he => absurd (hp q hq he.symm) ht), b.got?_give_self ht v]
    · exact ih hl hm _

/-- Delivery to open targets, each named once, fills them and changes nothing else (R42). -/
theorem State.deliver_giveAll (w p : Nat) {l : List (Target × Token)} (hn : NamedOnce l) {s : State} {b : Blk} (hb : s.blk? w = some b)
    (ho : ∀ q ∈ l, b.open q.1 = true) :
    l.foldl (fun s q => s.deliver w p q.1 q.2) s = s.modBlk w fun b => b.giveAll l := by
  induction l generalizing s b with
  | nil => exact (s.deliver_none w p .null).symm.trans (s.deliver_open w p .none .null b hb rfl)
  | cons q l ih =>
    obtain ⟨hq, hl⟩ := List.pairwise_cons.mp hn
    obtain ⟨hopen, hrest⟩ := List.forall_mem_cons.mp ho
    rw [List.foldl_cons, s.deliver_open w p q.1 q.2 b hb hopen,
      ih hl (s.blk?_modBlk w _ b hb) fun r hr => b.open_give q.1 r.1 q.2 (hrest r hr) (hq r hr), State.modBlk_modBlk]
    rfl

/-! The read slots of an image. -/

/-- The target that ten bits name. -/
def target? (t : BitVec 10) : Option Target := match decTarget t with
  | .ok u => some u
  | .error _ => none

theorem target?_eq_some {t : BitVec 10} {u : Target} (h : decTarget t = .ok u) : target? t = some u := by
  unfold target?
  rw [h]

/-- What the read slots of an image deliver. -/
def Img.values (m : Img) (x : Warp) : List (Target × Token) :=
  m.reads.flatMap fun r => ([r.t0, r.t1].filterMap target?).map fun t => (t, x.readSlot r)

/-- The block that an image starts on warp `w`, before its read slots deliver. -/
def State.newBlk (s : State) (w : Nat) (m : Img) : Blk :=
  let x := s.warp w
  { num := x.next, cls := m.cls, words := m.ins,
    wr := m.writes.map fun q => if q.val then some (q.cls, q.reg) else none, nst := m.nst,
    sprange := (256 * m.spbase, 256 * m.splen), live0 := x.live, fmt0 := x.fmt, mreg0 := x.mreg,
    start := s.localTick (s.place w).die, hints := m.issueHints,
    groups := ((m.ins.filter fun i => wOpc i == 0x18E).map fun i => fld i 49 4).dedup.map fun g =>
      (g, (List.range 8).map fun i => x.s.getD (8 * g + i) 0),
    win := m.windowIns (winReg x.mreg), flawed := m.stalls || (m.windowFlaw (m.windowIns (winReg x.mreg))).isSome }

theorem State.startBlock_delivers {s : State} {w : Nat} {m : Img}
    (hp : readsPoison (s.warp w) m ((m.ins.filter fun i => wOpc i == 0x18E).map fun i => fld i 49 4) = false) :
    s.startBlock w m = (m.values (s.warp w)).foldl (fun u p => u.deliver w 255 p.1 p.2)
      (s.modWarp w fun x => { x with blk := some (s.newBlk w m) }) := by
  unfold State.startBlock
  dsimp only
  rw [hp, if_neg Bool.false_ne_true, Img.values, List.foldl_flatMap]
  congr 1
  funext u r
  rw [List.foldl_map, List.foldl_filterMap]
  congr 1
  funext u t
  unfold target?
  cases decTarget t <;> rfl

theorem Img.mem_values {m : Img} {x : Warp} {r : RSlot} (hr : r ∈ m.reads) {u : BitVec 10} (hu : u ∈ [r.t0, r.t1]) {t : Target}
    (ht : decTarget u = .ok t) : (t, x.readSlot r) ∈ m.values x :=
  List.mem_flatMap.mpr ⟨r, hr, List.mem_map.mpr ⟨t, List.mem_filterMap.mpr ⟨u, hu, target?_eq_some ht⟩, rfl⟩⟩

/-- The targets of the read slots, but `none`. -/
def someTarget? (t : BitVec 10) : Option Target := match decTarget t with
  | .ok .none => none
  | .ok u => some u
  | .error _ => none

theorem someTarget?_eq (t : BitVec 10) : someTarget? t = (target? t).bind fun u => if u = .none then none else some u := by
  unfold someTarget? target?
  cases decTarget t with
  | error e => rfl
  | ok u => cases u <;> rfl

theorem Img.namedOnce_values {m : Img} (x : Warp) (h : ((m.reads.flatMap fun r => [r.t0, r.t1]).filterMap someTarget?).Nodup) :
    NamedOnce (m.values x) := by
  have hmap : (m.values x).map Prod.fst = (m.reads.flatMap fun r => [r.t0, r.t1]).filterMap target? := by
    simp only [Img.values, List.map_flatMap, List.map_map, Function.comp_def, List.map_id', List.filterMap_flatMap]
  have hsome : ((m.values x).map Prod.fst).filterMap (fun u => if u = .none then none else some u) =
      (m.reads.flatMap fun r => [r.t0, r.t1]).filterMap someTarget? := by
    rw [hmap, List.filterMap_filterMap]
    exact congrArg (List.filterMap · _) (funext fun t => (someTarget?_eq t).symm)
  rw [← hsome, List.Nodup, List.pairwise_filterMap, List.pairwise_map] at h
  refine h.imp fun {p q} hpq he => ?_
  by_contra hp
  exact hpq p.1 (if_neg hp) q.1 (if_neg (he ▸ hp)) he

/-- What a block starts with whose read slots deliver to targets named once. -/
theorem State.startBlock_only {s : State} {w : Nat} {m : Img} (hw : w < s.warps.length)
    (hp : readsPoison (s.warp w) m ((m.ins.filter fun i => wOpc i == 0x18E).map fun i => fld i 49 4) = false)
    (hn : NamedOnce (m.values (s.warp w))) :
    s.startBlock w m = s.modWarp w fun x => { x with blk := some ((s.newBlk w m).giveAll (m.values (s.warp w))) } := by
  have hb : (s.modWarp w fun x => { x with blk := some (s.newBlk w m) }).blk? w = some (s.newBlk w m) := by
    rw [State.blk?_eq_warp, State.warp_modWarp, if_pos ⟨rfl, hw⟩]
  rw [State.startBlock_delivers hp, State.deliver_giveAll w 255 hn hb fun p _ => by rw [Blk.open_iff]; cases p.1 <;> rfl]
  unfold State.modBlk State.modWarp
  simp only [List.modify_modify_eq]
  rfl

/-! The fetch. -/

theorem State.lt_of_mayFetch {s : State} {w : Nat} (h : s.mayFetch w = true) : w < s.warps.length := by
  by_contra hn
  have hd : s.warp w = default := List.getD_eq_default _ _ (Nat.le_of_not_lt hn)
  simp only [State.mayFetch, Bool.and_eq_true, hd] at h
  exact absurd h.1.1.1.1.1.2 (by decide)

/-- A fetch that may not be made, or that a refresh holds up, changes nothing. -/
theorem execBlockFetch_waits {s : State} {w : Nat} (h : s.mayFetch w = false ∨ s.fetchHeld w = true) : exec (.blockFetch w) s = .next s :=
  congrArg Host.Outcome.next (if_pos (by rcases h with h | h <;> simp [h]))

/-- What is done with the next block of a warp that owes nothing. -/
def State.fetchNext (s : State) (w : Nat) : State :=
  match s.readImage w (s.warp w).next with
  | .bad f p => if f.code = 3 then s.pageFault w f p else s.fault w f
  | .got m e => match s.imageCheck w m e with
    | some f => ({ s with fresh := s.fresh + 1 }).fault w f
    | none => s.startBlock w m

section
variable {s u : State} {w : Nat}

/-- What a fetch does once the acquires are made. -/
theorem execBlockFetch_acquired (hmay : s.mayFetch w = true) (hheld : s.fetchHeld w = false) (hacq : s.acquires w = some u) :
    exec (.blockFetch w) s = .next (if (s.warp w).timed.owesMiss then
      (u.modWarp w fun x => { x with timed := { x.timed with owesMiss := false } }).fault w { code := 10, fetch := true }
    else u.refill w (fun u => u.fetchNext w) (maxDepth + 1)) := by
  obtain ⟨q, hq⟩ := (State.reparks_acquires hacq).warp
  have hgo : (!s.mayFetch w || s.fetchHeld w) = false := by simp [hmay, hheld]
  have howes : (s.warp w).timed.owesMiss = (u.warp w).timed.owesMiss := by rw [hq]
  refine congrArg Host.Outcome.next ((if_neg (Bool.eq_false_iff.mp hgo)).trans ?_)
  rw [hacq, howes]
  rfl

/-- What it does where no failed copy is owed and nothing spilled is to be read back. -/
theorem execBlockFetch_reads (hmay : s.mayFetch w = true) (hheld : s.fetchHeld w = false) (hacq : s.acquires w = some u)
    (howes : (s.warp w).timed.owesMiss = false) (hrefill : (s.warp w).refill = .none) :
    exec (.blockFetch w) s = .next (u.fetchNext w) := by
  obtain ⟨q, hq⟩ := (State.reparks_acquires hacq).warp
  have hu : (u.warp w).refill = .none := by rw [hq]; exact hrefill
  rw [execBlockFetch_acquired hmay hheld hacq, howes, if_neg Bool.false_ne_true, State.refill, hu]

end

/-- Settles O36: the acquires change how the warp is parked only, and each read slot fills its targets. -/
theorem blockStartsAndStalls : Obligations.BlockStartsAndStalls := by
  unfold Obligations.BlockStartsAndStalls
  refine ⟨?_, ?_, fun s w h => execBlockFetch_waits h, ?_⟩
  · intro s u w m e hmay hheld hacq howes hrefill himg hchk hpoison hnodup
    have hre := State.reparks_acquires hacq
    obtain ⟨q, hq⟩ := hre.warp
    have hw : w < u.warps.length := hre.length ▸ State.lt_of_mayFetch hmay
    have hp : readsPoison (u.warp w) m ((m.ins.filter fun i => wOpc i == 0x18E).map fun i => fld i 49 4) = false := by
      rw [hq]
      exact hpoison
    have hn : NamedOnce (m.values (u.warp w)) := Img.namedOnce_values _ hnodup
    have hstart : u.fetchNext w = u.startBlock w m := by
      have hnext : (u.warp w).next = (s.warp w).next := by rw [hq]
      unfold State.fetchNext
      rw [hnext, himg]
      dsimp only
      rw [hchk]
    have hread : ∀ r, (u.warp w).readSlot r = (s.warp w).readSlot r := fun r => by rw [hq]; rfl
    have hgot : ∀ r ∈ m.reads, ∀ t ∈ [r.t0, r.t1], ∀ v, decTarget t = .ok v → v ≠ .none →
        ((u.newBlk w m).giveAll (m.values (u.warp w))).got? v = some ((s.warp w).readSlot r) := fun r hr t ht v hv hne =>
      hread r ▸ Blk.got?_giveAll hn (Img.mem_values hr ht hv) hne _
    have ht : (u.startBlock w m).warp w = { u.warp w with blk := some ((u.newBlk w m).giveAll (m.values (u.warp w))) } := by
      rw [State.startBlock_only hw hp hn, State.warp_modWarp, if_pos ⟨rfl, hw⟩]
    have hmem : (u.startBlock w m).mem = s.mem := (congrArg State.mem (State.startBlock_only hw hp hn)).trans hre.1
    obtain ⟨o, p, hb⟩ := (u.newBlk w m).giveAll_only (m.values (u.warp w))
    refine ⟨_, (u.newBlk w m).giveAll (m.values (u.warp w)), (execBlockFetch_reads hmay hheld hacq howes hrefill).trans
      (congrArg Host.Outcome.next hstart), by rw [State.blk?_eq_warp, ht], ?_⟩
    have hval : ∀ r ∈ m.reads, ∀ t ∈ [r.t0, r.t1],
        (∀ i sl, decTarget t = .ok (.opnd i sl) → ((u.newBlk w m).giveAll (m.values (u.warp w))).opnd? i.toNat sl = some ((s.warp w).readSlot r)) ∧
        ∀ n, decTarget t = .ok (.out n) → ((u.newBlk w m).giveAll (m.values (u.warp w))).out? n.toNat = some ((s.warp w).readSlot r) :=
      fun r hr t ht => ⟨fun _ _ hv => hgot r hr t ht _ hv Target.noConfusion, fun _ hv => hgot r hr t ht _ hv Target.noConfusion⟩
    have hregs : ((u.startBlock w m).warp w).regs = (s.warp w).regs := by rw [ht, hq]; rfl
    refine ⟨?_, ?_, ?_, ?_, ?_, ?_, ?_, ?_, ?_, ?_, hregs, hmem, hval⟩
    all_goals rw [hb]
    · exact (congrArg Warp.next hq :)
    · rfl
    · rfl
    · rfl
    · exact (congrArg Warp.live hq :)
    · exact (congrArg Warp.fmt hq :)
    · exact (congrArg Warp.mreg hq :)
    · rfl
    · rfl
    · rfl
  · intro x r
    exact ⟨fun h => by simp [Warp.readSlot, h], fun h => by simp [Warp.readSlot, h], fun h => by simp [Warp.readSlot, h],
      fun h => ⟨fun hr => by simp [Warp.readSlot, h, hr], fun hr => by simp [Warp.readSlot, h, hr], fun hr => by simp [Warp.readSlot, h, hr]⟩⟩
  · intro s w b hs hb hq hc
    refine ⟨s.faultAt w 255 1 32, congrArg Host.Outcome.next ?_, State.parkedOn_fault hs (State.blk?_isSome_lt hb) _⟩
    rw [hb]
    exact if_pos (by simp [hq, hc])

end Sys2Proof.Machine
end

section
/-! The checks at fetch (R420, Table 3-15): which row fails first. -/

namespace Sys2Proof.Machine

/-- What `firstRow` keeps of the rows it has seen. -/
def lowerRow (m : Option Nat) (x : Nat) : Option Nat := match m with
  | none => some x
  | some y => some (min x y)

theorem foldl_lowerRow {l : List Nat} {y : Nat} : ∃ r, l.foldl lowerRow (some y) = some r ∧ r ∈ y :: l ∧ ∀ q ∈ y :: l, r ≤ q := by
  induction l generalizing y with
  | nil => exact ⟨y, rfl, List.mem_singleton_self y, fun q hq => (List.mem_singleton.mp hq).ge⟩
  | cons x l ih =>
    obtain ⟨r, hr, hm, hle⟩ := ih (y := min x y)
    obtain ⟨hmin, hl⟩ := List.forall_mem_cons.mp hle
    refine ⟨r, hr, ?_, List.forall_mem_cons.mpr ⟨hmin.trans (min_le_right x y), List.forall_mem_cons.mpr ⟨hmin.trans (min_le_left x y), hl⟩⟩⟩
    rcases List.mem_cons.mp hm with rfl | hm
    · rcases min_choice x y with h | h <;> simp [h]
    · simp [hm]

theorem firstRow_eq_none {l : List Nat} : firstRow l = none ↔ l = [] := by
  cases l with
  | nil => exact ⟨fun _ => rfl, fun _ => rfl⟩
  | cons y l =>
    obtain ⟨r, hr, -⟩ := foldl_lowerRow (l := l) (y := y)
    exact ⟨fun h => absurd (hr.symm.trans h) (by simp), fun h => absurd h (by simp)⟩

/-- The first failing row is the least. -/
theorem firstRow_iff (l : List Nat) (r : Nat) : firstRow l = some r ↔ r ∈ l ∧ ∀ q ∈ l, r ≤ q := by
  cases l with
  | nil => exact ⟨fun h => (by cases h), fun h => absurd h.1 List.not_mem_nil⟩
  | cons y l =>
    obtain ⟨t, ht, hm, hle⟩ := foldl_lowerRow (l := l) (y := y)
    have hf : firstRow (y :: l) = some t := ht
    rw [hf, Option.some.injEq]
    exact ⟨fun h => h ▸ ⟨hm, hle⟩, fun ⟨hr, hrle⟩ => le_antisymm (hle r hr) (hrle t hm)⟩

theorem firstRow_le {l : List Nat} {x : Nat} (h : x ∈ l) : ∃ q, firstRow l = some q ∧ q ∈ l ∧ q ≤ x := by
  obtain ⟨q, hq⟩ : ∃ q, firstRow l = some q := Option.ne_none_iff_exists'.mp fun hn => by
    rw [firstRow_eq_none.mp hn] at h
    exact List.not_mem_nil h
  obtain ⟨hm, hle⟩ := (firstRow_iff l q).mp hq
  exact ⟨q, hq, hm, hle x h⟩

/-! The rows of an image whose magic is right and whose slots are few enough. -/

/-- The rows of an image that depend on more than its magic and its slot counts. -/
def Img.bodyRows (m : Img) (vregs : Nat) (bars : BitVec 32) (coresident : Bool) (preloads : Nat) (mreg : Word) : List Nat :=
  m.slotRows preloads ++ m.insRows ++ m.launchRows vregs bars coresident ++
    (if m.cls == 1 && decide (16384 < m.length (winReg mreg)) then [27] else [])

/-- No row of a list is row 0 or row 1. -/
def FromTwo (l : List Nat) : Prop := ∀ q ∈ l, 2 ≤ q

theorem FromTwo.append {l r : List Nat} (hl : FromTwo l) (hr : FromTwo r) : FromTwo (l ++ r) := fun q hq =>
  (List.mem_append.mp hq).elim (hl q) (hr q)

theorem FromTwo.ite {c : Prop} [Decidable c] {x : Nat} (hx : 2 ≤ x) : FromTwo (if c then [x] else []) := by
  split
  · exact fun q hq => (List.mem_singleton.mp hq).symm ▸ hx
  · exact fun q hq => absurd hq List.not_mem_nil

theorem FromTwo.ite' {c : Prop} [Decidable c] {x : Nat} (hx : 2 ≤ x) : FromTwo (if c then [] else [x]) := by
  split
  · exact fun q hq => absurd hq List.not_mem_nil
  · exact fun q hq => (List.mem_singleton.mp hq).symm ▸ hx

theorem FromTwo.nil : FromTwo [] := fun _ hq => absurd hq List.not_mem_nil

theorem FromTwo.singleton {x : Nat} (hx : 2 ≤ x) : FromTwo [x] := fun _ hq => (List.mem_singleton.mp hq).symm ▸ hx

theorem FromTwo.flatMap {α : Type} {l : List α} {f : α → List Nat} (h : ∀ x, FromTwo (f x)) : FromTwo (l.flatMap f) := fun q hq => by
  obtain ⟨x, -, hx⟩ := List.mem_flatMap.mp hq
  exact h x q hx

theorem two_le_decodeErrRow (e : DecodeErr) : 2 ≤ e.row := by cases e <;> decide

theorem fromTwo_entryRows (e : Word) : FromTwo (entryRows e) := .append (.ite (by decide)) (.ite (by decide))

theorem Img.fromTwo_slotRows (m : Img) (p : Nat) : FromTwo (m.slotRows p) := by
  unfold Img.slotRows
  refine .append (.append (.append (.append (.append (.append (.ite (by decide)) (.ite (by decide))) ?_) (.ite (by decide))) ?_) (.ite (by decide)))
    (.ite (by decide))
  · refine .flatMap fun r => .append (.append (.append (.ite (by decide)) (.ite (by decide))) (.ite (by decide))) (.flatMap fun t => ?_)
    split
    · exact .nil
    · exact .singleton (two_le_decodeErrRow _)
  · exact .flatMap fun w => .append (.ite (by decide)) (.ite (by decide))

theorem Img.fromTwo_linkRow (m : Img) (l : Link) : FromTwo (m.linkRow l) := by
  have hs : ∀ d : Option Shape, FromTwo (match l.sh, d with
      | some x, some y => if x = y then [] else [15]
      | _, _ => []) := fun d => by
    split
    · exact .ite' (by decide)
    · exact .nil
  unfold Img.linkRow
  dsimp only
  split
  · exact .nil
  · split
    · split
      · exact hs _
      · exact .singleton (by decide)
    · exact .singleton (by decide)
  · split
    · exact .singleton (by decide)
    · split
      · exact .nil
      · split
        · exact .singleton (by decide)
        · exact hs _

theorem Img.fromTwo_bodyRows (m : Img) (vregs : Nat) (bars : BitVec 32) (co : Bool) (p : Nat) (mreg : Word) :
    FromTwo (m.bodyRows vregs bars co p mreg) := by
  unfold Img.bodyRows
  refine .append (.append (.append (m.fromTwo_slotRows p) ?_) (.append (.ite (by decide)) (.ite (by decide)))) (.ite (by decide))
  unfold Img.insRows
  refine .append (.append (.append (.append (.append (.append (.append (.append (.ite (by decide)) (.ite (by decide))) (.ite (by decide)))
    (.flatMap fun w => ?_)) (.flatMap fun l => m.fromTwo_linkRow l)) (.ite (by decide))) (.ite (by decide))) (.ite (by decide)))
    (.ite' (by decide))
  split
  · exact .nil
  · exact .singleton (two_le_decodeErrRow _)

end Sys2Proof.Machine
end

section
/-! What stops a fetch (R420). -/

namespace Sys2Proof.Machine

section
variable {m : Img} {vregs : Nat} {bars : BitVec 32} {co : Bool} {pre : Nat} {mreg : Word}

/-- The magic of an image. -/
def Img.magic (m : Img) : Prop := fld m.h0 60 4 = 0xB ∧ fld m.h0 56 4 = 3

theorem Img.fetchRow_badMagic (h : ¬ m.magic) : m.fetchRow vregs bars co pre mreg = some 1 :=
  if_pos (by simpa [Img.magic, imp_iff_not_or] using h)

theorem Img.fetchRow_magic (h : m.magic) : m.fetchRow vregs bars co pre mreg =
    if 16 < m.nrd ∨ 16 < m.nwr then some (if fld m.h0 0 24 != 0 || fld m.h1 0 34 != 0 then 2 else 3)
    else firstRow (m.bodyRows vregs bars co pre mreg) :=
  if_neg (by simp [h.1, h.2])

/-- Too many slots are one of the first three rows. -/
theorem Img.fetchRow_slots (h : 16 < m.nrd ∨ 16 < m.nwr) : ∃ q, m.fetchRow vregs bars co pre mreg = some q ∧ q ≤ 3 := by
  by_cases hm : m.magic
  · rw [Img.fetchRow_magic hm, if_pos h]
    split
    · exact ⟨2, rfl, by decide⟩
    · exact ⟨3, rfl, le_refl 3⟩
  · exact ⟨1, Img.fetchRow_badMagic hm, by decide⟩

/-- A failing row is reported, or one above it. -/
theorem Img.fetchRow_le {x : Nat} (hx : x ∈ m.bodyRows vregs bars co pre mreg) (h3 : 3 ≤ x) :
    ∃ q, m.fetchRow vregs bars co pre mreg = some q ∧ q ≤ x := by
  by_cases hs : 16 < m.nrd ∨ 16 < m.nwr
  · obtain ⟨q, hq, hle⟩ := Img.fetchRow_slots (m := m) hs
    exact ⟨q, hq, hle.trans h3⟩
  · by_cases hm : m.magic
    · rw [Img.fetchRow_magic hm, if_neg hs]
      obtain ⟨q, hq, -, hle⟩ := firstRow_le hx
      exact ⟨q, hq, hle⟩
    · exact ⟨1, Img.fetchRow_badMagic hm, by omega⟩

theorem Img.two_le_fetchRow (hm : m.magic) {q : Nat} (h : m.fetchRow vregs bars co pre mreg = some q) : 2 ≤ q := by
  rw [Img.fetchRow_magic hm] at h
  split at h
  · split at h <;> cases h <;> decide
  · exact m.fromTwo_bodyRows _ _ _ _ _ q ((firstRow_iff _ q).mp h).1

theorem Img.fetchRow_pos {q : Nat} (h : m.fetchRow vregs bars co pre mreg = some q) : 0 < q := by
  by_cases hm : m.magic
  · exact Nat.lt_of_lt_of_le (by decide) (Img.two_le_fetchRow hm h)
  · rw [Img.fetchRow_badMagic hm] at h
    cases h
    decide

/-- Reserved header bits of an image with the right magic are row 2. -/
theorem Img.fetchRow_reserved (hm : m.magic) (h : fld m.h0 0 24 ≠ 0 ∨ fld m.h1 0 34 ≠ 0) : m.fetchRow vregs bars co pre mreg = some 2 := by
  have hb : (fld m.h0 0 24 != 0 || fld m.h1 0 34 != 0) = true := by simpa using h
  rw [Img.fetchRow_magic hm, if_pos hb]
  split
  · rfl
  · refine (firstRow_iff _ 2).mpr ⟨?_, m.fromTwo_bodyRows _ _ _ _ _⟩
    simp [Img.bodyRows, Img.slotRows, hb]

end

section
variable {s : State} {w : Nat} {m : Img} {e : Word}

/-- What the row checks on an image take from its warp's launch and code object. -/
def State.imgRow (s : State) (w : Nat) (m : Img) : Option Nat :=
  m.fetchRow (s.launchOf w).vregs (s.launchOf w).bars (s.launchOf w).coresident
    (match s.objOf w with
      | some o => o.preloads.length
      | none => 0) (s.warp w).mreg

/-- The first failing row of an image and its entry (Tables 3-7 and 3-15). -/
def State.failRow (s : State) (w : Nat) (m : Img) (e : Word) : Option Nat := firstRow (entryRows e ++ (s.imgRow w m).toList)

theorem State.failRow_entry {x : Nat} (h : x ∈ entryRows e) : ∃ q, s.failRow w m e = some q ∧ q ≤ x := by
  obtain ⟨q, hq, -, hle⟩ := firstRow_le (List.mem_append_left (s.imgRow w m).toList h)
  exact ⟨q, hq, hle⟩

theorem State.failRow_image {r : Nat} (h : ∃ q, s.imgRow w m = some q ∧ q ≤ r) : ∃ q, s.failRow w m e = some q ∧ q ≤ r := by
  obtain ⟨x, hx, hle⟩ := h
  obtain ⟨q, hq, -, hqx⟩ := firstRow_le (List.mem_append_right (entryRows e) (show x ∈ (s.imgRow w m).toList by simp [hx]))
  exact ⟨q, hq, hqx.trans hle⟩

theorem State.failRow_pos {q : Nat} (h : s.failRow w m e = some q) : 0 < q := by
  rcases List.mem_append.mp ((firstRow_iff _ q).mp h).1 with hq | hq
  · exact Nat.lt_of_lt_of_le (by decide) (fromTwo_entryRows e q hq)
  · exact Img.fetchRow_pos (Option.mem_toList.mp hq)

/-- The checks on an image that follow the rows (R139, R52, Table 15-2, R354, R178, R179, R181). -/
def State.laterCheck (s : State) (w : Nat) (m : Img) : Option FRec :=
  let x := s.warp w
  let l := s.launchOf w
  let fault (code detail : Nat) : FRec := { code := code, detail := detail, fetch := true }
  if m.cls = 3 ∧ x.trap.on = false ∧ (s.place w).ctx ≠ 0 then some (fault 4 16)
  else if l.timed && m.cls == 0 then some (fault 1 37)
  else if !l.timed && m.cls == 2 then some (fault 1 (fld (Config.freeWord s.fresh) 0 6))
  else if m.cls = 2 ∧ x.live ≠ allLanes then some (fault 1 43)
  else match m.matrixFault x.live x.mreg x.fmt l.vregs with
    | some (c, d) => some (fault c d)
    | none => match if s.umpireOn w then m.windowFlaw (m.windowIns (winReg x.mreg)) else none with
      | some (c, p) => some { fault 16 8 with index := c, aux := BitVec.ofNat 64 (c + 256 * p) }
      | none => (List.range m.nins).findSome? fun k => match m.instr? k with
        | some i => (s.timedCheck w m.cls i).map fun q => { fault q.1 q.2 with index := k }
        | none => none

theorem State.imageCheck_eq (s : State) (w : Nat) (m : Img) (e : Word) : s.imageCheck w m e = match s.failRow w m e with
    | some r => some { code := 1, detail := if r = 27 then 39 else r, fetch := true }
    | none => s.laterCheck w m := rfl

theorem State.imageCheck_row {r : Nat} (h : s.failRow w m e = some r) :
    s.imageCheck w m e = some { code := 1, detail := if r = 27 then 39 else r, fetch := true } := by
  rw [State.imageCheck_eq, h]

theorem State.imageCheck_later (h : s.failRow w m e = none) : s.imageCheck w m e = s.laterCheck w m := by
  rw [State.imageCheck_eq, h]

/-- A row no later than `r` is reported as it is. -/
theorem State.imageCheck_upTo {r : Nat} (h : ∃ q, s.failRow w m e = some q ∧ q ≤ r) (hr : r < 27) :
    ∃ f, s.imageCheck w m e = some f ∧ f.code = 1 ∧ 0 < f.detail ∧ f.detail ≤ r := by
  obtain ⟨q, hq, hle⟩ := h
  have hd : (if q = 27 then 39 else q) = q := if_neg (by omega)
  refine ⟨_, State.imageCheck_row hq, rfl, ?_, ?_⟩
  · rw [hd]
    exact State.failRow_pos hq
  · rw [hd]
    exact hle

/-- A row of the image itself. -/
theorem State.imageCheck_body {r : Nat} (h3 : 3 ≤ r) (hr : r < 27) (h : r ∈ m.bodyRows (s.launchOf w).vregs (s.launchOf w).bars (s.launchOf w).coresident
    (match s.objOf w with
      | some o => o.preloads.length
      | none => 0) (s.warp w).mreg) : ∃ f, s.imageCheck w m e = some f ∧ f.code = 1 ∧ 0 < f.detail ∧ f.detail ≤ r :=
  State.imageCheck_upTo (State.failRow_image (Img.fetchRow_le h h3)) hr

end

/-! The rows that the statement names. -/

section
variable {m : Img} {vregs : Nat} {bars : BitVec 32} {co : Bool} {pre : Nat} {mreg : Word}

theorem Img.mem_bodyRows_slot {r : Nat} (h : r ∈ m.slotRows pre) : r ∈ m.bodyRows vregs bars co pre mreg := by simp [Img.bodyRows, h]
theorem Img.mem_bodyRows_ins {r : Nat} (h : r ∈ m.insRows) : r ∈ m.bodyRows vregs bars co pre mreg := by simp [Img.bodyRows, h]
theorem Img.mem_bodyRows_launch {r : Nat} (h : r ∈ m.launchRows vregs bars co) : r ∈ m.bodyRows vregs bars co pre mreg := by
  simp [Img.bodyRows, h]

theorem length_dedup_ne {α : Type} [DecidableEq α] {l : List α} (h : ¬ l.Nodup) : l.dedup.length ≠ l.length := fun he =>
  h (List.dedup_eq_self.mp ((List.dedup_sublist l).eq_of_length he))

/-- Row 4: fewer store-class instructions than `NST`. -/
theorem Img.row4 (h : (m.ins.filter fun q => opStore (wOpc q)).length < m.nst) : 4 ∈ m.insRows := by
  have hc : ((m.ins.map wOpc).filter opStore).length < m.nst := by
    rw [List.filter_map, List.length_map]
    exact h
  simp [Img.insRows, hc]

/-- Row 9: two write slots of one register. -/
theorem Img.row9 (h : ¬ ((m.writes.filter (·.val)).map fun q => (q.cls, q.reg)).Nodup) : 9 ∈ m.slotRows pre := by
  have hc : (((m.writes.filter (·.val)).map fun q => (q.cls, q.reg)).dedup.length != (m.writes.filter (·.val)).length) = true :=
    bne_iff_ne.mpr fun he => length_dedup_ne h (he.trans (List.length_map _).symm)
  unfold Img.slotRows
  dsimp only
  rw [if_pos hc]
  simp

/-- Row 10: a register above the allocation. -/
theorem Img.row10 (h : (∃ q ∈ m.writes, q.val = true ∧ q.cls = 0 ∧ vregs ≤ q.reg) ∨ (∃ q ∈ m.reads, q.cls = 0 ∧ vregs ≤ q.reg)) :
    10 ∈ m.launchRows vregs bars co := by
  have hc : ((m.reads.any fun r => r.cls == 0 && decide (vregs ≤ r.reg)) ||
      (m.writes.any fun w => w.val && w.cls == 0 && decide (vregs ≤ w.reg))) = true := by
    simp only [Bool.or_eq_true, List.any_eq_true, Bool.and_eq_true, beq_iff_eq, decide_eq_true_eq]
    exact h.symm.imp_right fun ⟨q, hq, hv, hcl, hr⟩ => ⟨q, hq, ⟨hv, hcl⟩, hr⟩
  simp [Img.launchRows, hc]

/-- Row 14: a read slot whose target is an instruction that the block does not have. -/
theorem Img.row14 {r : RSlot} (hr : r ∈ m.reads) {i : BitVec 6} {sl : Slot} (ht : decTarget r.t0 = .ok (.opnd i sl)) (hi : m.nins ≤ i.toNat) :
    14 ∈ m.insRows := by
  have hl : (⟨none, some r.shape, .opnd i sl⟩ : Link) ∈ m.links := by
    refine List.mem_append_left _ (List.mem_flatMap.mpr ⟨r, hr, List.mem_filterMap.mpr ⟨r.t0, List.mem_cons_self, ?_⟩⟩)
    rw [ht]
  have hrow : 14 ∈ m.links.flatMap m.linkRow := List.mem_flatMap.mpr ⟨_, hl, by simp [Img.linkRow, hi]⟩
  unfold Img.insRows
  simp only [List.mem_append, hrow, true_or, or_true]

/-- Row 16: two accesses of one `MSEQ`. -/
theorem Img.row16 (h : ¬ ((m.ins.filter fun q => opM (wOpc q)).map fun q => fld q 24 5).Nodup) : 16 ∈ m.insRows := by
  have hc : (((m.ins.filter fun q => opM (wOpc q)).map fun q => fld q 24 5).dedup.length !=
      ((m.ins.filter fun q => opM (wOpc q)).map fun q => fld q 24 5).length) = true := bne_iff_ne.mpr (length_dedup_ne h)
  unfold Img.insRows
  dsimp only
  rw [hc, Bool.or_true, if_pos rfl]
  simp

/-- Row 21: no branch. -/
theorem Img.row21 (h : ∀ q ∈ m.ins, ¬ (0x40 ≤ wOpc q ∧ wOpc q ≤ 0x45) ∧ wOpc q ≠ 0x1C8) : 21 ∈ m.insRows := by
  have hc : (m.ins.map wOpc).any opBranch = false := by
    rw [List.any_eq_false]
    refine List.forall_mem_map.mpr fun q hq => ?_
    obtain ⟨h1, h2⟩ := h q hq
    simp only [opBranch, Bool.or_eq_true, Bool.and_eq_true, decide_eq_true_eq, beq_iff_eq, not_or]
    exact ⟨h1, h2⟩
  unfold Img.insRows
  dsimp only
  rw [hc]
  simp

end

/-! The checks after the rows. -/

section
variable {s : State} {w : Nat} {m : Img}

theorem State.laterCheck_system (hc : m.cls = 3) (ht : (s.warp w).trap.on = false) (hctx : (s.place w).ctx ≠ 0) :
    s.laterCheck w m = some { code := 4, detail := 16, fetch := true } := if_pos ⟨hc, ht, hctx⟩

theorem State.laterCheck_general (hc : m.cls = 0) (ht : (s.launchOf w).timed = true) :
    s.laterCheck w m = some { code := 1, detail := 37, fetch := true } := by simp [State.laterCheck, hc, ht]

theorem State.laterCheck_lanes (hc : m.cls = 2) (ht : (s.launchOf w).timed = true) (hl : (s.warp w).live ≠ allLanes) :
    s.laterCheck w m = some { code := 1, detail := 43, fetch := true } := by simp [State.laterCheck, hc, ht, hl]

/-- A check of Table 15-2 on a matrix block. -/
theorem State.laterCheck_matrix (hc : m.cls = 1) {c d : Nat}
    (hf : m.matrixFault (s.warp w).live (s.warp w).mreg (s.warp w).fmt (s.launchOf w).vregs = some (c, d)) :
    s.laterCheck w m = some { code := c, detail := d, fetch := true } := by
  simp [State.laterCheck, hc, hf]

section
variable {live mreg fmt : Word} {vregs : Nat}

theorem Img.matrixFault_lanes (hc : m.cls = 1) (hl : live ≠ allLanes) : m.matrixFault live mreg fmt vregs = some (9, 0) :=
  if_pos (by simp [hc, hl])

theorem Img.matrixFault_registers (hl : live = allLanes) (h : ∃ q ∈ m.ins, wOpc q = 0x140 ∧ vregs < fld q 2 8 + 66) :
    m.matrixFault live mreg fmt vregs = some (8, 1) := by
  obtain ⟨q, hq, ho, hv⟩ := h
  refine (if_neg (by simp [hl])).trans (if_pos ?_)
  exact List.any_eq_true.mpr ⟨q, hq, by simp [ho, hv]⟩

theorem Img.matrixFault_off (hc : m.cls = 1) (hl : live = allLanes) (hn : ∀ q ∈ m.ins, wOpc q ≠ 0x140)
    (hg : ∃ q ∈ m.ins, 0x141 ≤ wOpc q ∧ wOpc q ≤ 0x148) (hm : mreg.getLsbD 0 = false) : m.matrixFault live mreg fmt vregs = some (7, 0) := by
  obtain ⟨q, hq, h1, h2⟩ := hg
  have hgrid : (m.ins.any fun w => opMatrix (wOpc w)) = true := List.any_eq_true.mpr ⟨q, hq, by simp [opMatrix, h1, h2]⟩
  refine (if_neg (by simp [hl])).trans ((if_neg ?_).trans ((if_neg ?_).trans (if_pos ?_)))
  · rw [Bool.not_eq_true, List.any_eq_false]
    exact fun x hx => by simp [hn x hx]
  · dsimp only
    rw [hgrid, hc]
    decide
  · rw [mregOn, hm]
    rfl

end

theorem findSome?_range_first {α : Type} {f : Nat → Option α} {k n : Nat} {y : α} (hk : k < n) (hbefore : ∀ j < k, f j = none)
    (hf : f k = some y) : (List.range n).findSome? f = some y := by
  obtain ⟨d, rfl⟩ := Nat.exists_eq_add_of_lt hk
  have hnone : (List.range k).findSome? f = none := List.findSome?_eq_none_iff.mpr fun j hj => hbefore j (List.mem_range.mp hj)
  rw [Nat.add_assoc, List.range_add, List.findSome?_append, hnone, List.range_succ_eq_map, List.map_cons]
  simp [hf]

/-- The first instruction of a timed block that a check of R178, R179 or R181 refuses. -/
theorem State.laterCheck_timed {k c d : Nat} {i : Instr} (hc : m.cls = 2) (ht : (s.launchOf w).timed = true) (hl : (s.warp w).live = allLanes)
    (hu : s.umpireOn w = false) (hf : m.matrixFault (s.warp w).live (s.warp w).mreg (s.warp w).fmt (s.launchOf w).vregs = none)
    (hi : m.instr? k = some i) (hchk : s.timedCheck w m.cls i = some (c, d))
    (hbefore : ∀ j < k, ∀ i, m.instr? j = some i → s.timedCheck w m.cls i = none) :
    s.laterCheck w m = some { code := c, detail := d, index := k, fetch := true } := by
  have hk : k < m.nins := by
    unfold Img.instr? at hi
    split at hi
    · split at hi
      · assumption
      · cases hi
    · cases hi
  have hlater : s.laterCheck w m = (List.range m.nins).findSome? fun k => match m.instr? k with
      | some i => (s.timedCheck w m.cls i).map fun q => { code := q.1, detail := q.2, index := k, fetch := true }
      | none => none := by
    simp [State.laterCheck, hc, ht, hl, hu, hl ▸ hf]
  rw [hlater]
  refine findSome?_range_first hk (fun j hj => ?_) (by rw [hi]; exact congrArg (Option.map _) hchk)
  cases hj' : m.instr? j with
  | none => rfl
  | some i => exact congrArg (Option.map _) (hbefore j hj i hj')

end

/-! The fetch that stops. -/

section
variable {s u : State} {w : Nat}

/-- A warp that parks is parked for any state with its memory, its registers, its trap state and its context. -/
theorem State.ParkedOn.congr {v t : State} {code detail index : Nat} (h : v.ParkedOn t w code detail index) (hm : v.mem = u.mem)
    (hr : (v.warp w).regs = (u.warp w).regs) (ht : (v.warp w).trap = (u.warp w).trap) (hc : (v.place w).ctx = (u.place w).ctx) :
    u.ParkedOn t w code detail index := by
  obtain ⟨hmem, hblk, hpark, hregs, htrap, hrec⟩ := h
  rw [hc] at hrec
  exact ⟨hmem.trans hm, hblk, hpark, hregs.trans hr, htrap.trans ht, hrec⟩

theorem State.place_modWarp {f : Warp → Warp} (hf : ∀ x, (f x).team = x.team) (s : State) (v w : Nat) : (s.modWarp v f).place w = s.place w := by
  have ht : ((s.modWarp v f).warp w).team = (s.warp w).team := by
    rw [State.warp_modWarp]
    split
    · exact hf _
    · rfl
  unfold State.place
  rw [ht]
  rfl

/-- What is asked of a fetch that may be made: its acquires give `u`. -/
abbrev State.Fetches (s u : State) (w : Nat) : Prop := u.shapeOk ∧ s.mayFetch w = true ∧ s.fetchHeld w = false ∧ s.acquires w = some u

theorem State.Fetches.lt (h : s.Fetches u w) : w < u.warps.length := by
  obtain ⟨-, hmay, -, hacq⟩ := h
  exact (State.reparks_acquires hacq).length ▸ State.lt_of_mayFetch hmay

/-- The record of a fault at a fetch parks the warp. -/
theorem State.Fetches.parkedOn (h : s.Fetches u w) (f : FRec) : u.ParkedOn (u.fault w f) w f.code f.detail f.index :=
  State.parkedOn_fault h.1 h.lt f

/-- A warp that owes no failed copy any more. -/
def Warp.paidMiss (x : Warp) : Warp := { x with timed := { x.timed with owesMiss := false } }

/-- A timed copy that failed. -/
theorem State.Fetches.owes (h : s.Fetches u w) (howes : (s.warp w).timed.owesMiss = true) :
    ∃ t, exec (.blockFetch w) s = .next t ∧ u.ParkedOn t w 10 0 ({ code := 10 } : FRec).index := by
  obtain ⟨hshape, hmay, hheld, hacq⟩ := id h
  refine ⟨_, (execBlockFetch_acquired hmay hheld hacq).trans (congrArg Host.Outcome.next (if_pos howes)), ?_⟩
  have hp := State.parkedOn_fault (s := u.modWarp w Warp.paidMiss) hshape (by simpa using h.lt) { code := 10, fetch := true }
  have hw := u.warp_modWarp w w Warp.paidMiss
  rw [if_pos ⟨rfl, h.lt⟩] at hw
  have hregs : ((u.modWarp w Warp.paidMiss).warp w).regs = (u.warp w).regs := by rw [hw]; rfl
  have htrap : ((u.modWarp w Warp.paidMiss).warp w).trap = (u.warp w).trap := by rw [hw]; rfl
  exact hp.congr rfl hregs htrap (congrArg Place.ctx (State.place_modWarp (f := Warp.paidMiss) (fun _ => rfl) u w w))

/-- A spilled group that cannot be read back. -/
theorem State.Fetches.group (h : s.Fetches u w) (howes : (s.warp w).timed.owesMiss = false) (hg : (s.warp w).refill = .group) {q : BackFault}
    (hq : u.readGroup w ((s.warp w).spilled - 1) = .error q) (hne : q.1.code ≠ 3) :
    ∃ t, exec (.blockFetch w) s = .next t ∧ u.ParkedOn t w q.1.code q.1.detail q.1.index := by
  obtain ⟨hshape, hmay, hheld, hacq⟩ := id h
  obtain ⟨p, hp⟩ := (State.reparks_acquires hacq).warp
  have hgu : (u.warp w).refill = .group := by rw [hp]; exact hg
  have hqu : u.readGroup w ((u.warp w).spilled - 1) = .error q := by rw [hp]; exact hq
  refine ⟨_, (execBlockFetch_acquired hmay hheld hacq).trans (congrArg Host.Outcome.next ((if_neg (by simp [howes])).trans ?_)), h.parkedOn q.1⟩
  rw [State.refill, hgu]
  dsimp only
  rw [hqu]
  exact if_neg hne

/-- An image that cannot be read. -/
theorem State.Fetches.bad (h : s.Fetches u w) (howes : (s.warp w).timed.owesMiss = false) (hg : (s.warp w).refill = .none) {f : FRec}
    {p : Option (Nat × Nat × Nat)} (hr : u.readImage w (s.warp w).next = .bad f p) (hne : f.code ≠ 3) :
    ∃ t, exec (.blockFetch w) s = .next t ∧ u.ParkedOn t w f.code f.detail f.index := by
  obtain ⟨hshape, hmay, hheld, hacq⟩ := id h
  obtain ⟨q, hq⟩ := (State.reparks_acquires hacq).warp
  have hn : (u.warp w).next = (s.warp w).next := by rw [hq]
  refine ⟨_, (execBlockFetch_reads hmay hheld hacq howes hg).trans (congrArg Host.Outcome.next ?_), h.parkedOn f⟩
  rw [State.fetchNext, hn, hr]
  exact if_neg hne

/-- An image that fails a check. -/
theorem State.Fetches.refused (h : s.Fetches u w) (howes : (s.warp w).timed.owesMiss = false) (hg : (s.warp w).refill = .none) {m : Img} {e : Word}
    {f : FRec} (hr : u.readImage w (s.warp w).next = .got m e) (hchk : u.imageCheck w m e = some f) :
    ∃ t, exec (.blockFetch w) s = .next t ∧ u.ParkedOn t w f.code f.detail f.index := by
  obtain ⟨hshape, hmay, hheld, hacq⟩ := id h
  obtain ⟨q, hq⟩ := (State.reparks_acquires hacq).warp
  have hn : (u.warp w).next = (s.warp w).next := by rw [hq]
  refine ⟨({ u with fresh := u.fresh + 1 }).fault w f, (execBlockFetch_reads hmay hheld hacq howes hg).trans (congrArg Host.Outcome.next ?_), ?_⟩
  · rw [State.fetchNext, hn, hr]
    dsimp only
    rw [hchk]
  · exact State.parkedOn_fault (s := { u with fresh := u.fresh + 1 }) hshape h.lt f

end

/-! Images that cannot be read (R53, R394). -/

theorem State.readImage_absent {s : State} {w n : Nat} (h : s.hasBlock w n = false) :
    s.readImage w n = .bad { code := 1, detail := 34, fetch := true } none := by
  unfold State.hasBlock at h
  unfold State.readImage
  cases ho : s.objOf w with
  | none => rfl
  | some o =>
    rw [ho] at h
    have hn : o.offset? n = none := by simpa using h
    dsimp only
    rw [hn]

theorem State.readImage_prot {s : State} {w n ofs : Nat} {o : CodeObj} (ho : s.objOf w = some o) (hofs : o.offset? n = some ofs)
    (hp : s.transNow (s.place w).ctx true .ex (o.code + ofs) = .prot) :
    s.readImage w n = .bad { code := 4, detail := 16, fetch := true, addr := BitVec.ofNat 64 (o.code + ofs), aux := 2 } none := by
  have hf : s.imageFault (s.place w).ctx (o.code + ofs) 2 =
      some ({ code := 4, detail := 16, fetch := true, addr := BitVec.ofNat 64 (o.code + ofs), aux := 2 }, none) :=
    findSome?_range_first (k := 0) (by decide) (fun j hj => absurd hj (Nat.not_lt_zero j)) (by
      dsimp only
      rw [Nat.mul_zero, Nat.add_zero, hp])
  unfold State.readImage
  rw [ho]
  dsimp only
  rw [hofs]
  dsimp only
  rw [hf]

/-- Settles O37: what a fetch does is that of its first check that fails, and each check is that of the first failing row. -/
theorem refusedBlocksFault : Obligations.RefusedBlocksFault := by
  unfold Obligations.RefusedBlocksFault
  refine ⟨?_, ?_, ?_, ?_, ?_, ?_, firstRow_iff, ?_, ?_, ?_, ?_, ?_, ?_, ?_, ?_, ?_, ?_, ?_, ?_, ?_, ?_, ?_, ?_, ?_, ?_⟩
  · exact fun s u w h howes => State.Fetches.owes h howes
  · exact fun s u w q h howes hg hq hne => State.Fetches.group h howes hg hq hne
  · exact fun s u w f p h howes hg hr hne => State.Fetches.bad h howes hg hr hne
  · exact fun s u w m e f h howes hg hr hchk => State.Fetches.refused h howes hg hr hchk
  · exact fun s w n h => ⟨_, State.readImage_absent h, rfl, rfl⟩
  · exact fun s w n o ofs ho hofs hp => ⟨_, State.readImage_prot ho hofs hp, rfl, rfl, rfl⟩
  · exact fun s w m e r h => ⟨_, State.imageCheck_row h, rfl, rfl⟩
  · intro s w m e hm
    have hrow : s.failRow w m e = some 1 := by
      rw [State.failRow, State.imgRow, Img.fetchRow_badMagic hm, firstRow_iff]
      exact ⟨by simp, fun q hq => (List.mem_append.mp hq).elim (fun h => Nat.le_of_lt (fromTwo_entryRows e q h)) fun h => (Option.mem_toList.mp h |> Option.some.inj).le⟩
    exact ⟨_, State.imageCheck_row hrow, rfl, rfl⟩
  · intro s w m e hm h
    have hrow : s.failRow w m e = some 2 := by
      have hrest : FromTwo (s.imgRow w m).toList := fun q hq => Img.two_le_fetchRow hm (Option.mem_toList.mp hq)
      rw [State.failRow, firstRow_iff]
      refine ⟨List.mem_append.mpr ?_, (fromTwo_entryRows e).append hrest⟩
      by_cases he : fld e 40 23 ≠ 0
      · exact .inl (by simp [entryRows, he])
      · have hh : fld m.h0 0 24 ≠ 0 ∨ fld m.h1 0 34 ≠ 0 := (or_assoc.mpr h).resolve_right he
        exact .inr (Option.mem_toList.mpr (Img.fetchRow_reserved hm hh))
    exact ⟨_, State.imageCheck_row hrow, rfl, rfl⟩
  · exact fun s w m e h => State.imageCheck_upTo (State.failRow_image (Img.fetchRow_slots h)) (by decide)
  · exact fun s w m e h => State.imageCheck_body (by decide) (by decide) (Img.mem_bodyRows_ins (Img.row4 h))
  · exact fun s w m e h => State.imageCheck_body (by decide) (by decide) (Img.mem_bodyRows_slot (Img.row9 h))
  · exact fun s w m e h => State.imageCheck_body (by decide) (by decide) (Img.mem_bodyRows_launch (Img.row10 h))
  · exact fun s w m e r hr ⟨_, _, ht, hi⟩ => State.imageCheck_body (by decide) (by decide) (Img.mem_bodyRows_ins (Img.row14 hr ht hi))
  · exact fun s w m e h => State.imageCheck_body (by decide) (by decide) (Img.mem_bodyRows_ins (Img.row16 h))
  · exact fun s w m e h => State.imageCheck_body (by decide) (by decide) (Img.mem_bodyRows_ins (Img.row21 h))
  · intro s w m e h
    exact State.imageCheck_upTo (State.failRow_entry (by simp [entryRows, h])) (by decide)
  · exact fun s w m e hn hc ht hctx => ⟨_, (State.imageCheck_later hn).trans (State.laterCheck_system hc ht hctx), rfl, rfl⟩
  · exact fun s w m e hn hc ht => ⟨_, (State.imageCheck_later hn).trans (State.laterCheck_general hc ht), rfl, rfl⟩
  · exact fun s w m e hn hc ht hl => ⟨_, (State.imageCheck_later hn).trans (State.laterCheck_lanes hc ht hl), rfl, rfl⟩
  · exact fun s w m e hn hc hl => ⟨_, (State.imageCheck_later hn).trans (State.laterCheck_matrix hc (Img.matrixFault_lanes hc hl)), rfl, rfl⟩
  · exact fun s w m e hn hc hl h => ⟨_, (State.imageCheck_later hn).trans (State.laterCheck_matrix hc (Img.matrixFault_registers hl h)), rfl, rfl⟩
  · exact fun s w m e hn hc hl h0 hg hm =>
      ⟨_, (State.imageCheck_later hn).trans (State.laterCheck_matrix hc (Img.matrixFault_off hc hl h0 hg hm)), rfl, rfl⟩
  · intro s w m e k h n hn hc ht hl hu hf hi hbad hbefore
    have hchk : s.timedCheck w m.cls (.tsend h n) = some (12, 0) := if_pos (by
      simp only [Bool.or_eq_true, bne_iff_ne, decide_eq_true_eq]
      exact .inl (or_assoc.mpr hbad))
    exact ⟨_, (State.imageCheck_later hn).trans (State.laterCheck_timed hc ht hl hu hf hi hchk hbefore), rfl, rfl, rfl⟩

end Sys2Proof.Machine
end

section
/-! What a commit does (R45): the successor, the faults, and what follows. -/

namespace Sys2Proof.Machine

section
variable {s : State} {w : Nat} {b : Blk}

/-- The successor that a block's branch gives, with the registers written; an exit that a trap takes up gives none. -/
def State.succOf (s : State) (w : Nat) (b : Blk) : Except FRec Succ :=
  match b.branch with
  | none => .ok { st := s.modWarp w fun x => x.commitRegs b, uniform := false }
  | some (i, sel) =>
    if sel = .exit ∧ (s.takenTrap w b).isSome then .ok { st := s.modWarp w fun x => x.commitRegs b, uniform := false }
    else (s.modWarp w fun x => x.commitRegs b).branch w i b.cls sel

theorem State.commit_eq (s : State) (w : Nat) (b : Blk) : s.commit w b =
    match lowestFault (s.commitFaults w b ++ (match s.succOf w b with
      | .error f => [f]
      | .ok _ => [])), s.succOf w b with
    | some f, _ => s.fault w f
    | none, .ok u => s.finishCommit u.st w b u.uniform (s.takenTrap w b)
    | none, .error f => s.fault w f := rfl

/-- A block that commits. -/
theorem exec_blockCommit (h : s.Commits w b) : exec (.blockCommit w) s = .next (s.commit w b) := by
  obtain ⟨hb, hseat, hcomplete, hquiet, hended, hret, hrec⟩ := h
  refine congrArg Host.Outcome.next ?_
  rw [hb]
  exact if_pos (by simp [hseat, hcomplete, hquiet, hended, hret, hrec])

theorem State.succOf_branch {i : Nat} {sel : BranchSel} (hb : b.branch = some (i, sel)) (hne : sel ≠ .exit) :
    s.succOf w b = (s.modWarp w fun x => x.commitRegs b).branch w i b.cls sel := by
  unfold State.succOf
  rw [hb]
  exact if_neg fun he => hne he.1

/-- A successor that cannot be had stops the block. -/
theorem State.commit_stops (hf : s.commitFaults w b = []) {f : FRec} (h : s.succOf w b = .error f) : s.commit w b = s.fault w f := by
  rw [State.commit_eq, hf, h]
  rfl

theorem State.commit_goes (hf : s.commitFaults w b = []) {u : Succ} (h : s.succOf w b = .ok u) :
    s.commit w b = s.finishCommit u.st w b u.uniform (s.takenTrap w b) := by
  rw [State.commit_eq, hf, h]
  rfl

end

end Sys2Proof.Machine
end

section
/-! A `brv` whose join is no block number (R54, R122): the lanes that name the join make the target absent, before any disagreement counts. -/

namespace Sys2Proof.Machine

/-- A lane that names no block number makes the target of a `brv` absent (R53, R122). -/
theorem State.branchLanes_high {s : State} {w l : Nat} {v : Vec} (hl : l ∈ lanesOf (s.warp w).live) (hv : 2 ^ 24 ≤ (v.lane l).toNat)
    (idx cls join : Nat) : s.branchLanes w idx cls v join = .error { code := 1, detail := 34, commit := true, index := idx } := by
  have hany : ((lanesOf (s.warp w).live).map fun l => (v.lane l).toNat).any (fun b => decide (2 ^ 24 ≤ b) || !s.hasBlock w b) = true :=
    List.any_eq_true.mpr ⟨_, List.mem_map_of_mem hl, Bool.or_eq_true_iff.mpr (.inl (decide_eq_true hv))⟩
  exact if_pos (by rw [hany, Bool.or_true])

/-- A matrix block whose `brv` joins at block 2^24: lane 0 names the join, lane 1 names block 0. -/
def farJoinBlk : Blk :=
  { num := 0, cls := 1, words := [], wr := [], nst := 0, sprange := (0, 0), live0 := 3, fmt0 := 0, mreg0 := 0, start := 0,
    branch := some (0, .lanes [BitVec.ofNat 32 (2 ^ 24), 0] (2 ^ 24)) }

/-- A machine with one seated warp that is about to commit that block, in a code object with the given block table. -/
def farJoin (btab : List Word) : State :=
  { State.reset with
    warps := [{ (default : Warp) with live := 3, blk := some farJoinBlk, seat := { seat := some 0 } }],
    objs := [{ ctx := 0, oid := 0, code := 0, btab := btab, kernels := [], preloads := [], chmap := [], unloading := false }] }

section
variable (btab : List Word)

theorem farJoin_live : ((farJoin btab).warp 0).live = 3 := rfl

theorem farJoin_commits : (farJoin btab).Commits 0 farJoinBlk := ⟨rfl, rfl, rfl, rfl, rfl, rfl, rfl⟩

theorem farJoin_commitFaults : (farJoin btab).commitFaults 0 farJoinBlk = [] := rfl

theorem farJoin_hasBlock {n : Nat} (h : btab[n]? = some (1#64 <<< 63)) : (farJoin btab).hasBlock 0 n = true := by
  have ho : (farJoin btab).objOf 0 =
      some { ctx := 0, oid := 0, code := 0, btab := btab, kernels := [], preloads := [], chmap := [], unloading := false } := by
    have hctx : ((farJoin btab).place 0).ctx = 0 := rfl
    have hnone : (farJoin btab).grids = [] := rfl
    have hgrid : (farJoin btab).launchOf 0 = (default : Grid).launch := by
      unfold State.launchOf State.grid
      rw [hnone, List.getD_nil]
    have hoid : ((farJoin btab).launchOf 0).object = 0 := (congrArg LaunchRec.object hgrid).trans rfl
    unfold State.objOf
    rw [hctx, hoid]
    rfl
  unfold State.hasBlock
  rw [ho]
  simp only [Option.bind_some, CodeObj.offset?, h]
  decide

/-- What the commit does: its target is absent. -/
theorem exec_farJoin : exec (.blockCommit 0) (farJoin btab) =
    .next ((farJoin btab).fault 0 { code := 1, detail := 34, commit := true, index := 0 }) := by
  have hlive : (((farJoin btab).modWarp 0 fun x => x.commitRegs farJoinBlk).warp 0).live = 3 := rfl
  have hb := State.branchLanes_high (s := (farJoin btab).modWarp 0 fun x => x.commitRegs farJoinBlk) (w := 0) (l := 0)
    (v := [BitVec.ofNat 32 (2 ^ 24), 0]) (by rw [hlive]; decide) (by decide) 0 1 (2 ^ 24)
  have hsucc := (State.succOf_branch (s := farJoin btab) (w := 0) (b := farJoinBlk) rfl BranchSel.noConfusion).trans hb
  rw [exec_blockCommit (farJoin_commits btab), State.commit_stops (farJoin_commitFaults btab) hsucc]

end

/-- Lanes 0 and 1 are live. -/
theorem live_three {l : Nat} : (3#64).getLsbD l = true ↔ l = 0 ∨ l = 1 := by
  constructor
  · intro h
    have hl : l < 64 := by
      by_contra hn
      rw [BitVec.getLsbD_of_ge _ _ (Nat.le_of_not_lt hn)] at h
      cases h
    have hall : ∀ k < 64, (3#64).getLsbD k = true → k = 0 ∨ k = 1 := by decide
    exact hall l hl h
  · rintro (rfl | rfl) <;> rfl

/-- Refutes O41: where the block table has more than 2^24 entries, a `brv` whose join is 2^24 and one of whose lanes names it raises DETAIL 34. -/
theorem not_branchesChooseSuccessors : ¬ Obligations.BranchesChooseSuccessors := by
  unfold Obligations.BranchesChooseSuccessors
  intro h
  obtain ⟨-, -, -, -, -, hmatrix, -⟩ := h
  have hentry : ∀ n ≤ 2 ^ 24, (List.replicate (2 ^ 24 + 1) (1#64 <<< 63))[n]? = some (1#64 <<< 63) := fun n hn => by
    rw [List.getElem?_replicate, if_pos (Nat.lt_succ_of_le hn)]
  generalize List.replicate (2 ^ 24 + 1) (1#64 <<< 63) = btab at hentry
  have htargets : ∀ n, n ∈ [0] ↔ n ≠ 2 ^ 24 ∧ ∃ l < 64, ((farJoin btab).warp 0).live.getLsbD l = true ∧
      (Vec.lane [BitVec.ofNat 32 (2 ^ 24), 0] l).toNat = n := fun n => by
    rw [farJoin_live]
    constructor
    · rintro hn
      cases List.mem_singleton.mp hn
      exact ⟨by decide, 1, by decide, by decide, rfl⟩
    · rintro ⟨hne, l, -, hl, hv⟩
      rcases live_three.mp hl with rfl | rfl
      · exact absurd hv.symm hne
      · exact List.mem_singleton.mpr hv.symm
  have hpresent : ∀ n ∈ [0], n < 2 ^ 24 ∧ (farJoin btab).hasBlock 0 n = true := fun n hn => by
    cases List.mem_singleton.mp hn
    exact ⟨by decide, farJoin_hasBlock btab (hentry 0 (Nat.zero_le _))⟩
  obtain ⟨t, he, hpark⟩ := hmatrix (farJoin btab) 0 farJoinBlk 0 [BitVec.ofNat 32 (2 ^ 24), 0] (2 ^ 24) [0]
    ⟨farJoin_hasBlock btab (hentry _ (le_refl _)), List.pairwise_singleton _ _, htargets, hpresent⟩
    ⟨0, by decide, 1, by decide, by rw [farJoin_live]; decide, by rw [farJoin_live]; decide, by decide⟩ (.inl rfl) State.reset_shapeOk
    ⟨farJoin_commits btab, farJoin_commitFaults btab, rfl, rfl, rfl, rfl, fun p hp => absurd hp List.not_mem_nil⟩
  obtain ⟨-, -, -, -, -, f, hlast, -, hdetail, -⟩ := hpark
  rw [exec_farJoin, Host.Outcome.next.injEq] at he
  obtain ⟨g, hg, -, hgd, -⟩ := State.fault_record (s := farJoin btab) State.reset_shapeOk 0 { code := 1, detail := 34, commit := true, index := 0 }
  rw [← he, hg, Option.some.injEq] at hlast
  rw [← hlast, hgd] at hdetail
  cases hdetail

end Sys2Proof.Machine
end

section
/-! How parked warps go on: a barrier that completes, a `tlwait` that is met, a `stroke` boundary (R25, R129, R167). -/

namespace Sys2Proof.Machine

/-- `t` keeps the memory of `s` and its warps, but that warp `w`, where there is one, stands as `R` says. -/
structure State.Alters (w : Nat) (R : Warp → Warp → Prop) (s t : State) : Prop where
  mem : t.mem = s.mem
  length : t.warps.length = s.warps.length
  other : ∀ v, v ≠ w → t.warp v = s.warp v
  here : w < s.warps.length → R (s.warp w) (t.warp w)

section
variable {s t u : State} {w : Nat} {R Q P : Warp → Warp → Prop}

theorem State.Alters.trans (h : s.Alters w R t) (g : t.Alters w Q u) (hP : ∀ x y z, R x y → Q y z → P x z) : s.Alters w P u where
  mem := g.mem.trans h.mem
  length := g.length.trans h.length
  other v hv := (g.other v hv).trans (h.other v hv)
  here hw := hP _ _ _ (h.here hw) (g.here (h.length ▸ hw))

theorem State.alters_modWarp (s : State) (w : Nat) {f : Warp → Warp} (hf : ∀ x, R x (f x)) : s.Alters w R (s.modWarp w f) where
  mem := rfl
  length := List.length_modify ..
  other v hv := (State.warp_modWarp s w v f).trans (if_neg fun h => hv h.1)
  here hw := by
    rw [State.warp_modWarp, if_pos ⟨rfl, hw⟩]
    exact hf _

/-- Warps altered one after the other, each once. -/
theorem State.alters_foldl {f : State → Nat → State} (hf : ∀ (s : State) w, s.Alters w R (f s w)) {l : List Nat} (hl : l.Nodup) :
    ∀ s : State, (l.foldl f s).mem = s.mem ∧ (∀ w ∈ l, w < s.warps.length → R (s.warp w) ((l.foldl f s).warp w)) ∧
      ∀ v, v ∉ l → (l.foldl f s).warp v = s.warp v := by
  induction l with
  | nil => exact fun s => ⟨rfl, by simp, fun _ _ => rfl⟩
  | cons w l ih =>
    intro s
    obtain ⟨hwl, hl⟩ := List.nodup_cons.mp hl
    have h := hf s w
    obtain ⟨hmem, hin, hout⟩ := ih hl (f s w)
    refine ⟨hmem.trans h.mem, fun v hv hlt => ?_, fun v hv => ?_⟩
    · rcases List.mem_cons.mp hv with rfl | hv
      · exact hout v hwl ▸ h.here hlt
      · exact h.other v (fun he => hwl (he ▸ hv)) ▸ hin v hv (h.length ▸ hlt)
    · exact (hout v fun h => hv (.tail _ h)).trans (h.other v fun he => hv (he ▸ .head _))

theorem State.SameWarps.warp (h : s.SameWarps t) (w : Nat) : t.warp w = s.warp w := congrArg (fun l => l.getD w default) h.1

theorem State.SameWarps.foldl {α : Type} {f : State → α → State} (hf : ∀ (s : State) x, s.SameWarps (f s x)) (l : List α) (s : State) :
    s.SameWarps (l.foldl f s) :=
  ⟨foldl_field State.warps f (fun s x => (hf s x).1) l s, foldl_field State.mem f (fun s x => (hf s x).2) l s⟩

theorem State.warp_of_le (h : s.warps.length ≤ w) : s.warp w = default := List.getD_eq_default _ _ h

end

section
variable {s : State}

/-- A warp that is ready keeps all but its seat. -/
theorem State.alters_nowReady (s : State) (w : Nat) : s.Alters w (fun x y => ∃ z, y = { x with seat := z }) (s.nowReady w) :=
  s.alters_modWarp w fun x => by
    split
    · exact ⟨x.seat, rfl⟩
    · exact ⟨_, rfl⟩

/-- What a warp owes after one acquire more: the wider scope. -/
def owing (sc : Scope) (o : Option Scope) : Option Scope := some (match o with
  | some o => if o.code.toNat < sc.code.toNat then sc else o
  | none => sc)

/-- The park of a warp that owes an acquire more. -/
def Warp.owe (x : Warp) (l : List Scope) : Warp := { x with park := { x.park with acq := l.foldl (fun o c => owing c o) x.park.acq } }

theorem owing_spec (sc : Scope) (o : Option Scope) : ∃ a, owing sc o = some a ∧ (a = sc ∨ o = some a) ∧ sc.code.toNat ≤ a.code.toNat ∧
    ∀ p, o = some p → p.code.toNat ≤ a.code.toNat := by
  cases o with
  | none => exact ⟨sc, rfl, .inl rfl, le_rfl, fun _ h => (nomatch h)⟩
  | some q =>
    by_cases h : q.code.toNat < sc.code.toNat
    · exact ⟨sc, congrArg some (if_pos h), .inl rfl, le_rfl, fun p hp => by cases hp; omega⟩
    · exact ⟨q, congrArg some (if_neg h), .inr rfl, not_lt.mp h, fun _ hp => Option.some.inj hp ▸ le_rfl⟩

/-- Of several acquires a warp owes one that is as wide as each. -/
theorem foldl_owing (l : List Scope) (o : Option Scope) (h : l ≠ [] ∨ o ≠ none) : ∃ a, l.foldl (fun o c => owing c o) o = some a ∧
    (a ∈ l ∨ o = some a) ∧ (∀ c ∈ l, c.code.toNat ≤ a.code.toNat) ∧ ∀ p, o = some p → p.code.toNat ≤ a.code.toNat := by
  induction l generalizing o with
  | nil =>
    obtain ⟨p, rfl⟩ := Option.ne_none_iff_exists'.mp (h.resolve_left fun h => h rfl)
    exact ⟨p, rfl, .inr rfl, by simp, fun q hq => Option.some.inj hq ▸ le_rfl⟩
  | cons c l ih =>
    obtain ⟨p, hp, hfrom, hc, ho⟩ := owing_spec c o
    obtain ⟨a, ha, hmem, hl, hpa⟩ := ih (owing c o) (.inr (by simp [hp]))
    have hle := hpa p hp
    refine ⟨a, ha, ?_, fun d hd => ?_, fun q hq => (ho q hq).trans hle⟩
    · rcases hmem with hmem | hmem
      · exact .inl (.tail _ hmem)
      · obtain rfl : p = a := Option.some.inj (hp.symm.trans hmem)
        exact hfrom.imp (fun h : p = c => List.mem_cons.mpr (.inl h)) id
    · rcases List.mem_cons.mp hd with rfl | hd
      · exact hc.trans hle
      · exact hl d hd

theorem State.acquire_eq (s : State) (w : Nat) (sc : Scope) : s.acquire w sc = s.modWarp w fun x => x.owe [sc] := rfl

theorem State.acquires_foldl {α : Type} (g : α → Scope) (w : Nat) (l : List α) (s : State) :
    l.foldl (fun s x => s.acquire w (g x)) s = s.modWarp w fun x => x.owe (l.map g) := by
  induction l generalizing s with
  | nil => exact congrArg (fun x => { s with warps := x }) (List.modify_id w s.warps).symm
  | cons x l ih =>
    rw [List.foldl_cons, ih]
    exact congrArg (fun x => { s with warps := x }) (List.modify_modify_eq ..)

/-! The unit of a barrier lists each of its warps once. -/

/-- Lists that a key tells apart. -/
theorem nodup_flatMap_of_key {α β : Type} {f : α → List β} (key : β → α) {l : List α} (hl : l.Nodup) (hf : ∀ a, (f a).Nodup)
    (hkey : ∀ a, ∀ x ∈ f a, key x = a) : (l.flatMap f).Nodup :=
  List.nodup_flatMap.mpr ⟨fun a _ => hf a, hl.imp fun hab x hx hy => hab ((hkey _ x hx).symm.trans (hkey _ x hy))⟩

theorem State.team_of_mem_warpsOf {k w : Nat} (h : w ∈ s.warpsOf k) : (s.warp w).team = k := by
  simpa using (List.mem_filter.mp h).2

theorem State.gang_of_mem_gangWarps {g w : Nat} (h : w ∈ s.gangWarps g) : (s.team (s.warp w).team).gang = g := by
  obtain ⟨k, hk, hw⟩ := List.mem_flatMap.mp h
  rw [State.team_of_mem_warpsOf hw]
  simpa using (List.mem_filter.mp hk).2

theorem State.region_of_mem {r w : Nat} (h : w ∈ (s.gangsOf r).flatMap s.gangWarps) : (s.gang (s.team (s.warp w).team).gang).region = r := by
  obtain ⟨g, hg, hw⟩ := List.mem_flatMap.mp h
  rw [State.gang_of_mem_gangWarps hw]
  simpa using (List.mem_filter.mp hg).2

theorem State.nodup_gangWarps (s : State) (g : Nat) : (s.gangWarps g).Nodup :=
  nodup_flatMap_of_key (fun w => (s.warp w).team) (List.nodup_range.filter _) (fun _ => List.nodup_range.filter _)
    fun _ _ => State.team_of_mem_warpsOf

theorem State.nodup_regionWarps (s : State) (r : Nat) : ((s.gangsOf r).flatMap s.gangWarps).Nodup :=
  nodup_flatMap_of_key (fun w => (s.team (s.warp w).team).gang) (List.nodup_range.filter _) s.nodup_gangWarps
    fun _ _ => State.gang_of_mem_gangWarps

theorem State.nodup_gridWarps (s : State) (g : Nat) : (s.gridWarps g).Nodup :=
  nodup_flatMap_of_key (fun w => (s.gang (s.team (s.warp w).team).gang).region) (List.nodup_range.filter _) s.nodup_regionWarps
    fun _ _ => State.region_of_mem

theorem State.nodup_unitWarps (s : State) (sc : Scope) (unit : Nat) : (s.unitWarps sc unit).Nodup := by
  cases sc with
  | core => exact List.nodup_range.filter _
  | quad => exact s.nodup_gangWarps unit
  | die => exact s.nodup_regionWarps unit
  | pkg => exact s.nodup_gridWarps unit
  | warp => exact List.nodup_nil
  | dom => exact List.nodup_nil

theorem State.lt_of_mem_gangWarps {g w : Nat} (h : w ∈ s.gangWarps g) : w < s.warps.length := by
  obtain ⟨k, -, hw⟩ := List.mem_flatMap.mp h
  exact List.mem_range.mp (List.mem_filter.mp hw).1

theorem State.lt_of_mem_unitWarps {sc : Scope} {unit w : Nat} (h : w ∈ s.unitWarps sc unit) : w < s.warps.length := by
  cases sc with
  | core => exact List.mem_range.mp (List.mem_filter.mp h).1
  | quad => exact State.lt_of_mem_gangWarps h
  | die =>
    obtain ⟨g, -, hw⟩ := List.mem_flatMap.mp h
    exact State.lt_of_mem_gangWarps hw
  | pkg =>
    obtain ⟨r, -, hr⟩ := List.mem_flatMap.mp h
    obtain ⟨g, -, hw⟩ := List.mem_flatMap.mp hr
    exact State.lt_of_mem_gangWarps hw
  | warp => cases h
  | dom => cases h

/-! Barriers. -/

/-- How a warp stands that a barrier has let go (R25). -/
def LetGo (q : Scope × Nat) (x y : Warp) : Prop :=
  ∃ a z, y = { x with park := { x.park.passed q with acq := some a }, seat := z } ∧ (a = q.1 ∨ x.park.acq = some a) ∧
    q.1.code.toNat ≤ a.code.toNat

theorem Park.acq_passed (p : Park) (q : Scope × Nat) : (p.passed q).acq = p.acq := by
  unfold Park.passed
  split <;> rfl

theorem State.alters_barrier (s : State) (w : Nat) (q : Scope × Nat) : s.Alters w (LetGo q)
    (((s.modWarp w fun x => { x with park := x.park.passed q }).acquire w q.1).nowReady w) := by
  refine State.Alters.trans (R := fun x y => y = { x with park := x.park.passed q }) (s.alters_modWarp w fun _ => rfl)
    (State.Alters.trans (R := fun x y => y = x.owe [q.1]) (State.alters_modWarp _ w fun _ => rfl) (State.alters_nowReady _ w)
      fun x y z (hy : y = _) hz => (⟨y, hy, hz⟩ : ∃ y, y = x.owe [q.1] ∧ ∃ k, z = { y with seat := k })) ?_
  rintro x _ _ rfl ⟨_, rfl, z, rfl⟩
  obtain ⟨a, ha, hfrom, hwide, -⟩ := owing_spec q.1 (x.park.passed q).acq
  refine ⟨a, z, ?_, Park.acq_passed x.park q ▸ hfrom, hwide⟩
  exact congrArg (fun o => ({ x with park := { x.park.passed q with acq := o }, seat := z } : Warp)) ha

theorem State.sameWarps_ptsUp (s : State) (d c n : Nat) : s.SameWarps (s.ptsUp d c n) := s.sameWarps_setPts d c _

/-- The warps of a barrier's unit that have not exited. -/
def State.awaited (s : State) (sc : Scope) (unit : Nat) : List Nat := (s.unitWarps sc unit).filter fun w => !(s.warp w).done

theorem State.mem_awaited {sc : Scope} {unit w : Nat} : w ∈ s.awaited sc unit ↔ w ∈ s.unitWarps sc unit ∧ (s.warp w).done = false := by
  simp [State.awaited]

/-- A barrier that one warp has not reached lets none go. -/
theorem execBarrierComplete_waits {sc : Scope} {unit n w : Nat} (hw : w ∈ s.awaited sc unit) (h : s.arrived w sc n = false) :
    exec (.barrierComplete sc unit n) s = .next s := by
  refine congrArg Host.Outcome.next (if_pos ?_)
  have hall : (s.awaited sc unit).all (fun w => s.arrived w sc n) = false := List.all_eq_false.mpr ⟨w, hw, by simp [h]⟩
  simpa [State.awaited] using Or.inr (by simpa [State.awaited] using hall)

theorem execBarrierComplete_goes {sc : Scope} {unit n : Nat} (hne : s.awaited sc unit ≠ []) (h : ∀ w ∈ s.awaited sc unit, s.arrived w sc n = true) :
    ∃ u, s.SameWarps u ∧ exec (.barrierComplete sc unit n) s = .next ((s.awaited sc unit).foldl
      (fun s w => ((s.modWarp w fun x => { x with park := x.park.passed (sc, n) }).acquire w sc).nowReady w) u) := by
  have hgo : ¬ (((s.awaited sc unit).isEmpty || !(s.awaited sc unit).all fun w => s.arrived w sc n) = true) := by
    simpa [hne] using h
  refine ⟨_, ?_, congrArg Host.Outcome.next (if_neg hgo)⟩
  exact State.SameWarps.apply (f := fun v => (s.awaited sc unit).foldl (fun (s : State) w =>
    s.ptsUp (s.place w).die (s.place w).core _) v) (fun v => State.SameWarps.foldl (fun s w => s.sameWarps_ptsUp _ _ _) _ v) s _

theorem barrierComplete_letsGo {sc : Scope} {unit n : Nat} (hsome : ∃ w ∈ s.unitWarps sc unit, (s.warp w).done = false)
    (h : ∀ w ∈ s.unitWarps sc unit, (s.warp w).done = false → s.arrived w sc n = true) :
    ∃ t, exec (.barrierComplete sc unit n) s = .next t ∧ t.mem = s.mem ∧
      (∀ w ∈ s.unitWarps sc unit, (s.warp w).done = false → LetGo (sc, n) (s.warp w) (t.warp w)) ∧
      ∀ w, w ∉ s.unitWarps sc unit ∨ (s.warp w).done = true → t.warp w = s.warp w := by
  obtain ⟨w, hw, hd⟩ := hsome
  obtain ⟨u, hu, hexec⟩ := execBarrierComplete_goes (List.ne_nil_of_mem (State.mem_awaited.mpr ⟨hw, hd⟩))
    fun v hv => (State.mem_awaited.mp hv).elim (h v)
  obtain ⟨hmem, hin, hout⟩ := State.alters_foldl (fun s w => s.alters_barrier w (sc, n)) ((s.nodup_unitWarps sc unit).filter _) u
  refine ⟨_, hexec, hmem.trans hu.2, fun v hv hd => ?_, fun v hv => ?_⟩
  · exact hu.warp v ▸ hin v (State.mem_awaited.mpr ⟨hv, hd⟩) (hu.1 ▸ State.lt_of_mem_unitWarps hv)
  · refine (hout v fun hmem => ?_).trans (hu.warp v)
    obtain ⟨hv', hd'⟩ := State.mem_awaited.mp hmem
    exact hv.elim (fun hn => hn hv') fun hd => by simp [hd] at hd'

/-! `tlwait`. -/

theorem execTlwaitResume_waits {w : Nat} {x : WaitOn} (hx : x ∈ (s.warp w).park.waits) (h : (s.counter x.ctr).val < x.n) :
    exec (.tlwaitResume w) s = .next s := by
  refine congrArg Host.Outcome.next (if_pos ?_)
  have hmet : s.waitsMet (s.warp w).park.waits = false := List.all_eq_false.mpr ⟨x, hx, by simpa using h⟩
  simp [hmet]

theorem execTlwaitResume_goes {w : Nat} (hne : (s.warp w).park.waits ≠ []) (h : ∀ x ∈ (s.warp w).park.waits, x.n ≤ (s.counter x.ctr).val) :
    exec (.tlwaitResume w) s =
      .next (((s.modWarp w fun x => { x with park := { x.park with waits := [] } }).acquireWaits w (s.warp w).park.waits).nowReady w) := by
  refine congrArg Host.Outcome.next (if_neg ?_)
  have hmet : s.waitsMet (s.warp w).park.waits = true := List.all_eq_true.mpr fun x hx => by simpa using h x hx
  simp [hmet, hne]

/-- How a warp stands whose `tlwait` is met. -/
def Waited (l : List WaitOn) (x y : Warp) : Prop :=
  ∃ n z, y = { (Warp.owe { x with park := { x.park with waits := [] } } (l.map fun q => ctrScope q.ctr)) with waited := n, seat := z }

theorem State.alters_acquireWaits (s : State) (w : Nat) (l : List WaitOn) :
    s.Alters w (fun x y => ∃ n, y = { x.owe (l.map fun q => ctrScope q.ctr) with waited := n }) (s.acquireWaits w l) := by
  unfold State.acquireWaits
  rw [State.acquires_foldl (fun q : WaitOn => ctrScope q.ctr)]
  refine State.Alters.trans (R := fun x y => y = x.owe (l.map fun q => ctrScope q.ctr)) (s.alters_modWarp w fun _ => rfl)
    (Q := fun x y => ∃ n, y = { x with waited := n }) (State.alters_modWarp _ w fun _ => ⟨_, rfl⟩) ?_
  rintro x _ _ rfl ⟨n, rfl⟩
  exact ⟨n, rfl⟩

theorem State.alters_tlwait (s : State) (w : Nat) (l : List WaitOn) :
    s.Alters w (Waited l) (((s.modWarp w fun x => { x with park := { x.park with waits := [] } }).acquireWaits w l).nowReady w) := by
  refine State.Alters.trans (R := fun x y => y = { x with park := { x.park with waits := [] } }) (s.alters_modWarp w fun _ => rfl)
    (State.Alters.trans (P := fun x z => ∃ n k, z = { x.owe (l.map fun q => ctrScope q.ctr) with waited := n, seat := k })
      (State.alters_acquireWaits _ w l) (State.alters_nowReady _ w) ?_) ?_
  · rintro x _ _ ⟨n, rfl⟩ ⟨k, rfl⟩
    exact ⟨n, k, rfl⟩
  · rintro x _ _ rfl ⟨n, k, rfl⟩
    exact ⟨n, k, rfl⟩

/-! `stroke`. -/

/-- The warps whose boundary has come, on a die. -/
def State.strokesDue (s : State) (d : Nat) : List Nat :=
  (List.range s.warps.length).filter fun v => (s.place v).die == d && (match (s.warp v).park.stroke with
    | some b => decide (b ≤ s.reconTick d)
    | none => false)

theorem State.mem_strokesDue {d v : Nat} : v ∈ s.strokesDue d ↔
    v < s.warps.length ∧ (s.place v).die = d ∧ ∃ c, (s.warp v).park.stroke = some c ∧ c ≤ s.reconTick d := by
  cases h : (s.warp v).park.stroke <;> simp [State.strokesDue, h]

theorem State.alters_strokeExit (s : State) (n w : Nat) :
    s.Alters w (fun x y => ∃ z, y = { strokeExit n x with seat := z }) ((s.modWarp w (strokeExit n)).nowReady w) := by
  refine State.Alters.trans (R := fun x y => y = strokeExit n x) (s.alters_modWarp w fun _ => rfl) (State.alters_nowReady _ w) ?_
  rintro x _ _ rfl ⟨z, rfl⟩
  exact ⟨z, rfl⟩

/-- The die's clock stands while its warps leave. -/
theorem State.foldl_strokeExit {d n : Nat} (l : List Nat) (h : s.localTick d = n) :
    l.foldl (fun (s : State) v => (s.modWarp v (strokeExit (s.localTick d))).nowReady v) s =
      l.foldl (fun (s : State) v => (s.modWarp v (strokeExit n)).nowReady v) s := by
  induction l generalizing s with
  | nil => rfl
  | cons v l ih =>
    subst h
    exact ih rfl

theorem strokeBoundaryExit_goes {w : Nat} (h : s.landingDue (s.place w).die (fun _ => true) = false) :
    ∃ t, exec (.strokeBoundaryExit w) s = .next t ∧
      (∀ v ∈ s.strokesDue (s.place w).die, ∃ z, t.warp v = { strokeExit (s.localTick (s.place w).die) (s.warp v) with seat := z }) ∧
      ∀ v, v ∉ s.strokesDue (s.place w).die → t.warp v = s.warp v := by
  obtain ⟨-, hin, hout⟩ := State.alters_foldl (fun s v => s.alters_strokeExit _ v)
    (l := s.strokesDue (s.place w).die) (List.nodup_range.filter _) s
  exact ⟨_, congrArg Host.Outcome.next ((if_neg (by simp [h])).trans (State.foldl_strokeExit _ rfl)), fun v hv => hin v hv (State.mem_strokesDue.mp hv).1, hout⟩

end

/-- Settles O43: each warp that resumes is altered once, as its park asks, and no other is. -/
theorem parkedWarpsResume : Obligations.ParkedWarpsResume := by
  unfold Obligations.ParkedWarpsResume
  refine ⟨?barrier, ?passed, ?waits, ?arrives, ?arrived, ?tlwait, ?unmet, ?landing, ?boundary⟩
  case barrier =>
    intro s sc u n hsome hall
    obtain ⟨t, hexec, hmem, hin, hout⟩ := barrierComplete_letsGo hsome hall
    refine ⟨t, hexec, hmem, fun w hw hd => ?_, hout⟩
    obtain ⟨a, z, hy, hfrom, hwide⟩ := hin w hw hd
    rw [hy]
    exact ⟨rfl, rfl, a, rfl, hfrom, hwide⟩
  case passed =>
    intro p q r hqr
    refine ⟨fun h h2 => ?_, fun h h2 => ?_, fun h h2 => ?_⟩
    · simp [Park.passed, h, h2]
    · simp [Park.passed, h, h2]
    · simp [Park.passed, h, hqr.symm]
  case waits =>
    exact fun s sc u n w hw hd h => execBarrierComplete_waits (State.mem_awaited.mpr ⟨hw, hd⟩) h
  case arrives =>
    intro s w q hw hbar harr
    unfold State.arrive
    rw [State.warp_modWarp, if_pos ⟨rfl, hw⟩]
    simp [hbar, harr]
  case arrived =>
    intro s w q n hbar harr
    unfold State.arrive
    rw [State.warp_modWarp]
    split <;> simp [harr]
  case tlwait =>
    intro s w hne hmet
    have hw : w < s.warps.length := not_le.mp fun hle => hne (congrArg (fun x : Warp => x.park.waits) (State.warp_of_le hle))
    have h := s.alters_tlwait w (s.warp w).park.waits
    obtain ⟨n, z, hy⟩ := h.here hw
    obtain ⟨a, ha, hfrom, hwide, -⟩ := foldl_owing ((s.warp w).park.waits.map fun x => ctrScope x.ctr) (s.warp w).park.acq (.inl (by simpa using hne))
    refine ⟨_, a, execTlwaitResume_goes hne hmet, ?_, hfrom, fun x hx => hwide _ (List.mem_map_of_mem hx), ?_, ?_, h.mem, h.other⟩
    · rw [hy, ← ha]
      rfl
    · rw [hy]
      rfl
    · rw [hy]
      rfl
  case unmet => exact fun s w x hx h => execTlwaitResume_waits hx h
  case landing => exact fun s w h => congrArg Host.Outcome.next (if_pos h)
  case boundary =>
    intro s w h
    obtain ⟨t, hexec, hin, hout⟩ := strokeBoundaryExit_goes h
    refine ⟨t, hexec, fun v hv => ⟨fun c hdie hc hle => ?_, fun hnot => hout v fun hmem => ?_⟩⟩
    · obtain ⟨z, hy⟩ := hin v (State.mem_strokesDue.mpr ⟨hv, hdie, c, hc, hle⟩)
      rw [hy]
      exact ⟨rfl, rfl, rfl, rfl, rfl⟩
    · obtain ⟨-, hdie, c, hc, hle⟩ := State.mem_strokesDue.mp hmem
      rcases hnot with hnot | hnot | ⟨d, hd, hlt⟩
      · exact hnot hdie
      · simp [hc] at hnot
      · obtain rfl : c = d := Option.some.inj (hc.symm.trans hd)
        omega

end Sys2Proof.Machine
end

section
/-! What the parts of a commit leave of the warps (R45): the effects, the parking, the seat. -/

namespace Sys2Proof.Machine

section
variable {s t u : State} {w : Nat}

theorem State.SameWarps.alters (h : s.SameWarps t) {R : Warp → Warp → Prop} (hR : ∀ x, R x x) : s.Alters w R t where
  mem := h.2
  length := congrArg List.length h.1
  other v _ := h.warp v
  here _ := h.warp w ▸ hR _

/-- `y` is `x`, but for its park, its seat and the place among its stores that a met `tlwait` notes. -/
def Warp.Settles (x y : Warp) : Prop := ∃ p z n, y = { x with park := p, seat := z, waited := n }

theorem Warp.Settles.refl (x : Warp) : x.Settles x := ⟨x.park, x.seat, x.waited, rfl⟩

theorem Warp.Settles.trans {x y z : Warp} (h : x.Settles y) (g : y.Settles z) : x.Settles z := by
  obtain ⟨_, _, _, rfl⟩ := h
  obtain ⟨p, q, n, rfl⟩ := g
  exact ⟨p, q, n, rfl⟩

/-- Warp `w` alone may change, and no more than `Warp.Settles` says. -/
abbrev State.Settles (w : Nat) (s t : State) : Prop := s.Alters w Warp.Settles t

theorem State.SameWarps.settles (h : s.SameWarps t) (w : Nat) : s.Settles w t := h.alters Warp.Settles.refl

theorem State.settles_refl (s : State) (w : Nat) : s.Settles w s := (State.SameWarps.refl s).settles w

theorem State.Alters.settles (h : s.Settles w t) (g : t.Settles w u) : s.Settles w u := h.trans g fun _ _ _ => Warp.Settles.trans

theorem State.settles_ite {c : Prop} [Decidable c] {a b : State} (ha : s.Settles w a) (hb : s.Settles w b) : s.Settles w (if c then a else b) := by
  split
  · exact ha
  · exact hb

theorem State.settles_foldl {α : Type} {f : State → α → State} (hf : ∀ (s : State) x, s.Settles w (f s x)) (l : List α) (s : State) :
    s.Settles w (l.foldl f s) := by
  induction l generalizing s with
  | nil => exact s.settles_refl w
  | cons x l ih => exact (hf s x).settles (ih _)

/-- A change of a warp's park. -/
theorem State.settles_park (s : State) (w : Nat) (f : Warp → Park) : s.Settles w (s.modWarp w fun x => { x with park := f x }) :=
  s.alters_modWarp w fun x => ⟨f x, x.seat, x.waited, rfl⟩

/-! The effects. -/

theorem State.sameWarps_modCore (s : State) (d c : Nat) (f : Core → Core) : s.SameWarps (s.modCore d c f) := ⟨by simp, by simp⟩

theorem State.sameWarps_countW (s : State) (w src n : Nat) : s.SameWarps (s.countW w src n) := ⟨countW_warps .., by simp⟩

theorem State.sameWarps_spadPut (s : State) (t : Nat) (e : SpPend) : s.SameWarps (s.spadPut t e) := by
  obtain ⟨x, l, n, h⟩ := s.spadPut_only t e
  rw [h]
  exact ⟨rfl, rfl⟩

theorem State.sameWarps_spadSend (s : State) (t : Nat) (e : SpPend) : s.SameWarps (s.spadSend t e) := by
  obtain ⟨x, l, n, h⟩ := s.spadSend_only t e
  rw [h]
  exact ⟨rfl, rfl⟩

theorem State.sameWarps_spadNow (s : State) (t w : Nat) (e : SpPend) : s.SameWarps (s.spadNow t w e) :=
  (s.sameWarps_spadPut t e).trans ⟨rfl, rfl⟩

theorem State.sameWarps_commitSpad (s : State) (w : Nat) (b : Blk) : s.SameWarps (s.commitSpad w b) := by
  refine State.SameWarps.foldl (fun s t => State.SameWarps.foldl (fun s e => ?_) _ s) _ s
  split
  · exact s.sameWarps_spadNow t w e
  · exact s.sameWarps_spadSend t e

theorem State.sameWarps_commitStores (s : State) (w : Nat) (b : Blk) : s.SameWarps (s.commitStores w b) := ⟨rfl, rfl⟩

theorem State.sameWarps_sendPush (s : State) (w : Nat) (fence : Option (Scope × Bool)) (p : PushRes) : s.SameWarps (s.sendPush w fence p) := by
  unfold State.sendPush
  cases p.dst <;> exact ⟨rfl, rfl⟩

theorem State.sameWarps_sendPushes (s : State) (w : Nat) (b : Blk) : s.SameWarps (s.sendPushes w b) :=
  State.SameWarps.foldl (fun s p => s.sameWarps_sendPush w _ p) _ s

theorem State.sameWarps_modCounter (s : State) (c : CtrRef) (f : Counter → Counter) : s.SameWarps (s.modCounter c f) := by
  cases c <;> exact ⟨rfl, rfl⟩

/-- A write of a system register resolves no warp, but for one of `FAULTRES` (R427). -/
theorem State.sameWarps_sysWrite (s : State) {r : SysReg} (hr : ∀ c, r ≠ .faultRes c) (v : Word) : s.SameWarps (s.sysWrite r v) := by
  cases r with
  | faultRes c => exact absurd rfl (hr c)
  | lqctl q => exact ⟨rfl, rfl⟩
  | lscfg d => exact ⟨rfl, rfl⟩
  | ctxWord n => exact ⟨rfl, rfl⟩

theorem State.sameWarps_sysWrites {l : List (SysReg × Word)} (hl : ∀ p ∈ l, ∀ c, p.1 ≠ .faultRes c) (s : State) :
    s.SameWarps (l.foldl (fun (s : State) p => s.sysWrite p.1 p.2) s) := by
  induction l generalizing s with
  | nil => exact .refl s
  | cons p l ih => exact (s.sameWarps_sysWrite (hl p (.head _)) p.2).trans (ih (fun q hq => hl q (.tail _ hq)) _)

theorem State.sameWarps_modPerf (s : State) (w n : Nat) (f : EvCtr → EvCtr) : s.SameWarps (s.modPerf w n f) := by
  unfold State.modPerf
  dsimp only
  split
  · exact s.sameWarps_modCore ..
  · exact ⟨rfl, rfl⟩

theorem State.settles_acquire (s : State) (w : Nat) (sc : Scope) : s.Settles w (s.acquire w sc) := s.settles_park w _

theorem State.settles_commitEffects (s : State) (w : Nat) {b : Blk} (hsys : ∀ p ∈ b.deferred.syswr, ∀ c, p.1 ≠ .faultRes c) :
    s.Settles w (s.commitEffects w b) := by
  unfold State.commitEffects
  extract_lets d s1 sent s2 s3 s4 s5 s6
  have h1 : s.SameWarps s1 :=
    ((s.sameWarps_commitSpad w b).trans (State.sameWarps_commitStores _ w b)).trans (State.sameWarps_sendPushes _ w b)
  have h2 : s.SameWarps s2 := h1.trans ⟨rfl, rfl⟩
  have h3 : s.SameWarps s3 := h2.trans (State.SameWarps.foldl (fun s c => s.sameWarps_modCounter c _) _ s2)
  have h4 : s.SameWarps s4 := h3.trans (State.sameWarps_sysWrites hsys s3)
  have h5 : s.SameWarps s5 := h4.trans (State.SameWarps.foldl (fun (s : State) (p : Nat × PerfOp) => s.sameWarps_modPerf w p.1 _) _ s4)
  have h6 : s.Settles w s6 := (h5.settles w).settles (State.settles_foldl (fun s q => s.settles_acquire w _) _ s5)
  split
  · exact h6.settles (s6.settles_park w _)
  · exact h6

/-! What follows the effects. -/

theorem State.sameWarps_preload (s : State) (w n : Nat) (x : Option Scope) : s.SameWarps (s.preload w n x) := by
  unfold State.preload
  split
  · split
    · exact .refl s
    · exact ⟨rfl, rfl⟩
  · exact .refl s

theorem State.settles_acquireWaits (s : State) (w : Nat) (l : List WaitOn) : s.Settles w (s.acquireWaits w l) where
  mem := (s.alters_acquireWaits w l).mem
  length := (s.alters_acquireWaits w l).length
  other := (s.alters_acquireWaits w l).other
  here hw := by
    obtain ⟨n, h⟩ := (s.alters_acquireWaits w l).here hw
    exact ⟨_, _, n, h⟩

theorem State.settles_parkOn (s : State) (w : Nat) (bars : List (Scope × Nat)) (waits : List WaitOn) : s.Settles w (s.parkOn w bars waits) := by
  unfold State.parkOn
  extract_lets v
  have hv : s.Settles w v := State.settles_ite (s.settles_refl w) (s.settles_park w _)
  exact State.settles_ite hv (State.settles_ite (hv.settles (v.settles_acquireWaits w waits)) (hv.settles (v.settles_park w _)))

/-- Warp `w` keeps all but its seat. -/
abbrev State.Reseats (w : Nat) (s t : State) : Prop := s.Alters w (fun x y => ∃ z, y = { x with seat := z }) t

theorem State.reseats_refl (s : State) (w : Nat) : s.Reseats w s := (State.SameWarps.refl s).alters fun x => ⟨x.seat, rfl⟩

theorem State.reseats_freeSeat (s : State) (w : Nat) : s.Reseats w (s.freeSeat w) := by
  unfold State.freeSeat
  split
  · exact s.reseats_refl w
  · exact s.alters_modWarp w fun x => ⟨_, rfl⟩

theorem State.reseats_leaveSeat (s : State) (w : Nat) : s.Reseats w (s.leaveSeat w) := by
  unfold State.leaveSeat
  split
  · refine (s.reseats_freeSeat w).trans (State.alters_nowReady _ w) ?_
    rintro x _ _ ⟨_, rfl⟩ ⟨z, rfl⟩
    exact ⟨z, rfl⟩
  · exact s.reseats_refl w

theorem State.reseats_seatAfter (s : State) (w : Nat) (yield : Bool) : s.Reseats w (s.seatAfter w yield) := by
  unfold State.seatAfter
  extract_lets x
  split
  · exact s.reseats_refl w
  split
  · exact s.reseats_freeSeat w
  split
  · exact s.reseats_leaveSeat w
  · exact s.reseats_refl w

/-- A warp whose block is closed at tick `n`. -/
def Warp.closed (x : Warp) (b : Blk) (now : Nat) : Warp :=
  { x with blk := none, unchecked := false, commits := x.commits + 1, seat := { x.seat with ended := some now },
           begin_ := now + if b.deferred.mmode.isSome then 24 else 2 }

/-- The `stroke` of a block, for the warp that has one and has not retired. -/
def strokes (s : State) (w : Nat) (b : Blk) (x : Warp) : Warp :=
  match b.deferred.stroke with
  | some (_, slip) => if x.done then x else strokeCommit (s.launchOf w) (s.wRecon w) (s.localTick (s.place w).die) slip x
  | none => x

/-- How a warp stands after the commit of a block in which no trap fired: closed, parked as the block asked, and, with a `stroke`, parked for it. -/
def Committed (s : State) (w : Nat) (b : Blk) (x y : Warp) : Prop :=
  ∃ m z, (x.closed b (s.localTick (s.place w).die)).Settles m ∧ y = { strokes s w b m with seat := z }

theorem State.lt_of_blk? {b : Blk} (h : s.blk? w = some b) : w < s.warps.length := by
  obtain ⟨x, hx, -⟩ := Option.bind_eq_some_iff.mp h
  exact (List.getElem?_eq_some_iff.mp hx).1

/-- The commit of a block in which no trap fired. -/
theorem State.alters_finishCommit (s u : State) (w : Nat) {b : Blk} (uniform : Bool) (htrap : b.deferred.trap = none)
    (hsys : ∀ p ∈ b.deferred.syswr, ∀ c, p.1 ≠ .faultRes c) :
    u.Alters w (fun x y => ∃ q, x.Settles q ∧ Committed s w b q y) (s.finishCommit u w b uniform none) := by
  unfold State.finishCommit
  extract_lets old d p now u1 u2 isExit isEret bar next u3 bars waits u4 u5 u6 u7
  have h1 : u.Settles w u1 := (u.settles_commitEffects w hsys).settles ((State.sameWarps_countW _ w 2 1).settles w)
  have h2 : u1.Alters w (fun x y => y = x.closed b now) u2 := u1.alters_modWarp w fun _ => rfl
  have h3 : u2.SameWarps u3 := State.SameWarps.apply (f := fun v => v.preload w next b.xpath) (fun v => v.sameWarps_preload w _ _) u2 _
  have h4 : u3.Settles w u4 := State.settles_ite (u3.settles_refl w) (u3.settles_parkOn w bars waits)
  have h6 : u4.Alters w (fun x y => y = strokes s w b x) u6 := by
    have he : d.stroke = b.deferred.stroke := rfl
    unfold u6 strokes
    rw [he]
    cases b.deferred.stroke with
    | none => exact (State.SameWarps.refl u4).alters fun _ => rfl
    | some q =>
      dsimp only
      split
      next hdone =>
        have hdone : (u4.warp w).done = true := hdone
        exact ⟨rfl, rfl, fun _ _ => rfl, fun _ => (if_pos hdone).symm⟩
      next hdone =>
        have h : u4.Alters w _ _ := u4.alters_modWarp w (R := fun x y => y = strokeCommit (s.launchOf w) (s.wRecon w) now q.2 x) fun _ => rfl
        have hdone : ¬ (u4.warp w).done = true := hdone
        exact ⟨h.mem, h.length, h.other, fun hw => (h.here hw).trans (if_neg hdone).symm⟩
  have h7 : u7 = u6 := by
    have he : d.trap = none := htrap
    unfold u7
    rw [he]
  rw [h7]
  refine (h1.trans (Q := Committed s w b) ?_ fun x y z h g => ⟨y, h, g⟩)
  refine h2.trans ((h3.settles w).settles h4 |>.trans (P := fun x y => ∃ m z, x.Settles m ∧ y = { strokes s w b m with seat := z })
    (h6.trans (u6.reseats_seatAfter w d.yield) (P := fun x y => ∃ z, y = { strokes s w b x with seat := z }) ?_) ?_) ?_
  · rintro x _ _ rfl ⟨z, rfl⟩
    exact ⟨z, rfl⟩
  · rintro x m _ hm ⟨z, rfl⟩
    exact ⟨m, z, hm, rfl⟩
  · rintro x _ z rfl h
    exact h

/-! The branch of a block that goes on at block `n`. -/

theorem Warp.pathEnd_goes {x : Warp} (h : x.cj ≠ some x.next) : x.pathEnd maxDepth = x.owesGroup .group := if_pos (by simpa using h)

/-- A warp that goes on at a block. -/
def Warp.WentTo (n : Nat) (x y : Warp) : Prop := ∃ r, y = { x with next := n, refill := r }

/-- A warp whose successor is block `n`. -/
def Warp.aimed (n : Nat) (x : Warp) : Warp := { x with next := n }

/-- A warp whose path has ended where it joins. -/
def Warp.ended (x : Warp) : Warp := ({ x with refill := .none } : Warp).pathEnd maxDepth

theorem Warp.ended_aimed {x : Warp} {n : Nat} (h : x.cj ≠ some n) : Warp.WentTo n x (x.aimed n).ended :=
  ⟨_, Warp.pathEnd_goes (x := { x with next := n, refill := .none }) h⟩

theorem State.goTo_goes {n : Nat} (i : Nat) (hw : w < s.warps.length) (hblk : s.hasBlock w n = true) (hlive : (s.warp w).live ≠ 0)
    (hcj : (s.warp w).cj ≠ some n) :
    ∃ r, s.goTo w i n = .ok r ∧ r.st = { s with warps := r.st.warps } ∧ s.Alters w (Warp.WentTo n) r.st := by
  have h1 : s.Alters w (fun x y => y = Warp.aimed n x) (s.modWarp w (Warp.aimed n)) := s.alters_modWarp w fun _ => rfl
  have h2 := State.alters_modWarp (R := fun x y => y = Warp.ended x) (s.modWarp w (Warp.aimed n)) w (f := Warp.ended) fun _ => rfl
  have hhere : ((s.modWarp w (Warp.aimed n)).modWarp w Warp.ended).warp w = ((s.warp w).aimed n).ended :=
    (h2.here (h1.length ▸ hw)).trans (congrArg Warp.ended (h1.here hw))
  have hwent := Warp.ended_aimed hcj
  have hgo : s.goTo w i n = .ok { st := (s.modWarp w (Warp.aimed n)).modWarp w Warp.ended, uniform := (s.warp w).cj.isNone } := by
    refine (if_neg (by simp [hblk])).trans (congrArg (fun u => (Except.ok (Succ.mk u (s.warp w).cj.isNone) : Except FRec Succ)) (if_neg fun h => ?_))
    obtain ⟨r, hr⟩ := hwent
    exact hlive ((congrArg Warp.live (hhere.trans hr)).symm.trans h.1)
  exact ⟨_, hgo, rfl, h2.mem.trans h1.mem, h2.length.trans h1.length, fun v hv => (h2.other v hv).trans (h1.other v hv),
    fun _ => hhere.symm ▸ hwent⟩

end

end Sys2Proof.Machine
end

section
/-! What a commit writes of its warp (R37, R45, R118, R167). -/

namespace Sys2Proof.Machine

/-- `y` is `x`, but for its registers and what they are poisoned with. -/
def Warp.Rewritten (x y : Warp) : Prop := ∃ v s k p, y = { x with v := v, s := s, k := k, poison := p }

theorem Warp.Rewritten.refl (x : Warp) : x.Rewritten x := ⟨x.v, x.s, x.k, x.poison, rfl⟩

theorem Warp.rewritten_writeReg (x : Warp) (live : Word) (r : Nat × Nat) (t : Token) : x.Rewritten (x.writeReg live r t) := by
  unfold Warp.writeReg
  split
  · exact .refl x
  split
  · exact ⟨_, x.s, x.k, _, rfl⟩
  · split
    · exact .refl x
    · exact ⟨x.v, _, x.k, _, rfl⟩
  · split
    · exact .refl x
    · exact ⟨x.v, x.s, _, _, rfl⟩
  · exact .refl x

theorem Warp.rewritten_writeSlots (x : Warp) (b : Blk) : x.Rewritten (x.writeSlots b) := by
  unfold Warp.writeSlots
  suffices h : ∀ (l : List Nat) (y : Warp), x.Rewritten y → x.Rewritten (l.foldl (fun (y : Warp) n => match b.wr.getD n none, b.out? n with
      | some r, some t => y.writeReg x.live r t
      | _, _ => y) y) from h _ x (.refl x)
  intro l
  induction l with
  | nil => exact fun y h => h
  | cons n l ih =>
    refine fun y h => ih _ ?_
    dsimp only
    split
    next r t _ _ =>
      obtain ⟨_, _, _, _, rfl⟩ := h
      obtain ⟨v, s, k, p, hy⟩ := Warp.rewritten_writeReg _ x.live r t
      exact ⟨v, s, k, p, hy⟩
    · exact h

/-- `WST` after a block: `wstclr` clears it before `RANGE` is set. -/
def Blk.wst (b : Blk) (old : Word) : Word :=
  let old := if b.deferred.wstclr then 0 else old
  if b.deferred.range then old ||| 1 else old

/-- `fmt` after a block. -/
def Blk.fmt (b : Blk) (old : Word) : Word :=
  match b.deferred.fmt with
  | some (_, form, a) => fmtWrite form old a
  | none => old

/-- `mreg` after a block. -/
def Blk.mreg (b : Blk) (old : Word) : Word :=
  match b.deferred.mmode with
  | some (_, on, en1, a0, a1) => mregPack on en1 a0 a1
  | none => old

/-- What a block writes: the registers of its write slots, and `fmt`, `mreg` and `WST` as its instructions asked. -/
theorem Warp.commitRegs_eq (x : Warp) (b : Blk) : ∃ p l0 l1 r, x.commitRegs b =
    { x.writeSlots b with fmt := b.fmt x.fmt, wst := b.wst x.wst, mreg := b.mreg x.mreg, poison := p, latch0 := l0, latch1 := l1, trap := r } := by
  obtain ⟨v, s, k, p, hx⟩ := x.rewritten_writeSlots b
  have hfmt : (x.writeSlots b).fmt = x.fmt := by rw [hx]
  have hwst : (x.writeSlots b).wst = x.wst := by rw [hx]
  have hmreg : (x.writeSlots b).mreg = x.mreg := by rw [hx]
  rw [← hfmt, ← hwst, ← hmreg]
  unfold Warp.commitRegs Blk.mreg
  extract_lets d y fmt wst wst' gone y1 y2
  have h2 : ∃ q l0 l1, y2 = { y with fmt := b.fmt y.fmt, wst := b.wst y.wst, mreg := b.mreg y.mreg, poison := q, latch0 := l0,
                                     latch1 := l1 } := by
    have he : d.mmode = b.deferred.mmode := rfl
    unfold y2 Blk.mreg
    rw [he]
    cases b.deferred.mmode with
    | none => exact ⟨_, _, _, rfl⟩
    | some q =>
      dsimp only
      split <;> exact ⟨_, _, _, rfl⟩
  obtain ⟨q, l0, l1, h2⟩ := h2
  unfold Blk.mreg at h2
  split
  · split
    · exact ⟨q, l0, l1, _, by rw [h2]⟩
    · exact ⟨q, l0, l1, _, h2⟩
  · exact ⟨q, l0, l1, _, h2⟩

section
variable {s : State} {w : Nat} {b : Blk} {n : Nat}

/-- The warp of a block in which no trap fired, after its commit: the block's registers are written, and the warp goes on at the successor. -/
def WentOn (s : State) (w : Nat) (b : Blk) (n : Nat) (x y : Warp) : Prop :=
  ∃ r q, ({ x.commitRegs b with next := n, refill := r } : Warp).Settles q ∧ Committed s w b q y

theorem State.takenTrap_none (h : b.deferred.trap = none) : s.takenTrap w b = none := by
  unfold State.takenTrap
  rw [h]
  rfl

theorem Warp.commitRegs_keeps (x : Warp) (b : Blk) : (x.commitRegs b).team = x.team ∧ (x.commitRegs b).live = x.live ∧ (x.commitRegs b).cj = x.cj ∧
    (x.commitRegs b).done = x.done ∧ (x.commitRegs b).timed = x.timed := by
  obtain ⟨v, t, k, p, hx⟩ := x.rewritten_writeSlots b
  obtain ⟨p', l0, l1, r, h⟩ := x.commitRegs_eq b
  rw [h, hx]
  exact ⟨rfl, rfl, rfl, rfl, rfl⟩

theorem State.hasBlock_modWarp {f : Warp → Warp} (hf : ∀ x, (f x).team = x.team) (s : State) (v w n : Nat) :
    (s.modWarp v f).hasBlock w n = s.hasBlock w n := by
  have h := State.place_modWarp hf s v w
  simp only [State.hasBlock, State.objOf, State.launchOf, h]
  rfl

theorem Warp.commitRegs_writes (x : Warp) (b : Blk) : (x.commitRegs b).v = (x.writeSlots b).v ∧ (x.commitRegs b).s = (x.writeSlots b).s ∧
    (x.commitRegs b).k = (x.writeSlots b).k ∧ (x.commitRegs b).fmt = b.fmt x.fmt ∧ (x.commitRegs b).mreg = b.mreg x.mreg ∧
    (x.commitRegs b).wst = b.wst x.wst := by
  obtain ⟨p, l0, l1, r, h⟩ := x.commitRegs_eq b
  rw [h]
  exact ⟨rfl, rfl, rfl, rfl, rfl, rfl⟩

/-- The successor of a block whose branch names a block that is present. -/
theorem State.succOf_goes (hc : s.Commits w b) (hg : s.GoesTo w b n) :
    ∃ u, s.succOf w b = .ok u ∧ u.st = { s with warps := u.st.warps } ∧
      s.Alters w (fun x y => ∃ r, y = { x.commitRegs b with next := n, refill := r }) u.st := by
  obtain ⟨hbr, hblk, hlive, hcj⟩ := hg
  obtain ⟨⟨i, sel⟩, hsel, rfl⟩ := Option.map_eq_some_iff.mp hbr
  have hw := State.lt_of_blk? hc.1
  have h1 : s.Alters w (fun x y => y = x.commitRegs b) (s.modWarp w fun x => x.commitRegs b) := s.alters_modWarp w fun _ => rfl
  obtain ⟨-, hl, hj, -, -⟩ := (s.warp w).commitRegs_keeps b
  obtain ⟨u, hu, hst, h2⟩ := State.goTo_goes (s := s.modWarp w fun x => x.commitRegs b) (w := w) (n := n) i (h1.length ▸ hw)
    ((State.hasBlock_modWarp (f := fun x => x.commitRegs b) (fun x => (x.commitRegs_keeps b).1) s w w n).trans hblk)
    (by rw [h1.here hw, hl]; exact hlive) (by rw [h1.here hw, hj]; exact hcj)
  refine ⟨u, (State.succOf_branch hsel (by simp)).trans hu, hst, h1.trans h2 ?_⟩
  rintro x _ z rfl h
  exact h

/-- The state that a block commits to, from one in which its registers are written and its successor is chosen. -/
theorem State.commits_finish (hc : s.Commits w b) (hg : s.GoesTo w b n) (hf : s.commitFaults w b = []) (htrap : b.deferred.trap = none) :
    ∃ u : Succ, exec (.blockCommit w) s = .next (s.finishCommit u.st w b u.uniform none) ∧ u.st = { s with warps := u.st.warps } ∧
      s.Alters w (fun x y => ∃ r, y = { x.commitRegs b with next := n, refill := r }) u.st := by
  obtain ⟨u, hu, hst, h⟩ := State.succOf_goes hc hg
  exact ⟨u, by rw [exec_blockCommit hc, State.commit_goes hf hu, State.takenTrap_none htrap], hst, h⟩

theorem State.commits_goes (hc : s.Commits w b) (hg : s.GoesTo w b n) (hf : s.commitFaults w b = []) (htrap : b.deferred.trap = none)
    (hsys : ∀ p ∈ b.deferred.syswr, ∀ c, p.1 ≠ .faultRes c) :
    ∃ t, exec (.blockCommit w) s = .next t ∧ s.Alters w (WentOn s w b n) t := by
  obtain ⟨u, hu, -, h⟩ := State.commits_finish hc hg hf htrap
  refine ⟨_, hu, h.trans (s.alters_finishCommit u.st w u.uniform htrap hsys) ?_⟩
  rintro x _ z ⟨r, rfl⟩ ⟨q, hq, hz⟩
  exact ⟨r, q, hq, hz⟩

/-- What the commit of a block leaves as the block wrote it, whether or not its warp then parks at a boundary. -/
theorem WentOn.keeps {x y : Warp} (h : WentOn s w b n x y) : ∃ m z, y = { strokes s w b m with seat := z } ∧ m.blk = none ∧ m.next = n ∧
    m.live = x.live ∧ m.begin_ = s.localTick (s.place w).die + (if b.deferred.mmode = none then 2 else 24) ∧ m.v = (x.writeSlots b).v ∧
    m.s = (x.writeSlots b).s ∧ m.k = (x.writeSlots b).k ∧ m.fmt = b.fmt x.fmt ∧ m.mreg = b.mreg x.mreg ∧ m.wst = b.wst x.wst ∧
    m.timed = x.timed ∧ m.done = x.done := by
  obtain ⟨r, _, ⟨p, z, k, rfl⟩, _, z', ⟨p', z'', k', rfl⟩, rfl⟩ := h
  obtain ⟨-, hlive, -, hdone, htimed⟩ := x.commitRegs_keeps b
  obtain ⟨hv, hs, hk, hfmt, hmreg, hwst⟩ := x.commitRegs_writes b
  refine ⟨_, z', rfl, rfl, rfl, hlive, ?_, hv, hs, hk, hfmt, hmreg, hwst, htimed, hdone⟩
  cases h : b.deferred.mmode <;> simp [Warp.closed, h]

theorem State.blk?_eq_none {t : State} (h : (t.warp w).blk = none) : t.blk? w = none := by
  unfold State.warp at h
  unfold State.blk?
  rw [List.getD_eq_getElem?_getD] at h
  cases hx : t.warps[w]? with
  | none => rfl
  | some x => exact (congrArg (fun o : Option Warp => (o.getD default).blk) hx).symm.trans h

theorem State.Alters.getElem? {t : State} {R : Warp → Warp → Prop} (h : s.Alters w R t) {v : Nat} (hv : v ≠ w) : t.warps[v]? = s.warps[v]? := by
  by_cases hlt : v < s.warps.length
  · have hat := h.other v hv
    have hlt' : v < t.warps.length := h.length ▸ hlt
    simp only [State.warp, List.getD_eq_getElem?_getD, List.getElem?_eq_getElem hlt, List.getElem?_eq_getElem hlt', Option.getD_some] at hat ⊢
    rw [hat]
  · rw [List.getElem?_eq_none (not_lt.mp fun h' => hlt (h.length ▸ h')), List.getElem?_eq_none (not_lt.mp hlt)]

/-! `stroke`. -/

section
variable (l : LaunchRec) (c now : Nat) (slip : Bool) (x : Warp)

/-- The boundary after count `c`. -/
def LaunchRec.nextBoundary (l : LaunchRec) (c : Nat) : Nat := l.strokeS * (c / l.strokeS + 1)

/-- A warp that a `stroke` parks until boundary `bt`. -/
def Warp.strokePark (x : Warp) (now bt : Nat) : Warp :=
  { x with park := { x.park with stroke := some bt }, timed := { x.timed with parkedAt := now, strokes := x.timed.strokes + 1 } }

theorem strokeCommit_untimed (h : l.timed = false) : strokeCommit l c now slip x = x.strokePark now (l.nextBoundary c) := if_pos (by simp [h])

theorem strokeCommit_early (h : l.timed = true) (hc : c < x.timed.bt) : strokeCommit l c now slip x =
    { x.strokePark now x.timed.bt with timed := { (x.strokePark now x.timed.bt).timed with bt := x.timed.bt + l.strokeS } } :=
  (if_neg (by simp [h])).trans (if_pos hc)

theorem strokeCommit_slipped (h : l.timed = true) (hc : x.timed.bt ≤ c) (hs : slip = true) : strokeCommit l c now slip x =
    { x.strokePark now (l.nextBoundary c) with
      wst := wstSlip x.wst ((l.nextBoundary c - x.timed.bt) / l.strokeS),
      timed := { (x.strokePark now (l.nextBoundary c)).timed with bt := l.nextBoundary c + l.strokeS } } :=
  ((if_neg (by simp [h])).trans (if_neg (by omega))).trans (if_pos hs)

end

/-- A `stroke` changes how its warp is parked, its `WST` and its timed state. -/
theorem strokeCommit_only (l : LaunchRec) (c now : Nat) (slip : Bool) (x : Warp) :
    ∃ p n d, strokeCommit l c now slip x = { x with park := p, wst := n, timed := d } := by
  unfold strokeCommit
  extract_lets len nb park y z
  split
  · exact ⟨_, _, _, rfl⟩
  split
  · exact ⟨_, _, _, rfl⟩
  split
  · exact ⟨_, _, _, rfl⟩
  · exact ⟨_, _, _, rfl⟩

/-- `WST.SLIP` counts up to 65,535, and the rest of `WST` stays. -/
theorem fld_wstSlip (old : Word) (k : Nat) : fld (wstSlip old k) 48 16 = min 65535 (fld old 48 16 + k) ∧ fld (wstSlip old k) 0 48 = fld old 0 48 := by
  refine ⟨(fld_setFld_self (by decide) ..).trans (Nat.mod_eq_of_lt ?_), fld_setFld_below (by decide) (by decide) ..⟩
  exact Nat.lt_of_le_of_lt (Nat.min_le_left ..) (by decide)

/-- A `stroke` past its boundary commits only when it may slip. -/
theorem State.slips_of_commitFaults {i : Nat} {slip : Bool} (hf : s.commitFaults w b = []) (hs : b.deferred.stroke = some (i, slip))
    (ht : (s.launchOf w).timed = true) (hle : (s.warp w).timed.bt ≤ s.wRecon w) : slip = true := by
  unfold State.commitFaults at hf
  rw [hs] at hf
  simp only [List.append_eq_nil_iff] at hf
  obtain ⟨⟨⟨-, hover, -⟩, -⟩, -⟩ := hf
  by_contra hslip
  simp [ht, hle, hslip] at hover

theorem strokes_some {i : Nat} {slip : Bool} (hs : b.deferred.stroke = some (i, slip)) {x : Warp} (hd : x.done = false) :
    strokes s w b x = strokeCommit (s.launchOf w) (s.wRecon w) (s.localTick (s.place w).die) slip x := by
  unfold strokes
  rw [hs]
  exact if_neg (by simp [hd])

theorem strokes_none (hs : b.deferred.stroke = none) (x : Warp) : strokes s w b x = x := by
  unfold strokes
  rw [hs]

end

/-- Settles O38: what the commit does after the registers are written leaves them, and a `stroke` parks the warp as its case says. -/
theorem commitWritesRegisters : Obligations.CommitWritesRegisters := by
  unfold Obligations.CommitWritesRegisters
  refine ⟨?plain, ?stroke⟩
  case plain =>
    intro s w b n hc hg hf htrap hstroke hsys
    obtain ⟨t, hexec, h⟩ := State.commits_goes hc hg hf htrap hsys
    have hw := State.lt_of_blk? hc.1
    obtain ⟨m, z, hy, hblk, hnext, hlive, hbegin, hv, hs, hk, hfmt, hmreg, hwst, -, -⟩ := (h.here hw).keeps
    rw [strokes_none hstroke] at hy
    refine ⟨t, hexec, State.blk?_eq_none (by rw [hy]; exact hblk), ?_⟩
    rw [hy]
    refine ⟨hnext, hlive, hbegin, hv, hs, hk, fun i form a hd => ?_, fun hd => ?_, fun i on en1 a0 a1 hd => ?_, fun hd => ?_, hwst, fun v y hv hget => ?_⟩
    · exact hfmt.trans (by unfold Blk.fmt; rw [hd])
    · exact hfmt.trans (by unfold Blk.fmt; rw [hd])
    · exact hmreg.trans (by unfold Blk.mreg; rw [hd])
    · exact hmreg.trans (by unfold Blk.mreg; rw [hd])
    · exact ⟨y, (h.getElem? hv).trans hget, rfl, rfl, rfl⟩
  case stroke =>
    intro s w b n i slip hc hg hf htrap hstroke hdone hsys
    obtain ⟨t, hexec, h⟩ := State.commits_goes hc hg hf htrap hsys
    have hw := State.lt_of_blk? hc.1
    obtain ⟨m, z, hy, hblk, hnext, -, -, -, -, -, -, -, hwst, htimed, hd⟩ := (h.here hw).keeps
    rw [strokes_some hstroke (hd.trans hdone)] at hy
    have hbt : (s.warp w).timed.bt = m.timed.bt := congrArg TimedW.bt htimed.symm
    have hst : (s.warp w).timed.strokes = m.timed.strokes := congrArg TimedW.strokes htimed.symm
    have hslip := State.slips_of_commitFaults hf hstroke
    obtain ⟨p, x, d, honly⟩ := strokeCommit_only (s.launchOf w) (s.wRecon w) (s.localTick (s.place w).die) slip m
    rw [hbt] at hslip
    dsimp only
    rw [hbt, hst]
    refine ⟨t, hexec, State.blk?_eq_none (by rw [hy, honly]; exact hblk), by rw [hy, honly]; exact hnext, ?_⟩
    rw [hy]
    cases htimed : (s.launchOf w).timed with
    | false =>
      rw [strokeCommit_untimed _ _ _ _ _ htimed]
      exact ⟨rfl, rfl, fun _ => ⟨rfl, hwst⟩, fun h => (nomatch h), fun h => (nomatch h)⟩
    | true =>
      rcases lt_or_ge (s.wRecon w) m.timed.bt with hlt | hge
      · rw [strokeCommit_early _ _ _ _ _ htimed hlt]
        exact ⟨rfl, rfl, fun h => (nomatch h), fun _ _ => ⟨rfl, rfl, hwst⟩, fun _ h => absurd hlt (not_lt.mpr h)⟩
      · rw [strokeCommit_slipped _ _ _ _ _ htimed hge (hslip htimed hge)]
        obtain ⟨hslipped, hrest⟩ := fld_wstSlip m.wst (((s.launchOf w).nextBoundary (s.wRecon w) - m.timed.bt) / (s.launchOf w).strokeS)
        rw [hwst] at hslipped hrest
        exact ⟨rfl, rfl, fun h => (nomatch h), fun _ h => absurd h (not_lt.mpr hge), fun _ _ => ⟨rfl, rfl, hwst ▸ hslipped, hwst ▸ hrest⟩⟩

end Sys2Proof.Machine
end

section
/-! What of a commit writes the scratchpads, the requests to the caches and the command queues (R45): each part writes its own. -/

namespace Sys2Proof.Machine

/-- A reading of the state into which neither the warps nor the cores nor the transfers under way enter. -/
structure View {α : Type} (π : State → α) : Prop where
  warps : ∀ (s : State) x, π { s with warps := x } = π s
  cores : ∀ (s : State) x, π { s with cores := x } = π s
  tsends : ∀ (s : State) x, π { s with tsends := x } = π s

section
variable {α : Type} {π : State → α} (hπ : View π) (s : State) (w : Nat)
include hπ

theorem View.modWarp (f : Warp → Warp) : π (s.modWarp w f) = π s := hπ.warps s _

theorem View.modCore (d c : Nat) (f : Core → Core) : π (s.modCore d c f) = π s := by
  unfold State.modCore
  split <;> exact hπ.cores s _

theorem View.countW (src n : Nat) : π (s.countW w src n) = π s := by
  unfold State.countW State.countCore
  split
  · rfl
  split
  · rfl
  · exact hπ.modCore s _ _ _

theorem View.freeSeat : π (s.freeSeat w) = π s := by
  unfold State.freeSeat
  split
  · rfl
  · exact hπ.modWarp s w _

theorem View.leaveSeat : π (s.leaveSeat w) = π s := by
  unfold State.leaveSeat
  split
  · exact (hπ.modWarp _ w _).trans (hπ.freeSeat s w)
  · rfl

theorem View.seatAfter (yield : Bool) : π (s.seatAfter w yield) = π s := by
  unfold State.seatAfter
  extract_lets x
  split
  · rfl
  split
  · exact hπ.freeSeat s w
  split
  · exact hπ.leaveSeat s w
  · rfl

/-- With nothing deferred the effects of a block are its stores, its pushes, and what its atomics have the warp wait for. -/
theorem View.commitEffects {b : Blk} (hd : b.deferred = {}) :
    π (s.commitEffects w b) = π (((s.commitSpad w b).commitStores w b).sendPushes w b) := by
  unfold State.commitEffects
  rw [hd]
  extract_lets d s1 sent s2 s3 s4 s5 s6
  have h2 : π s2 = π s1 := hπ.tsends s1 _
  have h5 : s5 = s2 := rfl
  have h6 : π s6 = π s2 := h5 ▸ foldl_field π _ (fun s q => hπ.modWarp s w _) _ s5
  split
  · exact (hπ.modWarp s6 w _).trans (h6.trans h2)
  · exact h6.trans h2

end

theorem State.objOf_modWarp {f : Warp → Warp} (hf : ∀ x, (f x).team = x.team) (s : State) (w : Nat) : (s.modWarp w f).objOf w = s.objOf w := by
  have h := State.place_modWarp hf s w w
  simp only [State.objOf, State.launchOf, h]
  rfl

theorem State.objOf_countW (s : State) (w src n : Nat) : (s.countW w src n).objOf w = s.objOf w := by
  unfold State.countW State.countCore State.modCore
  split
  · rfl
  split
  · rfl
  split <;> rfl

/-- The commit of a block that defers nothing shows a view what the stores and pushes show it, and its successor's preload. -/
theorem View.finishCommit {α : Type} {π : State → α} (hπ : View π) (s u : State) (w : Nat) {b : Blk} (uniform : Bool) (hd : b.deferred = {})
    (hpre : ∀ (v : State) n x, v.objOf w = (u.commitEffects w b).objOf w → π (v.preload w n x) = π v) :
    π (s.finishCommit u w b uniform none) = π (((u.commitSpad w b).commitStores w b).sendPushes w b) := by
  unfold State.finishCommit
  extract_lets old d p now u1 u2 isExit isEret bar next u3 bars waits u4 u5 u6 u7
  have h1 : π u1 = π (u.commitEffects w b) := hπ.countW _ w 2 1
  have h2 : π u2 = π u1 := hπ.modWarp u1 w _
  have hobj : u2.objOf w = (u.commitEffects w b).objOf w :=
    (State.objOf_modWarp (f := fun x => x.closed b now) (fun _ => rfl) u1 w).trans (State.objOf_countW _ w 2 1)
  have h3 : π u3 = π u2 := by
    unfold u3
    split
    · exact hpre u2 next b.xpath hobj
    · rfl
  have hpark : π (u3.parkOn w bars waits) = π u3 := by
    unfold State.parkOn
    extract_lets v
    have hv : π v = π u3 := by
      unfold v
      split
      · rfl
      · exact hπ.modWarp u3 w _
    split
    · exact hv
    split
    · unfold State.acquireWaits
      exact (hπ.modWarp _ w _).trans ((foldl_field π _ (fun s q => hπ.modWarp s w _) _ v).trans hv)
    · exact (hπ.modWarp v w _).trans hv
  have h4 : π u4 = π u3 := by
    unfold u4
    split
    · rfl
    · exact hpark
  have h6 : u6 = u4 := by
    have he : d.stroke = none := congrArg Deferred.stroke hd
    unfold u6
    rw [he]
    rfl
  have h7 : u7 = u6 := by
    have he : d.trap = none := congrArg Deferred.trap hd
    unfold u7
    rw [he]
  rw [hπ.seatAfter, h7, h6, h4, h3, h2, h1, hπ.commitEffects u w hd]

/-! The views. -/

/-- What the scratchpads hold, with the writes that wait. -/
def State.pads (s : State) : List (Memory × List SpPend) := s.teams.map fun x => (x.spad, x.pend)

/-- The requests to the caches. -/
def State.asks (s : State) : List DReq := s.cache.dreqs

/-- The command counters and queues of the teams, with the entries reserved in them. -/
def State.sends (s : State) : List (Counter × List CopyCmd × Nat) := s.teams.map fun x => (x.tlc, x.queue, x.reserved)

theorem view_pads : View State.pads := ⟨fun _ _ => rfl, fun _ _ => rfl, fun _ _ => rfl⟩
theorem view_asks : View State.asks := ⟨fun _ _ => rfl, fun _ _ => rfl, fun _ _ => rfl⟩
theorem view_sends : View State.sends := ⟨fun _ _ => rfl, fun _ _ => rfl, fun _ _ => rfl⟩

section
variable (s : State)

theorem getD_of_map_eq {α β : Type} {g : α → β} {l r : List α} (h : l.map g = r.map g) (n : Nat) (d : α) : g (l.getD n d) = g (r.getD n d) := by
  rw [← List.getD_map (f := g), h, List.getD_map]

theorem State.pads_modTeam (k : Nat) {f : Team → Team} (hf : ∀ x, (f x).spad = x.spad ∧ (f x).pend = x.pend) : (s.modTeam k f).pads = s.pads :=
  map_modify_of_eq (f := f) (g := fun x : Team => (x.spad, x.pend)) (fun x => Prod.ext (hf x).1 (hf x).2) s.teams k

theorem State.pads_sendPush (w : Nat) (fence : Option (Scope × Bool)) (p : PushRes) : (s.sendPush w fence p).pads = s.pads := by
  unfold State.sendPush
  cases p.dst with
  | copy t => exact s.pads_modTeam _ fun _ => ⟨rfl, rfl⟩
  | coll => rfl
  | launch q => rfl

theorem State.pads_sendPushes (w : Nat) (b : Blk) : (s.sendPushes w b).pads = s.pads :=
  foldl_field State.pads _ (fun s p => s.pads_sendPush w _ p) _ s

theorem State.pads_preload (w n : Nat) (x : Option Scope) : (s.preload w n x).pads = s.pads := by
  unfold State.preload
  split
  · split
    · rfl
    · refine s.pads_modTeam _ fun t => ?_
      dsimp only
      split <;> exact ⟨rfl, rfl⟩
  · rfl

theorem State.asks_sendPushes (w : Nat) (b : Blk) : (s.sendPushes w b).asks = s.asks := by
  refine foldl_field State.asks _ (fun s p => ?_) _ s
  unfold State.sendPush
  cases p.dst <;> rfl

theorem State.asks_preload (w n : Nat) (x : Option Scope) : (s.preload w n x).asks = s.asks := by
  unfold State.preload
  split
  · split <;> rfl
  · rfl

/-- Where the units stand, what the launches run, and where the pages have their homes. -/
def State.ground (s : State) : List (Nat × Nat) × List Gang × List Region × List Grid × List CodeObj × Xlat :=
  (s.teams.map fun x => (x.gang, x.core), s.gangs, s.regions, s.grids, s.objs, s.xl)

theorem view_ground : View State.ground := ⟨fun _ _ => rfl, fun _ _ => rfl, fun _ _ => rfl⟩

theorem State.ground_modTeam (k : Nat) {f : Team → Team} (hf : ∀ x, (f x).gang = x.gang ∧ (f x).core = x.core) : (s.modTeam k f).ground = s.ground :=
  congrArg (fun l => (l, s.gangs, s.regions, s.grids, s.objs, s.xl))
    (map_modify_of_eq (f := f) (g := fun x : Team => (x.gang, x.core)) (fun x => Prod.ext (hf x).1 (hf x).2) s.teams k)

/-- A change of what a team's scratchpad holds or is to hold. -/
def Fills (f : Team → Team) : Prop := ∀ x, ∃ m p q, f x = { x with spad := m, spPoison := p, pend := q }

/-- A block's writes to scratchpads show in no reading that the scratchpads, the landings and the free values do not enter. -/
theorem State.unseen_commitSpad {α : Type} {π : State → α} (hteam : ∀ (s : State) k f, Fills f → π (s.modTeam k f) = π s)
    (hland : ∀ (s : State) l n, π { s with landings := l, fresh := n } = π s) (w : Nat) (b : Blk) : π (s.commitSpad w b) = π s := by
  have hput : ∀ (s : State) k e, π (s.spadPut k e) = π s := fun s k e => by
    unfold State.spadPut
    extract_lets live patch v
    have hv : π v = π s := hteam s k _ fun x => ⟨_, _, x.pend, rfl⟩
    split
    · exact hv
    · exact (hland v _ _).trans hv
  refine foldl_field π _ (fun s k => foldl_field π _ (fun s e => ?_) _ s) _ s
  split
  · exact (hteam _ k (fun x => x.pendCut w e.bytes) fun x => ⟨x.spad, x.spPoison, _, rfl⟩).trans (hput s k e)
  · unfold State.spadSend
    split
    · exact hput s k e
    · exact hteam s k _ fun x => ⟨x.spad, x.spPoison, _, rfl⟩

theorem State.ground_commitSpad (w : Nat) (b : Blk) : (s.commitSpad w b).ground = s.ground :=
  s.unseen_commitSpad (fun s k f hf => s.ground_modTeam k fun x => by obtain ⟨m, p, q, h⟩ := hf x; rw [h]; exact ⟨rfl, rfl⟩)
    (fun _ _ _ => rfl) w b

theorem State.asks_commitSpad (w : Nat) (b : Blk) : (s.commitSpad w b).asks = s.asks :=
  s.unseen_commitSpad (fun _ _ _ _ => rfl) (fun _ _ _ => rfl) w b

theorem State.sends_modTeam (k : Nat) {f : Team → Team} (hf : ∀ x, (f x).tlc = x.tlc ∧ (f x).queue = x.queue ∧ (f x).reserved = x.reserved) :
    (s.modTeam k f).sends = s.sends :=
  map_modify_of_eq (f := f) (g := fun x : Team => (x.tlc, x.queue, x.reserved))
    (fun x => Prod.ext (hf x).1 (Prod.ext (hf x).2.1 (hf x).2.2)) s.teams k

theorem State.sends_commitSpad (w : Nat) (b : Blk) : (s.commitSpad w b).sends = s.sends :=
  s.unseen_commitSpad (fun s k f hf => s.sends_modTeam k fun x => by obtain ⟨m, p, q, h⟩ := hf x; rw [h]; exact ⟨rfl, rfl, rfl⟩)
    (fun _ _ _ => rfl) w b

/-! What stands on that ground. -/

variable {s} {t : State} {w : Nat}

theorem State.place_of_ground (h : t.ground = s.ground) (hw : (t.warp w).team = (s.warp w).team) : t.place w = s.place w := by
  obtain ⟨ht, hg, hr, hgr, -, -⟩ : _ ∧ _ ∧ _ ∧ _ ∧ _ ∧ _ := by simpa only [State.ground, Prod.mk.injEq] using h
  have hteam := getD_of_map_eq ht (s.warp w).team default
  obtain ⟨hgang, hcore⟩ := Prod.mk.inj hteam
  simp only [State.place, State.teamPlace, State.team, State.gang, State.region, State.grid, hw, hg, hr, hgr, hgang, hcore]

theorem State.objOf_of_ground (h : t.ground = s.ground) (hw : (t.warp w).team = (s.warp w).team) : t.objOf w = s.objOf w := by
  have hp := State.place_of_ground h hw
  obtain ⟨-, -, -, hgr, ho, -⟩ : _ ∧ _ ∧ _ ∧ _ ∧ _ ∧ _ := by simpa only [State.ground, Prod.mk.injEq] using h
  simp only [State.objOf, State.obj?, State.launchOf, State.grid, hp, hgr, ho]

theorem State.homeOf_of_ground (h : t.ground = s.ground) (ctx va : Nat) : t.homeOf ctx va = s.homeOf ctx va := by
  obtain ⟨-, -, -, -, -, hx⟩ : _ ∧ _ ∧ _ ∧ _ ∧ _ ∧ _ := by simpa only [State.ground, Prod.mk.injEq] using h
  simp only [State.homeOf, State.homeEntry, hx]

end

/-! One scratchpad store, one global store. -/

/-- The write to a scratchpad that one buffered store makes. -/
def State.onlyPend (s : State) (w : Nat) (b : Blk) (p : SpStore) : SpPend :=
  { warp := some w, job := none, stamp := s.stampOf w p.mseq, rel := p.rel,
    bytes := placeBytes p.ofs (leBytes 4 p.val.toNat), poison := if p.team = (s.warp w).team then b.mstP.dedup.filter fun o => o / 128 == p.ofs / 128 else [] }

theorem State.spadGroups_other {s : State} {w : Nat} {b : Blk} {p : SpStore} (hs : b.sps = [p]) (hm : b.mst = []) {k : Nat} (hk : p.team ≠ k) :
    s.spadGroups w b k = [] := by
  unfold State.spadGroups
  rw [hs, hm]
  simp [hk, knotSpad]

theorem State.spadGroups_self {s : State} {w : Nat} {b : Blk} {p : SpStore} (hs : b.sps = [p]) (hm : b.mst = []) :
    s.spadGroups w b p.team = [s.onlyPend w b p] := by
  unfold State.spadGroups State.onlyPend
  rw [hs, hm]
  simp [knotSpad]
  refine ⟨?_, rfl, by split <;> rfl⟩
  cases p.rel <;> rfl

/-- A block whose only scratchpad store is `p` makes that write. -/
theorem State.commitSpad_only {s : State} {w : Nat} {b : Blk} {p : SpStore} (hs : b.sps = [p]) (hm : b.mst = []) :
    s.commitSpad w b = s.spadSend p.team (s.onlyPend w b p) := by
  unfold State.commitSpad
  rw [hs, hm]
  by_cases hk : (s.warp w).team = p.team
  · simp [hk, State.spadGroups_self hs hm]
  · simp [hk, State.spadGroups_self hs hm, State.spadGroups_other hs hm (Ne.symm hk)]

/-- The scratchpad of a team as a warp sees it: its own writes that wait, one after the other. -/
theorem State.seen_spad (s : State) (w k : Nat) : (s.seen w k).spad =
    ((s.team k).pend.filter fun e => e.warp == some w).foldl (fun m e => setBytes m e.bytes) (s.team k).spad := by
  unfold State.seen
  generalize (s.team k).pend.filter (fun e => e.warp == some w) = l
  generalize s.team k = x
  induction l generalizing x with
  | nil => rfl
  | cons e l ih => exact ih (x.put e)

/-- Bytes written last to a scratchpad that a warp sees. -/
theorem State.seen_append {s t : State} {w k : Nat} {e : SpPend} (he : e.warp = some w) (hspad : (t.team k).spad = (s.team k).spad)
    (hpend : (t.team k).pend = (s.team k).pend ++ [e]) : (t.seen w k).spad = setBytes (s.seen w k).spad e.bytes := by
  rw [State.seen_spad, State.seen_spad, hspad, hpend, List.filter_append, List.foldl_append]
  simp [he]

theorem State.wf_seen {s : State} {w k : Nat} (h : Memory.wf (s.team k).spad = true) : Memory.wf (s.seen w k).spad = true := by
  rw [State.seen_spad]
  generalize (s.team k).spad = m at h ⊢
  induction (s.team k).pend.filter (fun e => e.warp == some w) generalizing m with
  | nil => exact h
  | cons e l ih => exact ih _ (Memory.wf_setBytes m e.bytes h)

/-- A word that is stored reads as it was, and no other byte changes. -/
theorem getW32_setBytes {m : Memory} (h : Memory.wf m = true) (a : Nat) (v : Lane) :
    getW32 (setBytes m (placeBytes a (leBytes 4 v.toNat))) a = v ∧
      ∀ x, x < a ∨ a + 4 ≤ x → getByte (setBytes m (placeBytes a (leBytes 4 v.toNat))) x = getByte m x := by
  refine ⟨?_, fun x hx => ?_⟩
  · have hb := getBytes_setBytes_placeBytes a (leBytes 4 v.toNat) h
    rw [length_leBytes] at hb
    rw [getW32, hb, leNat_leBytes, show 256 ^ 4 = 2 ^ 32 from rfl, Nat.mod_eq_of_lt v.isLt, BitVec.ofNat_toNat, BitVec.setWidth_eq]
  · rw [getByte_setBytes_placeBytes _ _ _ h, length_leBytes]
    exact if_neg (by omega)

/-- Of a block whose only global store writes bytes of one line, on this package, the parts are that line's. -/
def State.onlyPart (s : State) (ctx : Nat) (g : GStore) (l : List (Nat × BitVec 8)) (line : Nat) : StorePart :=
  { idx := g.idx, va := (g.addrs.find? fun v => v / 128 == line).getD 0, space := s.spaceOf ctx (line * 128), line := line, first := g.mseq,
    last := g.mseq, key := g.mseq, rqt := g.rqt, ord := g.ord, scope := g.scope, kind := .store l }

theorem dedup_map_const {α β : Type} [DecidableEq β] {f : α → β} {c : β} {l : List α} (hne : l ≠ []) (h : ∀ x ∈ l, f x = c) :
    (l.map f).dedup = [c] := by
  rw [List.map_eq_replicate_iff.mpr h]
  exact List.replicate_dedup (by simpa using hne)

theorem State.storeParts_only {s : State} {ctx line : Nat} {g : GStore} {l : List (Nat × BitVec 8)} (hk : g.kind = .bytes l) (hne : l ≠ [])
    (hl : ∀ p ∈ l, p.1 / 128 = line) : s.storeParts ctx g = [s.onlyPart ctx g l line] := by
  unfold State.storeParts State.onlyPart
  rw [hk]
  dsimp only
  rw [dedup_map_const hne hl, List.map_singleton, List.filter_eq_self.mpr fun p hp => by simp [hl p hp]]

theorem State.storeOrder_only {s : State} {w line h sp : Nat} {b : Blk} {g : GStore} {l : List (Nat × BitVec 8)} (hb : b.stores = [g])
    (hk : g.kind = .bytes l) (hne : l ≠ []) (hl : ∀ p ∈ l, p.1 / 128 = line) (hhome : s.homeOf (s.place w).ctx (line * 128) = .loc h sp) :
    s.storeOrder w b false = [s.onlyPart (s.place w).ctx g l line] := by
  unfold State.storeOrder
  rw [hb]
  simp only [List.mergeSort_singleton, List.flatMap_singleton, State.storeParts_only hk hne hl]
  generalize hp : s.onlyPart (s.place w).ctx g l line = p
  have hline : p.line = line := hp ▸ rfl
  have hkind : p.kind = .store l := hp ▸ rfl
  have hacq : p.acq = false := by simp [StorePart.acq, hkind]
  have hbehind : p.behind [] = p := by simp [StorePart.behind]
  cases hrel : p.rel <;> simp [hline, hhome, hacq, hbehind, hrel, joinPart, knotParts, tieParts]

theorem State.asks_commitStores (s : State) (w : Nat) (b : Blk) :
    (s.commitStores w b).asks = s.asks ++ (s.storeGroups w b).mapIdx fun i d => { d with num := s.cache.sent + i } := rfl

/-- The request of a block's only global store. -/
theorem State.asks_commitStores_only {s : State} {w line h sp : Nat} {b : Blk} {g : GStore} {l : List (Nat × BitVec 8)} (hb : b.stores = [g])
    (hk : g.kind = .bytes l) (hne : l ≠ []) (hl : ∀ p ∈ l, p.1 / 128 = line) (hhome : s.homeOf (s.place w).ctx (line * 128) = .loc h sp) :
    ∃ r, (s.commitStores w b).asks = s.asks ++ [r] ∧ r.kind = .store l ∧ r.line = line ∧ r.space = s.spaceOf (s.place w).ctx (line * 128) ∧
      r.w = some w ∧ r.rqt = g.rqt ∧ r.ord = g.ord ∧ (g.ord = .rel → r.scope = g.scope) ∧ r.performed = false := by
  rw [State.asks_commitStores]
  unfold State.storeGroups
  rw [State.storeOrder_only hb hk hne hl hhome]
  exact ⟨_, rfl, rfl, rfl, rfl, rfl, rfl, rfl, fun hrel => if_pos (by simp [StorePart.rel, State.onlyPart, hrel]), rfl⟩

end Sys2Proof.Machine
end

section
/-! The stores and pushes of a block are made at its commit (R45, R46, R212, R228, R245). -/

namespace Sys2Proof.Machine

section
variable {s t u : State} {w : Nat} {b : Blk} {n : Nat}

/-- The state with other warps. -/
def State.withWarps (s : State) (x : List Warp) : State := { s with warps := x }

/-- The commit of a block that defers nothing: its registers are written, then its stores and pushes are made, and memory stays. -/
theorem State.commits_quietly (hc : s.Commits w b) (hg : s.GoesTo w b n) (hf : s.commitFaults w b = []) (hd : b.deferred = {}) :
    ∃ (x : List Warp) (r : Bool), exec (.blockCommit w) s = .next (s.finishCommit (s.withWarps x) w b r none) ∧
      ((s.withWarps x).warp w).team = (s.warp w).team ∧ (s.finishCommit (s.withWarps x) w b r none).mem = s.mem := by
  have hsys : ∀ p ∈ b.deferred.syswr, ∀ c, p.1 ≠ .faultRes c := by simp [hd]
  have htrap : b.deferred.trap = none := congrArg Deferred.trap hd
  obtain ⟨u, hexec, hst, h⟩ := State.commits_finish hc hg hf htrap
  have hmem := ((s.alters_finishCommit u.st w u.uniform htrap hsys).mem).trans h.mem
  obtain ⟨r, hr⟩ := h.here (State.lt_of_blk? hc.1)
  have hteam : (u.st.warp w).team = (s.warp w).team := by
    rw [hr]
    exact ((s.warp w).commitRegs_keeps b).1
  rw [hst] at hexec hmem
  exact ⟨u.st.warps, u.uniform, hexec, hteam, hmem⟩

/-- What the commit leaves in the scratchpads is what the block's own stores put there. -/
theorem State.pads_finishCommit (s u : State) (w : Nat) {b : Blk} (r : Bool) (hd : b.deferred = {}) :
    (s.finishCommit u w b r none).pads = (u.commitSpad w b).pads :=
  (view_pads.finishCommit s u w r hd fun v n x _ => v.pads_preload w n x).trans (State.pads_sendPushes _ w b)

theorem State.asks_finishCommit (s u : State) (w : Nat) {b : Blk} (r : Bool) (hd : b.deferred = {}) :
    (s.finishCommit u w b r none).asks = ((u.commitSpad w b).commitStores w b).asks :=
  (view_asks.finishCommit s u w r hd fun v n x _ => v.asks_preload w n x).trans (State.asks_sendPushes _ w b)

theorem State.team_of_pads (h : t.pads = s.pads) (k : Nat) : (t.team k).spad = (s.team k).spad ∧ (t.team k).pend = (s.team k).pend :=
  Prod.mk.inj (getD_of_map_eq h k default)

/-! Pushes. -/

theorem State.team_of_sends (h : t.sends = s.sends) (k : Nat) :
    (t.team k).tlc = (s.team k).tlc ∧ (t.team k).queue = (s.team k).queue ∧ (t.team k).reserved = (s.team k).reserved := by
  obtain ⟨htlc, hrest⟩ := Prod.mk.inj (getD_of_map_eq h k default)
  exact ⟨htlc, Prod.mk.inj hrest⟩

/-- A code object that lists no preload gives its blocks none. -/
theorem State.preload_none (h : ∀ o, s.objOf w = some o → o.preloads = []) (m : Nat) (x : Option Scope) : s.preload w m x = s := by
  unfold State.preload
  split
  next img e o _ ho =>
    refine if_pos ?_
    rw [h o ho, List.length_nil]
    omega
  · rfl

/-- A push to a copy queue sends its command, which takes the next sequence number. -/
theorem State.sendPush_copy {p : PushRes} {k : Nat} (hp : p.dst = .copy k) (hlt : (s.warp w).team < s.teams.length) (fence : Option (Scope × Bool)) :
    ∃ c, c.seq = (s.team (s.warp w).team).tlc.issued + 1 ∧ c.cmd = p.cmd ∧ c.timed = (if k = 0 then none else some k) ∧
      (s.sendPush w fence p).team (s.warp w).team = { s.team (s.warp w).team with
        tlc := (s.team (s.warp w).team).tlc.next, reserved := (s.team (s.warp w).team).reserved - 1,
        queue := (s.team (s.warp w).team).queue ++ [c] } := by
  unfold State.sendPush
  rw [hp]
  exact ⟨_, rfl, rfl, rfl, State.team_modTeam_self hlt _⟩

theorem State.sendPushes_only {p : PushRes} (hp : b.pushes = [p]) (s : State) (w : Nat) : s.sendPushes w b = s.sendPush w b.deferred.fence p := by
  unfold State.sendPushes
  rw [hp, List.mergeSort_singleton]
  rfl

/-- The ground of a commit whose one push goes to a copy queue. -/
theorem State.ground_effects {p : PushRes} {k : Nat} (hp : b.pushes = [p]) (hk : p.dst = .copy k) (hd : b.deferred = {}) (u : State) :
    (u.commitEffects w b).ground = u.ground := by
  rw [view_ground.commitEffects u w hd, State.sendPushes_only hp]
  refine Eq.trans ?_ (u.ground_commitSpad w b)
  unfold State.sendPush
  rw [hk]
  exact State.ground_modTeam ((u.commitSpad w b).commitStores w b) _ fun _ => ⟨rfl, rfl⟩

theorem State.Alters.team (h : s.Settles w t) : (t.warp w).team = (s.warp w).team := by
  by_cases hw : w < s.warps.length
  · obtain ⟨p, z, n, hy⟩ := h.here hw
    rw [hy]
  · rw [State.warp_of_le (not_lt.mp hw), State.warp_of_le (s := t) (h.length ▸ not_lt.mp hw)]

/-- What a block's one push to a copy queue leaves in the counter and the queue of its team. -/
theorem State.sendPushes_copy {p : PushRes} {k : Nat} (hb : b.pushes = [p]) (hk : p.dst = .copy k) (hsends : t.sends = s.sends)
    (hteam : (t.warp w).team = (s.warp w).team) (hlt : (s.warp w).team < s.teams.length) :
    ∃ c, c.seq = (s.team (s.warp w).team).tlc.issued + 1 ∧ c.cmd = p.cmd ∧ c.timed = (if k = 0 then none else some k) ∧
      ((t.sendPushes w b).team (s.warp w).team).tlc = (s.team (s.warp w).team).tlc.next ∧
      ((t.sendPushes w b).team (s.warp w).team).queue = (s.team (s.warp w).team).queue ++ [c] ∧
      ((t.sendPushes w b).team (s.warp w).team).reserved = (s.team (s.warp w).team).reserved - 1 := by
  have hlen : t.teams.length = s.teams.length := by simpa [State.sends] using congrArg List.length hsends
  obtain ⟨htlc, hqueue, hres⟩ := State.team_of_sends hsends (s.warp w).team
  obtain ⟨c, hseq, hcmd, htimed, hsent⟩ := State.sendPush_copy (s := t) (w := w) hk (by rw [hteam, hlen]; exact hlt) b.deferred.fence
  rw [hteam] at hseq hsent
  rw [State.sendPushes_only hb, hsent]
  exact ⟨c, htlc ▸ hseq, hcmd, htimed, congrArg Counter.next htlc, congrArg (· ++ [c]) hqueue, congrArg (· - 1) hres⟩

/-! A pending write that becomes visible. -/

theorem State.spadDrain_may {k n : Nat} {e : SpPend} (he : (s.team k).pend[n]? = some e) (h : s.spadMay k n e = true) :
    s.spadDrain k n [] = (s.spadPut k e).modTeam k fun x => { x with pend := x.pend.eraseIdx n } := by
  unfold State.spadDrain
  rw [he]
  simp [h, Team.pendLess]

theorem State.spadDrain_waits {k n : Nat} {e : SpPend} (he : (s.team k).pend[n]? = some e) (h : s.spadMay k n e = false) (part : List Nat) :
    s.spadDrain k n part = s := by
  unfold State.spadDrain
  rw [he]
  simp [h]

theorem State.teams_spadPut (s : State) (k : Nat) (e : SpPend) : (s.spadPut k e).teams = (s.modTeam k fun x => x.put e).teams := by
  unfold State.spadPut
  dsimp only
  split <;> rfl

theorem State.team_spadPut_self {k : Nat} (h : k < s.teams.length) (e : SpPend) : (s.spadPut k e).team k = (s.team k).put e :=
  (congrArg (fun l => l.getD k default) (s.teams_spadPut k e)).trans (State.team_modTeam_self h _)

theorem State.lt_of_pend {k n : Nat} {e : SpPend} (he : (s.team k).pend[n]? = some e) : k < s.teams.length := by
  by_contra hk
  have hdef : s.team k = default := List.getD_eq_default _ _ (by omega)
  rw [hdef] at he
  cases he

end

/-- Settles O39: each kind of effect shows in its own view of the state, which the rest of the commit leaves. -/
theorem commitPerformsStoresAndPushes : Obligations.CommitPerformsStoresAndPushes := by
  unfold Obligations.CommitPerformsStoresAndPushes
  refine ⟨?waits, ?timed, ?visible, ?notyet, ?store, ?push⟩
  case waits =>
    intro s w b n p hc hg hf hd hsps hmst hlt hwf htimed
    obtain ⟨x, r, hexec, -, hmem⟩ := State.commits_quietly hc hg hf hd
    have hpads := State.pads_finishCommit s (s.withWarps x) w r hd
    rw [State.commitSpad_only hsps hmst, State.spadSend_waits (s.withWarps x) p.team _ htimed] at hpads
    obtain ⟨hspad, hpend⟩ := State.team_of_pads hpads p.team
    rw [State.team_modTeam_self (s := s.withWarps x) hlt] at hspad hpend
    have hseen := State.seen_append (e := (s.withWarps x).onlyPend w b p) rfl hspad hpend
    obtain ⟨hread, hother⟩ := getW32_setBytes (State.wf_seen (w := w) hwf) p.ofs p.val
    exact ⟨_, _, hexec, hpend, rfl, rfl, hspad, hmem, (congrArg (getW32 · p.ofs) hseen).trans hread,
      fun a ha => (congrArg (getByte · a) hseen).trans (hother a ha)⟩
  case timed =>
    intro s w b n p hc hg hf hd hsps hmst hlt hwf htimed
    obtain ⟨x, r, hexec, -, hmem⟩ := State.commits_quietly hc hg hf hd
    have hpads := State.pads_finishCommit s (s.withWarps x) w r hd
    rw [State.commitSpad_only hsps hmst, State.spadSend_timed (s.withWarps x) p.team _ htimed] at hpads
    have hspad := (State.team_of_pads hpads p.team).1
    rw [State.team_spadPut_self (s := s.withWarps x) hlt] at hspad
    obtain ⟨hread, hother⟩ := getW32_setBytes hwf p.ofs p.val
    exact ⟨_, hexec, (congrArg (getW32 · p.ofs) hspad).trans hread, hmem, fun a ha => (congrArg (getByte · a) hspad).trans (hother a ha)⟩
  case visible =>
    intro s r k n e ha he hmay
    have hlt := State.lt_of_pend he
    have hdrain := State.spadDrain_may (s := { s with agenda := r }) he hmay
    obtain ⟨hwarps, hmem⟩ := State.sameWarps_spadPut { s with agenda := r } k e
    have hput := State.team_spadPut_self (s := { s with agenda := r }) hlt e
    have hself := State.team_modTeam_self (s := State.spadPut { s with agenda := r } k e) (t := k)
      (by rw [State.teams_spadPut]; exact (List.length_modify ..).symm ▸ hlt) fun x => { x with pend := x.pend.eraseIdx n }
    rw [hput] at hself
    refine ⟨_, (step_spad s k n [] r ha).trans (congrArg Host.Outcome.next hdrain), by rw [hself]; rfl, by rw [hself]; rfl, hmem, hwarps, fun j hj => ?_⟩
    exact (State.team_modTeam_ne _ hj _).trans ((congrArg (fun l => l.getD j default) (State.teams_spadPut ..)).trans (State.team_modTeam_ne _ hj _))
  case notyet =>
    intro s r k n e part ha he hmay
    exact (step_spad s k n part r ha).trans (congrArg Host.Outcome.next (State.spadDrain_waits (s := { s with agenda := r }) he hmay part))
  case store =>
    intro s w b n g l ln hc hg hf hd hb hk hne hl hhome
    obtain ⟨h, sp, hhome⟩ := hhome
    obtain ⟨x, r, hexec, hteam, hmem⟩ := State.commits_quietly hc hg hf hd
    have hasks := State.asks_finishCommit s (s.withWarps x) w r hd
    have hground : ((s.withWarps x).commitSpad w b).ground = s.ground := State.ground_commitSpad _ w b
    have hplace := State.place_of_ground hground ((congrArg Warp.team ((State.sameWarps_commitSpad (s.withWarps x) w b).warp w)).trans hteam)
    have hhome' := (State.homeOf_of_ground hground (s.place w).ctx (ln * 128)).trans hhome
    obtain ⟨q, hq, hkind, hline, hspace, hw, hrqt, hord, hscope, hperf⟩ :=
      State.asks_commitStores_only hb hk hne hl (hplace.symm ▸ hhome')
    rw [hq, State.asks_commitSpad] at hasks
    have hsp : q.space = s.spaceOf (s.place w).ctx (ln * 128) := by
      rw [hspace, hplace]
      simp only [State.spaceOf, hhome', hhome]
    exact ⟨_, q, hexec, hasks, hkind, hline, hsp, hw, hrqt, by rw [hord], hscope, hperf, hmem⟩
  case push =>
    intro s w b n p k hc hg hf hd hb hk hlt hnone
    obtain ⟨x, r, hexec, hteam, -⟩ := State.commits_quietly hc hg hf hd
    have hobj : ((s.withWarps x).commitEffects w b).objOf w = s.objOf w := by
      refine State.objOf_of_ground (State.ground_effects hb hk hd (s.withWarps x)) (Eq.trans ?_ hteam)
      exact ((s.withWarps x).settles_commitEffects w (by simp [hd])).team
    have hsends : (s.finishCommit (s.withWarps x) w b r none).sends = ((((s.withWarps x).commitSpad w b).commitStores w b).sendPushes w b).sends :=
      view_sends.finishCommit s (s.withWarps x) w r hd fun v n y hv =>
        congrArg State.sends (State.preload_none (fun o ho => hnone o (hobj ▸ hv ▸ ho)) n y)
    obtain ⟨htlc, hqueue, hres⟩ := State.team_of_sends hsends (s.warp w).team
    obtain ⟨c, hseq, hcmd, htimed, htlc', hqueue', hres'⟩ := State.sendPushes_copy (s := s) (t := ((s.withWarps x).commitSpad w b).commitStores w b)
      (w := w) hb hk (State.sends_commitSpad (s.withWarps x) w b)
      ((congrArg Warp.team ((State.sameWarps_commitSpad (s.withWarps x) w b).warp w)).trans hteam) hlt
    exact ⟨_, c, hexec, hqueue.trans hqueue', hseq, hcmd, htimed, congrArg Counter.issued (htlc.trans htlc'), hres.trans hres'⟩

end Sys2Proof.Machine
end

section
/-! Group 0: moving and building values (R83, R88, R102 to R106). -/

namespace Sys2Proof.Machine
open Sys2Proof

/-- In a list in which each target other than `.none` stands once, two places hold different targets, or `.none`. -/
theorem pairwise_of_count_eq_one {l : List Target} (h : ∀ t ∈ l, t = .none ∨ l.count t = 1) : l.Pairwise fun t u => t = u → t = .none := by
  refine List.pairwise_iff_forall_sublist.2 fun {t u} hs e => (h t (hs.subset List.mem_cons_self)).resolve_right fun hc => ?_
  subst e
  have htwo : [t, t].count t ≤ l.count t := hs.count_le t
  simp [hc] at htwo

/-- A delivery to an open target, after the block has changed, changes the block once more (R42). -/
theorem State.deliver_modBlk (s : State) (w p : Nat) (f : Blk → Blk) (t : Target) (v : Token) (b : Blk) (hb : s.blk? w = some b)
    (ho : (f b).open t = true) : (s.modBlk w f).deliver w p t v = s.modBlk w fun b => (f b).give t v := by
  rw [State.deliver_open _ w p t v (f b) (s.blk?_modBlk w f b hb) ho, State.modBlk_modBlk]

/-- `fan` fills its four targets (R83). -/
theorem leaves_fan (h : Hdr) (sh : Shape) (t2 t3 : Target) : Leaves (.fan h sh t2 t3)
    (fun _ b _ => b.Takes h ∧ b.open t2 = true ∧ b.open t3 = true ∧ ∀ t ∈ [h.t0, h.t1, t2, t3], t = .none ∨ [h.t0, h.t1, t2, t3].count t = 1)
    fun s b x => (((s.marked b).give2 h x.a x.a).give t2 x.a).give t3 x.a := by
  intro s b x hf ⟨⟨h0, h1, h01⟩, h2, h3, hcount⟩
  obtain ⟨⟨-, h02, h03⟩, ⟨h12, h13⟩, h23⟩ :
      ((h.t0 = h.t1 → h.t0 = .none) ∧ (h.t0 = t2 → h.t0 = .none) ∧ (h.t0 = t3 → h.t0 = .none)) ∧
        ((h.t1 = t2 → h.t1 = .none) ∧ (h.t1 = t3 → h.t1 = .none)) ∧ (t2 = t3 → t2 = .none) := by
    simpa using pairwise_of_count_eq_one hcount
  have hb := s.blk?_of_issuing b hf.1
  have hm : ∀ t, (s.marked b).open t = b.open t := fun _ => rfl
  rw [← hm] at h0 h1 h2 h3
  refine ⟨_, rfl, ?_⟩
  rw [s.issue_fires _ h rfl _ _ _ b x hf rfl]
  change s.OnlyBlk _ (((((s.modBlk s.cur s.marked).deliver s.cur s.curIdx h.t0 x.a).deliver s.cur s.curIdx h.t1 x.a).deliver s.cur s.curIdx t2
    x.a).deliver s.cur s.curIdx t3 x.a)
  rw [s.deliver_modBlk _ _ _ h.t0 _ b hb h0, s.deliver_modBlk _ _ _ h.t1 _ b hb (Blk.open_give _ _ _ _ h1 h01),
    s.deliver_modBlk _ _ _ t2 _ b hb (Blk.open_give _ _ _ _ (Blk.open_give _ _ _ _ h2 h02) h12),
    s.deliver_modBlk _ _ _ t3 _ b hb (Blk.open_give _ _ _ _ (Blk.open_give _ _ _ _ (Blk.open_give _ _ _ _ h3 h03) h13) h23),
    s.modBlk_eq s.cur _ b hb]
  exact ⟨rfl, rfl⟩

/-- `nop` fires and does nothing else (R102). -/
theorem leaves_nop (h : Hdr) : Leaves (.nop h) (fun _ _ _ => True) fun s b _ => s.marked b := by
  intro s b x hf _
  refine ⟨_, rfl, ?_⟩
  rw [s.issue_fires _ h rfl _ _ _ b x hf rfl, State.markFired, s.modBlk_eq s.cur _ b (s.blk?_of_issuing b hf.1)]
  exact ⟨rfl, rfl⟩

/-- Settles O1: `nop` and `fan` change their block only, the others are of the value shape, and a `hint` has no meaning. -/
theorem movingAndBuildingValues : Obligations.MovingAndBuildingValues := by
  unfold Obligations.MovingAndBuildingValues
  refine ⟨leaves_nop, fun h sh => ?mov, leaves_fan, fun h imm => ?const, fun h imm => ?low, fun h imm => ?top, fun h => ?null, fun a b p s => rfl⟩
  case mov | const | low | top | null => exact fun s b x hf ht => execValue_delivers _ h rfl 0 _ s b x hf ht

end Sys2Proof.Machine
end

section
/-! Fields of an instruction word (Tables 3-8 to 3-13), and the results of decoders. -/

namespace Sys2Proof
open Machine

/-! Fields. -/

/-- Two parts make up a field when each is its part of the field. -/
theorem append_eq_extractLsb' {n a b s : Nat} {hi : BitVec a} {lo : BitVec b} {x : BitVec n} :
    @Eq (BitVec (no_index (a + b))) (@HAppend.hAppend _ _ (BitVec (no_index (a + b))) _ hi lo) (x.extractLsb' s (no_index (a + b))) ↔
      hi = x.extractLsb' (s + b) a ∧ lo = x.extractLsb' s b := by
  rw [← BitVec.extractLsb'_append_extractLsb'_eq_extractLsb' (start₂ := s + b) rfl]
  constructor
  · intro h
    have hhi := congrArg (BitVec.extractLsb' b a) h
    have hlo := congrArg (BitVec.extractLsb' 0 b) h
    rw [BitVec.extractLsb'_append_eq_left, BitVec.extractLsb'_append_eq_left] at hhi
    rw [BitVec.extractLsb'_append_eq_right, BitVec.extractLsb'_append_eq_right] at hlo
    exact ⟨hhi, hlo⟩
  · rintro ⟨rfl, rfl⟩
    rfl

/-- A one-bit field. -/
theorem ofBool_eq_extractLsb' {n s : Nat} {x : BitVec n} {b : Bool} : BitVec.ofBool b = x.extractLsb' s 1 ↔ x.getLsbD s = b := by
  rw [BitVec.getLsbD_eq_extractLsb']
  generalize x.extractLsb' s 1 = y
  revert y b
  decide

theorem one_eq_extractLsb' {n s : Nat} {x : BitVec n} : 1#1 = x.extractLsb' s 1 ↔ x.getLsbD s = true := ofBool_eq_extractLsb' (b := true)

/-- A code is compared with a field as the decoder does it, by number. -/
theorem eq_iff_toNat {n : Nat} (c x : BitVec n) : c = x ↔ x.toNat = c.toNat := by rw [BitVec.toNat_inj, eq_comm]

@[simp]
theorem zeroAt_eq_true {w : BitVec 64} {lo n : Nat} : zeroAt w lo n = true ↔ 0 = w.extractLsb' lo n := by
  rw [zeroAt, beq_iff_eq, eq_comm]

/-- The upper bits of a field are zero when its number is small. -/
theorem zero_eq_extractLsb'_iff_lt {w : BitVec 64} {s m n : Nat} : 0#m = w.extractLsb' (s + n) m ↔ (w.extractLsb' s (n + m)).toNat < 2 ^ n := by
  rw [eq_iff_toNat, BitVec.extractLsb'_toNat, BitVec.extractLsb'_toNat, Nat.shiftRight_add, Nat.shiftRight_eq_div_pow _ n,
    ← Nat.mod_mul_right_div_self, ← Nat.pow_add]
  exact Nat.div_eq_zero_iff_lt (Nat.two_pow_pos n)

/-! Results. -/

@[simp]
theorem dApp_eq_ok {α β : Type} {f : D (α → β)} {x : D α} {b : β} : dApp f x = .ok b ↔ ∃ g, f = .ok g ∧ ∃ a, x = .ok a ∧ g a = b := by
  unfold dApp
  split
  case h_1 | h_2 | h_3 => simp
  case h_4 => split <;> simp

@[simp]
theorem dChk_eq_ok {α : Type} {x : D α} {c : Bool} {e : DecodeErr} {a : α} : dChk x c e = .ok a ↔ x = .ok a ∧ c = true := by
  cases x <;> cases c <;> simp [dChk]

@[simp]
theorem dOpt_eq_ok {α : Type} {o : Option α} {e : DecodeErr} {a : α} : dOpt o e = .ok a ↔ o = some a := by
  cases o <;> simp [dOpt]

theorem dApp_eq_ok_of_injective {α β : Type} {C : α → β} (hC : Function.Injective C) {x : D α} {a : α} :
    dApp (.ok C) x = .ok (C a) ↔ x = .ok a := by
  simp [hC.eq_iff]

theorem dApp_eq_ok_of_injective2 {α β γ : Type} {C : α → β → γ} (hC : Function.Injective2 C) {x : D α} {y : D β} {a : α} {b : β} :
    dApp (dApp (.ok C) x) y = .ok (C a b) ↔ x = .ok a ∧ y = .ok b := by
  simp [hC.eq_iff]

theorem dApp_eq_ok_of_injective3 {α β γ δ : Type} {C : α → β → γ → δ} {x : D α} {y : D β} {z : D γ} {a : α} {b : β} {c : γ}
    (hC : ∀ {a' b' c'}, C a' b' c' = C a b c → a' = a ∧ b' = b ∧ c' = c) :
    dApp (dApp (dApp (.ok C) x) y) z = .ok (C a b c) ↔ x = .ok a ∧ y = .ok b ∧ z = .ok c := by
  have h {a' b' c'} : C a' b' c' = C a b c ↔ a' = a ∧ b' = b ∧ c' = c := ⟨hC, by rintro ⟨rfl, rfl, rfl⟩; rfl⟩
  simp [h]

/-- A `SEL` that its entry does not accept gives no instruction. -/
theorem decNoSel_ne_ok {w : BitVec 64} {h : D Hdr} {imm : Bool} {i : Instr} : decNoSel w h imm ≠ .ok i :=
  fun e => Bool.noConfusion (dChk_eq_ok.1 e).2

/-! Words from their fields. -/

theorem mkWord_eq_iff {opc : BitVec 9} {h : Hdr} {ty : BitVec 4} {low : BitVec 29} {w : BitVec 64} : mkWord opc h ty low = w ↔
    opc = w.extractLsb' 55 9 ∧ (h.pm.code = w.extractLsb' 53 2 ∧ h.t0.code = w.extractLsb' 39 10 ∧ h.t1.code = w.extractLsb' 29 10) ∧
      ty = wTy w ∧ low = wLow w := by
  conv_lhs => rw [← BitVec.extractLsb'_eq_self (x := w)]
  simp only [mkWord, append_eq_extractLsb', Nat.reduceAdd, wTy, wLow]
  tauto

theorem wOpc_mkWord {opc : BitVec 9} {h : Hdr} {ty : BitVec 4} {low : BitVec 29} : wOpc (mkWord opc h ty low) = opc.toNat :=
  (congrArg BitVec.toNat (mkWord_eq_iff.1 rfl).1).symm

/-- The word of a hint, field by field (R88). -/
theorem hint_eq_iff {l t : BitVec 4} {p : BitVec 29} {w : BitVec 64} : (0x1F#5 ++ l) ++ 0#2 ++ t ++ 0#20 ++ p = w ↔
    0x1F0 ≤ wOpc w ∧ l = w.extractLsb' 55 4 ∧ 0#2 = w.extractLsb' 53 2 ∧ t = wTy w ∧ 0#20 = w.extractLsb' 29 20 ∧ p = wLow w := by
  have h : 0x1F#5 = w.extractLsb' 59 5 ↔ 0x1F0 ≤ wOpc w := by
    simp only [eq_iff_toNat, wOpc, BitVec.extractLsb'_toNat, Nat.shiftRight_eq_div_pow, BitVec.toNat_ofNat, Nat.reducePow, Nat.reduceMod]
    omega
  conv_lhs => rw [← BitVec.extractLsb'_eq_self (x := w)]
  simp only [append_eq_extractLsb', Nat.reduceAdd, wTy, wLow, h]
  tauto

end Sys2Proof
end

section
/-! Codes, and the parts of a word that decoders read: a part reads as `x` exactly when it holds the code of `x`. -/

namespace Sys2Proof
open Machine

/-! Codes of enumerations (R80): a field names `x` exactly when it holds the code of `x`. -/

theorem ofCode_eq_some {α : Type} {n : Nat} {code : α → BitVec n} {ofCode : BitVec n → Option α} (h : ∀ x, ofCode (code x) = some x)
    (g : ∀ c x, ofCode c = some x → (code x).toNat = c.toNat) {c : BitVec n} {x : α} : ofCode c = some x ↔ code x = c :=
  ⟨fun e => BitVec.eq_of_toNat_eq (g c x e), fun e => e ▸ h x⟩

@[simp]
theorem Slot.ofCode_eq_some {c x} : Slot.ofCode c = some x ↔ x.code = c :=
  Sys2Proof.ofCode_eq_some (by rintro ⟨⟩ <;> rfl) (by grind [Slot.ofCode, Slot.code])

@[simp]
theorem Shape.ofCode_eq_some {c x} : Shape.ofCode c = some x ↔ x.code = c :=
  Sys2Proof.ofCode_eq_some (by rintro ⟨⟩ <;> rfl) (by grind [Shape.ofCode, Shape.code])

@[simp]
theorem Pred.ofCode_eq_some {c x} : Pred.ofCode c = some x ↔ x.code = c :=
  Sys2Proof.ofCode_eq_some (by rintro ⟨⟩ <;> rfl) (by grind [Pred.ofCode, Pred.code])

@[simp]
theorem Sgn.ofCode_eq_some {c x} : Sgn.ofCode c = some x ↔ x.code = c :=
  Sys2Proof.ofCode_eq_some (by rintro ⟨⟩ <;> rfl) (by grind [Sgn.ofCode, Sgn.code])

@[simp]
theorem VTy.ofCode_eq_some {c x} : VTy.ofCode c = some x ↔ x.code = c :=
  Sys2Proof.ofCode_eq_some (by rintro ⟨⟩ <;> rfl) (by grind [VTy.ofCode, VTy.code])

@[simp]
theorem SCond.ofCode_eq_some {c x} : SCond.ofCode c = some x ↔ x.code = c :=
  Sys2Proof.ofCode_eq_some (by rintro ⟨⟩ <;> rfl) (by grind [SCond.ofCode, SCond.code])

@[simp]
theorem VoteForm.ofCode_eq_some {c x} : VoteForm.ofCode c = some x ↔ x.code = c :=
  Sys2Proof.ofCode_eq_some (by rintro ⟨⟩ <;> rfl) (by grind [VoteForm.ofCode, VoteForm.code])

@[simp]
theorem SysSel.ofCode_eq_some {c x} : SysSel.ofCode c = some x ↔ x.code = c :=
  Sys2Proof.ofCode_eq_some (by rintro ⟨⟩ <;> rfl) (by grind [SysSel.ofCode, SysSel.code])

@[simp]
theorem FmtForm.ofCode_eq_some {c x} : FmtForm.ofCode c = some x ↔ x.code = c :=
  Sys2Proof.ofCode_eq_some (by rintro ⟨⟩ <;> rfl) (by grind [FmtForm.ofCode, FmtForm.code])

@[simp]
theorem Scope.ofCode_eq_some {c x} : Scope.ofCode c = some x ↔ x.code = c :=
  Sys2Proof.ofCode_eq_some (by rintro ⟨⟩ <;> rfl) (by grind [Scope.ofCode, Scope.code])

@[simp]
theorem VCond.ofCode_eq_some {c x} : VCond.ofCode c = some x ↔ x.code = c :=
  Sys2Proof.ofCode_eq_some (by rintro ⟨⟩ <;> rfl) (by grind [VCond.ofCode, VCond.code])

@[simp]
theorem BFmt.ofCode_eq_some {c x} : BFmt.ofCode c = some x ↔ x.code = c :=
  Sys2Proof.ofCode_eq_some (by rintro ⟨⟩ <;> rfl) (by grind [BFmt.ofCode, BFmt.code])

@[simp]
theorem BtType.ofCode_eq_some {c x} : BtType.ofCode c = some x ↔ x.code = c :=
  Sys2Proof.ofCode_eq_some (by rintro ⟨⟩ <;> rfl) (by grind [BtType.ofCode, BtType.code])

@[simp]
theorem RedOp.ofCode_eq_some {c x} : RedOp.ofCode c = some x ↔ x.code = c :=
  Sys2Proof.ofCode_eq_some (by rintro ⟨⟩ <;> rfl) (by grind [RedOp.ofCode, RedOp.code])

@[simp]
theorem MPart.ofCode_eq_some {c x} : MPart.ofCode c = some x ↔ x.code = c :=
  Sys2Proof.ofCode_eq_some (by rintro ⟨⟩ <;> rfl) (by grind [MPart.ofCode, MPart.code])

@[simp]
theorem SFmt.ofCode_eq_some {c x} : SFmt.ofCode c = some x ↔ x.code = c :=
  Sys2Proof.ofCode_eq_some (by rintro ⟨⟩ <;> rfl) (by grind [SFmt.ofCode, SFmt.code])

@[simp]
theorem Rqt.ofCode_eq_some {c x} : Rqt.ofCode c = some x ↔ x.code = c :=
  Sys2Proof.ofCode_eq_some (by rintro ⟨⟩ <;> rfl) (by grind [Rqt.ofCode, Rqt.code])

@[simp]
theorem Ord.ofCode_eq_some {c x} : Ord.ofCode c = some x ↔ x.code = c :=
  Sys2Proof.ofCode_eq_some (by rintro ⟨⟩ <;> rfl) (by grind [Ord.ofCode, Ord.code])

@[simp]
theorem LdWidth.ofCode_eq_some {c x} : LdWidth.ofCode c = some x ↔ x.code = c :=
  Sys2Proof.ofCode_eq_some (by rintro ⟨⟩ <;> rfl) (by grind [LdWidth.ofCode, LdWidth.code])

@[simp]
theorem StWidth.ofCode_eq_some {c x} : StWidth.ofCode c = some x ↔ x.code = c :=
  Sys2Proof.ofCode_eq_some (by rintro ⟨⟩ <;> rfl) (by grind [StWidth.ofCode, StWidth.code])

@[simp]
theorem AtomOp.ofCode_eq_some {c x} : AtomOp.ofCode c = some x ↔ x.code = c :=
  Sys2Proof.ofCode_eq_some (by rintro ⟨⟩ <;> rfl) (by grind [AtomOp.ofCode, AtomOp.code])

@[simp]
theorem TlrdForm.ofCode_eq_some {c x} : TlrdForm.ofCode c = some x ↔ x.code = c :=
  Sys2Proof.ofCode_eq_some (by rintro ⟨⟩ <;> rfl) (by grind [TlrdForm.ofCode, TlrdForm.code])

@[simp]
theorem TkSel.ofCode_eq_some {c x} : TkSel.ofCode c = some x ↔ x.code = c :=
  Sys2Proof.ofCode_eq_some (by rintro ⟨⟩ <;> rfl) (by grind [TkSel.ofCode, TkSel.code])

/-! Parts. -/

section
variable {w : BitVec 64}

@[simp]
theorem decTarget_eq_ok {t : BitVec 10} {x : Target} : decTarget t = .ok x ↔ x.code = t := by
  have hkind (k : BitVec 2) : k = t.extractLsb' 8 2 ↔ (t.extractLsb' 8 2).toNat = k.toNat := eq_iff_toNat ..
  have hslot := @Slot.ofCode_eq_some (t.extractLsb' 0 2)
  have hnone : 0#10 = t.extractLsb' 0 10 ↔ 0#2 = t.extractLsb' 8 2 ∧ 0#8 = t.extractLsb' 0 8 := append_eq_extractLsb' (hi := 0#2) (lo := 0#8)
  conv_rhs => rw [← BitVec.extractLsb'_eq_self (x := t)]
  unfold decTarget
  cases x <;> simp only [Target.code, BitVec.ofNat_eq_ofNat, hnone, append_eq_extractLsb', Nat.reduceAdd, ← hslot, hkind] <;>
    grind [dApp_eq_ok, dOpt_eq_ok]

theorem zero_eq_code {t : Target} : 0#10 = t.code ↔ t = .none := by
  rw [show 0#10 = Target.none.code from rfl, ← decTarget_eq_ok, decTarget_eq_ok.2 rfl, Except.ok.injEq]

theorem decHdr_eq_ok {h : Hdr} : decHdr w = .ok h ↔
    h.pm.code = w.extractLsb' 53 2 ∧ h.t0.code = w.extractLsb' 39 10 ∧ h.t1.code = w.extractLsb' 29 10 := by
  obtain ⟨pm, t0, t1⟩ := h
  simp [decHdr]

/-- The header of an instruction without a result names no target (R99). -/
@[simp]
theorem decHdrNone_eq_ok {h : Hdr} : decHdrNone w = .ok h ↔ h.noRes = true ∧ decHdr w = .ok h := by
  have htargets : 0#20 = w.extractLsb' 29 20 ↔ 0#10 = w.extractLsb' 39 10 ∧ 0#10 = w.extractLsb' 29 10 :=
    append_eq_extractLsb' (hi := 0#10) (lo := 0#10)
  rw [decHdrNone, dChk_eq_ok, and_comm, and_congr_left_iff, decHdr_eq_ok]
  rintro ⟨-, h0, h1⟩
  rw [beq_iff_eq, eq_comm, BitVec.ofNat_eq_ofNat, htargets, ← h0, ← h1, zero_eq_code, zero_eq_code, Hdr.noRes, Bool.and_eq_true, beq_iff_eq,
    beq_iff_eq]

/-- The header of an instruction with a result or without one (R99). -/
def hdrOf (res : Bool) (w : BitVec 64) : D Hdr := if res then decHdr w else decHdrNone w

theorem hdrOf_eq_ok {res : Bool} {h : Hdr} : hdrOf res w = .ok h ↔ (res || h.noRes) = true ∧ decHdr w = .ok h := by
  cases res
  · exact decHdrNone_eq_ok
  · exact (and_iff_right rfl).symm

theorem decImm_eq_ok {im : Option (BitVec 28)} : decImm w = .ok im ↔ encImm im = wLow w := by
  have hnone : 0#29 = w.extractLsb' 0 29 ↔ w.getLsbD 28 = false ∧ 0#28 = w.extractLsb' 0 28 :=
    (append_eq_extractLsb' (hi := BitVec.ofBool false) (lo := 0#28)).trans (and_congr_left' ofBool_eq_extractLsb')
  unfold decImm
  cases im <;> simp only [encImm, wLow, BitVec.ofNat_eq_ofNat, hnone, append_eq_extractLsb', Nat.reduceAdd, one_eq_extractLsb'] <;> grind

@[simp]
theorem decVTy_eq_ok {ok : VTy → Bool} {t : VTy} : decVTy ok w = .ok t ↔ ok t = true ∧ t.code = wTy w := by
  rw [decVTy, ← VTy.ofCode_eq_some]
  grind

theorem decImmV_eq_ok {t : VTy} {im : Option (BitVec 28)} (h : t.code = wTy w) :
    decImmV (wTy w) w = .ok im ↔ vImmOk t im = true ∧ encImm im = wLow w := by
  rw [decImmV, VTy.ofCode_eq_some.2 h, ← decImm_eq_ok]
  grind

@[simp]
theorem decBoolTy_eq_ok {b : Bool} : decBoolTy w = .ok b ↔ boolNib b = wTy w := by
  unfold decBoolTy
  generalize wTy w = t
  revert t b
  decide

/-- A bounded number in a field of `k` bits. -/
@[simp]
theorem decFin_eq_ok {n k : Nat} (hn : n ≤ 2 ^ k) {x : BitVec k} {e : DecodeErr} {a : Fin n} :
    decFin n x.toNat e = .ok a ↔ BitVec.ofNat k a.val = x := by
  have ha : a.val < 2 ^ k := a.isLt.trans_le hn
  rw [eq_comm (b := x), eq_iff_toNat, BitVec.toNat_ofNat, Nat.mod_eq_of_lt ha, decFin]
  grind

theorem decPushGrp_eq_ok {g : Fin 7} :
    (if (wTy w).toNat = 0 then .error .type else decFin 7 ((wTy w).toNat - 1) .type) = .ok g ↔ BitVec.ofNat 4 (g.val + 1) = wTy w := by
  generalize wTy w = t
  revert t g
  decide

@[simp]
theorem decM_eq_ok {ok : MFields → Bool} {m : MFields} : decM ok w = .ok m ↔ ok m = true ∧ m.code = wLow w := by
  obtain ⟨mseq, rqt, scope, ord, ofs⟩ := m
  simp only [MFields.code, wLow, append_eq_extractLsb', Nat.reduceAdd]
  rw [← Rqt.ofCode_eq_some, ← Scope.ofCode_eq_some, ← Ord.ofCode_eq_some, decM]
  grind

theorem decCtr_eq_ok {c : Ctr} : decCtr w = .ok c ↔ c.code = wLow w := by
  unfold decCtr
  cases c <;> simp only [Ctr.code, wLow, append_eq_extractLsb', Nat.reduceAdd, eq_iff_toNat _ (w.extractLsb' 25 4)] <;> grind

theorem decPushQ_eq_ok {q : PushQ} : decPushQ w = .ok q ↔ q.code = wLow w := by
  unfold decPushQ
  cases q <;> simp only [PushQ.code, wLow, append_eq_extractLsb', Nat.reduceAdd, eq_iff_toNat _ (w.extractLsb' 25 4)] <;> grind

theorem decSysReg_eq_ok {r : SysReg} : decSysReg w = .ok r ↔ r.code = wLow w := by
  have hq := @zero_eq_extractLsb'_iff_lt w 0 10 6
  have hd := @zero_eq_extractLsb'_iff_lt w 0 13 3
  have hn := @zero_eq_extractLsb'_iff_lt w 0 5 11
  have hc := @zero_eq_extractLsb'_iff_lt w 0 8 8
  simp only [Nat.reduceAdd, Nat.reducePow] at hq hd hn hc
  unfold decSysReg
  cases r <;> simp only [SysReg.code, wLow, append_eq_extractLsb', Nat.reduceAdd, eq_iff_toNat _ (w.extractLsb' 16 13), hq, hd, hn, hc] <;> grind

theorem decBt_eq_ok_none : decBt w = .ok none ↔ w.getLsbD 4 = false ∧ 0#2 = w.extractLsb' 5 2 := by
  unfold decBt
  cases w.getLsbD 4 with
  | false => simp [eq_comm]
  | true =>
    rw [if_pos rfl]
    split <;> simp

theorem decBt_eq_ok_some {t : BtType} :
    decBt w = .ok (some t) ↔ w.getLsbD 4 = true ∧ BFmt.bt4.code = w.extractLsb' 0 4 ∧ t.code = w.extractLsb' 5 2 := by
  have hbt : BFmt.bt4.code = w.extractLsb' 0 4 ↔ w.extractLsb' 0 4 = 8 := eq_comm
  rw [hbt, decBt]
  cases w.getLsbD 4 with
  | false =>
    rw [if_neg Bool.false_ne_true]
    split <;> simp
  | true =>
    rw [if_pos rfl]
    split <;> simp_all

/-- `IMM` of `vencb` (R335). -/
theorem encBt_eq_iff {f : BFmt} {bt : Option BtType} : vencbOk f bt = true ∧ encBt f bt = wLow w ↔
    (f.code = w.extractLsb' 0 4 ∧ decBt w = .ok bt) ∧ 0#22 = w.extractLsb' 7 22 := by
  cases bt with
  | none =>
    have hzero : 0#25 = w.extractLsb' 4 25 ↔ (0#22 = w.extractLsb' 7 22 ∧ 0#2 = w.extractLsb' 5 2) ∧ w.getLsbD 4 = false := by
      rw [show 0#25 = 0#22 ++ 0#2 ++ BitVec.ofBool false from rfl]
      simp only [append_eq_extractLsb', Nat.reduceAdd, ofBool_eq_extractLsb']
    simp only [encBt, decBt_eq_ok_none, vencbOk, wLow, append_eq_extractLsb', Nat.reduceAdd, hzero, Option.isNone, Bool.or_true]
    tauto
  | some t =>
    have hf : f = .bt4 ∧ f.code = w.extractLsb' 0 4 ↔ f.code = w.extractLsb' 0 4 ∧ BFmt.bt4.code = w.extractLsb' 0 4 := by
      rw [← BFmt.ofCode_eq_some, ← BFmt.ofCode_eq_some]
      grind
    simp only [encBt, decBt_eq_ok_some, vencbOk, wLow, append_eq_extractLsb', Nat.reduceAdd, one_eq_extractLsb', Option.isNone, Bool.or_false,
      beq_iff_eq]
    tauto

end

end Sys2Proof
end

section
/-! The opcode of a word that decodes is the opcode of its instruction's word. -/

namespace Sys2Proof
open Machine

/-- The words of the space of hints (R88) decode to hints, whatever their low bits. -/
theorem decode_of_hint {w : BitVec 64} (h : 0x1F0 ≤ wOpc w) :
    decode w = dChk (.ok (.hint (w.extractLsb' 55 4) (wTy w) (wLow w))) (zeroAt w 29 20 && zeroAt w 53 2) .reserved := by
  have hlt : wOpc w < 0x200 := BitVec.isLt _
  obtain ⟨n, hn⟩ : ∃ n, wOpc w = n := ⟨_, rfl⟩
  unfold decode
  rw [hn] at h hlt ⊢
  interval_cases n <;> rfl

theorem yields_decNoSel {w : BitVec 64} {h : D Hdr} {imm : Bool} {P : Instr → Prop} : Yields P (decNoSel w h imm) :=
  fun _ e => (decNoSel_ne_ok e).elim

/-- The rows of `decode` are built by its combinators from constructors of the row's own opcode. -/
theorem wOpc_encode_of_decode {w : BitVec 64} {i : Instr} (hd : decode w = .ok i) : (encode i).map wOpc = some (wOpc w) := by
  by_cases hh : 0x1F0 ≤ wOpc w
  · rw [decode_of_hint hh, dChk_eq_ok, Bool.and_eq_true] at hd
    obtain ⟨⟨⟩, h29, h53⟩ := hd
    exact congrArg (fun w => some (wOpc w)) (hint_eq_iff.2 ⟨hh, rfl, zeroAt_eq_true.1 h53, rfl, zeroAt_eq_true.1 h29, rfl⟩)
  · obtain ⟨n, hn⟩ : ∃ n, wOpc w = n := ⟨_, rfl⟩
    suffices Yields (fun i => (encode i).map wOpc = some n) (decode w) from (this i hd).trans (congrArg some hn.symm)
    rw [hn] at hh
    unfold decode
    rw [hn]
    split
    all_goals try split
    any_goals exact (hh (Nat.le_add_left 0x1F0 _)).elim
    all_goals
      with_reducible
        repeat' first
          | exact Yields.error
          | exact yields_decNoSel
          | refine Yields.dChk ?_
          | refine Yields.dApp ?_
          | refine Yields.ok ?_
    all_goals
      intros
      exact congrArg some wOpc_mkWord

end Sys2Proof
end

section
/-! The formats of instruction words (Tables 3-8 to 3-13): a word decodes to an instruction exactly when the instruction is well formed and
encodes to the word. -/

namespace Sys2Proof
open Machine

/-- Word `w` decodes to `i` exactly when `i` is well formed and encodes to it. -/
def RoundTrips (w : BitVec 64) (i : Instr) : Prop := decode w = .ok i ↔ i.wf = true ∧ encode i = some w

theorem wTy_beq {w : BitVec 64} {t : BitVec 4} : (wTy w == t) = true ↔ t = wTy w := by
  rw [beq_iff_eq, eq_comm]

theorem zeroAt_low {w : BitVec 64} : zeroAt w 0 29 = true ↔ 0#29 = wLow w := zeroAt_eq_true

namespace RoundTrips
variable {w : BitVec 64} {opc : BitVec 9} {h : Hdr} {ty : BitVec 4}

/-- With the opcode of the word known to be that of `i`, what is left is the word's header, `TYPE` and low bits. -/
theorem of_fields {i : Instr} {low : BitVec 29} (ok : Bool) (he : encode i = some (mkWord opc h ty low)) (hwf : i.wf = ok)
    (ho : (encode i).map wOpc = some (wOpc w))
    (hd : wOpc w = opc.toNat → (decode w = .ok i ↔ ok = true ∧ decHdr w = .ok h ∧ ty = wTy w ∧ low = wLow w)) : RoundTrips w i := by
  rw [he] at ho
  have hop : wOpc w = opc.toNat := (Option.some.inj ho).symm.trans wOpc_mkWord
  rw [RoundTrips, hd hop, he, Option.some_inj, mkWord_eq_iff, ← decHdr_eq_ok, hwf, and_iff_right (BitVec.eq_of_toNat_eq hop.symm)]

variable (res : Bool)

/-- A header, and no field besides. -/
theorem plain {C : Hdr → Instr} (he : encode (C h) = some (mkWord opc h ty 0#29)) (hwf : (C h).wf = (res || h.noRes))
    (ho : (encode (C h)).map wOpc = some (wOpc w)) (hC : Function.Injective C := by rintro _ _ ⟨⟩; rfl)
    (hd : wOpc w = opc.toNat → decode w = dChk (dChk (dApp (.ok C) (hdrOf res w)) (wTy w == ty) .type) (zeroAt w 0 29) .reserved := by
      intro hop; rw [decode, hop]; rfl) : RoundTrips w (C h) := by
  refine of_fields _ he hwf ho fun hop => ?_
  rw [hd hop, dChk_eq_ok, dChk_eq_ok, dApp_eq_ok_of_injective hC, hdrOf_eq_ok, wTy_beq, zeroAt_low]
  tauto

section
variable {α : Type} {C : Hdr → α → Instr} {a : α}

/-- A header and a modifier in `TYPE`. -/
theorem typed {code : α → BitVec 4} {ok : α → Bool} {T : D α} (hT : T = .ok a ↔ ok a = true ∧ code a = wTy w)
    (he : encode (C h a) = some (mkWord opc h (code a) 0#29)) (hwf : (C h a).wf = (ok a && (res || h.noRes)))
    (ho : (encode (C h a)).map wOpc = some (wOpc w))
    (hC : Function.Injective2 C := by rintro _ _ _ _ ⟨⟩; exact ⟨rfl, rfl⟩)
    (hd : wOpc w = opc.toNat → decode w = dChk (dApp (dApp (.ok C) (hdrOf res w)) T) (zeroAt w 0 29) .reserved := by
      intro hop; rw [decode, hop]; rfl) : RoundTrips w (C h a) := by
  refine of_fields _ he hwf ho fun hop => ?_
  rw [hd hop, dChk_eq_ok, dApp_eq_ok_of_injective2 hC, hdrOf_eq_ok, hT, Bool.and_eq_true, zeroAt_low]
  tauto

/-- A header and a field of the low bits. -/
theorem low {code : α → BitVec 29} {L : D α} (hL : L = .ok a ↔ code a = wLow w)
    (he : encode (C h a) = some (mkWord opc h ty (code a))) (hwf : (C h a).wf = (res || h.noRes))
    (ho : (encode (C h a)).map wOpc = some (wOpc w)) (hC : Function.Injective2 C := by rintro _ _ _ _ ⟨⟩; exact ⟨rfl, rfl⟩)
    (hd : wOpc w = opc.toNat → decode w = dChk (dApp (dApp (.ok C) (hdrOf res w)) L) (wTy w == ty) .type := by
      intro hop; rw [decode, hop]; rfl) : RoundTrips w (C h a) := by
  refine of_fields _ he hwf ho fun hop => ?_
  rw [hd hop, dChk_eq_ok, dApp_eq_ok_of_injective2 hC, hdrOf_eq_ok, hL, wTy_beq]
  tauto
end

section
variable {α β : Type} {b : β}

/-- A header, a modifier in `TYPE` and a field of the low bits, which may depend on the modifier. -/
theorem typedLow {C : Hdr → α → β → Instr} {a : α} {code : α → BitVec 4} {ok : α → Bool} {T : D α} {codeL : β → BitVec 29}
    {okL : α → β → Bool} {L : D β} (hT : T = .ok a ↔ ok a = true ∧ code a = wTy w)
    (hL : code a = wTy w → (L = .ok b ↔ okL a b = true ∧ codeL b = wLow w))
    (he : encode (C h a b) = some (mkWord opc h (code a) (codeL b))) (hwf : (C h a b).wf = (ok a && okL a b && (res || h.noRes)))
    (ho : (encode (C h a b)).map wOpc = some (wOpc w))
    (hC : ∀ {h' a' b'}, C h' a' b' = C h a b → h' = h ∧ a' = a ∧ b' = b := by rintro _ _ _ ⟨⟩; exact ⟨rfl, rfl, rfl⟩)
    (hd : wOpc w = opc.toNat → decode w = dApp (dApp (dApp (.ok C) (hdrOf res w)) T) L := by
      intro hop; rw [decode, hop]; rfl) : RoundTrips w (C h a b) := by
  refine of_fields _ he hwf ho fun hop => ?_
  rw [hd hop, dApp_eq_ok_of_injective3 hC, hdrOf_eq_ok, hT, Bool.and_eq_true, Bool.and_eq_true]
  tauto

/-- A header, the fields of format M and a modifier in `TYPE`. -/
theorem memory {C : Hdr → MFields → β → Instr} {m : MFields} {code : β → BitVec 4} {ok : MFields → Bool} {T : D β}
    (hT : T = .ok b ↔ code b = wTy w) (he : encode (C h m b) = some (mkWord opc h (code b) m.code))
    (hwf : (C h m b).wf = (ok m && (res || h.noRes))) (ho : (encode (C h m b)).map wOpc = some (wOpc w))
    (hC : ∀ {h' m' b'}, C h' m' b' = C h m b → h' = h ∧ m' = m ∧ b' = b := by rintro _ _ _ ⟨⟩; exact ⟨rfl, rfl, rfl⟩)
    (hd : wOpc w = opc.toNat → decode w = dApp (dApp (dApp (.ok C) (hdrOf res w)) (decM ok w)) T := by
      intro hop; rw [decode, hop]; rfl) : RoundTrips w (C h m b) := by
  refine of_fields _ he hwf ho fun hop => ?_
  rw [hd hop, dApp_eq_ok_of_injective3 hC, hdrOf_eq_ok, hT, Bool.and_eq_true, decM_eq_ok]
  tauto
end

end RoundTrips

end Sys2Proof
end

section
/-! The instructions whose words hold fields of their own with a check of its own (R80, R85). -/

namespace Sys2Proof
open Machine

theorem vcondOk_isCmp {t : VTy} {c : VCond} (h : vcondOk t c = true) : t.isCmp = true := (Bool.and_eq_true_iff.1 h).1

theorem redOk_isCmp {t : VTy} {op : RedOp} (h : redOk t op = true) : t.isCmp = true := (Bool.and_eq_true_iff.1 h).1

section
variable {w : BitVec 64}

/-! The opcodes with a `SEL` field. -/

theorem decode_cachectl (hop : wOpc w = 0x1C5) : decode w =
    let arm (C : Hdr → Instr) := dChk (dChk (dApp (.ok C) (decHdrNone w)) (zeroAt w 0 16) .reserved) (wTy w == 0#4) .type
    match (w.extractLsb' 16 13).toNat with
    | 0 => arm .cachectlWb
    | 1 => arm .cachectlWbinv
    | 2 => arm .cachectlL1inv
    | _ => decNoSel w (decHdrNone w) false := by
  rw [decode, hop]
  rfl

theorem decode_ctxctl (hop : wOpc w = 0x1C7) : decode w =
    match (w.extractLsb' 16 13).toNat with
    | 0 => dChk (dChk (dApp (.ok .ctxctlTrrd) (decHdr w)) (zeroAt w 0 16) .reserved) (wTy w == 0#4) .type
    | 1 => dChk (dChk (dApp (.ok .ctxctlTret) (decHdrNone w)) (zeroAt w 0 16) .reserved) (wTy w == 0#4) .type
    | _ => decNoSel w (decHdr w) false := by
  rw [decode, hop]
  rfl

/-- The counters that `perfctl` names (R453). -/
def perfOk (n : BitVec 16) : Bool := n.toNat < 8 || 16 ≤ n.toNat && n.toNat < 32

theorem decode_perfctl (hop : wOpc w = 0x1C6) : decode w =
    let n := w.extractLsb' 0 16
    let arm (C : Hdr → BitVec 16 → Instr) (hd : D Hdr) :=
      dChk (dChk (dApp (dApp (.ok C) hd) (.ok n)) (decide (n.toNat < 8 ∨ (16 ≤ n.toNat ∧ n.toNat < 32))) .value) (wTy w == 0#4) .type
    match (w.extractLsb' 16 13).toNat with
    | 0 => arm .perfctlRd (decHdr w)
    | 1 => arm .perfctlCfg (decHdrNone w)
    | 2 => arm .perfctlClr (decHdrNone w)
    | _ => decNoSel w (decHdr w) true := by
  rw [decode, hop]
  rfl

end

/-- What the low 29 bits and `TYPE` of an instruction's word hold (Tables 3-11 to 3-13). -/
inductive WordFormat where
  /-- Nothing. -/
  | plain
  /-- A modifier in `TYPE`. -/
  | typed
  /-- An immediate, a counter or a register. -/
  | low
  /-- A modifier in `TYPE` and an immediate, a counter or a queue. -/
  | typedLow
  /-- The fields of format M and a modifier in `TYPE`. -/
  | memory
  /-- A selector that is part of the opcode. -/
  | sel
  /-- Fields of the entry's own, with every value that has a meaning accepted. -/
  | fields
  /-- Fields of the entry's own, with a check of its own. -/
  | checked
  /-- No word: an event. -/
  | event

def Instr.wordFormat : Instr → WordFormat
  | .nop .. | .null .. | .ssel .. | .sclz .. | .spopc .. | .kcnt .. | .kff .. | .fmtrd .. | .brx .. | .ret .. | .exit .. | .yield ..
  | .vsqrt .. | .vgetexp .. | .vclass .. | .vnot .. | .vclz .. | .vpopc .. | .vbrev .. | .vcompress .. | .vexpand .. | .vexp2 ..
  | .vlog2 .. | .vrcp .. | .vrsqrt .. | .vmatch .. | .eret .. => .plain
  | .mov .. | .kmov .. | .vote .. | .fmtset .. | .vabs .. | .vneg .. | .vsplat .. | .stroke .. => .typed
  | .sadd .. | .ssub .. | .smul .. | .sand .. | .sor .. | .sxor .. | .sshl .. | .sshr .. | .ssra .. | .kand .. | .kor .. | .kxor ..
  | .kandn .. | .tlwait .. | .vaddc .. | .vsubb .. | .vscale .. | .vand .. | .vor .. | .vxor .. | .vrotl .. | .vsel .. | .vshfl ..
  | .vbcast .. | .vlrot .. | .syswr .. => .low
  | .smulh .. | .sdiv .. | .srem .. | .smin .. | .smax .. | .lea .. | .scmp .. | .vadd .. | .vsub .. | .vmul .. | .vmulh .. | .vmulw ..
  | .vmad .. | .vdiv .. | .vrem .. | .vmin .. | .vmax .. | .vaddsat .. | .vsubsat .. | .vavg .. | .vabsd .. | .vdot4 .. | .vshl ..
  | .vshr .. | .vsra .. | .tlrd .. | .push .. => .typedLow
  | .ld .. | .st .. | .lds .. | .sts .. | .spld .. | .spst .. | .spldq .. | .spstq .. | .prefetch .. | .atom .. => .memory
  | .cachectlWb .. | .cachectlWbinv .. | .cachectlL1inv .. | .perfctlRd .. | .perfctlCfg .. | .perfctlClr .. | .ctxctlTrrd ..
  | .ctxctlTret .. => .sel
  | .fan .. | .const .. | .bro .. | .brv .. | .call .. | .trap .. | .brk .. | .vdecb .. | .vsin .. | .vcos .. | .mzero .. | .mma ..
  | .mmax .. | .mexp .. | .mrescale .. | .mld .. | .mst .. | .tkrd .. | .tsend .. | .trecv .. => .fields
  | .consth .. | .sysrd .. | .bar .. | .vrint .. | .vcmp .. | .vcvt .. | .vencb .. | .vred .. | .vscan .. | .mmode .. | .mmar .. | .red ..
  | .fence .. | .hint .. => .checked
  | _ => .event

namespace RoundTrips
variable {w : BitVec 64} {h : Hdr}

theorem consth {top imm} (ho : (encode (.consth h top imm)).map wOpc = some (wOpc w)) : RoundTrips w (.consth h top imm) := by
  refine .of_fields (!top || imm.toNat < 256) rfl (Bool.and_true _) ho fun hop => ?_
  have hlt := @zero_eq_extractLsb'_iff_lt w 0 20 8
  have htop : boolNib top = wTy w → (wTy w = 1 ↔ top = true) := by
    rintro htop
    rw [← htop]
    cases top <;> decide
  simp only [Nat.reduceAdd, Nat.reducePow] at hlt
  rw [decode, hop]
  refine dChk_eq_ok.trans ?_
  simp [wLow, append_eq_extractLsb', hlt, -BitVec.extractLsb'_toNat, -Bool.exists_bool]
  grind

theorem sysrd {sel imm} (ho : (encode (.sysrd h sel imm)).map wOpc = some (wOpc w)) : RoundTrips w (.sysrd h sel imm) := by
  refine .of_fields (sel == .linklat || imm == 0) rfl (by cases sel <;> exact Bool.and_true _) ho fun hop => ?_
  have hsel := @SysSel.ofCode_eq_some (w.extractLsb' 16 13)
  have hlinklat : w.extractLsb' 16 13 = 18 ↔ SysSel.linklat.code = w.extractLsb' 16 13 := eq_comm
  rw [decode, hop]
  refine dChk_eq_ok.trans ?_
  simp [wLow, append_eq_extractLsb']
  grind

theorem bar {scope id} (ho : (encode (.bar h scope id)).map wOpc = some (wOpc w)) : RoundTrips w (.bar h scope id) := by
  refine .of_fields (barOk scope id && h.noRes) rfl rfl ho fun hop => ?_
  have hscope := @Scope.ofCode_eq_some (w.extractLsb' 16 3) scope
  rw [decode, hop]
  refine dChk_eq_ok.trans ?_
  simp [wLow, append_eq_extractLsb']
  grind

theorem vrint {mode} (ho : (encode (.vrint h mode)).map wOpc = some (wOpc w)) : RoundTrips w (.vrint h mode) := by
  refine .of_fields true rfl rfl ho fun hop => ?_
  have hmode : ∀ mode : Fin 6, BitVec.ofNat 29 mode.val = 0#26 ++ BitVec.ofNat 3 mode.val := by decide
  rw [decode, hop]
  refine dChk_eq_ok.trans ?_
  simp [wLow, append_eq_extractLsb', hmode, -BitVec.extractLsb'_toNat]
  grind

theorem vcmp {t c} (ho : (encode (.vcmp h t c)).map wOpc = some (wOpc w)) : RoundTrips w (.vcmp h t c) := by
  refine .of_fields (vcondOk t c) rfl (Bool.and_true _) ho fun hop => ?_
  have ht := @VTy.ofCode_eq_some (wTy w) t
  have hc := @VCond.ofCode_eq_some (w.extractLsb' 0 4) c
  rw [decode, hop]
  refine dChk_eq_ok.trans ?_
  simp [wLow, append_eq_extractLsb']
  grind [vcondOk_isCmp]

theorem vcvt {d s md part} (ho : (encode (.vcvt h d s md part)).map wOpc = some (wOpc w)) : RoundTrips w (.vcvt h d s md part) := by
  refine .of_fields (vcvtOk d s md part) rfl (Bool.and_true _) ho fun hop => ?_
  have hd := @VTy.ofCode_eq_some (wTy w) d
  have hs := @VTy.ofCode_eq_some (w.extractLsb' 0 4) s
  rw [decode, hop]
  refine dChk_eq_ok.trans ?_
  simp [wLow, append_eq_extractLsb', ofBool_eq_extractLsb']
  grind [vcvtOk]

theorem vencb {f bt} (ho : (encode (.vencb h f bt)).map wOpc = some (wOpc w)) : RoundTrips w (.vencb h f bt) := by
  refine .of_fields (vencbOk f bt) rfl (Bool.and_true _) ho fun hop => ?_
  have hlow := @encBt_eq_iff w f bt
  rw [decode, hop]
  refine dChk_eq_ok.trans ?_
  simp
  grind

theorem vred {t op} (ho : (encode (.vred h t op)).map wOpc = some (wOpc w)) : RoundTrips w (.vred h t op) := by
  refine .of_fields (redOk t op) rfl (Bool.and_true _) ho fun hop => ?_
  have ht := @VTy.ofCode_eq_some (wTy w) t
  have hred := @RedOp.ofCode_eq_some (w.extractLsb' 0 3) op
  rw [decode, hop]
  refine dChk_eq_ok.trans ?_
  simp [wLow, append_eq_extractLsb']
  grind [redOk_isCmp]

theorem vscan {t ex op} (ho : (encode (.vscan h t ex op)).map wOpc = some (wOpc w)) : RoundTrips w (.vscan h t ex op) := by
  refine .of_fields (redOk t op) rfl (Bool.and_true _) ho fun hop => ?_
  have ht := @VTy.ofCode_eq_some (wTy w) t
  have hred := @RedOp.ofCode_eq_some (w.extractLsb' 0 3) op
  rw [decode, hop]
  refine dChk_eq_ok.trans ?_
  simp [wLow, append_eq_extractLsb', ofBool_eq_extractLsb']
  grind [redOk_isCmp]

theorem mmode {on en1 acc0 acc1} (ho : (encode (.mmode h on en1 acc0 acc1)).map wOpc = some (wOpc w)) :
    RoundTrips w (.mmode h on en1 acc0 acc1) := by
  refine .of_fields (mmodeOk on en1 acc0 acc1 && h.noRes) rfl rfl ho fun hop => ?_
  rw [decode, hop]
  refine dChk_eq_ok.trans ?_
  simp [wLow, append_eq_extractLsb', ofBool_eq_extractLsb']
  grind

theorem mmar {steps s0} (ho : (encode (.mmar h steps s0)).map wOpc = some (wOpc w)) : RoundTrips w (.mmar h steps s0) := by
  refine .of_fields (s0.toNat + steps.toNat + 1 ≤ 32 && h.noRes) rfl rfl ho fun hop => ?_
  rw [decode, hop]
  refine dChk_eq_ok.trans ?_
  simp [wLow, append_eq_extractLsb', one_eq_extractLsb', -BitVec.extractLsb'_toNat]
  grind

theorem red {m op} (ho : (encode (.red h m op)).map wOpc = some (wOpc w)) : RoundTrips w (.red h m op) := by
  refine .of_fields (atomOk m false && op != .exch && op != .cas && h.noRes) rfl rfl ho fun hop => ?_
  have hlt : op.code = wTy w → ((wTy w).toNat < 8 ↔ op ≠ .exch ∧ op ≠ .cas) := by
    rintro hty
    rw [← hty]
    cases op <;> decide
  rw [decode, hop]
  refine dChk_eq_ok.trans ?_
  simp
  grind

theorem fence {scope xpath} (ho : (encode (.fence h scope xpath)).map wOpc = some (wOpc w)) : RoundTrips w (.fence h scope xpath) := by
  refine .of_fields (scope != .warp && h.noRes) rfl rfl ho fun hop => ?_
  have hscope := @Scope.ofCode_eq_some (w.extractLsb' 16 3)
  have hwarp : zeroAt w 16 3 = true ↔ Scope.warp.code = w.extractLsb' 16 3 := zeroAt_eq_true
  rw [decode, hop]
  refine dChk_eq_ok.trans ?_
  simp [wLow, append_eq_extractLsb', ofBool_eq_extractLsb']
  grind

/-- A hint (R88) has no header. -/
theorem hint {l t p} (ho : (encode (.hint l t p)).map wOpc = some (wOpc w)) : RoundTrips w (.hint l t p) := by
  have hop : 0x1F0 ≤ wOpc w := by
    rw [← Option.some.inj ho]
    exact (hint_eq_iff.1 rfl).1
  rw [RoundTrips, decode_of_hint hop, dChk_eq_ok, Bool.and_eq_true, zeroAt_eq_true, zeroAt_eq_true, encode, Option.some_inj, hint_eq_iff,
    and_iff_right hop, show (Instr.hint l t p).wf = true from rfl]
  grind

theorem of_checkedFormat {i : Instr} (hf : i.wordFormat = .checked) (ho : (encode i).map wOpc = some (wOpc w)) :
    RoundTrips w i := by
  cases i with
  | consth => exact .consth ho
  | sysrd => exact .sysrd ho
  | bar => exact .bar ho
  | vrint => exact .vrint ho
  | vcmp => exact .vcmp ho
  | vcvt => exact .vcvt ho
  | vencb => exact .vencb ho
  | vred => exact .vred ho
  | vscan => exact .vscan ho
  | mmode => exact .mmode ho
  | mmar => exact .mmar ho
  | red => exact .red ho
  | fence => exact .fence ho
  | hint => exact .hint ho
  | _ => cases hf

end RoundTrips

end Sys2Proof
end

section
/-! Decoding inverts encoding, format by format. -/

namespace Sys2Proof
open Machine

/-- A decoder without a check besides the code's. -/
theorem iff_true_and {p q : Prop} (h : p ↔ q) : p ↔ true = true ∧ q := h.trans (and_iff_right rfl).symm

namespace RoundTrips
variable {w : BitVec 64} {i : Instr}

theorem of_plainFormat (hf : i.wordFormat = .plain) (ho : (encode i).map wOpc = some (wOpc w)) : RoundTrips w i := by
  cases i with
  | null | ssel | sclz | spopc | kcnt | kff | fmtrd | vsqrt | vgetexp | vclass | vnot | vclz | vpopc | vbrev | vcompress | vexpand | vexp2
  | vlog2 | vrcp | vrsqrt | vmatch => exact .plain true rfl rfl ho
  | nop | brx | ret | exit | yield | eret => exact .plain false rfl rfl ho
  | _ => cases hf

theorem of_typedFormat (hf : i.wordFormat = .typed) (ho : (encode i).map wOpc = some (wOpc w)) : RoundTrips w i := by
  cases i with
  | mov => exact .typed true (ok := fun _ => true) (iff_true_and (dOpt_eq_ok.trans Shape.ofCode_eq_some)) rfl rfl ho
  | kmov _ toMask => exact .typed true (ok := fun _ => true) (iff_true_and decBoolTy_eq_ok) rfl (by cases toMask <;> rfl) ho
  | vote _ form =>
    exact .typed true (ok := fun _ => true) (iff_true_and (dOpt_eq_ok.trans VoteForm.ofCode_eq_some)) rfl
      (by cases form <;> rfl) ho
  | vsplat => exact .typed true (ok := fun _ => true) (iff_true_and decBoolTy_eq_ok) rfl rfl ho
  | stroke => exact .typed false (ok := fun _ => true) (iff_true_and decBoolTy_eq_ok) rfl rfl ho
  | fmtset => exact .typed false (ok := fun _ => true) (iff_true_and (dOpt_eq_ok.trans FmtForm.ofCode_eq_some)) rfl rfl ho
  | vabs | vneg => exact .typed true decVTy_eq_ok rfl rfl ho
  | _ => cases hf

theorem of_lowFormat (hf : i.wordFormat = .low) (ho : (encode i).map wOpc = some (wOpc w)) : RoundTrips w i := by
  cases i with
  | sadd | ssub | smul | sand | sor | sxor | sshl | sshr | ssra | kand | kor | kxor | kandn | vaddc | vsubb | vscale | vand | vor | vxor
  | vrotl | vsel | vshfl | vbcast | vlrot => exact .low true decImm_eq_ok rfl rfl ho
  | tlwait => exact .low false decCtr_eq_ok rfl rfl ho
  | syswr => exact .low false decSysReg_eq_ok rfl rfl ho
  | _ => cases hf

theorem of_typedLowFormat (hf : i.wordFormat = .typedLow) (ho : (encode i).map wOpc = some (wOpc w)) : RoundTrips w i := by
  cases i with
  | vadd | vsub | vmul | vmulh | vmulw | vmad | vdiv | vrem | vmin | vmax | vaddsat | vsubsat | vavg | vabsd | vdot4 | vshl | vshr | vsra =>
    exact .typedLow true decVTy_eq_ok decImmV_eq_ok rfl rfl ho
  | smulh | sdiv | srem | smin | smax =>
    exact .typedLow true (ok := fun _ => true) (okL := fun _ _ => true)
      (iff_true_and (dOpt_eq_ok.trans Sgn.ofCode_eq_some)) (fun _ => iff_true_and decImm_eq_ok) rfl rfl ho
  | scmp =>
    exact .typedLow true (ok := fun _ => true) (okL := fun _ _ => true)
      (iff_true_and (dOpt_eq_ok.trans SCond.ofCode_eq_some)) (fun _ => iff_true_and decImm_eq_ok) rfl rfl ho
  | lea h sc im =>
    have hsc : decFin 5 (wTy w).toNat .type = .ok sc ↔ BitVec.ofNat 4 sc.val = wTy w := decFin_eq_ok (by decide)
    exact .typedLow true (code := fun sc => BitVec.ofNat 4 sc.val) (ok := fun _ => true) (okL := fun _ _ => true)
      (iff_true_and hsc) (fun _ => iff_true_and decImm_eq_ok) rfl rfl ho
  | tlrd =>
    exact .typedLow true (ok := fun _ => true) (okL := fun _ _ => true)
      (iff_true_and (dOpt_eq_ok.trans TlrdForm.ofCode_eq_some)) (fun _ => iff_true_and decCtr_eq_ok) rfl rfl ho
  | push =>
    exact .typedLow true (code := fun g : Fin 7 => BitVec.ofNat 4 (g.val + 1)) (ok := fun _ => true) (okL := fun _ _ => true)
      (iff_true_and decPushGrp_eq_ok) (fun _ => iff_true_and decPushQ_eq_ok) rfl rfl ho
  | _ => cases hf

theorem of_memoryFormat (hf : i.wordFormat = .memory) (ho : (encode i).map wOpc = some (wOpc w)) : RoundTrips w i := by
  cases i with
  | ld | spld | spldq => exact .memory true (dOpt_eq_ok.trans VTy.ofCode_eq_some) rfl rfl ho
  | st | spst | spstq => exact .memory false (dOpt_eq_ok.trans VTy.ofCode_eq_some) rfl rfl ho
  | lds => exact .memory true (dOpt_eq_ok.trans LdWidth.ofCode_eq_some) rfl rfl ho
  | sts => exact .memory false (dOpt_eq_ok.trans StWidth.ofCode_eq_some) rfl rfl ho
  | prefetch => exact .memory false decBoolTy_eq_ok rfl rfl ho
  | atom => exact .memory true (dOpt_eq_ok.trans AtomOp.ofCode_eq_some) rfl rfl ho
  | _ => cases hf

/-- The fields of a word are read each from its own bits. -/
theorem of_fieldsFormat (hf : i.wordFormat = .fields) (ho : (encode i).map wOpc = some (wOpc w)) : RoundTrips w i := by
  cases i with
  | bro h | brv h | call h | trap h | brk h | mzero h | mma h | mmax h | mexp h | mrescale h | mld h | mst h | tsend h =>
    refine .of_fields h.noRes rfl rfl ho fun hop => ?_
    rw [decode, hop]
    refine dChk_eq_ok.trans ?_
    simp [wLow, append_eq_extractLsb', ofBool_eq_extractLsb']
    grind
  | fan | const | vdecb | vsin | vcos | tkrd | trecv =>
    refine .of_fields true rfl rfl ho fun hop => ?_
    rw [decode, hop]
    refine dChk_eq_ok.trans ?_
    simp [wLow, append_eq_extractLsb', ofBool_eq_extractLsb']
    grind
  | _ => cases hf

theorem of_selFormat (hf : i.wordFormat = .sel) (ho : (encode i).map wOpc = some (wOpc w)) : RoundTrips w i := by
  cases i with
  | cachectlWb h | cachectlWbinv h | cachectlL1inv h =>
    refine .of_fields h.noRes rfl rfl ho fun hop => ?_
    rw [decode_cachectl hop]
    simp only [wLow, append_eq_extractLsb', Nat.reduceAdd, eq_iff_toNat _ (w.extractLsb' 16 13)]
    split <;> simp [*, decNoSel_ne_ok, -BitVec.extractLsb'_toNat] <;> grind
  | ctxctlTrrd h =>
    refine .of_fields true rfl rfl ho fun hop => ?_
    rw [decode_ctxctl hop]
    simp only [wLow, append_eq_extractLsb', Nat.reduceAdd, eq_iff_toNat _ (w.extractLsb' 16 13)]
    split <;> simp [*, decNoSel_ne_ok, -BitVec.extractLsb'_toNat] <;> grind
  | ctxctlTret h =>
    refine .of_fields h.noRes rfl rfl ho fun hop => ?_
    rw [decode_ctxctl hop]
    simp only [wLow, append_eq_extractLsb', Nat.reduceAdd, eq_iff_toNat _ (w.extractLsb' 16 13)]
    split <;> simp [*, decNoSel_ne_ok, -BitVec.extractLsb'_toNat] <;> grind
  | perfctlRd h n =>
    refine .of_fields (perfOk n) rfl (Bool.and_true _) ho fun hop => ?_
    rw [decode_perfctl hop]
    simp only [wLow, append_eq_extractLsb', Nat.reduceAdd, eq_iff_toNat _ (w.extractLsb' 16 13)]
    split <;> simp [*, decNoSel_ne_ok, -BitVec.extractLsb'_toNat] <;> grind [perfOk]
  | perfctlCfg h n | perfctlClr h n =>
    refine .of_fields (perfOk n && h.noRes) rfl rfl ho fun hop => ?_
    rw [decode_perfctl hop]
    simp only [wLow, append_eq_extractLsb', Nat.reduceAdd, eq_iff_toNat _ (w.extractLsb' 16 13)]
    split <;> simp [*, decNoSel_ne_ok, -BitVec.extractLsb'_toNat] <;> grind [perfOk]
  | _ => cases hf

theorem isWord_of_event (hf : i.wordFormat = .event) : i.isWord = false := by
  cases i <;> first | rfl | cases hf

theorem of_wOpc_encode (hw : i.isWord = true) (ho : (encode i).map wOpc = some (wOpc w)) : RoundTrips w i := by
  cases hf : i.wordFormat with
  | plain => exact of_plainFormat hf ho
  | typed => exact of_typedFormat hf ho
  | low => exact of_lowFormat hf ho
  | typedLow => exact of_typedLowFormat hf ho
  | memory => exact of_memoryFormat hf ho
  | sel => exact of_selFormat hf ho
  | fields => exact of_fieldsFormat hf ho
  | checked => exact of_checkedFormat hf ho
  | event => exact absurd hw (Bool.eq_false_iff.1 (isWord_of_event hf))

end RoundTrips

theorem encode_isSome {i : Instr} : (encode i).isSome = i.isWord := by
  cases i <;> rfl

theorem decode_eq_ok_iff {w : BitVec 64} {i : Instr} : decode w = .ok i ↔ i.wf = true ∧ encode i = some w := by
  constructor
  · intro hd
    exact (RoundTrips.of_wOpc_encode (isWord_of_decode hd) (wOpc_encode_of_decode hd)).1 hd
  · rintro ⟨hwf, he⟩
    have hword : i.isWord = true := by rw [← encode_isSome, he, Option.isSome_some]
    have hopc : (encode i).map wOpc = some (wOpc w) := by rw [he, Option.map_some]
    exact (RoundTrips.of_wOpc_encode hword hopc).2 ⟨hwf, he⟩

end Sys2Proof
end

section
/-! The encoding of instruction words (R79, R82 to R85). -/

namespace Sys2Proof.Machine
open Sys2Proof

/-- Settles O30: a word decodes to an instruction exactly when the instruction is well formed and encodes to the word. -/
theorem decodeEncode : Obligations.DecodeEncode := by
  refine ⟨fun i hwf hword => ?_, fun w i => decode_eq_ok_iff.1⟩
  obtain ⟨w, he⟩ := Option.isSome_iff_exists.1 (encode_isSome.trans hword)
  exact ⟨w, he, decode_eq_ok_iff.2 ⟨hwf, he⟩⟩

/-- `ssel` with an immediate has bits that must be zero (R111). -/
theorem decode_ssel_imm : decode 0x0B00000010000000 = .error .reserved := by decide

/-- A word of ones has the opcode of a hint, with a header that must be zero (R88). -/
theorem decode_allOnes : decode 0xFFFFFFFFFFFFFFFF = .error .reserved := by decide

/-- Settles O27: the instructions are well formed and encode to the words. -/
theorem wordsDecode : Obligations.WordsDecode :=
  ⟨decode_eq_ok_iff.2 (by decide), decode_eq_ok_iff.2 (by decide), decode_eq_ok_iff.2 (by decide), decode_eq_ok_iff.2 (by decide),
    decode_eq_ok_iff.2 (by decide), decode_eq_ok_iff.2 (by decide), decode_eq_ok_iff.2 (by decide), decode_eq_ok_iff.2 (by decide),
    ⟨_, decode_ssel_imm⟩, ⟨_, decode_allOnes⟩⟩

end Sys2Proof.Machine
end

section
/-! Meanings of one shape: what they deliver, and what they leave for the commit of their block (R82, R99, R101). -/

namespace Sys2Proof.Machine

section
variable {i : Instr} {h : Hdr}

/-- An instruction of the value shape delivers, whatever of the state its values are read from. -/
theorem delivers_of_value {lane : Nat} {f : State → Blk → Args → Token × Token} (hh : i.hdr? = some h)
    (he : ∀ s, exec i s = execValue i lane (f s) s) : Delivers i f := fun s b x hx ht =>
  he s ▸ execValue_delivers i h hh lane (f s) s b x hx ht

/-- An instruction that delivers a scalar, with its value said in another way. -/
theorem delivers_scalar {f g : Args → Word} (hh : i.hdr? = some h) (he : ∀ s, exec i s = execS i f s)
    (hfg : ∀ x, f x = g x := by exact fun _ => rfl) : Delivers i fun _ _ x => twice (.s (g x)) := by
  obtain rfl : f = g := funext hfg
  exact delivers_of_value hh he

/-- An instruction that delivers a mask. -/
theorem delivers_mask {f : Args → Word} (hh : i.hdr? = some h) (he : ∀ s, exec i s = execK i f s) :
    Delivers i fun _ _ x => twice (.k (f x)) := delivers_of_value hh he

/-- What holds of `Leaves` in more states, or with the block said in another way. -/
theorem Leaves.congr {ok ok' : State → Blk → Args → Prop} {f g : State → Blk → Args → Blk} (hl : Leaves i ok f)
    (h : ∀ s b x, ok' s b x → ok s b x ∧ f s b x = g s b x) : Leaves i ok' g := fun s b x hx hok =>
  (h s b x hok).2 ▸ hl s b x hx (h s b x hok).1

/-- An instruction without a result that changes its block only, under a condition. -/
theorem leaves_of_quiet {f : Blk → Args → State → State} {ok : State → Blk → Args → Prop} {g : State → Args → Blk → Blk}
    (hh : i.hdr? = some h) (he : ∀ s, exec i s = execQuiet i f s)
    (hf : ∀ s b x, ok s b x → f b x s.markFired = s.markFired.modBlk s.cur (g s x)) :
    Leaves i ok fun s b x => g s x (s.marked b) := fun s b x hx hok =>
  he s ▸ execQuiet_leaves i h hh f (g s x) s b x hx (hf s b x hok)

/-- An instruction without a result that, under a condition, leaves an effect for the commit. -/
theorem leaves_of_defer {f : Blk → Args → State → State} {ok : State → Blk → Args → Prop} {e : State → Args → Deferred → Deferred}
    (hh : i.hdr? = some h) (he : ∀ s, exec i s = execQuiet i f s)
    (hf : ∀ s b x, ok s b x → f b x s.markFired = s.markFired.defer (e s x)) : Leaves i ok fun s b x => s.deferTo b (e s x) :=
  leaves_of_quiet hh he hf

end

/-- Deliveries and the effects that a block keeps for its commit do not meet. -/
theorem Blk.give2_deferred (b : Blk) (h : Hdr) (v0 v1 : Token) (d : Deferred) :
    Blk.give2 { b with deferred := d } h v0 v1 = { b.give2 h v0 v1 with deferred := d } := by
  obtain ⟨pm, t0, t1⟩ := h
  cases t0 <;> cases t1 <;> rfl

/-- A meaning that leaves an effect for the commit and delivers one value to its open targets. -/
theorem State.deliver2_deferred {s : State} {b : Blk} {h : Hdr} (hb : s.blk? s.cur = some b) (ht : b.Takes h) (d : Deferred → Deferred)
    (v : Token) : s.OnlyBlk { (s.marked b).give2 h v v with deferred := d b.deferred }
      ((s.markFired.defer d).deliver2 s.cur s.curIdx h v v) := by
  have hd : (s.markFired.defer d).deliver2 s.cur s.curIdx h v v = _ :=
    (State.deliver2_fired hb (fun c => { c with deferred := d c.deferred }) ht s.curIdx v v).trans
      (congrArg (s.putBlk s.cur) (Blk.give2_deferred (s.marked b) h v v (d b.deferred)))
  rw [hd]
  exact ⟨rfl, rfl⟩

end Sys2Proof.Machine
end

section
/-! Group 0: scalar instructions (R107 to R111). -/

namespace Sys2Proof.Machine
open Sys2Proof

/-! Quotients and remainders of machine integers, rounded toward zero. -/

theorem ofInt_tdiv_toInt {n : Nat} (a b : BitVec n) : BitVec.ofInt n (a.toInt.tdiv b.toInt) = a.sdiv b :=
  BitVec.eq_of_toInt_eq (by rw [BitVec.toInt_ofInt, BitVec.toInt_sdiv])

theorem ofInt_tmod_toInt {n : Nat} (a b : BitVec n) : BitVec.ofInt n (a.toInt.tmod b.toInt) = a.srem b := by
  rw [← BitVec.toInt_srem, BitVec.ofInt_toInt]

theorem ofInt_tdiv_toNat {n : Nat} (a b : BitVec n) : BitVec.ofInt n ((a.toNat : Int).tdiv b.toNat) = a / b := by
  rw [← Int.ofNat_tdiv, BitVec.ofInt_natCast, ← BitVec.toNat_udiv, BitVec.ofNat_toNat, BitVec.setWidth_eq]

theorem ofInt_tmod_toNat {n : Nat} (a b : BitVec n) : BitVec.ofInt n ((a.toNat : Int).tmod b.toNat) = a % b := by
  rw [← Int.ofNat_tmod, BitVec.ofInt_natCast, ← BitVec.toNat_umod, BitVec.ofNat_toNat, BitVec.setWidth_eq]

/-- The signed division rule (R108): its case for the smallest number over -1 is what the machine's division wraps to. -/
theorem divRule_i64 (a b : Word) : divRule .i64 a b = if b = 0 then (allLanes, a) else (a.sdiv b, a.srem b) := by
  unfold divRule
  split
  · rfl
  split
  next h =>
    obtain ⟨-, rfl, rfl⟩ := h
    decide
  · exact Prod.ext (ofInt_tdiv_toInt a b) (ofInt_tmod_toInt a b)

theorem divRule_n64 (a b : Word) : divRule .n64 a b = if b = 0 then (allLanes, a) else (a / b, a % b) := by
  unfold divRule
  split
  · rfl
  · rw [if_neg (by simp)]
    exact Prod.ext (ofInt_tdiv_toNat a b) (ofInt_tmod_toNat a b)

/-- The upper half of the product of unsigned numbers. -/
theorem ofInt_mul_toNat_div (a b : Word) :
    BitVec.ofInt 64 (sgnNum .n64 a * sgnNum .n64 b / 2 ^ 64) = BitVec.ofNat 64 (a.toNat * b.toNat / 2 ^ 64) := by
  rw [← BitVec.ofInt_natCast]
  norm_cast

theorem fld_zero (w : Word) (n : Nat) : fld w 0 n = w.toNat % 2 ^ n := by
  rw [fld, Nat.pow_zero, Nat.div_one]

theorem shCount_eq (b : Word) : shCount b = b.toNat % 64 := fld_zero b 6

theorem sgnNum_n64_le (a b : Word) : sgnNum .n64 a ≤ sgnNum .n64 b ↔ a ≤ b := by
  simp [sgnNum, BitVec.le_def]

/-- A shift to the left multiplies by a power of two. -/
theorem shiftLeft_eq_mul_ofNat (b : Word) (n : Nat) : b <<< n = b * BitVec.ofNat 64 (2 ^ n) := by
  have htwo : BitVec.twoPow 64 n = BitVec.ofNat 64 (2 ^ n) := BitVec.eq_of_toNat_eq (BitVec.toNat_twoPow 64 n)
  rw [BitVec.shiftLeft_eq_mul_twoPow, htwo]

/-- The conditions of `scmp`, as comparisons of numbers (Table 4-4). -/
theorem scondHolds_iff (a b : Word) :
    (scondHolds .eq a b = true ↔ a = b) ∧ (scondHolds .ne a b = true ↔ a ≠ b) ∧
    (scondHolds .lt a b = true ↔ a.toInt < b.toInt) ∧ (scondHolds .le a b = true ↔ a.toInt ≤ b.toInt) ∧
    (scondHolds .gt a b = true ↔ b.toInt < a.toInt) ∧ (scondHolds .ge a b = true ↔ b.toInt ≤ a.toInt) ∧
    (scondHolds .ltn a b = true ↔ a.toNat < b.toNat) ∧ (scondHolds .len a b = true ↔ a.toNat ≤ b.toNat) ∧
    (scondHolds .gtn a b = true ↔ b.toNat < a.toNat) ∧ (scondHolds .gen a b = true ↔ b.toNat ≤ a.toNat) :=
  ⟨beq_iff_eq, bne_iff_ne, BitVec.slt_iff_toInt_lt, BitVec.sle_iff_toInt_le, BitVec.slt_iff_toInt_lt, BitVec.sle_iff_toInt_le,
    BitVec.ult_iff_toNat_lt, BitVec.ule_iff_toNat_le, BitVec.ult_iff_toNat_lt, BitVec.ule_iff_toNat_le⟩

/-- `ssel` waits while one of its slots is empty (R111). -/
theorem readiness_ssel {b : Blk} {n : Nat} {sl : Slot} (hsl : sl ≠ .p) (ho : b.opnd? n sl = none) (h : Hdr) (pm : Pred) :
    readiness b n pm (Instr.ssel h).sig = .waits := by
  cases sl with
  | p => exact absurd rfl hsl
  | a | b | c => simp [readiness, slotFull, Instr.sig, ho]

/-! Words that no instruction has. -/

theorem exists_decode_error {w : BitVec 64} (h : ∀ i, decode w ≠ .ok i) : ∃ e, decode w = .error e := by
  cases hd : decode w with
  | error e => exact ⟨e, rfl⟩
  | ok i => exact absurd hd (h i)

/-- In the format of a header and no field besides, `TYPE` and the low bits are zero. -/
theorem decode_plain_refused {w : BitVec 64} (C : Hdr → Instr)
    (hd : decode w = dChk (dChk (dApp (.ok C) (decHdr w)) (wTy w == 0#4) .type) (zeroAt w 0 29) .reserved) (h : wTy w ≠ 0 ∨ wLow w ≠ 0) :
    ∃ e, decode w = .error e := exists_decode_error fun i hi => by
  rw [hd, dChk_eq_ok, dChk_eq_ok] at hi
  obtain ⟨⟨-, hty⟩, hlow⟩ := hi
  exact h.elim (· (beq_iff_eq.1 hty)) (· (zeroAt_low.1 hlow).symm)

theorem wLow_ne_zero_of_getLsbD {w : BitVec 64} (h : w.getLsbD 28 = true) : wLow w ≠ 0 := fun h0 => by
  have hbit : (wLow w).getLsbD 28 = w.getLsbD 28 := by simp [wLow]
  rw [h0, h] at hbit
  exact absurd hbit (by decide)

theorem wLow_ne_zero_of_extractLsb' {w : BitVec 64} (h : w.extractLsb' 0 28 ≠ 0) : wLow w ≠ 0 := fun h0 => h (by
  have hpart : (wLow w).extractLsb' 0 28 = w.extractLsb' 0 28 := BitVec.extractLsb'_extractLsb'_of_le (by decide)
  rw [← hpart, h0]
  rfl)

/-- Settles O2: the values as their exec delivers them, by the rules of division, comparison and shift above. -/
theorem scalarInstructions : Obligations.ScalarInstructions := by
  unfold Obligations.ScalarInstructions
  refine ⟨fun h im => delivers_scalar rfl fun _ => rfl, fun h im => delivers_scalar rfl fun _ => rfl, fun h im => delivers_scalar rfl fun _ => rfl,
    fun h im => delivers_scalar rfl fun _ => rfl, fun h im => ?mulhN, fun h im => ?divI, fun h im => ?divN, fun h im => ?remI, fun h im => ?remN,
    fun h im => delivers_scalar rfl fun _ => rfl, fun h im => delivers_scalar rfl fun _ => rfl, fun h im => delivers_scalar rfl fun _ => rfl,
    fun h im => ?shl, fun h im => ?shr, fun h im => ?sra, fun h im => delivers_scalar rfl fun _ => rfl, fun h im => ?minN,
    fun h im => delivers_scalar rfl fun _ => rfl, fun h im => ?maxN, fun h sc im => ?lea, fun h c im => delivers_scalar rfl fun _ => rfl,
    scondHolds_iff, fun h => ⟨rfl, rfl, rfl⟩, fun h => ?ssel, fun h s b sl hb hsl ho => ?waits, fun w hop hw => ?refused⟩
  case mulhN => exact delivers_scalar rfl (fun _ => rfl) fun x => ofInt_mul_toNat_div _ _
  case divI => exact delivers_scalar rfl (fun _ => rfl) fun x => by rw [divRule_i64, apply_ite Prod.fst]
  case divN => exact delivers_scalar rfl (fun _ => rfl) fun x => by rw [divRule_n64, apply_ite Prod.fst]
  case remI => exact delivers_scalar rfl (fun _ => rfl) fun x => by rw [divRule_i64, apply_ite Prod.snd]
  case remN => exact delivers_scalar rfl (fun _ => rfl) fun x => by rw [divRule_n64, apply_ite Prod.snd]
  case shl | shr | sra => exact delivers_scalar rfl (fun _ => rfl) fun x => by rw [shCount_eq]
  case minN | maxN => exact delivers_scalar rfl (fun _ => rfl) fun x => by simp only [sgnNum_n64_le]
  case lea => exact delivers_scalar rfl (fun _ => rfl) fun x => by rw [shiftLeft_eq_mul_ofNat]
  case ssel => exact delivers_scalar rfl (fun _ => rfl) fun x => (ite_not ..).symm
  case waits => exact congrArg Host.Outcome.next (State.issue_waits rfl hb (readiness_ssel hsl ho h _))
  case refused => exact decode_plain_refused .ssel (by rw [decode, hop]; rfl) (hw.imp_right wLow_ne_zero_of_getLsbD)

end Sys2Proof.Machine
end

section
/-! Group 0: counting, shape and format (R112, R114, R120). -/

namespace Sys2Proof.Machine
open Sys2Proof

/-- The leading zeros end at the highest set bit. -/
theorem clz64_spec (a : Word) : clz64 a ≤ 64 ∧ (∀ i < clz64 a, a.getMsbD i = false) ∧ (clz64 a < 64 → a.getMsbD (clz64 a) = true) := by
  by_cases ha : a = 0
  · subst ha
    exact ⟨le_rfl, fun i _ => BitVec.getMsbD_zero, fun h => absurd h (lt_irrefl 64)⟩
  have hne : a.toNat ≠ 0 := fun h => ha (BitVec.eq_of_toNat_eq h)
  have hlog : Nat.log2 a.toNat < 64 := (Nat.log2_lt hne).2 a.isLt
  have hclz : clz64 a = 63 - Nat.log2 a.toNat := if_neg ha
  rw [hclz]
  refine ⟨by omega, fun i hi => ?_, fun _ => ?_⟩
  · have hj : a.getLsbD (64 - 1 - i) = false :=
      Nat.testBit_lt_two_pow (Nat.lt_log2_self.trans_le (Nat.pow_le_pow_right Nat.two_pos (by omega)))
    rw [BitVec.getMsbD, hj, Bool.and_false]
  · have hj : 64 - 1 - (63 - Nat.log2 a.toNat) = Nat.log2 a.toNat := by omega
    rw [BitVec.getMsbD, hj, Bool.and_eq_true, decide_eq_true_eq]
    exact ⟨by omega, Nat.testBit_log2 hne⟩

theorem popcount_eq_countP (m : Word) : popcount m = (List.range 64).countP fun l => m.getLsbD l := List.countP_eq_length_filter.symm

/-- A warp that has faulted has no block (R421). -/
theorem State.blk?_fault (s : State) (w : Nat) (r : FRec) : (s.fault w r).blk? w = none := by
  cases hb : s.blk? w with
  | some b =>
    obtain ⟨q, hq⟩ := State.fault_warp hb r
    rw [State.blk?_eq_warp, hq]
  | none =>
    have ha : s.abortBlock w = s := by simp only [State.abortBlock, hb]
    have hf : (s.fault w r).warp w = ((s.freeSeat w).modWarp w fun x => { x with park := { x.park with fault := true } }).warp w := by
      unfold State.fault
      rw [ha]
      rfl
    obtain ⟨q, hq⟩ := s.freeSeat_warp w w
    rw [State.blk?_eq_warp] at hb ⊢
    rw [hf, State.warp_modWarp, hq]
    split <;> exact hb

/-- A second delivery aborts the block (R42). -/
theorem State.blk?_deliver_filled {s : State} {w : Nat} {b : Blk} {t : Target} (hb : s.blk? w = some b) (ho : b.open t = false) (p : Nat)
    (v : Token) : (s.deliver w p t v).blk? w = none := by
  cases t with
  | none => exact Bool.noConfusion ho
  | opnd i sl | out n =>
    rw [Blk.open, Option.isNone_eq_false_iff] at ho
    simp only [State.deliver, hb, ho, if_true]
    exact State.blk?_fault ..

/-- A delivery leaves `fmt` as at block start. -/
theorem State.fmt0_of_deliver {s : State} {w p : Nat} {t : Target} {v : Token} {c : Blk} (h : (s.deliver w p t v).blk? w = some c) :
    ∃ b, s.blk? w = some b ∧ c.fmt0 = b.fmt0 := by
  cases hb : s.blk? w with
  | none =>
    simp only [State.deliver, hb] at h
    cases h
  | some b =>
    cases ho : b.open t with
    | false =>
      rw [State.blk?_deliver_filled hb ho] at h
      cases h
    | true =>
      rw [s.deliver_open w p t v b hb ho, s.blk?_modBlk w _ b hb] at h
      cases h
      refine ⟨b, rfl, ?_⟩
      cases t <;> rfl

theorem State.fmt0_of_delivers {w p : Nat} {l : List (Target × Token)} {s : State} {c : Blk}
    (h : (l.foldl (fun u q => u.deliver w p q.1 q.2) s).blk? w = some c) : ∃ b, s.blk? w = some b ∧ c.fmt0 = b.fmt0 := by
  induction l generalizing s with
  | nil => exact ⟨c, h, rfl⟩
  | cons q l ih =>
    obtain ⟨b, hb, hc⟩ := ih h
    obtain ⟨a, ha, hba⟩ := State.fmt0_of_deliver hb
    exact ⟨a, ha, hc.trans hba⟩

/-- A block keeps `fmt` as it stood when it started (R120). -/
theorem State.fmt0_of_startBlock {s : State} {w : Nat} {m : Img} {b : Blk} (h : (s.startBlock w m).blk? w = some b) :
    b.fmt0 = (s.warp w).fmt := by
  cases hp : readsPoison (s.warp w) m ((m.ins.filter fun i => wOpc i == 0x18E).map fun i => fld i 49 4) with
  | true =>
    have hf : s.startBlock w m = (s.countW w 3 1).fault w { code := 15 } := if_pos hp
    rw [hf, State.blk?_fault] at h
    cases h
  | false =>
    rw [State.startBlock_delivers hp] at h
    obtain ⟨a, ha, hba⟩ := State.fmt0_of_delivers h
    have hw := State.blk?_isSome_lt ha
    rw [State.modWarp_warps, List.length_modify] at hw
    rw [State.blk?_eq_warp, State.warp_modWarp, if_pos ⟨rfl, hw⟩] at ha
    cases ha
    exact hba

/-- `TYPE` of `kmov` is 0 or 1 (R114). -/
theorem decode_kmov_refused {w : BitVec 64} (hop : wOpc w = 0x01F) (h : 2 ≤ (wTy w).toNat) : ∃ e, decode w = .error e :=
  exists_decode_error fun i hi => by
    rw [decode, hop] at hi
    obtain ⟨hi, -⟩ := dChk_eq_ok.1 hi
    obtain ⟨g, -, b, hb, -⟩ := dApp_eq_ok.1 hi
    rw [decBoolTy_eq_ok] at hb
    have hlt : ∀ b, (boolNib b).toNat < 2 := by decide
    exact absurd (hb ▸ hlt b) (Nat.not_lt.2 h)

/-- Settles O3: the values as their exec delivers them, the count of leading zeros, `fmt` at block start and the words that are refused. -/
theorem countingShapeAndFormat : Obligations.CountingShapeAndFormat := by
  unfold Obligations.CountingShapeAndFormat
  refine ⟨fun h => delivers_scalar rfl fun _ => rfl, clz64_spec,
    fun h => delivers_scalar rfl (fun _ => rfl) fun x => by rw [popcount_eq_countP],
    fun h => delivers_scalar rfl fun _ => rfl, fun h => delivers_mask rfl fun _ => rfl, fun h => ⟨rfl, rfl⟩, fun h => ⟨rfl, rfl⟩,
    fun h => ⟨rfl, rfl, rfl⟩, fun h => delivers_of_value rfl fun _ => rfl, fun s w m b => State.fmt0_of_startBlock,
    fun x r hc hr => ?slot, fun w => decode_kmov_refused, fun w hop hw => ?refused⟩
  case slot => simp [Warp.readSlot, hc, hr]
  case refused =>
    have hw := hw.imp_right wLow_ne_zero_of_extractLsb'
    rcases hop with hop | hop | hop
    · exact decode_plain_refused .sclz (by rw [decode, hop]; rfl) hw
    · exact decode_plain_refused .spopc (by rw [decode, hop]; rfl) hw
    · exact decode_plain_refused .fmtrd (by rw [decode, hop]; rfl) hw

end Sys2Proof.Machine
end

section
/-! Group 0: masks, `vote` and `sysrd` (R113, R115 to R118); `ctxctl trrd` (R435). -/

namespace Sys2Proof.Machine
open Sys2Proof

theorem mem_lanesOf {m : Word} {l : Nat} : l ∈ lanesOf m ↔ l ∈ List.range 64 ∧ m.getLsbD l = true := List.mem_filter

theorem firstSet_eq_find? (m : Word) : firstSet m = ((List.range 64).find? fun l => m.getLsbD l).getD 64 := by
  rw [firstSet, List.headD_eq_head?_getD, lanesOf, List.head?_filter]
  rfl

/-- All elements of a list have the value of the first one exactly when any two have the same. -/
theorem forall_eq_headD_iff {α β : Type} (f : α → β) (d : α) (l : List α) :
    (∀ x ∈ l, f x = f (l.headD d)) ↔ ∀ x ∈ l, ∀ y ∈ l, f x = f y := by
  refine ⟨fun h x hx y hy => (h x hx).trans (h y hy).symm, fun h x hx => h x hx _ ?_⟩
  cases l with
  | nil => cases hx
  | cons y l => exact List.mem_cons_self

theorem voteVal_any (live : Word) (a : Vec) : voteVal .any live a =
    .s (if ∃ l ∈ List.range 64, live.getLsbD l = true ∧ a.lane l ≠ 0 then 1 else 0) :=
  congrArg Token.s (if_congr (by simp only [List.any_eq_true, mem_lanesOf, bne_iff_ne, and_assoc]) rfl rfl)

theorem voteVal_all (live : Word) (a : Vec) : voteVal .all live a =
    .s (if ∀ l ∈ List.range 64, live.getLsbD l = true → a.lane l ≠ 0 then 1 else 0) :=
  congrArg Token.s (if_congr (by simp only [List.all_eq_true, mem_lanesOf, bne_iff_ne, and_imp]) rfl rfl)

theorem voteVal_uni (live : Word) (a : Vec) : voteVal .uni live a =
    .s (if ∀ l ∈ List.range 64, ∀ m ∈ List.range 64, live.getLsbD l = true → live.getLsbD m = true → a.lane l = a.lane m
      then 1 else 0) := by
  refine congrArg Token.s (if_congr ?_ rfl rfl)
  simp only [List.all_eq_true, beq_iff_eq]
  rw [forall_eq_headD_iff a.lane]
  simp only [mem_lanesOf, and_imp]
  exact ⟨fun h l hl m hm hll hlm => h l hl hll m hm hlm, fun h l hl hll m hm hlm => h l hl m hm hll hlm⟩

/-- `vote` delivers its value over the live lanes (R115). -/
theorem delivers_vote (h : Hdr) (form : VoteForm) : Delivers (.vote h form) fun _ b x => twice (voteVal form b.live0 x.va) :=
  delivers_of_value rfl fun _ => rfl

/-- Two meanings that do the same when the instruction fires leave the same state. -/
theorem State.Fires.issue_congr {s : State} {i : Instr} {b : Blk} {x : Args} (hx : s.Fires i b x) {h : Hdr} (hh : i.hdr? = some h)
    (n n' : State → State) {f f' : Blk → Args → State → State} (hf : f b x s.markFired = f' b x s.markFired) :
    s.issue i (fun _ => true) n f = s.issue i (fun _ => true) n' f' := by
  rw [s.issue_fires i h hh _ _ _ b x hx rfl, s.issue_fires i h hh _ _ _ b x hx rfl, hf]

/-- What `sysrd` delivers does not change when its firing is noted. -/
theorem sysrdVal_markFired (s : State) (sel : SysSel) (imm : BitVec 16) : sysrdVal s.markFired sel imm = sysrdVal s sel imm := by
  obtain ⟨o, ho⟩ := s.warp_modBlk s.cur s.cur s.marked
  have hw : s.markFired.warp s.markFired.cur = { s.warp s.cur with blk := o } := ho
  have hp : s.markFired.place s.markFired.cur = s.place s.cur := s.place_modBlk ..
  have hl : s.markFired.launchOf s.markFired.cur = s.launchOf s.cur := s.launchOf_modBlk ..
  unfold sysrdVal
  rw [hw, hp, hl]
  cases sel <;> rfl

/-- `sysrd` but for `wstclr` delivers the selected value (R116). -/
theorem delivers_sysrd (h : Hdr) {sel : SysSel} (imm : BitVec 16) (hsel : sel ≠ .wstclr) :
    Delivers (.sysrd h sel imm) fun s _ _ => twice (sysrdVal s sel imm) := by
  intro s b x hx ht
  obtain ⟨t, he, ho⟩ := execValue_delivers (.sysrd h sel imm) h rfl (if sel = .laneid then 1 else 0)
    (fun _ _ => twice (sysrdVal s sel imm)) s b x hx ht
  refine ⟨t, (congrArg Host.Outcome.next (hx.issue_congr rfl _ _ ?_)).trans he, ho⟩
  simp only [hsel, if_false, sysrdVal_markFired]
  rfl

/-- `sysrd.wstclr` delivers `WST` and asks the commit to clear it (R118). -/
theorem leaves_sysrd_wstclr (h : Hdr) (imm : BitVec 16) : Leaves (.sysrd h .wstclr imm) (fun _ b _ => b.Takes h) fun s b _ =>
    { (s.marked b).give2 h (.s (s.warp s.cur).wst) (.s (s.warp s.cur).wst) with deferred := { b.deferred with wstclr := true } } := by
  intro s b x hx ht
  refine ⟨_, congrArg Host.Outcome.next (s.issue_fires _ h rfl _ _ _ b x hx rfl), ?_⟩
  rw [sysrdVal_markFired]
  exact State.deliver2_deferred (s.blk?_of_issuing b hx.1) ht (fun d => { d with wstclr := true }) _

/-- The trap word that `ctxctl trrd` selects (Table 21-8). -/
theorem trapWord_eq (t : TrapState) (a : Word) : trapWord t a = if t.on = false then 0 else if a.toNat % 4 = 0 then t.tr0
    else if a.toNat % 4 = 1 then t.tr1 else if a.toNat % 4 = 2 then t.tret else t.tlive := by
  have hlt : a.toNat % 4 < 4 := Nat.mod_lt _ (by decide)
  unfold trapWord
  generalize a.toNat % 4 = n at hlt
  cases t.on with
  | false => rfl
  | true => interval_cases n <;> rfl

/-- `ctxctl trrd` delivers a trap word (R435). -/
theorem delivers_ctxctlTrrd (h : Hdr) : Delivers (.ctxctlTrrd h) fun s _ x => twice (.s (trapWord (s.warp s.cur).trap x.sa)) :=
  delivers_of_value rfl fun _ => rfl

/-- Settles O4: the values as their exec delivers them, with `vote` and the counts said over the lanes. -/
theorem masksVoteAndSysrd : Obligations.MasksVoteAndSysrd := by
  unfold Obligations.MasksVoteAndSysrd
  dsimp only
  refine ⟨fun h im => delivers_mask rfl fun _ => rfl, fun h im => delivers_mask rfl fun _ => rfl, fun h im => delivers_mask rfl fun _ => rfl,
    fun h im => delivers_mask rfl fun _ => rfl, fun h => delivers_scalar rfl (fun _ => rfl) fun x => by rw [popcount_eq_countP],
    fun h => delivers_scalar rfl (fun _ => rfl) fun x => by rw [firstSet_eq_find?],
    fun h => ?any, fun h => ?all, fun h => ?uni, fun h => delivers_vote h .ballot,
    fun h imm => delivers_sysrd h imm (by decide), fun h imm => delivers_sysrd h imm (by decide), fun h imm => delivers_sysrd h imm (by decide),
    fun h imm => delivers_sysrd h imm (by decide), fun h imm => delivers_sysrd h imm (by decide), fun h imm => delivers_sysrd h imm (by decide),
    fun h imm => delivers_sysrd h imm (by decide), fun h imm => delivers_sysrd h imm (by decide),
    fun h sel imm => delivers_sysrd h imm, leaves_sysrd_wstclr, fun h => ?trrd⟩
  case any => simpa only [voteVal_any] using delivers_vote h .any
  case all => simpa only [voteVal_all] using delivers_vote h .all
  case uni => simpa only [voteVal_uni] using delivers_vote h .uni
  case trrd => simpa only [trapWord_eq] using delivers_ctxctlTrrd h

end Sys2Proof.Machine
end

section
/-! Branches and the other instructions whose effect waits for the commit of their block (R101). -/

namespace Sys2Proof.Machine
open Sys2Proof

section
variable {i : Instr} {h : Hdr}

/-- The first effect of a kind that a block may have once. -/
theorem leaves_once {α : Type} {d : Deferred → Option α} {e : State → Args → Deferred → Deferred} (hh : i.hdr? = some h)
    (he : ∀ s, exec i s = execQuiet i (fun b x s => if (d b.deferred).isSome then s.faultAt s.cur s.curIdx 2 0 else s.defer (e s x)) s)
    (hm : ∀ s x, e s.markFired x = e s x := by exact fun _ _ => rfl) :
    Leaves i (fun _ b _ => d b.deferred = none) fun s b x => s.deferTo b (e s x) :=
  leaves_of_defer hh he fun s b x hn => (if_neg (by simp [hn])).trans (congrArg s.markFired.defer (hm s x))

/-- The first branch of a block gives it its successor (R43). -/
theorem leaves_branch {sel : Args → BranchSel} (hh : i.hdr? = some h)
    (he : ∀ s, exec i s = execQuiet i (fun b x s => s.fireBranch b (sel x)) s) :
    Leaves i (fun _ b _ => b.branch = none) fun s b x => { s.marked b with branch := some (s.curIdx, sel x) } :=
  leaves_of_quiet (g := fun s x c => { c with branch := some (s.curIdx, sel x) }) hh he fun s b x hn => by
    simp only [State.fireBranch, hn]
    rfl

/-- The first `perfctl` of a counter (R453). -/
theorem State.perfNote_first {b : Blk} {n : Nat} (h : ∀ p ∈ b.deferred.perf, p.1 ≠ n) (s : State) (op : PerfOp) (go : State → State) :
    s.perfNote b n op go = go (s.defer fun d => { d with perf := d.perf ++ [(n, op)] }) :=
  if_neg fun e => by
    obtain ⟨p, hp, hn⟩ := List.any_eq_true.mp e
    exact h p hp (beq_iff_eq.mp hn)

/-- `perfctl.cfg` and `perfctl.clr`, in context 0 (Table 22-6). -/
theorem leaves_perfSet {n : Nat} {op : Args → PerfOp} (hh : i.hdr? = some h)
    (he : ∀ s, exec i s = execQuiet i (fun b x s => s.perfSet b n (op x)) s) :
    Leaves i (fun s b _ => (s.place s.cur).ctx = 0 ∧ ∀ p ∈ b.deferred.perf, p.1 ≠ n) fun s b x =>
      s.deferTo b fun d => { d with perf := d.perf ++ [(n, op x)] } :=
  leaves_of_defer hh he fun s _ _ ⟨hc, hp⟩ =>
    (if_neg fun e => bne_iff_ne.mp e (s.ctx_markFired.trans hc)).trans (State.perfNote_first hp _ _ _)

end

theorem State.perfCtr_markFired (s : State) (n : Nat) : s.markFired.perfCtr s.cur n = s.perfCtr s.cur n := by
  unfold State.perfCtr
  rw [State.markFired, State.place_modBlk]
  rfl

/-- `perfctl.rd` delivers the count and notes that it has named the counter (R453). -/
theorem leaves_perfctlRd (h : Hdr) (n : BitVec 16) :
    Leaves (.perfctlRd h n) (fun _ b _ => b.Takes h ∧ ∀ p ∈ b.deferred.perf, p.1 ≠ n.toNat) fun s b _ =>
      let c := s.perfCtr s.cur n.toNat
      let v : Token := .s (BitVec.ofNat 64 (c.count + if c.ovf then 2 ^ 63 else 0))
      { (s.marked b).give2 h v v with deferred := { b.deferred with perf := b.deferred.perf ++ [(n.toNat, .rd)] } } := by
  intro s b x hf ⟨ht, hp⟩
  refine ⟨_, congrArg Host.Outcome.next ((s.issue_fires _ h rfl _ _ _ b x hf rfl).trans (State.perfNote_first hp ..)), ?_⟩
  have hc : s.markFired.perfCtr s.markFired.cur n.toNat = s.perfCtr s.cur n.toNat := s.perfCtr_markFired n.toNat
  rw [hc]
  exact State.deliver2_deferred (s.blk?_of_issuing b hf.1) ht (fun d => { d with perf := d.perf ++ [(n.toNat, .rd)] }) _

/-- `tlwait` of a counter that its warp may name leaves a wait (R129). -/
theorem leaves_tlwait (h : Hdr) (c : Ctr) : Leaves (.tlwait h c) (fun s _ _ => s.foreignCtr s.cur c = false) fun s b x =>
    s.deferTo b fun d => { d with waits := d.waits ++ [{ ctr := s.ctrOf s.cur c, n := x.sa.toNat }] } := by
  refine leaves_of_defer rfl (fun _ => rfl) fun s b x hc => (if_neg (Bool.eq_false_iff.mp ((s.foreignCtr_markFired c).trans hc))).trans ?_
  have hr : s.markFired.ctrOf s.markFired.cur c = s.ctrOf s.cur c := s.ctrOf_modBlk ..
  rw [hr]

/-- `syswr` in context 0 leaves a write (R436). -/
theorem leaves_syswr (h : Hdr) (r : SysReg) : Leaves (.syswr h r) (fun s _ _ => (s.place s.cur).ctx = 0) fun s b x =>
    s.deferTo b fun d => { d with syswr := d.syswr ++ [(r, x.sa)] } :=
  leaves_of_defer rfl (fun _ => rfl) fun s _ _ hc => if_neg fun e => bne_iff_ne.mp e (s.ctx_markFired.trans hc)

/-- Settles O5: each clause is the lemma about its kind of effect. -/
theorem effectsWaitForCommit : Obligations.EffectsWaitForCommit := by
  unfold Obligations.EffectsWaitForCommit
  dsimp only
  refine ⟨fun h f => leaves_once rfl fun _ => rfl, fun h sc id => leaves_once rfl fun _ => rfl, fun h => ?yield,
    fun h n p => leaves_once rfl fun _ => rfl, fun h p => leaves_once rfl fun _ => rfl, fun h => ?tlc, fun h => ?tlk, fun h q => ?tll,
    fun h on en1 a0 a1 => leaves_once rfl fun _ => rfl, fun h sc xp => ?fence, fun h sc xp c y => ?fences,
    fun h sl => leaves_once rfl fun _ => rfl, fun h r => ?syswr, fun h n => leaves_perfSet rfl fun _ => rfl,
    fun h n => leaves_perfSet rfl fun _ => rfl, leaves_perfctlRd, fun h => ?tret, fun h n => leaves_branch rfl fun _ => rfl,
    fun h => leaves_branch rfl fun _ => rfl, fun h j => leaves_branch rfl fun _ => rfl, fun h n => leaves_branch rfl fun _ => rfl,
    fun h => leaves_branch rfl fun _ => rfl, fun h => leaves_branch rfl fun _ => rfl, fun h => leaves_branch rfl fun _ => rfl⟩
  case yield => exact leaves_of_defer rfl (fun _ => rfl) fun _ _ _ _ => rfl
  case tlc | tlk => exact Leaves.congr (leaves_tlwait h _) fun _ _ _ _ => ⟨rfl, rfl⟩
  case tll => exact Leaves.congr (leaves_tlwait h _) fun _ _ _ hq => ⟨bne_eq_false_iff_eq.mpr hq, rfl⟩
  case fence | fences =>
    exact Leaves.congr (leaves_of_defer rfl (fun _ => rfl) fun _ _ _ _ => rfl) fun s b x hb => ⟨hb, by simp only [State.deferTo, hb, Scope.wider]⟩
  case syswr => exact leaves_syswr h r
  case tret => exact Leaves.congr (leaves_once rfl fun _ => rfl) fun s b x hb => ⟨hb, by rw [fld_zero]⟩

end Sys2Proof.Machine
end

section
/-! Seats (R151 to R153). -/

namespace Sys2Proof.Machine

section
variable {s : State}

/-- Of numbers in rising order, the first of least key is the one that no other goes before, by its key or, with the same key, by its number. -/
theorem argmin_eq_some {key : Nat → Nat} {l : List Nat} (hl : l.Pairwise (· < ·)) {w : Nat} (hw : w ∈ l)
    (h : ∀ v ∈ l, key w < key v ∨ key w = key v ∧ w ≤ v) : l.argmin key = some w := by
  refine List.argmin_eq_some_iff.mpr ⟨hw, fun v hv => ?_, fun v hv hle => ?_⟩
  · rcases h v hv with h | h <;> omega
  · have hwv : w ≤ v := by rcases h v hv with h | h <;> omega
    by_contra hlt
    have hvw := List.pairwise_iff_getElem.mp hl _ _ (List.idxOf_lt_length_of_mem hv) (List.idxOf_lt_length_of_mem hw) (Nat.lt_of_not_le hlt)
    rw [List.getElem_idxOf, List.getElem_idxOf] at hvw
    omega

/-- Since when a warp has been ready. -/
def State.readySince (s : State) (w : Nat) : Nat := (s.warp w).seat.readyAt.getD 0

/-- The warp that takes a seat next is the first of those that have been ready longest (R152). -/
theorem State.nextSeated_eq_argmin (s : State) (die core : Nat) :
    s.nextSeated die core = ((s.coreWarps die core).filter s.waiting).argmin s.readySince := by
  refine congrArg (fun f => List.foldl f none _) (funext fun m => funext fun w => ?_)
  cases m <;> rfl

theorem State.nextSeated_eq_some {die core w : Nat} (hw : w ∈ s.coreWarps die core) (hr : s.waiting w = true)
    (h : ∀ v ∈ s.coreWarps die core, s.waiting v = true →
      s.readySince w < s.readySince v ∨ s.readySince w = s.readySince v ∧ w ≤ v) : s.nextSeated die core = some w := by
  rw [State.nextSeated_eq_argmin]
  exact argmin_eq_some ((List.pairwise_lt_range.filter _).filter _) (List.mem_filter.mpr ⟨hw, hr⟩)
    fun v hv => (List.mem_filter.mp hv).elim (h v)

/-- A free seat is given to the warp that takes one next. -/
theorem execSeatHandover_seats {die core seat w : Nat} (hs : seat < 8) (hfree : ∀ v ∈ s.coreWarps die core, (s.warp v).seat.seat ≠ some seat)
    (hw : s.nextSeated die core = some w) : exec (.seatHandover die core seat) s = .next ((s.countW w 9 1).modWarp w fun x => { x with
      begin_ := max x.begin_ (s.seatFrom die core seat),
      seat := { x.seat with seat := some seat, seatedAt := s.localTick die, readyAt := none, heldAt := none } }) := by
  have hnone : (s.coreWarps die core).any (fun v => (s.warp v).seat.seat == some seat) = false :=
    List.any_eq_false.mpr fun v hv => by simpa using hfree v hv
  rw [exec, execSeatHandover, if_neg (by simp [hnone, hs]), hw]

/-- A warp changed where events have been counted changes alone. -/
theorem State.onlyWarp_countW (s : State) (v src n w : Nat) (f : Warp → Warp) : s.OnlyWarp w f ((s.countW v src n).modWarp w f) := by
  obtain ⟨l, hl, hplain⟩ := s.countW_only v src n
  rw [hl]
  exact ⟨rfl, hplain⟩

/-- A fold of steps that never lower a number ends no lower than any of its steps. -/
theorem le_foldl_of_step {α : Type} {f : Nat → α → Nat} (hf : ∀ m a, m ≤ f m a) {k : Nat} {a : α} (ha : ∀ m, k ≤ f m a) {l : List α}
    (h : a ∈ l) (m : Nat) : k ≤ l.foldl f m := by
  have hup : ∀ (l : List α) m, m ≤ l.foldl f m := fun l => by
    induction l with
    | nil => exact fun _ => le_rfl
    | cons x l ih => exact fun m => (hf m x).trans (ih _)
  obtain ⟨l, r, rfl⟩ := List.append_of_mem h
  rw [List.foldl_append, List.foldl_cons]
  exact (ha _).trans (hup r _)

/-- A warp given a seat issues no earlier than 2 ticks after any warp left it (R152). -/
theorem State.le_seatFrom {die core seat v n : Nat} (hv : v ∈ s.coreWarps die core) (h : (s.warp v).seat.left = some (seat, n)) :
    n + 2 ≤ s.seatFrom die core seat := by
  refine le_foldl_of_step (fun m a => ?_) (fun m => ?_) hv 0
  · split
    · split
      · exact le_max_left ..
      · exact le_rfl
    · exact le_rfl
  · simp [h]

/-- An access that has held a warp for more than 16,384 ticks at tick `n`. -/
def Blk.heldLong (b : Blk) (n : Nat) : Bool := b.loads.any fun l => decide (l.at_ + 16384 < n)

theorem Blk.heldLong_eq_true {b : Blk} {n : Nat} : b.heldLong n = true ↔ ∃ l ∈ b.loads, l.at_ + 16384 < n := by
  simp [Blk.heldLong]

/-- A warp that is ready from tick `n` on, where it has no seat (R152). -/
def Warp.readyFrom (n : Nat) (x : Warp) : Warp := if x.seat.seat.isSome then x else { x with seat := { x.seat with readyAt := some n } }

/-- A warp that is ready once it has been changed. -/
theorem State.nowReady_modWarp {f : Warp → Warp} (hf : ∀ x, (f x).team = x.team) (s : State) (w : Nat) :
    (s.modWarp w f).nowReady w = s.modWarp w fun x => (f x).readyFrom (s.localTick (s.place w).die) := by
  change (s.modWarp w f).modWarp w (Warp.readyFrom (s.localTick ((s.modWarp w f).place w).die)) = _
  rw [State.place_modWarp hf]
  exact congrArg (fun l => { s with warps := l }) (List.modify_modify_eq ..)

theorem modify_congr_getElem? {α : Type} {l : List α} {n : Nat} {f g : α → α} (h : ∀ x, l[n]? = some x → f x = g x) :
    l.modify n f = l.modify n g := by
  refine List.ext_getElem? fun i => ?_
  rw [List.getElem?_modify, List.getElem?_modify]
  by_cases hi : n = i
  · subst hi
    cases hx : l[n]? with
    | none => rfl
    | some x => simp [h x hx]
  · simp [hi]

/-- A warp that no access holds any more. -/
def Warp.unheld (x : Warp) : Warp := { x with seat := { x.seat with heldAt := none } }

theorem State.nowReady_unheld {w : Nat} (h : (s.warp w).seat.seat = none) : (s.modWarp w Warp.unheld).nowReady w =
    s.modWarp w fun x => { x with seat := { x.seat with heldAt := none, readyAt := some (s.localTick (s.place w).die) } } := by
  rw [State.nowReady_modWarp (f := Warp.unheld) fun _ => rfl]
  refine congrArg (fun l => { s with warps := l }) (modify_congr_getElem? fun x hx => if_neg ?_)
  have hseat : x.seat.seat = none := by simpa [State.warp, List.getD, hx] using h
  simp [Warp.unheld, hseat]

theorem execWarpAccessComplete_frees {w n : Nat} {b : Blk} (hb : s.blk? w = some b) (hn : (s.warp w).seat.heldAt = some n)
    (hs : (s.warp w).seat.seat = none) (h : b.heldLong n = false) :
    exec (.warpAccessComplete w) s = .next (s.modWarp w fun x =>
      { x with seat := { x.seat with heldAt := none, readyAt := some (s.localTick (s.place w).die) } }) := by
  rw [← State.nowReady_unheld hs]
  simp only [exec, execWarpAccessComplete, hb, hn]
  exact congrArg Host.Outcome.next (if_pos (congrArg (!·) h))

theorem execWarpAccessComplete_waits {w n : Nat} {b : Blk} (hb : s.blk? w = some b) (hn : (s.warp w).seat.heldAt = some n)
    (h : b.heldLong n = true) : exec (.warpAccessComplete w) s = .next s := by
  simp only [exec, execWarpAccessComplete, hb, hn]
  exact congrArg Host.Outcome.next (if_neg (Bool.eq_false_iff.mp (congrArg (!·) h)))

/-- A warp of an untimed launch that leaves its seat for another is ready at once. -/
theorem State.nowReady_freeSeat {w : Nat} (ht : (s.launchOf w).timed = false) : (s.freeSeat w).nowReady w = s.modWarp w fun x =>
    { x with seat := { x.seat.leave (s.localTick (s.place w).die) with readyAt := some (s.localTick (s.place w).die) } } := by
  rw [State.freeSeat, if_neg (Bool.eq_false_iff.mp ht)]
  exact State.nowReady_modWarp (f := fun x => { x with seat := x.seat.leave (s.localTick (s.place w).die) }) (fun _ => rfl) s w

theorem State.leaveSeat_stays {w : Nat} (h : (s.launchOf w).timed = true ∨ s.hasWaiter w = false) : s.leaveSeat w = s :=
  if_neg (by rcases h with h | h <;> simp [h])

end

/-- Settles O42: a seat goes to the first of those ready longest, and each event of a warp's seat by its condition. -/
theorem seatsAreShared : Obligations.SeatsAreShared := by
  unfold Obligations.SeatsAreShared
  refine ⟨?handover, fun s die core seat v hv n h => State.le_seatFrom hv h, ?timeout, ?complete, ?held, ?tenure, ?leave, ?stays⟩
  case handover =>
    intro s die core seat w hs hfree hw hr h
    exact ⟨_, execSeatHandover_seats hs hfree (State.nextSeated_eq_some hw hr h), s.onlyWarp_countW w 9 1 w _⟩
  case timeout =>
    intro s w b l hb hs ht hl hlong
    have hany : b.heldLong (s.localTick (s.place w).die) = true := Blk.heldLong_eq_true.mpr ⟨l, hl, hlong⟩
    simp only [exec, execAccessHeldTimeout, hb, hs, ht]
    exact congrArg Host.Outcome.next (if_pos hany)
  case complete =>
    intro s w b n hb hn hs h
    refine execWarpAccessComplete_frees hb hn hs (Bool.eq_false_iff.mpr fun e => ?_)
    obtain ⟨l, hl, hlt⟩ := Blk.heldLong_eq_true.mp e
    exact absurd (h l hl) (Nat.not_le.mpr hlt)
  case held =>
    intro s w b n l hb hn hl hlt
    exact execWarpAccessComplete_waits hb hn (Blk.heldLong_eq_true.mpr ⟨l, hl, hlt⟩)
  case tenure =>
    intro s w hb hlong hs he ht hw
    refine congrArg Host.Outcome.next ((if_pos (by simp [hb, he, hlong])).trans ?_)
    rw [State.leaveSeat, if_pos (by simp [hs, ht, hw]), State.nowReady_freeSeat ht]
    rfl
  case leave =>
    intro x n
    exact ⟨rfl, rfl, fun k hk => by simp [SeatW.leave, hk]⟩
  case stays =>
    intro s w h
    rw [← or_assoc] at h
    rcases h with h | h
    · exact congrArg Host.Outcome.next (by rw [State.leaveSeat_stays h, ite_self])
    · exact congrArg Host.Outcome.next (if_neg (by simp [h]))

end Sys2Proof.Machine
end

section
/-! What the device itself writes (log 5) leaves the units, their warps and the clocks of the dies as they are. -/

namespace Sys2Proof.Machine

/-- `t` differs from `s` in memory, in the caches and in the timestamps of the dies only. -/
structure State.Writes (s t : State) : Prop where
  only : t = { s with dies := t.dies, cache := t.cache, mem := t.mem, memPoison := t.memPoison }
  clocks : t.dies.map Die.local_ = s.dies.map Die.local_

section
variable {s t u : State}

theorem State.Writes.refl (s : State) : s.Writes s := ⟨rfl, rfl⟩

theorem State.Writes.trans (h : s.Writes t) (k : t.Writes u) : s.Writes u where
  only := k.only.trans (by rw [h.only])
  clocks := k.clocks.trans h.clocks

theorem State.Writes.foldl {α : Type} {f : State → α → State} (hf : ∀ (s : State) a, s.Writes (f s a)) (l : List α) (s : State) :
    s.Writes (l.foldl f s) := by
  induction l generalizing s with
  | nil => exact .refl s
  | cons a l ih => exact (hf s a).trans (ih _)

theorem State.Writes.ite {c : Prop} [Decidable c] (h : s.Writes t) (k : s.Writes u) : s.Writes (if c then t else u) := by
  split
  · exact h
  · exact k

theorem State.writes_modCache (s : State) (f : Caches → Caches) : s.Writes (s.modCache f) := ⟨rfl, rfl⟩

theorem State.writes_modDie (s : State) (d : Nat) {f : Die → Die} (hf : ∀ x, (f x).local_ = x.local_) : s.Writes (s.modDie d f) :=
  ⟨rfl, map_modify_of_eq hf s.dies d⟩

theorem State.writes_recall (s : State) (die space line : Nat) : s.Writes (s.recall die space line) := by
  unfold State.recall
  split
  · exact .refl s
  · exact .ite (.refl s) (((s.writes_modCache _).trans (State.writes_modCache _ _)).trans (State.writes_modDie _ die fun _ => rfl))

theorem State.writes_topOut (s : State) (die : Nat) : s.Writes (s.topOut die) :=
  (s.writes_modCache _).trans (State.writes_modDie _ die fun _ => rfl)

theorem State.writes_freshen (s : State) (die space line : Nat) : s.Writes (s.freshen die space line) := by
  unfold State.freshen
  split
  · exact .refl s
  · refine .ite (.refl s) ?_
    extract_lets r v n
    have hv : s.Writes v := (s.writes_recall die space line).trans (.ite (r.writes_topOut die) (.refl r))
    split
    · exact hv
    · exact hv.trans ((v.writes_modCache _).trans (State.writes_modDie _ die fun _ => rfl))

theorem State.writes_writeHome (s : State) (space line : Nat) (l : List CWord) : s.Writes (s.writeHome space line l) := by
  unfold State.writeHome
  split
  · exact .refl s
  · extract_lets up u
    refine (s.writes_modCache _).trans (State.Writes.foldl ?_ l u)
    exact fun _ _ => ⟨rfl, rfl⟩

theorem State.writes_pokeWord (s : State) (space line i : Nat) (v : Lane) (p : Bool) : s.Writes (s.pokeWord space line i v p) :=
  (s.writes_modCache _).trans (State.writes_writeHome ..)

theorem State.writes_pokeBytes (s : State) (space : Nat) (bytes : List (Nat × BitVec 8)) : s.Writes (s.pokeBytes space bytes) :=
  (State.Writes.foldl (fun s n => .foldl (fun s d => s.writes_freshen d space n) _ s) _ s).trans
    (.foldl (fun s _ => s.writes_pokeWord ..) _ _)

theorem State.writes_pokeCtx (s : State) (ctx va : Nat) (l : List (BitVec 8)) : s.Writes (s.pokeCtx ctx va l) :=
  .foldl (fun s sp => s.writes_pokeBytes sp _) _ s

theorem State.writes_writeRecords (s : State) (ctx : Nat) (ts : List Nat) : s.Writes (s.writeRecords ctx ts) := by
  unfold State.writeRecords
  refine (State.Writes.foldl ?_ _ s).trans (State.Writes.foldl ?_ _ _)
  · exact fun u p => u.writes_pokeCtx ctx p.1 p.2
  · exact fun u _ => u.writes_pokeWord ..

theorem State.Writes.warps (h : s.Writes t) : t.warps = s.warps := by rw [h.only]
theorem State.Writes.teams (h : s.Writes t) : t.teams = s.teams := by rw [h.only]
theorem State.Writes.gangs (h : s.Writes t) : t.gangs = s.gangs := by rw [h.only]
theorem State.Writes.regions (h : s.Writes t) : t.regions = s.regions := by rw [h.only]
theorem State.Writes.localTick (h : s.Writes t) (d : Nat) : t.localTick d = s.localTick d := getD_of_map_eq h.clocks d {}

end

end Sys2Proof.Machine
end

section
/-! Pre-emption (R155 to R157, R438 to R442). -/

namespace Sys2Proof.Machine

section
variable {s t : State}

/-- As many warps as before, each with its registers. -/
theorem Kept.map_regs (h : Kept (fun _ => .all) s t) (hl : t.warps.length = s.warps.length) :
    t.warps.map Warp.regs = s.warps.map Warp.regs := by
  refine List.ext_getElem? fun w => ?_
  rw [List.getElem?_map, List.getElem?_map]
  cases hx : s.warps[w]? with
  | none => rw [List.getElem?_eq_none (hl ▸ List.getElem?_eq_none_iff.mp hx)]
  | some x =>
    obtain ⟨y, hy, hr, hf⟩ := h.regs w x nofun hx
    simp only [Warp.regsButFmt, Prod.mk.injEq] at hr
    obtain ⟨hv, hs, hk, hm, hwst⟩ := hr
    simp [hy, Warp.regs, hv, hs, hk, hm, hwst, hf rfl]

/-! The gangs that stop (R155, R438, R439). -/

/-- A change made to some members of a list, which does no more when it is made again. -/
theorem getD_foldl_modify {α : Type} {f : α → α} (hf : ∀ x, f (f x) = f x) (l : List Nat) (xs : List α) (k : Nat) (d : α) :
    (l.foldl (fun ys i => ys.modify i f) xs).getD k d = if k ∈ l ∧ k < xs.length then f (xs.getD k d) else xs.getD k d := by
  induction l generalizing xs with
  | nil => simp
  | cons i l ih =>
    rw [List.foldl_cons, ih, List.length_modify]
    by_cases hk : k < xs.length
    · by_cases hi : k = i
      · subst hi
        rw [getD_modify_self hk, hf]
        simp [hk]
      · rw [getD_modify_ne xs hi]
        simp [hk, hi]
    · rw [List.getD_eq_default _ _ (by simpa using hk), List.getD_eq_default _ _ (by simpa using hk), if_neg fun e => hk e.2,
        if_neg fun e => hk e.2]

/-- How a gang stands once it is asked to stop. -/
def State.stopped (s : State) (head : Option Nat) (x : Gang) : Gang := x.stop (s.localTick (s.region x.region).die) s.stake head head.isSome

theorem State.stopped_resident {head : Option Nat} {x : Gang} (h : x.st = .resident) : s.stopped head x =
    { x with st := .stopping (s.localTick (s.region x.region).die) head, stoppedAt := s.stake, bound := none } := if_pos h

theorem State.stopped_reserve {head : Option Nat} {x : Gang} (h : x.st = .reserve) (hh : head.isSome = true) :
    s.stopped head x = { x with st := .stopping (s.localTick (s.region x.region).die) head, bound := none } :=
  (if_neg (by simp [h])).trans (if_pos ⟨h, hh⟩)

theorem State.stopped_other {head : Option Nat} {x : Gang} (h : x.st ≠ .resident) (h' : x.st ≠ .reserve) : s.stopped head x = x :=
  (if_neg h).trans (if_neg fun e => h' e.1)

theorem State.stopped_stopped (s : State) (head : Option Nat) (x : Gang) : s.stopped head (s.stopped head x) = s.stopped head x := by
  by_cases h : x.st = .resident
  · rw [State.stopped_resident h]
    exact State.stopped_other nofun nofun
  by_cases h' : x.st = .reserve ∧ head.isSome = true
  · rw [State.stopped_reserve h'.1 h'.2]
    exact State.stopped_other nofun nofun
  · have hx : s.stopped head x = x := (if_neg h).trans (if_neg h')
    rw [hx, hx]

theorem State.stopGangs_eq (s : State) (l : List Nat) (head : Option Nat) :
    s.stopGangs l head head.isSome = { s with gangs := l.foldl (fun gs k => gs.modify k (s.stopped head)) s.gangs } :=
  List.foldl_hom (init := s.gangs) (l := l) (g₁ := fun gs k => gs.modify k (s.stopped head))
    (g₂ := fun (u : State) k => u.modGang k fun x => x.stop (u.localTick (u.region x.region).die) u.stake head head.isSome)
    (fun gs => ({ s with gangs := gs } : State)) fun _ _ => rfl

theorem State.gang_stopGangs (s : State) (l : List Nat) (head : Option Nat) (k : Nat) :
    (s.stopGangs l head head.isSome).gang k = if k ∈ l ∧ k < s.gangs.length then s.stopped head (s.gang k) else s.gang k := by
  rw [State.stopGangs_eq]
  exact getD_foldl_modify (s.stopped_stopped head) l s.gangs k default

theorem execPreemptGang_stops {g : Nat} (hg : g < s.gangs.length) (ht : (s.grid (s.gangGrid g)).launch.timed = false)
    (h : (s.gang g).st = .resident ∨ (s.causeOf g).isSome = true) : ∃ qs, exec (.preemptGang g) s =
      .next (State.stopGangs { s with queues := qs } (s.stopSet g) (s.causeOf g) (s.causeOf g).isSome) := by
  have hgo : ¬ ((decide (s.gangs.length ≤ g) || (s.grid (s.gangGrid g)).launch.timed ||
      ((s.gang g).st != .resident && (s.causeOf g).isNone)) = true) := by
    rcases h with h | h
    · simp [hg, ht, h]
    · simp [hg, ht, Option.isSome_iff_ne_none.mp h]
  cases hc : s.causeOf g with
  | none => exact ⟨s.queues, by rw [exec, execPreemptGang, if_neg hgo, hc]⟩
  | some q => exact ⟨_, by rw [exec, execPreemptGang, if_neg hgo, hc]; rfl⟩

theorem State.stopSet_of_none {g : Nat} (h : s.causeOf g = none) : s.stopSet g = s.together g := by rw [State.stopSet, h]

theorem State.stopSet_of_some {g q : Nat} (h : s.causeOf g = some q) : s.stopSet g = s.plan q ∧ g ∈ s.plan q :=
  ⟨by rw [State.stopSet, h], by simpa using List.find?_some h⟩

/-- The gangs that a hit takes with it: those hit, and of the gangs of lower priority those of a co-resident grid of which one is hit. -/
def State.drawn (s : State) (lo hit : Nat → Bool) : List Nat :=
  (List.range s.gangs.length).filter fun g => hit g || (lo g && (s.grid (s.gangGrid g)).launch.coresident &&
    ((List.range s.gangs.length).filter hit).any fun k => s.gangGrid k == s.gangGrid g)

/-- A plan names the gangs of lower priority that stand where the head would be placed, where the head has no room as things are. -/
theorem State.plan_eq_drawn {q k : Nat} (h : k ∈ s.plan q) : s.placeHead q = none ∧
    ∃ hit : Nat → Bool, (∀ g, hit g = true → s.lower (s.queue q).prio g = true) ∧ s.plan q = s.drawn (s.lower (s.queue q).prio) hit := by
  unfold State.plan at h ⊢
  extract_lets at h ⊢
  split at h
  · cases h
  next hroom =>
    rw [if_neg hroom]
    refine ⟨by simpa using hroom, ?_⟩
    split at h
    · cases h
    · extract_lets new cores on hit gs
      exact ⟨hit, fun g hg => (Bool.and_eq_true_iff.mp hg).1, rfl⟩

theorem State.lower_iff {p g : Nat} : s.lower p g = true ↔ (s.grid (s.gangGrid g)).launch.timed = false ∧ (s.grid (s.gangGrid g)).done = false ∧
    (s.gang g).st.holds = true ∧ s.gridPrio (s.gangGrid g) < p := by
  simp [State.lower, and_assoc]

section
variable {lo hit : Nat → Bool} {k : Nat} (hk : k ∈ s.drawn lo hit)
include hk

theorem State.lower_of_mem_drawn (hlo : ∀ g, hit g = true → lo g = true) : lo k = true := by
  have h := (List.mem_filter.mp hk).2
  simp only [Bool.or_eq_true, Bool.and_eq_true] at h
  rcases h with h | ⟨⟨h, -⟩, -⟩
  · exact hlo k h
  · exact h

/-- A co-resident grid is drawn whole. -/
theorem State.mem_drawn_of_grid (hc : (s.grid (s.gangGrid k)).launch.coresident = true) {j : Nat} (hj : j < s.gangs.length)
    (hjk : s.gangGrid j = s.gangGrid k) (hl : lo j = true) : j ∈ s.drawn lo hit := by
  obtain ⟨hr, h⟩ := List.mem_filter.mp hk
  have hany : ((List.range s.gangs.length).filter hit).any (fun i => s.gangGrid i == s.gangGrid k) = true := by
    rcases Bool.or_eq_true_iff.mp h with h | h
    · exact List.any_eq_true.mpr ⟨k, List.mem_filter.mpr ⟨hr, h⟩, beq_self_eq_true _⟩
    · exact (Bool.and_eq_true_iff.mp h).2
  refine List.mem_filter.mpr ⟨List.mem_range.mpr hj, Bool.or_eq_true_iff.mpr (.inr ?_)⟩
  rw [hjk, hl, hc, hany]
  rfl

end

/-! The end of a slow block (R439). -/

theorem execPreemptBlockTimeout_aborts {w n : Nat} {b : Blk} {h : Option Nat} (hb : s.blk? w = some b) (hc : b.cls = 0)
    (ha : b.atomDone = none) (hs : (s.gang (s.place w).gang).st = .stopping n h) (hn : n + 16384 ≤ s.localTick (s.place w).die) :
    exec (.preemptBlockTimeout w) s = .next (s.abortBlock w) := by
  simp only [exec, execPreemptBlockTimeout, hb, hs]
  rw [if_pos (by simp [hc, ha, hn])]

/-- A warp whose block is aborted. -/
theorem State.warp_abortBlock {w : Nat} {b : Blk} (hb : s.blk? w = some b) :
    (s.abortBlock w).blk? w = none ∧ (s.abortBlock w).warps.length = s.warps.length ∧
      (s.abortBlock w).warp w = { s.warp w with blk := none, unchecked := false } := by
  have hw : w < s.warps.length := by
    by_contra hn
    rw [State.blk?, List.getElem?_eq_none (not_lt.mp hn)] at hb
    cases hb
  refine ⟨?_, ?_, ?_⟩
  · simp [State.blk?, s.abortBlock_warps w b hb, hw]
  · rw [s.abortBlock_warps w b hb, List.length_modify]
  · rw [State.warp, s.abortBlock_warps w b hb, getD_modify_self hw]
    rfl

/-! Teams and cores changed one after the other. -/

/-- Teams changed one after the other, each once: each as its own step changes it. -/
theorem State.foldl_teams {f : State → Nat → State} {R : Nat → Team → Team → Prop}
    (hf : ∀ (s : State) k, ∃ g, (f s k).teams = s.teams.modify k g ∧ ∀ x, R k x (g x)) {l : List Nat} (hl : l.Nodup) :
    ∀ s : State, (∀ k ∈ l, k < s.teams.length → R k (s.team k) ((l.foldl f s).team k)) ∧
      ∀ k, k ∉ l → (l.foldl f s).team k = s.team k := by
  induction l with
  | nil => exact fun s => ⟨fun _ h => absurd h List.not_mem_nil, fun _ _ => rfl⟩
  | cons i l ih =>
    intro s
    obtain ⟨hil, hl⟩ := List.nodup_cons.mp hl
    obtain ⟨g, hteams, hR⟩ := hf s i
    obtain ⟨hin, hout⟩ := ih hl (f s i)
    have hother : ∀ k, k ≠ i → (f s i).team k = s.team k := fun k hk => by
      rw [State.team, hteams, getD_modify_ne s.teams hk]
      rfl
    refine ⟨fun k hk hlt => ?_, fun k hk => ?_⟩
    · rcases List.mem_cons.mp hk with rfl | hk
      · have hhere : (f s k).team k = g (s.team k) := by
          rw [State.team, hteams]
          exact getD_modify_self hlt g default
        rw [List.foldl_cons, hout k hil, hhere]
        exact hR _
      · have hki : k ≠ i := fun e => hil (e ▸ hk)
        rw [List.foldl_cons, ← hother k hki]
        exact hin k hk (by rwa [hteams, List.length_modify])
    · obtain ⟨hki, hkl⟩ := List.ne_and_not_mem_of_not_mem_cons hk
      rw [List.foldl_cons, hout k hkl, hother k hki]

theorem State.nodup_teamsOf (s : State) (g : Nat) : (s.teamsOf g).Nodup := List.nodup_range.filter _

theorem State.lt_of_mem_teamsOf {g k : Nat} (h : k ∈ s.teamsOf g) : k < s.teams.length := List.mem_range.mp (List.mem_filter.mp h).1

/-- A core is the one of its die and number. -/
theorem State.core_names (s : State) (d c : Nat) : (s.core d c).die = d ∧ (s.core d c).core = c := by
  unfold State.core
  cases h : s.cores.find? fun x => x.die == d && x.core == c with
  | none => exact ⟨rfl, rfl⟩
  | some x => simpa using List.find?_some h

theorem State.core_modCore {d c : Nat} {f : Core → Core} (hf : ∀ x, (f x).die = x.die ∧ (f x).core = x.core) :
    (s.modCore d c f).core d c = f (s.core d c) := by
  have hname : ∀ x, (((f x).die == d && (f x).core == c) = (x.die == d && x.core == c)) := fun x => by rw [(hf x).1, (hf x).2]
  unfold State.modCore
  split
  next hany =>
    have hcomp : ((fun x : Core => x.die == d && x.core == c) ∘ fun x => if x.die == d && x.core == c then f x else x) =
        fun x => x.die == d && x.core == c := funext fun x => by
      dsimp only [Function.comp]
      split
      · exact hname x
      · rfl
    unfold State.core
    dsimp only
    rw [List.find?_map, hcomp]
    cases h : s.cores.find? fun x => x.die == d && x.core == c with
    | none =>
      obtain ⟨x, hx, hp⟩ := List.any_eq_true.mp hany
      exact absurd hp (by simpa using List.find?_eq_none.mp h x hx)
    | some x => exact if_pos (List.find?_some h)
  next hany =>
    have hnone : s.cores.find? (fun x => x.die == d && x.core == c) = none :=
      List.find?_eq_none.mpr fun x hx hp => hany (List.any_eq_true.mpr ⟨x, hx, hp⟩)
    unfold State.core
    dsimp only
    rw [List.find?_append, hnone, Option.none_or, List.find?_singleton, hname]
    simp

/-! The gang that has drained (R439, R441). -/

/-- Seats that are freed change the warps only. -/
theorem State.foldl_freeSeat (l : List Nat) (s : State) :
    ∃ ws, l.foldl (fun (s : State) w => s.freeSeat w) s = { s with warps := ws } ∧ ws.length = s.warps.length := by
  induction l generalizing s with
  | nil => exact ⟨s.warps, rfl, rfl⟩
  | cons w l ih =>
    obtain ⟨xs, hxs, hx⟩ : ∃ xs, s.freeSeat w = { s with warps := xs } ∧ xs.length = s.warps.length := by
      unfold State.freeSeat
      split
      · exact ⟨s.warps, rfl, rfl⟩
      · exact ⟨_, rfl, List.length_modify ..⟩
    obtain ⟨ws, hws, hw⟩ := ih (s.freeSeat w)
    rw [hxs] at hws hw
    exact ⟨ws, (congrArg (fun u => l.foldl (fun (s : State) w => s.freeSeat w) u) hxs).trans hws, hw.trans hx⟩

/-- How a gang stands that has left its cores with the state of the teams in `saved` in the save area (R439). -/
def State.leftGang (s : State) (g : Nat) (saved : List Nat) (x : Gang) : Gang := { x with
  st := if saved.length = (s.teamsOf g).length then .saved else .reserve,
  freedAt := if saved.isEmpty then x.freedAt else some (s.localTick (s.region (s.gang g).region).die) }

/-- A reading that cores and teams do not enter sees of a gang that leaves its cores its seats and how it stands. -/
theorem State.leaveCores_reading {α : Type} (π : State → α) (hcore : ∀ (s : State) d c f, π (s.modCore d c f) = π s)
    (hteam : ∀ (s : State) k f, π (s.modTeam k f) = π s) (s : State) (g : Nat) (saved : List Nat) :
    ∃ ws, ws.length = s.warps.length ∧ π (s.leaveCores g saved) = π (State.modGang { s with warps := ws } g (s.leftGang g saved)) := by
  unfold State.leaveCores
  extract_lets die now all b s1 s2 s3
  obtain ⟨ws, hws, hlen⟩ := State.foldl_freeSeat (s.gangWarps g) s
  have h2 : s2 = State.modGang { s with warps := ws } g (s.leftGang g saved) := congrArg (fun u => State.modGang u g (s.leftGang g saved)) hws
  have h3 : π s3 = π s2 := by
    refine foldl_field π _ (fun u k => ?_) all s2
    exact (hcore _ _ _ _).trans (hteam u k _)
  refine ⟨ws, hlen, (foldl_field π _ (fun u k => ?_) saved s3).trans (h3.trans (congrArg π h2))⟩
  dsimp only
  split
  · exact (hcore _ _ _ _).trans (hcore _ _ _ _)
  · exact hcore _ _ _ _

theorem State.leaveCores_mem (s : State) (g : Nat) (saved : List Nat) : (s.leaveCores g saved).mem = s.mem := by
  obtain ⟨ws, -, h⟩ := State.leaveCores_reading State.mem State.modCore_mem State.modTeam_mem s g saved
  exact h

theorem State.leaveCores_gangs (s : State) (g : Nat) (saved : List Nat) :
    (s.leaveCores g saved).gangs = s.gangs.modify g (s.leftGang g saved) := by
  obtain ⟨ws, -, h⟩ := State.leaveCores_reading State.gangs State.modCore_gangs State.modTeam_gangs s g saved
  exact h

theorem State.leaveCores_warps (s : State) (g : Nat) (saved : List Nat) : (s.leaveCores g saved).warps.length = s.warps.length := by
  obtain ⟨ws, hlen, h⟩ := State.leaveCores_reading State.warps State.modCore_warps State.modTeam_warps s g saved
  rw [h]
  exact hlen

theorem State.leaveCores_kept {g k : Nat} (saved : List Nat) (hk : k ∈ s.teamsOf g) :
    ((s.leaveCores g saved).team k).kept = !saved.contains k := by
  unfold State.leaveCores
  extract_lets die now all b s1 s2 s3
  have h2 : s2.teams = s.teams := by
    obtain ⟨ws, hws, -⟩ := State.foldl_freeSeat (s.gangWarps g) s
    unfold s2 s1
    rw [hws]
    rfl
  obtain ⟨hin, -⟩ := State.foldl_teams (R := fun k _ y => y.kept = !saved.contains k)
    (f := fun s t => (s.modTeam t fun x => { x with kept := !saved.contains t }).modCore die (s.team t).core fun c =>
      c.stopped b now (!saved.contains t)) (fun s k => ⟨_, State.modCore_teams .., fun _ => rfl⟩) (s.nodup_teamsOf g) s2
  have h3 := hin k hk (by rw [h2]; exact State.lt_of_mem_teamsOf hk)
  refine (congrArg (fun l => (l.getD k default).kept) (foldl_field State.teams _ (fun s k => ?_) saved s3)).trans h3
  dsimp only
  split <;> simp [State.tidyCore]

theorem State.mem_savedTeams {g k : Nat} {h : Option Nat} : k ∈ s.savedTeams g h ↔ k ∈ s.teamsOf g ∧ s.mayKeep k h = false := by
  simp [State.savedTeams]

/-- All of a gang is saved where none of its teams stays on its core. -/
theorem State.length_savedTeams {g : Nat} {h : Option Nat} :
    (s.savedTeams g h).length = (s.teamsOf g).length ↔ ∀ k ∈ s.teamsOf g, s.mayKeep k h = false := by
  simp [State.savedTeams, List.length_filter_eq_length_iff]

/-- A gang of whose save a page is missing has a team. -/
theorem State.teamsOf_ne_nil_of_saveMiss {g c a : Nat} {h : Option Nat} (hm : s.saveMiss c (s.saveRecords (s.savedTeams g h)) = some a) :
    s.teamsOf g ≠ [] := by
  intro ht
  simp [State.savedTeams, ht, State.saveRecords, State.saveMiss] at hm

/-- What PREEMPT_DRAINED waits for (R439). -/
structure State.Drained (s : State) (g n : Nat) (h : Option Nat) : Prop where
  stopping : (s.gang g).st = .stopping n h
  warps : ∀ w ∈ s.gangWarps g, (s.warp w).blk = none ∧ s.unsettled w = false
  copies : ∀ k ∈ s.teamsOf g, (s.team k).tlc.val = (s.team k).tlc.issued
  asked : s.saveHeld g = false
  home : ∀ p ∈ s.saveRecords (s.savedTeams g h), s.homeBusy (s.grid (s.gangGrid g)).ctx p.1 128 = false

section
variable {g n : Nat} {h : Option Nat} (hd : s.Drained g n h)
include hd

/-- Nothing stands in the way of PREEMPT_DRAINED. -/
theorem State.Drained.goes : ¬ ((!(((s.gangWarps g).all fun w => (s.warp w).blk.isNone && !s.unsettled w) &&
    (s.teamsOf g).all fun k => (s.team k).tlc.val == (s.team k).tlc.issued) || s.saveHeld g ||
    (s.saveRecords (s.savedTeams g h)).any fun p => s.homeBusy (s.grid (s.gangGrid g)).ctx p.1 128) = true) := by
  have hw : ((s.gangWarps g).all fun w => (s.warp w).blk.isNone && !s.unsettled w) = true :=
    List.all_eq_true.mpr fun w hm => by simp [hd.warps w hm]
  have hc : ((s.teamsOf g).all fun k => (s.team k).tlc.val == (s.team k).tlc.issued) = true :=
    List.all_eq_true.mpr fun k hm => by simp [hd.copies k hm]
  have hb : (s.saveRecords (s.savedTeams g h)).any (fun p => s.homeBusy (s.grid (s.gangGrid g)).ctx p.1 128) = false :=
    List.any_eq_false.mpr fun p hp => by simp [hd.home p hp]
  simp [hw, hc, hd.asked, hb]

theorem execPreemptDrained_saves (hm : s.saveMiss (s.grid (s.gangGrid g)).ctx (s.saveRecords (s.savedTeams g h)) = none) :
    ∃ u : State, (s.writeRecords (s.grid (s.gangGrid g)).ctx (s.savedTeams g h)).mem = u.mem ∧ s.Writes { u with fresh := s.fresh } ∧
      exec (.preemptDrained g) s = .next (u.leaveCores g (s.savedTeams g h)) := by
  have hw := s.writes_writeRecords (s.grid (s.gangGrid g)).ctx (s.savedTeams g h)
  generalize hv : s.writeRecords (s.grid (s.gangGrid g)).ctx (s.savedTeams g h) = v at hw
  refine ⟨{ v with fresh := v.fresh + 1 }, rfl, ⟨by conv_lhs => rw [hw.only], hw.clocks⟩, ?_⟩
  simp only [exec, execPreemptDrained, hd.stopping]
  rw [if_neg hd.goes, hm, hv]

theorem execPreemptDrained_faults {a : Nat} (hm : s.saveMiss (s.grid (s.gangGrid g)).ctx (s.saveRecords (s.savedTeams g h)) = some a) :
    ∃ k, exec (.preemptDrained g) s = .next (s.postRec (s.grid (s.gangGrid g)).ctx
      (s.fillTeam k { code := 3, src := 3, addr := BitVec.ofNat 64 a, aux := 1, save := some g })) := by
  obtain ⟨k, r, hk⟩ := List.exists_cons_of_ne_nil (State.teamsOf_ne_nil_of_saveMiss hm)
  refine ⟨k, ?_⟩
  simp only [exec, execPreemptDrained, hd.stopping]
  rw [if_neg hd.goes, hm, hk]

/-- How a drained gang leaves its cores. -/
theorem execPreemptDrained_leaves (hg : g < s.gangs.length)
    (hm : s.saveMiss (s.grid (s.gangGrid g)).ctx (s.saveRecords (s.savedTeams g h)) = none) :
    ∃ t, exec (.preemptDrained g) s = .next t ∧ t.warps.map Warp.regs = s.warps.map Warp.regs ∧
      t.mem = (s.writeRecords (s.grid (s.gangGrid g)).ctx (s.savedTeams g h)).mem ∧
      (∀ k ∈ s.teamsOf g, (t.team k).kept = s.mayKeep k h) ∧
      ((∃ k ∈ s.teamsOf g, s.mayKeep k h = true) → (t.gang g).st = .reserve) ∧
      ((∀ k ∈ s.teamsOf g, s.mayKeep k h = false) → (t.gang g).st = .saved) ∧
      (s.savedTeams g h ≠ [] → (t.gang g).freedAt = some (s.localTick (s.region (s.gang g).region).die)) := by
  obtain ⟨u, hmem, hu, hx⟩ := execPreemptDrained_saves hd hm
  have hteams : u.teams = s.teams := hu.teams
  have hof : u.teamsOf g = s.teamsOf g := by simp only [State.teamsOf, State.team, hteams]
  have hdie : (u.region (u.gang g).region).die = (s.region (s.gang g).region).die := by
    have hgangs : u.gangs = s.gangs := hu.gangs
    have hregions : u.regions = s.regions := hu.regions
    simp only [State.region, State.gang, hgangs, hregions]
  have hclock : u.localTick (s.region (s.gang g).region).die = s.localTick (s.region (s.gang g).region).die := hu.localTick _
  have hlt : g < u.gangs.length := by rwa [show u.gangs = s.gangs from hu.gangs]
  have hgang : (u.leaveCores g (s.savedTeams g h)).gang g = u.leftGang g (s.savedTeams g h) (u.gang g) := by
    rw [State.gang, State.leaveCores_gangs]
    exact getD_modify_self hlt _ _
  have hkept : Kept (fun _ => .all) s (u.leaveCores g (s.savedTeams g h)) := (Kept.refl _ s).execPreemptDrained _ hx
  refine ⟨_, hx, hkept.map_regs ((u.leaveCores_warps g _).trans (congrArg List.length hu.warps)), (u.leaveCores_mem g _).trans hmem.symm,
    fun k hk => ?_, fun ⟨k, hk, hmay⟩ => ?_, fun hall => ?_, fun hne => ?_⟩
  · rw [State.leaveCores_kept _ (hof ▸ hk)]
    cases hmay : s.mayKeep k h <;> simp [State.mem_savedTeams, hk, hmay]
  · rw [hgang]
    exact if_neg fun e => by simp [State.length_savedTeams.mp (e.trans (congrArg List.length hof)) k hk] at hmay
  · rw [hgang]
    exact if_pos ((State.length_savedTeams.mpr hall).trans (congrArg List.length hof.symm))
  · rw [hgang, ← hclock, ← hdie]
    exact if_neg (by simpa using hne)

end

theorem execPreemptDrained_waits {g n w : Nat} {h : Option Nat} (hs : (s.gang g).st = .stopping n h) (hw : w ∈ s.gangWarps g)
    (hb : (s.warp w).blk ≠ none ∨ s.unsettled w = true) : exec (.preemptDrained g) s = .next s := by
  have hall : ((s.gangWarps g).all fun w => (s.warp w).blk.isNone && !s.unsettled w) = false :=
    List.all_eq_false.mpr ⟨w, hw, by rcases hb with hb | hb <;> simp [hb]⟩
  simp only [exec, execPreemptDrained, hs, hall]
  rfl

theorem State.grid_ctx_lt (h : s.shapeOk) (g : Nat) : (s.grid g).ctx < s.ctxs.length := by
  obtain ⟨-, -, hn, hg⟩ := h
  rw [hn, State.grid, List.getD_eq_getElem?_getD]
  cases hx : s.grids[g]? with
  | none => exact Nat.zero_lt_succ _
  | some x => exact hg x (List.mem_of_getElem? hx)

/-- The last record of a context after one is posted there is that one, but for whether it is held and for its queue. -/
theorem State.getLast_postRec {c : Nat} (h : c < s.ctxs.length) (r : FRec) :
    ∃ b q, ((s.postRec c r).ctx c).hubq.getLast? = some { r with held := b, fq := q } := by
  simp [State.postRec, State.modCtx, State.ctx, List.getD, h]

/-! The context switch (R440). -/

/-- A team of a pre-empted gang whose state is kept. -/
def State.reserved (s : State) (k : Nat) : Bool := (s.gang (s.team k).gang).st == .reserve

/-- A team by which its context stays primary on a core. -/
def State.staysOn (s : State) (d core k : Nat) : Bool := some (s.teamPlace k).ctx == (s.core d core).primary && (s.gang (s.team k).gang).st != .reserve

/-- A core once its contexts have changed places (R440). -/
def State.switchCore (s : State) (d core : Nat) (c : Core) : Core := { c with
  primary := if (s.coreTeams d core).any (s.staysOn d core) then c.primary else none,
  reserve := ((s.coreTeams d core).find? s.reserved).map fun k => (s.teamPlace k).ctx, switchAt := none,
  freed := if (s.coreTeams d core).any (s.staysOn d core) then c.freed else some (s.localTick d) }

theorem execContextSwitch_switches {d core n : Nat} (h : (s.core d core).switchAt = some n) (hn : n ≤ s.localTick d) :
    exec (.contextSwitch d core) s = .next (s.modCore d core (s.switchCore d core)) := by
  simp only [exec, execContextSwitch, h]
  rw [if_pos hn]
  rfl

/-! Resumption (R157, R442). -/

/-- A team whose state is on its core can run again there where the core is in order and free, or its context's, and its wait of R440 is over. -/
theorem State.backRoom_kept {c d k : Nat} {l : LaunchRec} (hk : (s.team k).kept = true) : s.backRoom c l d k = true ↔
    (s.core d (s.team k).core).fenced = false ∧ (∀ p, (s.core d (s.team k).core).primary = some p → p = c) ∧
      ∀ n, (s.core d (s.team k).core).bound = some n → n + 64 ≤ s.localTick d := by
  unfold State.backRoom State.switched
  rw [hk, if_pos rfl, (s.core_names d (s.team k).core).2]
  simp [Option.all_eq_true, and_assoc]

theorem State.resumeQuad_reserve {g : Nat} (h : (s.gang g).st = .reserve) : s.resumeQuad g =
    if (s.teamsOf g).all (s.backRoom (s.grid (s.gangGrid g)).ctx (s.grid (s.gangGrid g)).launch (s.region (s.gang g).region).die) then
      some (s.gang g).quad else none := by
  simp only [State.resumeQuad, h]
  rfl

theorem State.resumeQuad_saved {g : Nat} (h : (s.gang g).st = .saved) : s.resumeQuad g = (List.range 48).find? fun n =>
    s.quadRoom (s.grid (s.gangGrid g)).ctx (s.grid (s.gangGrid g)).launch (s.region (s.gang g).region).die n := by
  simp only [State.resumeQuad, h]
  rfl

/-- A gang that can resume is pre-empted. -/
theorem State.out_of_resumeQuad {g n : Nat} (h : s.resumeQuad g = some n) : (s.gang g).st.out = true := by
  unfold State.resumeQuad at h
  cases hs : (s.gang g).st <;> simp [hs] at h <;> rfl

theorem State.readMarks_keeps (s : State) (w : Nat) :
    (s.readMarks w).teams = s.teams ∧ (s.readMarks w).gangs = s.gangs ∧ (s.readMarks w).warps.length = s.warps.length := by
  unfold State.readMarks
  dsimp only
  split
  · exact ⟨rfl, rfl, rfl⟩
  · exact ⟨rfl, rfl, List.length_modify ..⟩

theorem State.wake_keeps (s : State) (w : Nat) :
    (s.wake w).teams = s.teams ∧ (s.wake w).gangs = s.gangs ∧ (s.wake w).warps.length = s.warps.length := by
  unfold State.wake
  split
  · exact ⟨rfl, rfl, List.length_modify ..⟩
  · exact ⟨rfl, rfl, List.length_modify ..⟩

/-- A warp is read back from its record, unless its state has stayed on its core (R442, R447). -/
def State.rereadWarp (s : State) (w : Nat) : State := if (s.team (s.warp w).team).kept then s else s.readMarks w

/-- The warps of a gang are read back. -/
def State.reread (s : State) (g : Nat) : State := (s.gangWarps g).foldl State.rereadWarp s

/-- Team `k` of a context is taken back by its core of quad `n` (R157). -/
def State.takeBack (s : State) (die ctx n k : Nat) : State :=
  let u := if (s.team k).kept then s else s.readSpadMarks k
  (u.modTeam k fun y => { y with core := 4 * n + y.idx, kept := false }).modCore die (4 * n + (u.team k).idx) fun c => c.back ctx

/-- The teams of gang `g` are taken back on quad `n` of its die. -/
def State.takenBack (s : State) (g n : Nat) : State :=
  ((s.reread g).teamsOf g).foldl
    (fun u k => u.takeBack (s.region (s.gang g).region).die (s.grid (s.gangGrid g)).ctx n k) (s.reread g)

/-- Gang `g` has resumed on quad `n`, and its warps are not woken yet. -/
def State.resumedOn (s : State) (g n : Nat) : State := (s.takenBack g n).modGang g fun y => { y with st := .resident, quad := n }

theorem State.resumeGang_eq {g n : Nat} (hq : s.resumeQuad g = some n)
    (hb : ∀ w ∈ s.gangWarps g, (s.team (s.warp w).team).kept = true ∨ s.homeBusy (s.grid (s.gangGrid g)).ctx (s.warpRec w) 128 = false) :
    s.resumeGang g = some (((s.resumedOn g n).gangWarps g).foldl State.wake (s.resumedOn g n)) := by
  have hany : (s.gangWarps g).any (fun w => !(s.team (s.warp w).team).kept &&
      s.homeBusy (s.grid (s.gangGrid g)).ctx (s.warpRec w) 128) = false :=
    List.any_eq_false.mpr fun w hw => by rcases hb w hw with h | h <;> simp [h]
  have hf : (s.resumeQuad g).filter (fun _ => !(s.gangWarps g).any fun w => !(s.team (s.warp w).team).kept &&
      s.homeBusy (s.grid (s.gangGrid g)).ctx (s.warpRec w) 128) = some n := by rw [hq, hany]; rfl
  unfold State.resumeGang
  exact (congrArg (Option.map _) hf).trans rfl

theorem State.rereadWarp_keeps (s : State) (w : Nat) :
    (s.rereadWarp w).teams = s.teams ∧ (s.rereadWarp w).gangs = s.gangs ∧ (s.rereadWarp w).warps.length = s.warps.length := by
  unfold State.rereadWarp
  split
  · exact ⟨rfl, rfl, rfl⟩
  · exact s.readMarks_keeps w

theorem State.reread_keeps (s : State) (g : Nat) :
    (s.reread g).teams = s.teams ∧ (s.reread g).gangs = s.gangs ∧ (s.reread g).warps.length = s.warps.length :=
  ⟨foldl_field State.teams _ (fun s w => (s.rereadWarp_keeps w).1) _ s, foldl_field State.gangs _ (fun s w => (s.rereadWarp_keeps w).2.1) _ s,
    foldl_field (fun s : State => s.warps.length) _ (fun s w => (s.rereadWarp_keeps w).2.2) _ s⟩

theorem State.takeBack_keeps (s : State) (die ctx n k : Nat) :
    (s.takeBack die ctx n k).gangs = s.gangs ∧ (s.takeBack die ctx n k).warps = s.warps := by
  unfold State.takeBack
  extract_lets u
  have hu : u.gangs = s.gangs ∧ u.warps = s.warps := by
    unfold u
    split <;> exact ⟨rfl, rfl⟩
  exact ⟨(State.modCore_gangs ..).trans hu.1, (State.modCore_warps ..).trans hu.2⟩

/-- A team that is taken back stands on its core of the quad, and is no longer kept. -/
theorem State.takeBack_teams (s : State) (die ctx n k : Nat) : ∃ f, (s.takeBack die ctx n k).teams = s.teams.modify k f ∧
    ∀ x, (f x).core = 4 * n + x.idx ∧ (f x).kept = false := by
  unfold State.takeBack
  extract_lets u
  rw [State.modCore_teams, State.modTeam_teams]
  by_cases h : (s.team k).kept = true
  · have hu : u = s := if_pos h
    rw [hu]
    exact ⟨_, rfl, fun _ => ⟨rfl, rfl⟩⟩
  · have hu : u = s.readSpadMarks k := if_neg h
    rw [hu, State.readSpadMarks, State.modTeam_teams, List.modify_modify_eq]
    exact ⟨_, rfl, fun _ => ⟨rfl, rfl⟩⟩

theorem State.takenBack_keeps (s : State) (g n : Nat) :
    (s.takenBack g n).gangs = s.gangs ∧ (s.takenBack g n).warps.length = s.warps.length := by
  obtain ⟨-, hg, hw⟩ := s.reread_keeps g
  exact ⟨(foldl_field State.gangs _ (fun u k => (u.takeBack_keeps _ _ n k).1) _ _).trans hg,
    (congrArg List.length (foldl_field State.warps _ (fun u k => (u.takeBack_keeps _ _ n k).2) _ _)).trans hw⟩

theorem State.takenBack_team {g n k : Nat} (hk : k ∈ s.teamsOf g) :
    ((s.takenBack g n).team k).core = 4 * n + (s.team k).idx ∧ ((s.takenBack g n).team k).kept = false := by
  obtain ⟨ht, -, -⟩ := s.reread_keeps g
  have hof : (s.reread g).teamsOf g = s.teamsOf g := by simp only [State.teamsOf, State.team, ht]
  have hteam : (s.reread g).team k = s.team k := by rw [State.team, ht]; rfl
  obtain ⟨hin, -⟩ := State.foldl_teams (R := fun _ x y => y.core = 4 * n + x.idx ∧ y.kept = false)
    (fun u k => u.takeBack_teams (s.region (s.gang g).region).die (s.grid (s.gangGrid g)).ctx n k)
    ((s.reread g).nodup_teamsOf g) (s.reread g)
  rw [← hteam]
  exact hin k (hof ▸ hk) (by rw [ht]; exact State.lt_of_mem_teamsOf hk)

theorem State.foldl_wake_keeps (l : List Nat) (s : State) : (l.foldl State.wake s).teams = s.teams ∧ (l.foldl State.wake s).gangs = s.gangs ∧
    (l.foldl State.wake s).warps.length = s.warps.length :=
  ⟨foldl_field State.teams _ (fun s w => (s.wake_keeps w).1) l s, foldl_field State.gangs _ (fun s w => (s.wake_keeps w).2.1) l s,
    foldl_field (fun s : State => s.warps.length) _ (fun s w => (s.wake_keeps w).2.2) l s⟩

/-- How a gang stands that has resumed (R157). -/
theorem State.resumeGang_resumes {g n : Nat} (hg : g < s.gangs.length) (hq : s.resumeQuad g = some n)
    (hb : ∀ w ∈ s.gangWarps g, (s.team (s.warp w).team).kept = true ∨ s.homeBusy (s.grid (s.gangGrid g)).ctx (s.warpRec w) 128 = false) :
    ∃ t, s.resumeGang g = some t ∧ (t.gang g).st = .resident ∧ (t.gang g).quad = n ∧ t.warps.map Warp.regs = s.warps.map Warp.regs ∧
      ∀ k ∈ s.teamsOf g, (t.team k).core = 4 * n + (s.team k).idx ∧ (t.team k).kept = false := by
  have hres := State.resumeGang_eq hq hb
  obtain ⟨hgangs, hlen⟩ := s.takenBack_keeps g n
  obtain ⟨ht, hgt, hlt⟩ := State.foldl_wake_keeps ((s.resumedOn g n).gangWarps g) (s.resumedOn g n)
  generalize ((s.resumedOn g n).gangWarps g).foldl State.wake (s.resumedOn g n) = t at hres ht hgt hlt
  have hgang : t.gang g = { (s.takenBack g n).gang g with st := .resident, quad := n } := by
    rw [State.gang, hgt]
    exact State.gang_modGang_self (by rwa [hgangs]) _
  refine ⟨t, hres, by rw [hgang], by rw [hgang], ((Kept.refl _ s).resumeGang hres).map_regs (hlt.trans hlen), fun k hk => ?_⟩
  rw [State.team, ht]
  exact State.takenBack_team hk

/-- Whether gang `k` goes before gang `g` when both can resume (R157). -/
def State.goesBefore (s : State) (g k : Nat) : Bool :=
  decide (s.gridPrio (s.gangGrid g) < s.gridPrio (s.gangGrid k)) ||
    (s.gridPrio (s.gangGrid k) == s.gridPrio (s.gangGrid g) && decide ((s.gang k).stoppedAt < (s.gang g).stoppedAt))

/-- Whether a head goes before gang `g`: it has a higher effective priority, and it can be placed or waits for cores (R156). -/
def State.headBefore (s : State) (g q : Nat) : Bool :=
  decide (s.gridPrio (s.gangGrid g) < (s.queue q).prio) && ((s.placeHead q).isSome || s.urgent q)

theorem execGangResume_eq (s : State) (g : Nat) : exec (.gangResume g) s =
    .next (if !(s.gang g).st.out || s.waitingGangs.any (s.goesBefore g) || s.heads.any (s.headBefore g) then s else (s.resume g).getD s) := rfl

theorem execGangResume_resumes {g : Nat} (ho : (s.gang g).st.out = true) (hk : ∀ k ∈ s.waitingGangs, s.goesBefore g k = false)
    (hq : ∀ q ∈ s.heads, s.headBefore g q = false) : exec (.gangResume g) s = .next ((s.resume g).getD s) := by
  have hk' : s.waitingGangs.any (s.goesBefore g) = false := List.any_eq_false.mpr fun k h => by simp [hk k h]
  have hq' : s.heads.any (s.headBefore g) = false := List.any_eq_false.mpr fun q h => by simp [hq q h]
  rw [execGangResume_eq, if_neg (by simp [ho, hk', hq'])]

theorem execGangResume_waits {g q : Nat} (hq : q ∈ s.heads) (h : s.headBefore g q = true) : exec (.gangResume g) s = .next s := by
  have hany : s.heads.any (s.headBefore g) = true := List.any_eq_true.mpr ⟨q, hq, h⟩
  rw [execGangResume_eq, if_pos (by simp [hany])]

theorem State.resume_alone {g : Nat} (h : (s.grid (s.gangGrid g)).launch.coresident = false) : s.resume g = s.resumeGang g :=
  if_neg (Bool.eq_false_iff.mp h)

end

/-- Settles O46: each event of a pre-emption by the lemma about it. -/
theorem gangsArePreempted : Obligations.GangsArePreempted := by
  unfold Obligations.GangsArePreempted
  refine ⟨?stop, ?alone, fun s g q => State.stopSet_of_some, ?plan, ?timed, ?slow, ?drained, fun s g n h w => execPreemptDrained_waits,
    ?switch, ?back, ?notBack, fun s g => State.resumeQuad_saved, ?resume, ?waits⟩
  case stop =>
    intro s g hg ht h
    obtain ⟨qs, hx⟩ := execPreemptGang_stops hg ht h
    have hgang : ∀ k, (State.stopGangs { s with queues := qs } (s.stopSet g) (s.causeOf g) (s.causeOf g).isSome).gang k =
        if k ∈ s.stopSet g ∧ k < s.gangs.length then s.stopped (s.causeOf g) (s.gang k) else s.gang k := State.gang_stopGangs _ _ _
    refine ⟨_, hx, by rw [State.stopGangs_eq], fun k hk hlt => ⟨fun hr => ?_, fun hr hc => ?_⟩, fun k hk => ?_⟩
    · rw [hgang, if_pos ⟨hk, hlt⟩, State.stopped_resident hr]
      exact ⟨rfl, rfl⟩
    · rw [hgang, if_pos ⟨hk, hlt⟩, State.stopped_reserve hr hc]
      exact ⟨rfl, rfl⟩
    · rw [hgang]
      split
      next hin =>
        obtain ⟨hr, hs⟩ := hk.resolve_left fun hn => hn hin.1
        exact State.stopped_other hr hs
      · rfl
  case alone =>
    intro s g hc
    rw [State.stopSet_of_none hc]
    exact ⟨fun h => if_neg (Bool.eq_false_iff.mp h), fun h k => by rw [State.together, if_pos h, List.mem_flatMap]⟩
  case plan =>
    intro s q k hk
    obtain ⟨hroom, hit, hlo, hplan⟩ := State.plan_eq_drawn hk
    rw [hplan] at hk
    obtain ⟨ht, hd, hh, hp⟩ := State.lower_iff.mp (State.lower_of_mem_drawn hk hlo)
    refine ⟨hroom, ht, hp, hh, fun hc j hj hjk hjh => ?_⟩
    rw [hplan]
    exact State.mem_drawn_of_grid hk hc hj hjk (State.lower_iff.mpr (by rw [hjk]; exact ⟨ht, hd, hjh, hp⟩))
  case timed =>
    intro s g ht
    exact congrArg Host.Outcome.next (if_pos (by simp [ht]))
  case slow =>
    intro s w b n h hb hc ha hs hn
    have hx := execPreemptBlockTimeout_aborts hb hc ha hs hn
    obtain ⟨hblk, hlen, hwarp⟩ := State.warp_abortBlock hb
    refine ⟨_, hx, hblk, State.abortBlock_mem s w, (Kept.refl _ s).abortBlock.map_regs hlen, ?_, ?_⟩ <;> rw [hwarp]
  case drained =>
    intro s g n h hg hs hw hc hsave c l hhome
    have hd : s.Drained g n h := ⟨hs, hw, hc, hsave, hhome⟩
    refine ⟨fun k => State.mem_savedTeams, ?_⟩
    cases hm : s.saveMiss c (s.saveRecords l) with
    | none =>
      obtain ⟨t, hx, hregs, hmem, hkept, hres, hsav, hfree⟩ := execPreemptDrained_leaves hd hg hm
      exact ⟨t, hx, hregs, fun _ => ⟨hmem, hkept, hres, hsav, hfree⟩, fun a _ _ ha => nomatch ha⟩
    | some a =>
      obtain ⟨k, hx⟩ := execPreemptDrained_faults hd hm
      refine ⟨_, hx, rfl, nofun, fun b hshape _ hb => ⟨rfl, rfl, ?_⟩⟩
      obtain rfl := Option.some.inj hb
      obtain ⟨b, q, hlast⟩ := State.getLast_postRec (State.grid_ctx_lt hshape (s.gangGrid g))
        (s.fillTeam k { code := 3, src := 3, addr := BitVec.ofNat 64 a, aux := 1, save := some g })
      exact ⟨_, hlast, rfl, rfl, rfl, rfl⟩
  case switch =>
    intro s d core n h hn kept stays
    have hkept : ∀ k, s.reserved k = true ↔ kept k := fun k => by simp [State.reserved, kept]
    have hstays : ∀ k, s.staysOn d core k = true ↔ stays k := fun k => by simp [State.staysOn, stays, kept]
    refine ⟨_, execContextSwitch_switches h hn, State.modCore_warps .., ?_⟩
    rw [State.core_modCore (f := s.switchCore d core) fun _ => ⟨rfl, rfl⟩]
    refine ⟨rfl, fun ⟨k, hk, hs⟩ => ?_, fun hno => ?_, fun ⟨k, hk, hs⟩ => ?_, fun hno => ?_⟩
    · exact if_pos (List.any_eq_true.mpr ⟨k, hk, (hstays k).mpr hs⟩)
    · have hany : (s.coreTeams d core).any (s.staysOn d core) = false :=
        List.any_eq_false.mpr fun k hk e => hno k hk ((hstays k).mp e)
      exact ⟨if_neg (Bool.eq_false_iff.mp hany), if_neg (Bool.eq_false_iff.mp hany)⟩
    · obtain ⟨j, hj⟩ := Option.isSome_iff_exists.mp (List.find?_isSome.mpr ⟨k, hk, (hkept k).mpr hs⟩)
      exact ⟨j, List.mem_of_find?_eq_some hj, (hkept j).mp (List.find?_some hj), congrArg (Option.map _) hj⟩
    · have hnone : (s.coreTeams d core).find? s.reserved = none := List.find?_eq_none.mpr fun k hk e => hno k hk ((hkept k).mp e)
      exact congrArg (Option.map _) hnone
  case back =>
    intro s g hs hk
    rw [State.resumeQuad_reserve hs, if_pos (List.all_eq_true.mpr fun k hm => ?_)]
    obtain ⟨hkept, hf, hp, hb⟩ := hk k hm
    exact (State.backRoom_kept hkept).mpr ⟨hf, hp, hb⟩
  case notBack =>
    intro s g k hs hm hkept h
    rw [State.resumeQuad_reserve hs, if_neg fun hall => ?_]
    obtain ⟨hf, hp, hb⟩ := (State.backRoom_kept hkept).mp (List.all_eq_true.mp hall k hm)
    rcases h with h | ⟨c, hc, hne⟩ | ⟨n, hn, hlt⟩
    · simp [hf] at h
    · exact hne (hp c hc)
    · exact absurd (hb n hn) (Nat.not_le.mpr hlt)
  case resume =>
    intro s g n hg hc hq hb hk hh
    obtain ⟨t, ht, hst, hquad, hregs, hteams⟩ := State.resumeGang_resumes hg hq hb
    refine ⟨t, ?_, hst, hquad, hregs, hteams⟩
    rw [execGangResume_resumes (State.out_of_resumeQuad hq) (fun k hm => ?_) fun q hm => ?_, State.resume_alone hc, ht]
    · rfl
    · obtain ⟨hle, heq⟩ := hk k hm
      simp only [State.goesBefore, Bool.or_eq_false_iff, Bool.and_eq_false_iff, decide_eq_false_iff_not, beq_eq_false_iff_ne]
      refine ⟨Nat.not_lt.mpr hle, ?_⟩
      by_cases he : s.gridPrio (s.gangGrid k) = s.gridPrio (s.gangGrid g)
      · exact .inr (Nat.not_lt.mpr (heq he))
      · exact .inl he
    · rcases hh q hm with h | ⟨hp, hu⟩
      · simp [State.headBefore, Nat.not_lt.mpr h]
      · simp [State.headBefore, hp, hu]
  case waits =>
    intro s g q hq hlt h
    exact execGangResume_waits hq (by rcases h with h | h <;> simp [State.headBefore, hlt, h])

end Sys2Proof.Machine
end
